-- ==== Sys2Proof/Word.lean ====
section
/-!
DEFINITION. The words of the engine: bytes, registers, Bulb lines, completion codes, and the sparse table type that every
indexed store of the state uses.
-/

namespace Sys2Proof

/-- One byte (R9). -/
abbrev Byte := BitVec 8

/-- One CFG register (17_registers). -/
abbrev Word := BitVec 32

/-- A 64-bit value, read as a _LO / _HI pair (R425). -/
abbrev Dword := BitVec 64

/-- The 64 B of data of one line (R108); data bit 8b + j is bit j of byte b (R109). -/
abbrev LineData := BitVec 512

/-- One 8-bit completion code of the table under R12. -/
abbrev Code := BitVec 8

/-- A tenant slot number, 0-15. -/
abbrev TenantNo := BitVec 4

/-- A sparse table: pairs of an index and a value, the indices strictly rising. What an index that is not listed holds is
said where a table is read (`Tab.get`). -/
abbrev Tab (α : Type) := List (Nat × α)

end Sys2Proof
end

