-- ==== Sys2Proof/Syntax.lean ====
section
/-!
DEFINITION. The commands of the engine: one constructor of `Instr` for each row of spec/opcode_table.json, and the
operands that a command takes from outside the engine: what a host read returned, what a tile, a client or a peer
presented, what an edge found.
-/

namespace Sys2Proof

/-- What the engine's read of named host data returned (R434): the bytes, a MEM error, or the poison marker. -/
inductive HostRead where
  | ok (bytes : List Byte)
  | memError
  | poison
deriving DecidableEq, Repr

/-- What the read of one 64 B entry line or packet line returned (R265). -/
inductive LineRead where
  | ok (data : LineData)
  | memError
  | poison
deriving DecidableEq, Repr

/-- A 64 B line with the poison indication of its path (R388). -/
structure MemBeat where
  data : LineData
  poison : Bool
deriving DecidableEq, Repr

/-- The two control halves (R351). -/
inductive Half where
  | north
  | south
deriving DecidableEq, Repr

/-- Whose line waits on its PHASE (R263, R286): the submission window of a ring, or the IN window of a host queue. -/
inductive PhaseSrc where
  | ring (ring : BitVec 8)
  | queue (queue : BitVec 4)
deriving DecidableEq, Repr

/-- A received Pollen frame (R199): the fields of its header and trailer, the 40 bytes of BODY, its payload lines. -/
structure Frame where
  type : BitVec 8
  flags : BitVec 8
  lines : BitVec 16
  srcPeer : BitVec 16
  dstPeer : BitVec 16
  sessionId : BitVec 32
  seq : BitVec 32
  ackSeq : BitVec 32
  creditLimit : BitVec 32
  body : BitVec 320
  payload : List LineData
  poison : BitVec 64
  tag : BitVec 128
  crc : BitVec 64
  trailerRsv : BitVec 256
deriving DecidableEq, Repr

/-- Where a vault packet comes from (R282): the IN window of a host queue, whose next framed packet it is, or a Pollen
VAULT frame on a link port. -/
inductive VaultSrc where
  | host (queue : BitVec 4)
  | link (port : Nat) (frame : Frame)
deriving DecidableEq, Repr

/-- The bytes of one KSF slot as a reader of a restore finds them, and the lines of it whose read fails, each with its
code (R246: 0x27 a MEM error, 0x21 the poison marker). -/
structure SlotData where
  bytes : List Byte
  bad : Tab Code
deriving DecidableEq, Repr

/-- What a source location of a restore plan answers (R246): 0x00 when its slot pair is reached, and the two slots. -/
structure LocationData where
  reach : Code
  slotA : SlotData
  slotB : SlotData
deriving DecidableEq, Repr

/-- What befell a body line since the last edge (R109, R118): stored bits upset, and how many verifications the next write that a
background activity makes to it will fail. -/
structure BodyUpset where
  key : Nat
  flips : List Nat
  fails : Nat
deriving DecidableEq, Repr

/-- Stored bits of a front line upset since the last edge (R109): the front line by its number 0 to 1,048,575. -/
structure FrontUpset where
  line : Nat
  flips : List Nat
deriving DecidableEq, Repr

/-- Stored bits of the front and of the body that have been upset since the last command that brought such news (R109). -/
structure Upsets where
  front : List FrontUpset := []
  body : List BodyUpset := []
deriving DecidableEq, Repr

/-- What a beat edge takes from outside (R35, R362, R364, R119): the cc since the last edge, SYS_TIME as carried into CORE,
the telemetry sample, the measured VAON, the upsets that have struck the front and the body, and whether the standby's
scheduler-state digest equals the steward's. -/
structure EdgeInput where
  cc : Nat
  sysTime : Dword
  temp : BitVec 8
  vdd : BitVec 16
  vaonLow : Bool
  vaonHigh : Bool
  upsets : Upsets
  mirrorOk : Bool
deriving DecidableEq, Repr

/-- One bank's outcome of a calibration pass (R137): the write-pulse step it sets and whether a test failed at the
widest pulse. -/
structure CalOutcome where
  bank : Nat
  step : BitVec 3
  failed : Bool
deriving DecidableEq, Repr

/-- The key kinds of R322. -/
inductive KeyKind where
  | seal
  | pollen
deriving DecidableEq, Repr

/-- The raw fields of a key and policy request payload (R322). -/
structure VendorPayload where
  vop : BitVec 8
  kind : BitVec 8
  rsv : BitVec 16
  arg : BitVec 32
  key : BitVec 512
deriving DecidableEq, Repr

/-- One SPDM request as the responder of a slot sees it (R319 to R322). The message bytes are DMTF's and stand outside the
spec; a request that the subset does not hold is `unsupported`. -/
inductive SpdmReq where
  | getVersion
  | getCapabilities
  | negotiateAlgorithms
  | getDigests
  | getCertificate (slot : Nat) (offset length : Nat)
  | challenge (nonce : BitVec 256)
  | getMeasurements (index : Nat) (inSession signed : Bool)
  | keyExchange (mutualAuth : Bool)
  | finish (leafKey : BitVec 768) (authentic : Bool)
  | keyUpdate
  | endSession
  | vendorDefined (inSession : Bool) (payload : VendorPayload)
  | unsupported
deriving DecidableEq, Repr

/-- The read of an SPDM request under KEY_BIND OP SPDM (R319, R434). -/
inductive SpdmRead where
  | ok (req : SpdmReq)
  | memError
  | poison
deriving DecidableEq, Repr

/-- The result of authenticating a staged firmware image is a matter of its bytes (R342); what the standby's restart and
the store of the image find is outside: whether the written slot verified (R306). -/
structure StoreOutcome where
  verified : Bool
deriving DecidableEq, Repr

/-- A mismatch that a Larkspur cipher core or hash core found (R331): on which line of those at hand, the kind and the logical core. -/
structure CoreFault where
  line : Nat
  hash : Bool
  core : Nat
deriving DecidableEq, Repr

/-- What planning a RESTORE meets outside the engine (R246, R331): what the locations of its source entries hold, and the mismatches that
its hash cores find meanwhile. -/
structure PlanReads where
  locs : List LocationData
  faults : List CoreFault
deriving DecidableEq, Repr

/-- A stream's turn (R237, R331): its number, and the mismatches met on a line that comes at once. -/
structure StreamTurn where
  stream : BitVec 9
  faults : List CoreFault
deriving DecidableEq, Repr

/-- The lanes as a chunk finds them (R155, R157): those at work, and whether the lane that takes the chunk fails on it. -/
structure LaneTurn where
  busy : List Nat
  mismatch : Bool
deriving DecidableEq, Repr

/-- Whose chunk a lane takes (R155): a stream's, or one of a source of the running cut, by its place in run order. -/
inductive CodecSrc where
  | stream (stream : BitVec 9)
  | cut (source : Nat)
deriving DecidableEq, Repr

/-- The commands, one constructor per row of spec/opcode_table.json, in the table's order. -/
inductive Instr where
  -- ring jobs (11_rings)
  | cut (ring : BitVec 8)
  | drain (ring : BitVec 8)
  | restore (ring : BitVec 8) (plan : HostRead) (seen : PlanReads)
  | restoreEntryStart (job : Nat)
  | spill (ring : BitVec 8)
  | refill (ring : BitVec 8)
  | recipeLoad (ring : BitVec 8) (image : HostRead)
  | unload (ring : BitVec 8)
  | bind (ring : BitVec 8) (image : HostRead)
  | unbind (ring : BitVec 8)
  | keyBindAdmit (ring : BitVec 8) (failed : List Nat)
  | keyBindRelease (ring : BitVec 8)
  | keyBindSpdm (ring : BitVec 8) (req : SpdmRead)
  | scrub (ring : BitVec 8) (failed : List Nat)
  | telemetry (ring : BitVec 8)
  | guardAdd (ring : BitVec 8) (tlist : HostRead)
  | guardRemove (ring : BitVec 8)
  | ringCreate (ring : BitVec 8)
  | adminSend (ring : BitVec 8)
  | jobFenceRelease (ring : BitVec 8)
  | phaseRetry (src : PhaseSrc) (lines : List LineRead)
  | completionRetry (ring : BitVec 8)
  | haltNotice (ring : BitVec 8)
  | planCompletion (ring : BitVec 8)
  | sqTailDb (ring : BitVec 8) (value : Word) (lines : List LineRead)
  | cqHeadDb (ring : BitVec 8) (value : Word)
  -- vault (12_vault)
  | vqInDb (queue : BitVec 4) (value : Word) (lines : List LineRead)
  | vqOutDb (queue : BitVec 4) (value : Word)
  | write (src : VaultSrc)
  | read (src : VaultSrc) (window : List LineRead) (upsets : Upsets)
  | flush (src : VaultSrc)
  | verify (src : VaultSrc) (window : List LineRead) (faults : List CoreFault)
  | identify (src : VaultSrc)
  | getLog (src : VaultSrc)
  | getFeature (src : VaultSrc)
  | setFeature (src : VaultSrc)
  | fwDownload (src : VaultSrc)
  | store (src : VaultSrc) (outcome : StoreOutcome)
  | storeActivate (src : VaultSrc) (outcome : StoreOutcome)
  | xferRdySend (queue : BitVec 6) (tag : BitVec 8)
  | xferRdy (port : Nat) (frame : Frame)
  | data (src : VaultSrc)
  | resp (port : Nat) (frame : Frame)
  | exchangeTimeout (queue : BitVec 6) (tag : BitVec 8)
  | vqReset (value : Word)
  | vqResetDone (queue : BitVec 6)
  -- Pollen (09_pollen)
  | open_ (port : Nat) (frame : Frame)
  | accept (port : Nat) (frame : Frame)
  | confirm (port : Nat) (frame : Frame)
  | close (port : Nat) (frame : Frame)
  | ack (port : Nat) (frame : Frame)
  | nak (port : Nat) (frame : Frame)
  | credit (port : Nat) (frame : Frame)
  | probe (port : Nat) (frame : Frame)
  | probeReply (port : Nat) (frame : Frame)
  | admin (port : Nat) (frame : Frame)
  | sessionOpen (tenant : TenantNo) (slot : BitVec 4)
  | openRetry (tenant : TenantNo) (slot : BitVec 4)
  | sessionRekey (tenant : TenantNo) (slot : BitVec 4)
  | retransmit (tenant : TenantNo) (slot : BitVec 4) (port : Nat)
  | ackTimer (tenant : TenantNo) (slot : BitVec 4) (port : Nat)
  | creditGrant (tenant : TenantNo) (slot : BitVec 4) (port : Nat)
  | probeSend (tenant : TenantNo) (slot : BitVec 4)
  | peerLost (tenant : TenantNo) (slot : BitVec 4)
  | lnkUpFall (port : Nat)
  | lnkUpRise (port : Nat)
  -- the cut (04_cut)
  | sysStep (num : Dword)
  | freezeAckTimeout
  | budArm (tile : Nat) (parityOk : Bool)
  | budFreeze (tile : Nat) (ctx : BitVec 2048) (parityOk : Bool)
  | budResume (tile : Nat) (parityOk : Bool)
  | budDisarm (tile : Nat) (parityOk : Bool)
  | budRelease (tile : Nat) (parityOk : Bool)
  | budScrub (tile : Nat) (parityOk : Bool)
  | budBeat (tile : Nat) (parityOk : Bool)
  | tileWrite (tile : Nat) (line : BitVec 10) (held : LineData)
  | budDrainRead (tile : Nat) (held : LineData)
  | budForcedDrain (tile : Nat) (held : LineData)
  | budCfgDone (tile : Nat) (tenant : TenantNo) (passed : Nat)
  | tileConfigReload (tile : Nat)
  | stemLineAccept (tile : Nat) (parityBad : Bool) (faults : List CoreFault)
  | stemAck (tile : Nat) (parityBad : Bool)
  | grdCheck (client : Nat) (addr : BitVec 58) (htag : BitVec 4)
  -- memory responses and streams (10_restore_streams, 16_ports)
  | memReadResponse (channel : Nat) (tag : BitVec 12) (code : Code) (beats : List MemBeat) (faults : List CoreFault)
  | memWriteResponse (channel : Nat) (tag : BitVec 12) (code : Code)
  | streamChunkIssue (turn : StreamTurn)
  | streamFenceRelease (stream : BitVec 9)
  | streamCtrlResume (value : Word)
  | partitionLineFree (partition : BitVec 2)
  -- the Bulb (05_bulb)
  | bodyWriteComplete (verified : Bool)
  | bankRetire (bank : Nat)
  | wearRotate
  | remapSwitch
  | errorWindowEnd
  | calibrationPass (temp : BitVec 8) (outcomes : List CalOutcome)
  -- Poppy (06_poppy_codec)
  | tableReady (stream : BitVec 9)
  | codecChunkStart (src : CodecSrc) (chunk : Nat) (lanes : LaneTurn)
  -- the beat (02_beat)
  | beatEdge (input : EdgeInput)
  | beatEdgeClamped (early : Bool) (input : EdgeInput)
  | beatLock (gaps : List Nat)
  | beatFreeRun
  | throttleFall
  -- the pre-emption plan (04_cut)
  | sysPreemptNFall
  | planCutArm
  | preemptDeadline
  -- stewardship (14_faults_service)
  | heartbeat (half : Half)
  | stewardLost
  | standbyLost
  | stewardClaim (half : Half) (epoch : Word)
  | handover (value : Word)
  | handoverTakeEffect
  | ctrlMemUe (half : Half)
  | standbyReady
  | standbyResyncTimeout
  | fwActivateTimeout
  | fwSoakEnd
  | enterRecovery
  | foxAck (value : Word)
  | spareCtrl (value : Word)
  -- self-test (17_registers)
  | frontMarch (value : Word)
  | pipelineKat (value : Word)
  | stemLoop (value : Word)
  | selfTestEnd (code : Code)
  -- registers (17_registers)
  | commit (value : Word) (withStrobe : Bool)
  | discard (value : Word)
  | sysCommitIn (duringCheck : Bool)
  | heldStrobeCommit
  | registerWrite (addr : BitVec 20) (value : Word)
  | bitAliasWrite (addr : BitVec 20) (value : Word)
  | cfgCrcPassEnd
  -- power and reset (15_power_reset)
  | pwrReqChange (req : BitVec 2)
  | powerEntry
  | powerStateEntered
  | powerExitComplete
  | rstColdN
  | rstFnN (cycles : Nat)
  | sysReadyRise
  -- the noise source (13_security)
  | noiseStartupDone
  | noiseTestFail
  -- the KEY port (16_ports)
  | genIdentity (keyEn : Bool) (wdata : Word)
  | readPublic (keyEn : Bool) (wdata : Word)
  | certWord (keyEn : Bool) (wdata : Word)
  | lockCert (keyEn : Bool) (wdata : Word)
  | fwKeyWord (keyEn : Bool) (wdata : Word)
  | fuseFwKey (keyEn : Bool) (wdata : Word)
  | status (keyEn : Bool) (wdata : Word)
  -- the DBG port (16_ports)
  | cfgAccess (dr : BitVec 56)
  | scanTest
  | idcode
  -- key and policy messages and the SPDM responder (13_security)
  | setKey (slot : TenantNo) (kind : KeyKind) (keyId : Word) (key : BitVec 512)
  | clearKey (slot : TenantNo) (kind : KeyKind)
  | setPolicy (slot : TenantNo) (policy : Word)
  | getState (slot : TenantNo)
  | getVersion (slot : TenantNo)
  | getCapabilities (slot : TenantNo)
  | negotiateAlgorithms (slot : TenantNo)
  | getDigests (slot : TenantNo)
  | getCertificate (slot : TenantNo) (certSlot offset length : Nat)
  | challenge (slot : TenantNo) (nonce : BitVec 256)
  | getMeasurements (slot : TenantNo) (index : Nat) (inSession signed : Bool)
  | keyExchange (slot : TenantNo) (mutualAuth : Bool)
  | finish (slot : TenantNo) (leafKey : BitVec 768) (authentic : Bool)
  | keyUpdate (slot : TenantNo)
  | endSession (slot : TenantNo)
  | vendorDefinedRequest (slot : TenantNo) (inSession : Bool) (payload : VendorPayload)
  -- the last rows of the table
  | droppedFrame (port : Nat) (frame : Option Frame)
  | ctrlMemCe
  | foxParity
  | noiseHealthy
deriving DecidableEq, Repr

end Sys2Proof
end

