-- ==== Sys2Proof/Decode.lean ====
section
/-!
DEFINITION. The commands that a word spells: no row of spec/opcode_table.json has bits, so no word spells one.
-/

namespace Sys2Proof

/-- The command that a word spells by the table's bits: the table gives none. -/
def decodeTableWord (_nbits _w : Nat) : Option Instr := none

end Sys2Proof
end

