-- ==== Sys2Proof/Machine/Tab.lean ====
section
/-!
DEFINITION. The operations of the sparse tables: look an index up, set it, erase it, and keep the one canonical form
(indices strictly rising; in a table with default values, no entry that equals the default of its index).
-/

namespace Sys2Proof.Machine

/-- The value listed at index `k`, if one is. -/
def tabFind {α : Type} (k : Nat) : Tab α → Option α
  | [] => none
  | (j, v) :: t => if j = k then some v else tabFind k t

/-- The value at index `k`: the listed one, else the default of that index. -/
def tabGet {α : Type} (d : Nat → α) (k : Nat) (t : Tab α) : α :=
  (tabFind k t).getD (d k)

/-- The table without index `k`. -/
def tabErase {α : Type} (k : Nat) : Tab α → Tab α
  | [] => []
  | (j, v) :: t => if j = k then tabErase k t else (j, v) :: tabErase k t

/-- The table with `v` at index `k`, in its place in the order. -/
def tabSet {α : Type} (k : Nat) (v : α) : Tab α → Tab α
  | [] => [(k, v)]
  | (j, w) :: t =>
    if j = k then (k, v) :: t
    else if k < j then (k, v) :: (j, w) :: t
    else (j, w) :: tabSet k v t

/-- `v` at index `k` of a table with defaults: writing the default removes the entry. -/
def tabPut {α : Type} [DecidableEq α] (d : Nat → α) (k : Nat) (v : α) (t : Tab α) : Tab α :=
  if v = d k then tabErase k t else tabSet k v t

/-- Every index of the table is above `k`. -/
def tabAbove {α : Type} (k : Nat) (t : Tab α) : Bool :=
  t.all fun p => decide (k < p.1)

/-- The indices rise strictly. -/
def tabSorted {α : Type} : Tab α → Bool
  | [] => true
  | (k, _) :: t => tabAbove k t && tabSorted t

/-- No entry equals the default of its index. -/
def tabNoDefault {α : Type} [DecidableEq α] (d : Nat → α) (t : Tab α) : Bool :=
  t.all fun p => decide (p.2 ≠ d p.1)

/-- The canonical form of a table with defaults. -/
def tabWf {α : Type} [DecidableEq α] (d : Nat → α) (t : Tab α) : Bool :=
  tabSorted t && tabNoDefault d t

/-- The lowest index at or above `k`, of the next `fuel` indices, for which `p` holds. -/
def lowestFrom (p : Nat → Bool) (k : Nat) : Nat → Option Nat
  | 0 => none
  | fuel + 1 => if p k then some k else lowestFrom p (k + 1) fuel

/-- The first element that satisfies `p` replaced by its image. -/
def updFirst {α : Type} (p : α → Bool) (f : α → α) : List α → List α
  | [] => []
  | a :: l => if p a then f a :: l else a :: updFirst p f l

end Sys2Proof.Machine
end

