-- ==== Sys2Proof/Machine/Bytes.lean ====
section
/-!
DEFINITION. Byte order, bit fields, and the three CRCs of the manual (CRC-16 of a codec slot, CRC-32C, CRC-64 of a frame).
-/

namespace Sys2Proof.Machine

/-- The number whose bytes are `bs`, byte 0 least significant (R9). -/
def leNat (bs : List Byte) : Nat :=
  bs.foldr (fun b n => b.toNat + 256 * n) 0

/-- The `k` bytes of `n`, least significant first (R9). -/
def natLE : Nat → Nat → List Byte
  | 0, _ => []
  | k + 1, n => BitVec.ofNat 8 n :: natLE k (n / 256)

/-- `len` bytes of `bs` from byte `off`; short where `bs` ends. -/
def slice (off len : Nat) (bs : List Byte) : List Byte :=
  (bs.drop off).take len

/-- The little-endian value of `len` bytes at byte `off`; bytes past the end count as zero. -/
def leAt (off len : Nat) (bs : List Byte) : Nat :=
  leNat (slice off len bs)

/-- Byte `off`; zero past the end. -/
def byteAt (off : Nat) (bs : List Byte) : Byte :=
  (bs[off]?).getD 0#8

/-- Every byte of the `len` bytes at `off` is zero (a reserved field, R11). -/
def zeroAt (off len : Nat) (bs : List Byte) : Bool :=
  leAt off len bs == 0

/-- Bits [hi:lo] of a number (R10). -/
def bits (hi lo n : Nat) : Nat :=
  (n / 2 ^ lo) % 2 ^ (hi + 1 - lo)

/-- Bit `i` of a number (R10). -/
def bitOf (i n : Nat) : Bool :=
  n.testBit i

/-- 1 for true, 0 for false. -/
def b2n (b : Bool) : Nat := if b then 1 else 0

/-- Byte `b` of a line: data bits 8b + 7 to 8b (R109). -/
def lineByte (d : LineData) (b : Nat) : Byte :=
  d.extractLsb' (8 * b) 8

/-- The 64 bytes of a line. -/
def lineBytes (d : LineData) : List Byte :=
  (List.range 64).map (lineByte d)

/-- The line whose first bytes are `bs`, zero after them. -/
def lineOfBytes (bs : List Byte) : LineData :=
  BitVec.ofNat 512 (leNat (bs.take 64))

/-- The bytes of a list of lines, in order. -/
def bytesOfLines (ls : List LineData) : List Byte :=
  ls.flatMap lineBytes

/-- `n` zero bytes. -/
def zeroBytes (n : Nat) : List Byte :=
  List.replicate n 0#8

/-- `n` rounded up to a multiple of `m`. -/
def roundUp (m n : Nat) : Nat :=
  (n + (m - 1)) / m * m

/-- `n` divided by `m`, rounded up. -/
def ceilDiv (n m : Nat) : Nat :=
  (n + (m - 1)) / m

/-- The bytes followed by zero bytes up to a multiple of `m`. -/
def padTo (m : Nat) (bs : List Byte) : List Byte :=
  bs ++ zeroBytes (roundUp m bs.length - bs.length)

/-- The bytes followed by zero bytes up to `n` bytes. -/
def fillTo (n : Nat) (bs : List Byte) : List Byte := (bs ++ zeroBytes n).take n

/-- The first `fuel` groups of 64 bytes as lines, zero bytes after the last. -/
def linesOfBytes : Nat → List Byte → List LineData
  | 0, _ => []
  | fuel + 1, bs => if bs.isEmpty then [] else lineOfBytes bs :: linesOfBytes fuel (bs.drop 64)

/-- The bytes as lines, the last filled with zero bytes. -/
def toLines (bs : List Byte) : List LineData :=
  linesOfBytes (bs.length / 64 + 1) bs

/-- Eight shifts of a reflected CRC register. -/
def crcBits {w : Nat} (poly : BitVec w) : Nat → BitVec w → BitVec w
  | 0, c => c
  | k + 1, c => crcBits poly k (if c.getLsbD 0 then (c >>> 1) ^^^ poly else c >>> 1)

/-- A reflected CRC register over bytes. -/
def crcBytes {w : Nat} (poly : BitVec w) (init : BitVec w) (bs : List Byte) : BitVec w :=
  bs.foldl (fun c b => crcBits poly 8 (c ^^^ b.setWidth w)) init

/-- CRC-32C: reflected polynomial 0x82F6_3B78, initial value and final XOR all ones (R428). -/
def crc32c (bs : List Byte) : BitVec 32 :=
  ~~~ (crcBytes 0x82F63B78#32 0xFFFFFFFF#32 bs)

/-- CRC-64 of a frame: reflected constant of ECMA-182, initial value and final XOR all ones (R201). -/
def crc64 (bs : List Byte) : BitVec 64 :=
  ~~~ (crcBytes 0xC96C5795D7870F42#64 0xFFFFFFFFFFFFFFFF#64 bs)

/-- CRC-16 of a codec slot: reflected 0x8408, initial value all ones, no final inversion (R152). -/
def crc16 (bs : List Byte) : BitVec 16 :=
  crcBytes 0x8408#16 0xFFFF#16 bs

/-- The bytes carry at `off` the CRC-32C of the bytes before it. -/
def crcOkAt (off : Nat) (bs : List Byte) : Bool :=
  leAt off 4 bs == (crc32c (bs.take off)).toNat

end Sys2Proof.Machine
end

