-- ==== Sys2Proof/Machine/Ecdsa.lean ====
section
/-!
DEFINITION. ECDSA over the curve P-384 of SP 800-186 under FIPS 186-5 (R190, R325, R329, R342). Points stand in Jacobian coordinates:
(X, Y, Z) is the point (X / Z², Y / Z³), and Z = 0 the point at infinity.
-/

namespace Sys2Proof.Machine

/-- The prime of the field, the coefficient b of y² = x³ − 3x + b, and the order of the base point. -/
def p384P : Nat := 2 ^ 384 - 2 ^ 128 - 2 ^ 96 + 2 ^ 32 - 1
def p384B : Nat := 0xB3312FA7E23EE7E4988E056BE3F82D19181D9C6EFE8141120314088F5013875AC656398D8A2ED19D2A85C8EDD3EC2AEF
def p384N : Nat := 0xFFFFFFFFFFFFFFFFFFFFFFFFFFFFFFFFFFFFFFFFFFFFFFFFC7634D81F4372DDF581A0DB248B0A77AECEC196ACCC52973

/-- The base point. -/
def p384Gx : Nat := 0xAA87CA22BE8B05378EB1C71EF320AD746E1D3B628BA79B9859F741E082542A385502F25DBF55296C3A545E3872760AB7
def p384Gy : Nat := 0x3617DE4A96262C6F5D9E98BF9292DC29F8F41DBD289A147CE9DA3113B5F0B8C00A60B1CE1D7E819D7A431D7C90EA0E5F

/-- Sum, difference and product modulo `m` of numbers below it. -/
def modAdd (m a b : Nat) : Nat := (a + b) % m
def modSub (m a b : Nat) : Nat := (a + (m - b)) % m
def modMul (m a b : Nat) : Nat := a * b % m

/-- `a` to the power of the lowest `n` bits of `x`, modulo `m`. -/
def modPow (m a x : Nat) : Nat → Nat
  | 0 => 1
  | n + 1 =>
    let h := modPow m a (x / 2) n
    let s := modMul m h h
    if x % 2 = 0 then s else modMul m s a

/-- The inverse modulo a prime below 2^384. -/
def modInv (m a : Nat) : Nat := modPow m a (m - 2) 384

/-- A point in Jacobian coordinates. -/
structure CurvePoint where
  x : Nat
  y : Nat
  z : Nat
deriving DecidableEq, Repr

/-- The point at infinity, and the point of affine coordinates. -/
def CurvePoint.zero : CurvePoint := ⟨1, 1, 0⟩
def CurvePoint.affine (x y : Nat) : CurvePoint := ⟨x, y, 1⟩

/-- A point doubled. -/
def CurvePoint.double (a : CurvePoint) : CurvePoint :=
  if a.z = 0 then .zero
  else
    let delta := modMul p384P a.z a.z
    let gamma := modMul p384P a.y a.y
    let beta := modMul p384P a.x gamma
    let alpha := modMul p384P 3 (modMul p384P (modSub p384P a.x delta) (modAdd p384P a.x delta))
    let x := modSub p384P (modMul p384P alpha alpha) (modMul p384P 8 beta)
    let yz := modAdd p384P a.y a.z
    ⟨x, modSub p384P (modMul p384P alpha (modSub p384P (modMul p384P 4 beta) x)) (modMul p384P 8 (modMul p384P gamma gamma)),
      modSub p384P (modSub p384P (modMul p384P yz yz) gamma) delta⟩

/-- The sum of two points. -/
def CurvePoint.add (a b : CurvePoint) : CurvePoint :=
  if a.z = 0 then b
  else if b.z = 0 then a
  else
    let za := modMul p384P a.z a.z
    let zb := modMul p384P b.z b.z
    let u := modMul p384P a.x zb
    let h := modSub p384P (modMul p384P b.x za) u
    let s := modMul p384P a.y (modMul p384P b.z zb)
    let t := modSub p384P (modMul p384P b.y (modMul p384P a.z za)) s
    if h = 0 then (if t = 0 then a.double else .zero)
    else
      let hh := modMul p384P h h
      let hhh := modMul p384P h hh
      let v := modMul p384P u hh
      let x := modSub p384P (modSub p384P (modMul p384P t t) hhh) (modMul p384P 2 v)
      ⟨x, modSub p384P (modMul p384P t (modSub p384P v x)) (modMul p384P s hhh), modMul p384P h (modMul p384P a.z b.z)⟩

/-- The lowest `n` bits of `k` times a point. -/
def CurvePoint.times (a : CurvePoint) (k : Nat) : Nat → CurvePoint
  | 0 => .zero
  | n + 1 =>
    let d := (a.times (k / 2) n).double
    if k % 2 = 0 then d else d.add a

/-- The affine coordinates of a point that is not at infinity. -/
def CurvePoint.coords (a : CurvePoint) : Nat × Nat :=
  let i := modInv p384P a.z
  let ii := modMul p384P i i
  (modMul p384P a.x ii, modMul p384P a.y (modMul p384P i ii))

/-- The base point as a point. -/
def p384G : CurvePoint := .affine p384Gx p384Gy

/-- A draw of the noise source as a private key or a nonce from 1 to the order less 1 (FIPS 186-5, appendix A). -/
def scalarOf (c : BitVec 384) : Nat := c.toNat % (p384N - 1) + 1

/-- The public key of a private key: X, then Y above it (R325). -/
def publicKey (d : BitVec 384) : BitVec 768 :=
  let q := (p384G.times (scalarOf d) 384).coords
  BitVec.ofNat 768 (q.1 + 2 ^ 384 * q.2)

/-- The number that a digest stands for: its bytes, the first most significant (FIPS 186-5). -/
def digestNat (digest : BitVec 384) : Nat := leNat (natLE 48 digest.toNat).reverse

/-- The signature (r, s) of a digest with a private key and a nonce, each a draw of the noise source (R329, R330). -/
def ecdsaSign (d digest k : BitVec 384) : BitVec 384 × BitVec 384 :=
  let r := (p384G.times (scalarOf k) 384).coords.1 % p384N
  let s := modMul p384N (modInv p384N (scalarOf k)) ((digestNat digest + r * scalarOf d) % p384N)
  (BitVec.ofNat 384 r, BitVec.ofNat 384 s)

/-- A public key is a point of the curve. -/
def onCurve (x y : Nat) : Bool :=
  decide (x < p384P) && decide (y < p384P) &&
    modMul p384P y y == modAdd p384P (modSub p384P (modMul p384P x (modMul p384P x x)) (modMul p384P 3 x)) p384B

/-- Verification of a signature (r, s) of a digest under a public key (R190, R329, R342). -/
def ecdsaVerify (key : BitVec 768) (digest r s : BitVec 384) : Bool :=
  let x := (key.extractLsb' 0 384).toNat
  let y := (key.extractLsb' 384 384).toNat
  let inRange (v : Nat) : Bool := decide (1 ≤ v) && decide (v < p384N)
  if !onCurve x y || !inRange r.toNat || !inRange s.toNat then false
  else
    let w := modInv p384N s.toNat
    let q := (p384G.times (modMul p384N (digestNat digest % p384N) w) 384).add ((CurvePoint.affine x y).times (modMul p384N r.toNat w) 384)
    if q.z = 0 then false else q.coords.1 % p384N == r.toNat

end Sys2Proof.Machine
end

