-- ==== Sys2Proof/Machine/Keccak.lean ====
section
/-!
DEFINITION. The hash functions of the manual: Keccak-f[1600] and SHA3-384 of FIPS 202, KMAC256 and ParallelHash256 of NIST SP 800-185
(R184, R202, R321, R324, R325, R328, R329). A lane of the permutation is a number below 2^64, lane x + 5y at index x + 5y.
-/

namespace Sys2Proof.Machine

/-! ### The permutation (FIPS 202, section 3) -/

/-- A lane rotated left by `n` places, `n` below 64. -/
def laneRot (w n : Nat) : Nat := (w <<< n ||| w >>> (64 - n)) % 2 ^ 64

/-- A row of five lanes after the step chi. -/
def laneChi (v w x y z : Nat) : List Nat :=
  let f (a b c : Nat) : Nat := a ^^^ (((2 ^ 64 - 1) ^^^ b) &&& c)
  [f v w x, f w x y, f x y z, f y z v, f z v w]

/-- One round: theta, rho and pi, chi, and iota with its round constant. -/
def keccakRound (rc : Nat) : List Nat → List Nat
  | [a0, a1, a2, a3, a4, a5, a6, a7, a8, a9, a10, a11, a12, a13, a14, a15, a16, a17, a18, a19, a20, a21, a22, a23, a24] =>
    let c0 := a0 ^^^ a5 ^^^ a10 ^^^ a15 ^^^ a20
    let c1 := a1 ^^^ a6 ^^^ a11 ^^^ a16 ^^^ a21
    let c2 := a2 ^^^ a7 ^^^ a12 ^^^ a17 ^^^ a22
    let c3 := a3 ^^^ a8 ^^^ a13 ^^^ a18 ^^^ a23
    let c4 := a4 ^^^ a9 ^^^ a14 ^^^ a19 ^^^ a24
    let d0 := c4 ^^^ laneRot c1 1
    let d1 := c0 ^^^ laneRot c2 1
    let d2 := c1 ^^^ laneRot c3 1
    let d3 := c2 ^^^ laneRot c4 1
    let d4 := c3 ^^^ laneRot c0 1
    let rows :=
      laneChi (a0 ^^^ d0) (laneRot (a6 ^^^ d1) 44) (laneRot (a12 ^^^ d2) 43) (laneRot (a18 ^^^ d3) 21) (laneRot (a24 ^^^ d4) 14) ++
      laneChi (laneRot (a3 ^^^ d3) 28) (laneRot (a9 ^^^ d4) 20) (laneRot (a10 ^^^ d0) 3) (laneRot (a16 ^^^ d1) 45) (laneRot (a22 ^^^ d2) 61) ++
      laneChi (laneRot (a1 ^^^ d1) 1) (laneRot (a7 ^^^ d2) 6) (laneRot (a13 ^^^ d3) 25) (laneRot (a19 ^^^ d4) 8) (laneRot (a20 ^^^ d0) 18) ++
      laneChi (laneRot (a4 ^^^ d4) 27) (laneRot (a5 ^^^ d0) 36) (laneRot (a11 ^^^ d1) 10) (laneRot (a17 ^^^ d2) 15) (laneRot (a23 ^^^ d3) 56) ++
      laneChi (laneRot (a2 ^^^ d2) 62) (laneRot (a8 ^^^ d3) 55) (laneRot (a14 ^^^ d4) 39) (laneRot (a15 ^^^ d0) 41) (laneRot (a21 ^^^ d1) 2)
    match rows with
    | x :: xs => (x ^^^ rc) :: xs
    | [] => []
  | _ => []

/-- The round constants of iota. -/
def keccakConstants : List Nat :=
  [0x0000000000000001, 0x0000000000008082, 0x800000000000808A, 0x8000000080008000, 0x000000000000808B, 0x0000000080000001] ++
  [0x8000000080008081, 0x8000000000008009, 0x000000000000008A, 0x0000000000000088, 0x0000000080008009, 0x000000008000000A] ++
  [0x000000008000808B, 0x800000000000008B, 0x8000000000008089, 0x8000000000008003, 0x8000000000008002, 0x8000000000000080] ++
  [0x000000000000800A, 0x800000008000000A, 0x8000000080008081, 0x8000000000008080, 0x0000000080000001, 0x8000000080008008]

/-- Keccak-f[1600]. -/
def keccakF (a : List Nat) : List Nat := keccakConstants.foldl (fun a rc => keccakRound rc a) a

/-! ### The sponge (FIPS 202, section 4) -/

/-- A block of bytes added to the lanes. -/
def addBlock (block : List Byte) (a : List Nat) : List Nat := a.mapIdx fun i x => x ^^^ leAt (8 * i) 8 block

/-- `n` blocks of `rate` bytes absorbed. -/
def absorbBlocks (rate : Nat) : Nat → List Byte → List Nat → List Nat
  | 0, _, a => a
  | n + 1, bs, a => absorbBlocks rate n (bs.drop rate) (keccakF (addBlock (bs.take rate) a))

/-- The message with its domain bits `suffix` and the padding 10*1, a multiple of `rate` bytes. -/
def spongePad (rate : Nat) (suffix : Byte) (m : List Byte) : List Byte :=
  let left := rate - m.length % rate
  if left = 1 then m ++ [suffix ||| 0x80] else m ++ suffix :: zeroBytes (left - 2) ++ [0x80]

/-- The first `len` bytes that the sponge squeezes; `len` is at most the rate. -/
def sponge (rate : Nat) (suffix : Byte) (len : Nat) (m : List Byte) : List Byte :=
  let a := absorbBlocks rate (m.length / rate + 1) (spongePad rate suffix m) (List.replicate 25 0)
  (a.flatMap (natLE 8)).take len

/-- SHA3-384 (FIPS 202), byte 0 of the digest least significant. -/
def sha3_384 (m : List Byte) : BitVec 384 := BitVec.ofNat 384 (leNat (sponge 104 0x06 48 m))

/-! ### SP 800-185 -/

/-- The bytes of a number, most significant first, at least one; `fuel` bounds their count. -/
def bigEndian : Nat → Nat → List Byte
  | 0, _ => []
  | fuel + 1, n => (if n < 256 then [] else bigEndian fuel (n / 256)) ++ [BitVec.ofNat 8 n]

/-- left_encode and right_encode. -/
def leftEncode (n : Nat) : List Byte := BitVec.ofNat 8 (bigEndian 32 n).length :: bigEndian 32 n
def rightEncode (n : Nat) : List Byte := bigEndian 32 n ++ [BitVec.ofNat 8 (bigEndian 32 n).length]

/-- encode_string of a string of whole bytes. -/
def encodeString (bs : List Byte) : List Byte := leftEncode (8 * bs.length) ++ bs

/-- bytepad with the rate of cSHAKE256. -/
def bytepad (bs : List Byte) : List Byte := padTo 136 (leftEncode 136 ++ bs)

/-- The bytes of an ASCII string. -/
def asciiBytes (s : String) : List Byte := s.toList.map fun c => BitVec.ofNat 8 c.toNat

/-- cSHAKE256 with a function name and a customisation string, not both empty. -/
def cShake256 (m : List Byte) (len : Nat) (name custom : String) : List Byte :=
  sponge 136 0x04 len (bytepad (encodeString (asciiBytes name) ++ encodeString (asciiBytes custom)) ++ m)

/-- KMAC256(key, message, 256, custom) (R202, R207, R324). -/
def kmac256 (key m : List Byte) (custom : String) : BitVec 256 :=
  BitVec.ofNat 256 (leNat (cShake256 (bytepad (encodeString key) ++ m ++ rightEncode 256) 32 "KMAC" custom))

/-- SHAKE256 of each whole or last block of 4,096 bytes, 64 bytes each; `n` counts the blocks. -/
def blockDigests : Nat → List Byte → List Byte
  | 0, _ => []
  | n + 1, bs => sponge 136 0x1F 64 (bs.take 4096) ++ blockDigests n (bs.drop 4096)

/-- ParallelHash256 with B = 4,096 B, L = 256 bits and S = "KSF1" (R328). -/
def parallelHash (m : List Byte) : BitVec 256 :=
  let n := ceilDiv m.length 4096
  BitVec.ofNat 256 (leNat (cShake256 (leftEncode 4096 ++ blockDigests n m ++ rightEncode n ++ rightEncode 256) 32 "ParallelHash" "KSF1"))

end Sys2Proof.Machine
end

