-- ==== Sys2Proof/Machine/Aes.lean ====
section
/-!
DEFINITION. The cipher of the manual: AES-256 of FIPS 197 and XTS-AES-256 of IEEE 1619 over one 64-byte data unit (R326). Bytes stand as
numbers below 256; a state has sixteen of them, column after column.
-/

namespace Sys2Proof.Machine

/-- The S-box, sixteen entries a row, entry 0 most significant. -/
def sboxRows : List Nat :=
  [0x637C777BF26B6FC53001672BFED7AB76, 0xCA82C97DFA5947F0ADD4A2AF9CA472C0,
   0xB7FD9326363FF7CC34A5E5F171D83115, 0x04C723C31896059A071280E2EB27B275,
   0x09832C1A1B6E5AA0523BD6B329E32F84, 0x53D100ED20FCB15B6ACBBE394A4C58CF,
   0xD0EFAAFB434D338545F9027F503C9FA8, 0x51A3408F929D38F5BCB6DA2110FFF3D2] ++
  [0xCD0C13EC5F974417C4A77E3D645D1973, 0x60814FDC222A908846EEB814DE5E0BDB,
   0xE0323A0A4906245CC2D3AC629195E479, 0xE7C8376D8DD54EA96C56F4EA657AAE08,
   0xBA78252E1CA6B4C6E8DD741F4BBD8B8A, 0x703EB5664803F60E613557B986C11D9E,
   0xE1F8981169D98E949B1E87E9CE5528DF, 0x8CA1890DBFE6426841992D0FB054BB16]

/-- The inverse S-box. -/
def invSboxRows : List Nat :=
  [0x52096AD53036A538BF40A39E81F3D7FB, 0x7CE339829B2FFF87348E4344C4DEE9CB,
   0x547B9432A6C2233DEE4C950B42FAC34E, 0x082EA16628D924B2765BA2496D8BD125,
   0x72F8F66486689816D4A45CCC5D65B692, 0x6C704850FDEDB9DA5E154657A78D9D84,
   0x90D8AB008CBCD30AF7E45805B8B34506, 0xD02C1E8FCA3F0F02C1AFBD0301138A6B] ++
  [0x3A9111414F67DCEA97F2CFCEF0B4E673, 0x96AC7422E7AD3585E2F937E81C75DF6E,
   0x47F11A711D29C5896FB7620EAA18BE1B, 0xFC563E4BC6D279209ADBC0FE78CD5AF4,
   0x1FDDA8338807C731B11210592780EC5F, 0x60517FA919B54A0D2DE57A9F93C99CEF,
   0xA0E03B4DAE2AF5B0C8EBBB3C83539961, 0x172B047EBA77D626E169146355210C7D]

/-- An entry of a box. -/
def boxAt (rows : List Nat) (b : Nat) : Nat := ((rows[b / 16]?).getD 0) >>> (8 * (15 - b % 16)) % 256

/-- The byte after the S-box, and after its inverse. -/
def subByte (b : Nat) : Nat := boxAt sboxRows b
def invSubByte (b : Nat) : Nat := boxAt invSboxRows b

/-- A byte times x in the field of AES. -/
def xtime (b : Nat) : Nat := if b < 128 then 2 * b else (2 * b) % 256 ^^^ 0x1B

/-- Bytes added. -/
def xorBytes (a b : List Nat) : List Nat := List.zipWith (fun x y => x ^^^ y) a b

/-! ### The key schedule -/

/-- The next word of the schedule from the `i`-th on, given the word before and the one eight before (FIPS 197, section 5.2). -/
def keyWord (i rc : Nat) (prev old : List Nat) : List Nat :=
  if i % 8 = 0 then
    match prev with
    | [a, b, c, d] => xorBytes old [subByte b ^^^ rc, subByte c, subByte d, subByte a]
    | _ => old
  else if i % 8 = 4 then xorBytes old (prev.map subByte)
  else xorBytes old prev

/-- `n` more words of the schedule; `ws` holds the words so far, the newest first. -/
def keyWords : Nat → Nat → Nat → List (List Nat) → List (List Nat)
  | 0, _, _, ws => ws.reverse
  | n + 1, i, rc, ws =>
    match ws with
    | prev :: _ => keyWords n (i + 1) (if i % 8 = 0 then xtime rc else rc) (keyWord i rc prev ((ws[7]?).getD []) :: ws)
    | [] => []

/-- Four words as one round key, each in turn. -/
def roundKeysOf : List (List Nat) → List (List Nat)
  | a :: b :: c :: d :: rest => (a ++ b ++ c ++ d) :: roundKeysOf rest
  | _ => []

/-- The fifteen round keys of a 256-bit key, byte 0 least significant. -/
def roundKeys (key : BitVec 256) : List (List Nat) :=
  let bs := (natLE 32 key.toNat).map fun b => b.toNat
  roundKeysOf (keyWords 52 8 1 ((List.range 8).map fun i => (bs.drop (4 * i)).take 4).reverse)

/-! ### Rounds -/

/-- ShiftRows, and its inverse. -/
def shiftRows : List Nat → List Nat
  | [a0, a1, a2, a3, b0, b1, b2, b3, c0, c1, c2, c3, d0, d1, d2, d3] => [a0, b1, c2, d3, b0, c1, d2, a3, c0, d1, a2, b3, d0, a1, b2, c3]
  | s => s
def invShiftRows : List Nat → List Nat
  | [a0, a1, a2, a3, b0, b1, b2, b3, c0, c1, c2, c3, d0, d1, d2, d3] => [a0, d1, c2, b3, b0, a1, d2, c3, c0, b1, a2, d3, d0, c1, b2, a3]
  | s => s

/-- MixColumns. -/
def mixColumns : List Nat → List Nat
  | a :: b :: c :: d :: rest =>
    let t := a ^^^ b ^^^ c ^^^ d
    let mix (x y : Nat) : Nat := x ^^^ t ^^^ xtime (x ^^^ y)
    mix a b :: mix b c :: mix c d :: mix d a :: mixColumns rest
  | s => s

/-- Each column multiplied by 4x² + 5, which turns MixColumns into its inverse. -/
def unmixColumns : List Nat → List Nat
  | a :: b :: c :: d :: rest =>
    let u := xtime (xtime (a ^^^ c))
    let v := xtime (xtime (b ^^^ d))
    (a ^^^ u) :: (b ^^^ v) :: (c ^^^ u) :: (d ^^^ v) :: unmixColumns rest
  | s => s

/-- The inverse of MixColumns. -/
def invMixColumns (s : List Nat) : List Nat := mixColumns (unmixColumns s)

/-- The rounds of encryption after the first key: the last is without MixColumns. -/
def cipherRounds : List (List Nat) → List Nat → List Nat
  | [], s => s
  | [k], s => xorBytes (shiftRows (s.map subByte)) k
  | k :: ks, s => cipherRounds ks (xorBytes (mixColumns (shiftRows (s.map subByte))) k)

/-- The rounds of decryption after the first key, the keys in reverse. -/
def decipherRounds : List (List Nat) → List Nat → List Nat
  | [], s => s
  | [k], s => xorBytes ((invShiftRows s).map invSubByte) k
  | k :: ks, s => decipherRounds ks (invMixColumns (xorBytes ((invShiftRows s).map invSubByte) k))

/-- The sixteen bytes of a block, and the block of them, byte 0 least significant. -/
def aesBytes (x : Nat) : List Nat := (natLE 16 x).map fun b => b.toNat
def aesNat (s : List Nat) : Nat := s.foldr (fun b n => b + 256 * n) 0

/-- AES-256 of one block under a key schedule. -/
def aesEncrypt (ks : List (List Nat)) (x : Nat) : Nat :=
  match ks with
  | k :: rest => aesNat (cipherRounds rest (xorBytes (aesBytes x) k))
  | [] => x

/-- The inverse of AES-256. -/
def aesDecrypt (ks : List (List Nat)) (x : Nat) : Nat :=
  match ks.reverse with
  | k :: rest => aesNat (decipherRounds rest (xorBytes (aesBytes x) k))
  | [] => x

/-! ### XTS (IEEE 1619) -/

/-- The tweak times alpha. -/
def xtsNext (t : Nat) : Nat := (2 * t) % 2 ^ 128 ^^^ (if t < 2 ^ 127 then 0 else 0x87)

/-- `n` blocks of a data unit, block 0 least significant, each through `f` between two additions of its tweak. -/
def xtsBlocks (f : Nat → Nat) : Nat → Nat → Nat → Nat
  | 0, _, _ => 0
  | n + 1, t, x => (f (x % 2 ^ 128 ^^^ t) ^^^ t) + 2 ^ 128 * xtsBlocks f n (xtsNext t) (x / 2 ^ 128)

/-- XTS-AES-256 over one line: Key1 is key bytes 0–31, Key2 bytes 32–63, and the tweak is the 128-bit sequence number (R325, R326). -/
def xtsLine (decrypt : Bool) (key : BitVec 512) (tweak : BitVec 128) (line : LineData) : LineData :=
  let ks := roundKeys (key.extractLsb' 0 256)
  let t := aesEncrypt (roundKeys (key.extractLsb' 256 256)) tweak.toNat
  BitVec.ofNat 512 (xtsBlocks (if decrypt then aesDecrypt ks else aesEncrypt ks) 4 t line.toNat)

/-- Encryption and decryption of one line. -/
def xtsEncrypt (key : BitVec 512) (tweak : BitVec 128) (line : LineData) : LineData := xtsLine false key tweak line
def xtsDecrypt (key : BitVec 512) (tweak : BitVec 128) (line : LineData) : LineData := xtsLine true key tweak line

end Sys2Proof.Machine
end

