-- ==== Sys2Proof/Config.lean ====
section
/-!
DEFINITION. What the model leaves open: the values that the kit fixes, what DMTF's protocol and not the manual defines, and the free
values. Each is a constant without a body, so that a claim holds whatever it is.
-/

namespace Sys2Proof.Config

/-- The n-th draw of the noise source (R330). -/
opaque noise : Nat → BitVec 384

/-- The data that a read of a line with four or more bit errors may deliver (R109). -/
opaque miscorrectedData : Nat → LineData

/-- Metadata bits [42:0] of such a read (R109). -/
opaque miscorrectedMeta : Nat → BitVec 43

/-- A value that the manual leaves open, fresh for each count (a length, a time inside a beat). -/
opaque freeWord : Nat → Word

/-- Bits [31:1] of the kit identity code; bit 0 is 1 (R411). -/
opaque idcodeHigh : BitVec 31

/-- The SHA3-384 digest of the boot ROM (R321, block 1). -/
opaque bootRomDigest : BitVec 384

/-- The write-boost trim step that calibration sets for a die temperature (R137, R364); it may lie beyond the 32 steps. -/
opaque vwbTarget : BitVec 8 → Int

/-- The bytes of the Fotrinex configuration (R321, block 4), whose encoding the spec does not give: of ENGINE_ID, the five counts of R3
and STEM_DEPTH. -/
opaque configBytes : List Nat → List Byte

/-- What the arithmetic unit gives as the signature of the n-th draw where it errs (R329): none where it does not. -/
opaque signFault : Nat → Option (BitVec 384 × BitVec 384)

/-- The digest of the SPDM transcript that a signature covers (R319, R325): DMTF's format, outside the spec, by draw. -/
opaque spdmTranscript : Nat → BitVec 384

/-- The SPDM session keys that a KEY_EXCHANGE derives (R325; DSP0277), by draw, and those that a KEY_UPDATE makes of them. -/
opaque spdmKeys : Nat → BitVec 512
opaque spdmNextKeys : BitVec 512 → BitVec 512

/-- The bytes of an SPDM response (R319): DMTF's format, outside the spec. Arguments: slot, kind of response, what it carries of the
engine's state, draw. -/
opaque spdmBytes : Nat → Nat → List Byte → Nat → List Byte

end Sys2Proof.Config
end

