-- ==== Sys2Proof/Machine/Arith.lean ====
section
/-!
DEFINITION. Integer block formats and narrowing arithmetic (03_arithmetic): formats, needed width, narrowing, the rounding
generator, widening, residual records, escape entries and the exact restore.
-/

namespace Sys2Proof.Machine

/-- The format codes of R52. -/
inductive Fmt where
  | bytes
  | si8
  | si16
  | si32
deriving DecidableEq, Repr

/-- The format a 4-bit code names (R52); the other codes are reserved. -/
def fmtOf : Nat → Option Fmt
  | 0 => some .bytes
  | 1 => some .si8
  | 2 => some .si16
  | 3 => some .si32
  | _ => none

/-- The code of a format (R52). -/
def Fmt.code : Fmt → Nat
  | .bytes => 0
  | .si8 => 1
  | .si16 => 2
  | .si32 => 3

/-- The element width in bits; 0 for BYTES, which has no elements (R52, R53). -/
def Fmt.width : Fmt → Nat
  | .bytes => 0
  | .si8 => 8
  | .si16 => 16
  | .si32 => 32

/-- A block: its elements (32 of them) as integers and its scale exponent (R54). -/
structure Block where
  q : List Int
  e : Int
deriving DecidableEq, Repr

/-- The two's-complement integer of `w` bits that a number holds. -/
def toSigned (w : Nat) (n : Nat) : Int :=
  (BitVec.ofNat w n).toInt

/-- The `w`-bit two's-complement pattern of an integer. -/
def toPattern (w : Nat) (x : Int) : Nat :=
  (BitVec.ofInt w x).toNat

/-- Largest element of a width. -/
def maxOf (w : Nat) : Int := 2 ^ (w - 1) - 1

/-- Smallest element of a width. -/
def minOf (w : Nat) : Int := - 2 ^ (w - 1)

/-- `x` fits `w` bits. -/
def fits (w : Nat) (x : Int) : Bool :=
  decide (minOf w ≤ x) && decide (x ≤ maxOf w)

/-- The needed width of an integer (R57): the smallest b ≥ 1 whose two's-complement range holds it. -/
def needWidth (x : Int) : Nat :=
  match x with
  | .ofNat n => if n = 0 then 1 else Nat.log2 n + 2
  | .negSucc n => if n = 0 then 1 else Nat.log2 n + 2

/-- The largest needed width of a list, at least 1 (R58). -/
def needWidths (qs : List Int) : Nat :=
  qs.foldl (fun b x => max b (needWidth x)) 1

/-- One step of the rounding generator (R62). -/
def lfsrStep (s : BitVec 32) : BitVec 32 :=
  let fb := ((s >>> 31) ^^^ (s >>> 21) ^^^ (s >>> 1) ^^^ s) &&& 1#32
  (s <<< 1) ||| fb

/-- `n` steps of the rounding generator. -/
def lfsrSteps : Nat → BitVec 32 → BitVec 32
  | 0, s => s
  | n + 1, s => lfsrSteps n (lfsrStep s)

/-- The state before element 0 of block `n` (R63). -/
def lfsrSeed (seed : BitVec 32) (n : Nat) : BitVec 32 :=
  let s := seed ^^^ (BitVec.ofNat 32 n * 0x9E3779B1#32) ^^^ BitVec.ofNat 32 (n / 2 ^ 32)
  if s = 0#32 then 1#32 else s

/-- The states after 32 steps per element, for `count` elements (R64). -/
def lfsrDraws : Nat → BitVec 32 → List (BitVec 32)
  | 0, _ => []
  | count + 1, s => let t := lfsrSteps 32 s; t :: lfsrDraws count t

/-- The rounding modes of R59. -/
inductive Rnd where
  | nearest
  | stochastic
deriving DecidableEq, Repr

/-- The mode an RND field names (R59); 0b10 and 0b11 are refused. -/
def rndOf : Nat → Option Rnd
  | 0 => some .nearest
  | 1 => some .stochastic
  | _ => none

/-- The code of a rounding mode. -/
def Rnd.code : Rnd → Nat
  | .nearest => 0
  | .stochastic => 1

/-- `round_up(f, k, i)` of R59 for remainder `f`, shift `k`, floored value `t` and draw `u`. -/
def roundUpNow (rnd : Rnd) (f : Int) (k : Nat) (t : Int) (u : BitVec 32) : Bool :=
  match rnd with
  | .nearest => decide (f > 2 ^ (k - 1)) || (decide (f = 2 ^ (k - 1)) && decide (t % 2 = 1))
  | .stochastic => decide (((u.toNat % 2 ^ k : Nat) : Int) < f)

/-- One element of the loop of R58: floored, rounded, saturated to `wt` bits; true when it saturated. -/
def narrowElem (rnd : Rnd) (wt k : Nat) (q : Int) (u : BitVec 32) : Int × Bool :=
  let t0 := q >>> k
  let f := q - t0 * 2 ^ k
  let t1 := if 0 < k && roundUpNow rnd f k t0 u then t0 + 1 else t0
  if t1 > maxOf wt then (maxOf wt, true)
  else if t1 < minOf wt then (minOf wt, true)
  else (t1, false)

/-- The outcome of narrowing one block (R58). -/
structure Narrowed where
  t : List Int
  et : Int
  k : Nat
  satCount : Nat
  esc : Bool
deriving DecidableEq, Repr

/-- The shift of a block: what its widest element needs, cut where the exponent would pass 127 (R58). -/
def narrowShift (wt : Nat) (b : Block) : Nat × Bool :=
  let k := needWidths b.q - wt
  if b.e + k > 127 then ((127 - b.e).toNat, true) else (k, false)

/-- Narrowing of block `n` of an extent to width `wt` (R58 to R64). -/
def narrowBlock (rnd : Rnd) (wt : Nat) (seed : BitVec 32) (n : Nat) (b : Block) : Narrowed :=
  let ks := narrowShift wt b
  let draws := lfsrDraws b.q.length (lfsrSeed seed n)
  let r := (b.q.zip draws).map fun p => narrowElem rnd wt ks.1 p.1 p.2
  { t := r.map Prod.fst, et := b.e + ks.1, k := ks.1, satCount := (r.filter Prod.snd).length, esc := ks.2 }

/-- A narrowed block as a block. -/
def Narrowed.block (r : Narrowed) : Block := { q := r.t, e := r.et }

/-- Any element of the block saturated (the SAT bit of R68). -/
def Narrowed.sat (r : Narrowed) : Bool := decide (0 < r.satCount)

/-- Widening copies the elements and the scale (R66). -/
def widenBlock (b : Block) : Block := b

/-- W of R67: the width of one remainder. -/
def resWidth (ws wt : Nat) : Nat := ws - wt + 1

/-- The size of a residual record (R67): 8 header bytes and the payload padded to whole 8 bytes. -/
def resSize (ws wt : Nat) : Nat := 8 + roundUp 8 (4 * resWidth ws wt)

/-- The remainders of R67. -/
def residues (b : Block) (r : Narrowed) : List Int :=
  (b.q.zip r.t).map fun p => p.1 - p.2 * 2 ^ r.k

/-- Fields of `w` bits packed from bit 0 upward (R68). -/
def packFields (w : Nat) (xs : List Int) : Nat :=
  xs.foldr (fun x n => toPattern w x + 2 ^ w * n) 0

/-- The fields of `w` bits of a packed number, as two's-complement integers. -/
def unpackFields (w : Nat) : Nat → Nat → List Int
  | 0, _ => []
  | count + 1, n => toSigned w (n % 2 ^ w) :: unpackFields w count (n / 2 ^ w)

/-- The header of a residual record as one 64-bit value (R68). -/
def resHeader (es : Int) (k : Nat) (sat esc : Bool) (escIndex : Nat) : Nat :=
  k + 2 ^ 8 * b2n esc + 2 ^ 9 * b2n sat + 2 ^ 16 * toPattern 8 es + 2 ^ 32 * escIndex

/-- The residual record of a block (R67 to R69); `escIndex` is the number of escaping blocks before it. -/
def resRecord (ws wt : Nat) (b : Block) (r : Narrowed) (escIndex : Nat) : List Byte :=
  natLE 8 (resHeader b.e r.k r.sat r.esc (if r.esc then escIndex else 0)) ++
    natLE (resSize ws wt - 8) (if r.esc then 0 else packFields (resWidth ws wt) (residues b r))

/-- The element payload of a block at width `w` (R55). -/
def blockBytes (w : Nat) (b : Block) : List Byte :=
  b.q.flatMap fun x => natLE (w / 8) (toPattern w x)

/-- The scale byte of a block (R55). -/
def scaleByte (b : Block) : Byte := BitVec.ofInt 8 b.e

/-- The escape entry of a block (R69): scale, source format code, six zero bytes, the source elements. -/
def escEntry (src : Fmt) (b : Block) : List Byte :=
  scaleByte b :: BitVec.ofNat 8 src.code :: (zeroBytes 6 ++ blockBytes src.width b)

/-- The elements of `w` bits, least significant byte first, of `count` elements (R55). -/
def elemsOf (w : Nat) : Nat → List Byte → List Int
  | 0, _ => []
  | count + 1, bs => toSigned w (leNat (bs.take (w / 8))) :: elemsOf w count (bs.drop (w / 8))

/-- The block of an element payload and a scale byte (R54, R55). -/
def blockOf (w : Nat) (elems : List Byte) (scale : Byte) : Block :=
  { q := elemsOf w 32 elems, e := scale.toInt }

/-- The exact restore of one block (R70): `none` when a check of R70 fails. `escape` is the escape extent. -/
def exactBlock (src : Fmt) (wt : Nat) (t : Block) (record : List Byte) (escape : List Byte) : Option Block :=
  let ws := src.width
  let h := leAt 0 8 record
  let k := bits 7 0 h
  let esc := bitOf 8 h
  let es := toSigned 8 (bits 23 16 h)
  let escIndex := bits 63 32 h
  let payload := leNat (slice 8 (resSize ws wt - 8) record)
  if bits 15 10 h ≠ 0 ∨ bits 31 24 h ≠ 0 then none
  else if esc then
    let entrySize := 8 + 4 * ws
    let entry := slice (escIndex * entrySize) entrySize escape
    if payload % 2 ^ (32 * resWidth ws wt) ≠ 0 ∨ entry.length ≠ entrySize ∨ toSigned 8 (leAt 0 1 entry) ≠ es ∨ leAt 1 1 entry ≠ src.code ∨
        ¬ zeroAt 2 6 entry then none
    else some (blockOf ws (entry.drop 8) (byteAt 0 entry))
  else
    let r := unpackFields (resWidth ws wt) 32 payload
    let q := (t.q.zip r).map fun p => p.1 * 2 ^ k + p.2
    if escIndex ≠ 0 ∨ t.e - k ≠ es ∨ ws - wt < k ∨ ¬ (q.all (fits ws)) then none
    else some { q := q, e := t.e - k }

/-- One target block of a re-slice (R249): the elements with their scales, absent ones `none`; the narrowed block and
whether it counts in ROUNDED. -/
def resliceBlock (wt : Nat) (elems : List (Option (Int × Int))) : Block × Bool :=
  let scales := elems.filterMap (Option.map Prod.snd)
  let emin := match scales with
    | [] => 0
    | x :: xs => xs.foldl min x
  let q := elems.map fun o => match o with
    | none => (0 : Int)
    | some (v, e) => v * 2 ^ (e - emin).toNat
  let src : Block := { q := q, e := emin }
  let r := narrowBlock .nearest wt 0#32 0 src
  let lost := (q.zip r.t).any fun p => p.1 - p.2 * 2 ^ r.k != 0
  (r.block, lost)

end Sys2Proof.Machine
end

