-- ==== Sys2Proof/Machine/Poppy.lean ====
section
/-!
DEFINITION. The Poppy fixed-rate exponent codec (06_poppy_codec): rates and addresses, exponent classes, the code table,
the slot, encoding, decoding and its checks. The lanes stand with the streams.
-/

namespace Sys2Proof.Machine

/-- The geometry of a RATE (R140): slot size S, slots per coded line G, payload bits P, coded lines per full chunk C. -/
structure RateGeom where
  slot : Nat
  group : Nat
  payload : Nat
  chunkLines : Nat
deriving DecidableEq, Repr

/-- The geometry a RATE field names (R140); 0b00 is refused. -/
def rateGeom : Nat → Option RateGeom
  | 1 => some ⟨32, 2, 232, 32⟩
  | 2 => some ⟨21, 3, 144, 22⟩
  | 3 => some ⟨16, 4, 104, 16⟩
  | _ => none

/-- Byte of the coded form at which coded chunk `c` starts (R141). -/
def chunkOffset (g : RateGeom) (c : Nat) : Nat := 64 + c * 64 * g.chunkLines

/-- Byte within its chunk of the slot of source line `j` (R141). -/
def slotOffset (g : RateGeom) (j : Nat) : Nat := (j / g.group) * 64 + (j % g.group) * g.slot

/-- Coded lines of a chunk of `m` source lines (R141). -/
def chunkCodedLines (g : RateGeom) (m : Nat) : Nat := ceilDiv m g.group

/-- Bytes of the coded form of an extent of `n` element lines (R141). -/
def codedBytes (g : RateGeom) (n : Nat) : Nat :=
  64 + (n / 64) * 64 * g.chunkLines + 64 * chunkCodedLines g (n % 64)

/-- Elements in a 64 B line of width `w` (R139). -/
def lineElems (w : Nat) : Nat := 512 / w

/-- The elements of a source line. -/
def elemsOfLine (w : Nat) (d : LineData) : List Int := elemsOf w (lineElems w) (lineBytes d)

/-- The line of a list of elements of width `w`. -/
def lineOfElems (w : Nat) (qs : List Int) : LineData :=
  lineOfBytes (qs.flatMap fun x => natLE (w / 8) (toPattern w x))

/-- The exponent class of an element (R142). -/
def expClass (q : Int) : Nat := if q = 0 then 0 else Nat.log2 q.natAbs + 1

/-- Count of the elements of class `s`. -/
def classCount (qs : List Int) (s : Nat) : Nat := (qs.filter fun q => expClass q == s).length

/-- The smallest length l ≥ 1, of at most 8 tried, with c × 2^l ≥ t; 8 otherwise (R143). -/
def firstLen (c t : Nat) : Nat → Nat → Nat
  | 0, _ => 8
  | fuel + 1, l => if t ≤ c * 2 ^ l then l else firstLen c t fuel (l + 1)

/-- Slots of 256 that the lengths use (R143). -/
def kraft (ls : List Nat) : Nat := ls.foldl (fun k l => k + 2 ^ (8 - l)) 0

/-- `pick` of R143: of the classes with a length below 8 the largest length, then the smallest count, then the largest
class number. -/
def pickClass (ls cs : List Nat) : Option Nat :=
  let better (a b : Nat × Nat × Nat) : Bool :=
    if a.1 ≠ b.1 then decide (b.1 < a.1)
    else if a.2.1 ≠ b.2.1 then decide (a.2.1 < b.2.1)
    else decide (b.2.2 < a.2.2)
  let cands := ((ls.zip cs).zipIdx.filter fun p => decide (p.1.1 < 8)).map fun p => (p.1.1, p.1.2, p.2)
  match cands with
  | [] => none
  | x :: xs => some (xs.foldl (fun m y => if better y m then y else m) x).2.2

/-- The loop that restores the Kraft bound (R143), at most `fuel` turns. -/
def fixKraft (cs : List Nat) : Nat → List Nat → List Nat
  | 0, ls => ls
  | fuel + 1, ls =>
    if kraft ls ≤ 256 then ls
    else match pickClass ls cs with
      | none => ls
      | some s => fixKraft cs fuel (ls.set s ((ls[s]?).getD 0 + 1))

/-- The code lengths of an extent from its sample (R143). Every class's length rises at most seven times, so 7 × (w + 1)
turns suffice. -/
def codeLengths (w : Nat) (sample : List LineData) : List Nat :=
  let qs := sample.flatMap (elemsOfLine w)
  let cs := (List.range (w + 1)).map fun s => classCount qs s + 1
  let t := cs.foldl (· + ·) 0
  fixKraft cs (7 * (w + 1)) (cs.map fun c => firstLen c t 8 1)

/-- The classes in the order of R144: by length, then by class number. -/
def canonicalOrder (ls : List Nat) : List (Nat × Nat) :=
  (List.range 9).flatMap fun l => (ls.zipIdx.filter fun p => p.1 == l && decide (0 < l))

/-- The canonical code words of R144 for an ordered list of (length, class): (class, length, word). -/
def assignWords : Nat → Nat → List (Nat × Nat) → List (Nat × Nat × Nat)
  | _, _, [] => []
  | next, prevLen, (l, s) :: rest =>
    let word := next * 2 ^ (l - prevLen)
    (s, l, word) :: assignWords (word + 1) l rest

/-- The code words of a table of lengths (R144): (class, length, word). -/
def codeWords (ls : List Nat) : List (Nat × Nat × Nat) :=
  match canonicalOrder ls with
  | [] => []
  | (l, s) :: rest => assignWords 0 l ((l, s) :: rest)

/-- The `l` bits of a word, most significant first. -/
def msbBits : Nat → Nat → List Bool
  | 0, _ => []
  | l + 1, n => n.testBit l :: msbBits l n

/-- The number of a bit string, most significant first. -/
def ofMsb (bs : List Bool) : Nat := bs.foldl (fun n b => 2 * n + b2n b) 0

/-- The number whose bit k is element k of the list. -/
def ofLsb (bs : List Bool) : Nat := bs.foldr (fun b n => b2n b + 2 * n) 0

/-- The code word of class `s` as bits (R144). -/
def wordBits (words : List (Nat × Nat × Nat)) (s : Nat) : List Bool :=
  match words.find? fun w => w.1 == s with
  | some w => msbBits w.2.1 w.2.2
  | none => []

/-- Mantissa bits kept of an element of class `e` at width `m`: min(m, e − 1) (R148). -/
def keptBits (m e : Nat) : Nat := min m (e - 1)

/-- The bits that one element adds to the stream (R148). -/
def elemBits (words : List (Nat × Nat × Nat)) (m : Nat) (q : Int) : List Bool :=
  let e := expClass q
  let kb := keptBits m e
  let mant := q.natAbs % 2 ^ (e - 1) / 2 ^ (e - 1 - kb)
  wordBits words e ++ (if 1 ≤ e then [decide (q < 0)] else []) ++ (if 2 ≤ e then msbBits kb mant else [])

/-- The coded size of a line at mantissa width `m` (R148). -/
def codedSize (ls : List Nat) (m : Nat) (qs : List Int) : Nat :=
  qs.foldl (fun n q =>
    let e := expClass q
    n + (ls[e]?).getD 0 + (if 1 ≤ e then 1 + keptBits m e else 0)) 0

/-- The largest mantissa width below `w` whose coded size fits `p` bits, if any fits (R149). -/
def bestMantissa (ls : List Nat) (p : Nat) (qs : List Int) : Nat → Option Nat
  | 0 => none
  | w + 1 => if codedSize ls w qs ≤ p then some w else bestMantissa ls p qs w

/-- The modes of a slot (R147). -/
inductive SlotMode where
  | coded (m : Nat)
  | fallback (k : Nat)
  | poisoned
deriving DecidableEq, Repr

/-- Fallback element width f = floor(P ÷ n) (R150). -/
def fallbackWidth (g : RateGeom) (w : Nat) : Nat := g.payload / lineElems w

/-- Fallback shift K of a line (R150). -/
def fallbackShift (g : RateGeom) (w : Nat) (qs : List Int) : Nat := needWidths qs - fallbackWidth g w

/-- The mode of a source line (R149). -/
def slotMode (g : RateGeom) (w : Nat) (ls : List Nat) (poison : Bool) (qs : List Int) : SlotMode :=
  if poison then .poisoned
  else match bestMantissa ls g.payload qs w with
    | some m => .coded m
    | none => .fallback (fallbackShift g w qs)

/-- The payload of a slot as a number whose bit k is payload bit k (R148, R150). -/
def slotPayload (g : RateGeom) (w : Nat) (ls : List Nat) (mode : SlotMode) (qs : List Int) : Nat :=
  match mode with
  | .coded m => ofLsb (qs.flatMap (elemBits (codeWords ls) m))
  | .fallback k =>
    let f := fallbackWidth g w
    packFields f (qs.map fun q => (narrowElem .nearest f k q 0#32).1)
  | .poisoned => 0

/-- Byte 0 of a slot: MODE, and M or K (R147). -/
def slotHead : SlotMode → Nat
  | .coded m => 4 * m
  | .fallback k => 1 + 4 * k
  | .poisoned => 2

/-- The slot bytes of a mode and payload, with their CRC in bytes 1 and 2 (R147, R152). -/
def slotBytes (g : RateGeom) (mode : SlotMode) (payload : Nat) : List Byte :=
  let head := BitVec.ofNat 8 (slotHead mode)
  let rest := natLE (g.slot - 3) payload
  head :: (natLE 2 (crc16 (head :: rest)).toNat ++ rest)

/-- The slot of a source line (R147 to R152). -/
def encodeSlot (g : RateGeom) (w : Nat) (ls : List Nat) (line : MemBeat) : List Byte :=
  let qs := elemsOfLine w line.data
  let mode := slotMode g w ls line.poison qs
  slotBytes g mode (slotPayload g w ls mode qs)

/-- The coded lines of a chunk of source lines (R141): each slot in its place, zero bytes elsewhere. -/
def encodeChunk (g : RateGeom) (w : Nat) (ls : List Nat) (lines : List MemBeat) : List LineData :=
  (List.range (chunkCodedLines g lines.length)).map fun r =>
    lineOfBytes (((lines.drop (r * g.group)).take g.group).flatMap (encodeSlot g w ls))

/-- The table line of an extent (R145). -/
def tableLine (fmt : Fmt) (rate : Nat) (ls : List Nat) (sampleLines : Nat) : LineData :=
  let head := [BitVec.ofNat 8 (fmt.code + 16 * rate), BitVec.ofNat 8 (fmt.width + 1)] ++ natLE 17 (packFields 4 (ls.map Int.ofNat)) ++
    zeroBytes 5 ++ natLE 2 sampleLines ++ zeroBytes 34
  lineOfBytes (head ++ natLE 4 (crc32c head).toNat)

/-- The lengths of a table line that passes every check of R145, else none. -/
def readTable (fmt : Fmt) (rate : Nat) (line : LineData) : Option (List Nat) :=
  let bs := lineBytes line
  let w := fmt.width
  let nibbles := leAt 2 17 bs
  let ls := (List.range (w + 1)).map fun s => bits (4 * s + 3) (4 * s) nibbles
  if leAt 0 1 bs = fmt.code + 16 * rate ∧ leAt 1 1 bs = w + 1 ∧ nibbles / 2 ^ (4 * (w + 1)) = 0 ∧
      (ls.all fun l => decide (1 ≤ l) && decide (l ≤ 8)) ∧ kraft ls ≤ 256 ∧ zeroAt 19 5 bs ∧
      1 ≤ leAt 24 2 bs ∧ leAt 24 2 bs ≤ 64 ∧ zeroAt 26 34 bs ∧ crcOkAt 60 bs
  then some ls else none

/-- The class whose code word begins a bit string, with the bits after it (R144). -/
def nextClass (words : List (Nat × Nat × Nat)) (bs : List Bool) : Option (Nat × List Bool) :=
  match words.find? fun w => decide (w.2.1 ≤ bs.length) && ofMsb (bs.take w.2.1) == w.2.2 with
  | some w => some (w.1, bs.drop w.2.1)
  | none => none

/-- One element as R151 reconstructs it from its class, sign and kept mantissa. -/
def rebuild (w m e : Nat) (sign : Bool) (mant : Nat) : Int :=
  if e = 0 then 0
  else
    let kb := keptBits m e
    let d := e - 1 - kb
    let a := 2 ^ (e - 1) + mant * 2 ^ d + (if 0 < d then 2 ^ (d - 1) else 0)
    let q : Int := if sign then - (a : Int) else a
    max (minOf w) (min (maxOf w) q)

/-- Element, and the bits after it; none when no code word fits or the string ends (R153). -/
def decodeElem (words : List (Nat × Nat × Nat)) (w m : Nat) (bs : List Bool) : Option (Int × List Bool) :=
  match nextClass words bs with
  | none => none
  | some (e, r) =>
    if e = 0 then some (0, r)
    else match r with
      | [] => none
      | s :: r2 =>
        let kb := keptBits m e
        if r2.length < kb then none
        else some (rebuild w m e s (ofMsb (r2.take kb)), r2.drop kb)

/-- `n` elements, and the bits after them. -/
def decodeElems (words : List (Nat × Nat × Nat)) (w m : Nat) : Nat → List Bool → Option (List Int × List Bool)
  | 0, bs => some ([], bs)
  | n + 1, bs =>
    match decodeElem words w m bs with
    | none => none
    | some (q, r) =>
      match decodeElems words w m n r with
      | none => none
      | some (qs, r2) => some (q :: qs, r2)

/-- The outcome of decoding one slot (R151, R153). -/
inductive Decoded where
  | line (data : LineData)
  | poisoned
  | bad
deriving DecidableEq, Repr

/-- A slot decoded, or `bad` when a check of R153 fails. -/
def decodeSlot (g : RateGeom) (w : Nat) (ls : List Nat) (bs : List Byte) : Decoded :=
  let head := leAt 0 1 bs
  let mk := bits 6 2 head
  let payload := leNat (slice 3 (g.slot - 3) bs)
  let n := lineElems w
  if leAt 1 2 bs ≠ (crc16 (byteAt 0 bs :: slice 3 (g.slot - 3) bs)).toNat then .bad
  else if bitOf 7 head then .bad
  else match bits 1 0 head with
    | 0 =>
      if w ≤ mk then .bad
      else match decodeElems (codeWords ls) w mk n ((List.range g.payload).map payload.testBit) with
        | none => .bad
        | some (qs, rest) => if rest.any id then .bad else .line (lineOfElems w qs)
    | 1 =>
      let f := fallbackWidth g w
      if w ≤ mk ∨ payload / 2 ^ (n * f) ≠ 0 then .bad
      else .line (lineOfElems w ((unpackFields f n payload).map fun t => t * 2 ^ mk))
    | 2 => if mk ≠ 0 ∨ payload ≠ 0 then .bad else .poisoned
    | _ => .bad

/-- The slot of source line `j` of a chunk among its coded lines (R141). -/
def slotOf (g : RateGeom) (coded : List LineData) (j : Nat) : List Byte :=
  slice (slotOffset g j) g.slot (bytesOfLines coded)

/-- A chunk of `m` source lines decoded from its coded lines. -/
def decodeChunk (g : RateGeom) (w : Nat) (ls : List Nat) (coded : List LineData) (m : Nat) : List Decoded :=
  (List.range m).map fun j => decodeSlot g w ls (slotOf g coded j)

end Sys2Proof.Machine
end

