-- ==== Sys2Proof/Machine/State.lean ====
section
/-!
DEFINITION. The state of the engine as plain data, group by group, with its value after reset.
-/

namespace Sys2Proof.Machine

/-! ### The kit -/

/-- What the licensee fixes in the integration kit (R3, R4, R78, R431). No command changes it. -/
structure Kit where
  buds : Nat
  regions : Nat
  linkPorts : Nat
  memChannels : Nat
  guardClients : Nat
  gridCols : Nat
  gridRows : Nat
  stemDepth : Nat
  /-- region of a tile; a tile not listed lies in region (tile mod regions) -/
  tileRegion : Tab Nat
  /-- scratchpad lines of a tile; a tile not listed has 1,024 -/
  scratchLines : Tab Nat
deriving DecidableEq, Repr

/-- Reference configuration RC-A (R5). -/
def Kit.rcA : Kit :=
  { buds := 327680, regions := 96, linkPorts := 48, memChannels := 16, guardClients := 16, gridCols := 640,
    gridRows := 512, stemDepth := 1180, tileRegion := [], scratchLines := [] }

/-! ### The register file -/

/-- Live and shadow words of every word that holds an RW field (R413, R414), by CFG offset, and the commit and CRC status.
A word that is not listed holds its reset value (`resetWord` of RegMap.lean). -/
structure Regs where
  live : Tab Word
  shadow : Tab Word
  cmtSource : BitVec 2
  cmtCode : Code
  cmtOffset : BitVec 20
  strobeHeld : Bool
  crcLive : Word
  passValid : Bool
  mismatch : Bool
deriving DecidableEq, Repr

/-! ### Time, budgets and counters -/

/-- The beat modes of R36. -/
inductive BeatMode where
  | acquire
  | locked
  | freeRun
deriving DecidableEq, Repr

/-- Beat and time (R35 to R38), and what takes effect at an edge only (R417). -/
structure Beat where
  mode : BeatMode
  num : Dword
  offset : Dword
  slip : Word
  lastCc : BitVec 12
  clampRun : BitVec 8
  timeNow : Dword
  /-- BEAT_CC as the running beat was granted -/
  cc : Nat
  /-- SEALED_MODE as of the last edge (R338) -/
  sealed : Bool
  /-- the first lock has been reached (READY_STATUS [3]) -/
  firstLock : Bool
  /-- LOCKED has been entered from ACQUIRE and its first edge has not been taken (R37) -/
  firstEdgeDue : Bool
  sinceWindow : Nat
  sinceCal : Nat
  /-- cycles counted in the core since its beat began, as of the last event that it stamped (R48) -/
  cycle : BitVec 12
deriving DecidableEq, Repr

/-- What remains of the budgets granted at the last edge (R40, R41). -/
structure Budget where
  entries : Nat
  bulb : Nat
  streamRead : Tab Nat
  streamWrite : Tab Nat
  hold : Tab Nat
  buddy : Tab Nat
  link : Tab Nat
  /-- lines that each channel can still move in this beat, in each direction (R29, R43) -/
  memRead : Tab Nat
  memWrite : Tab Nat
deriving DecidableEq, Repr

/-- A set of counters latched at one edge (R45). -/
structure CounterSet where
  beat : Dword
  vals : Tab Dword
  /-- the telemetry sample of the edge (R362) -/
  sample : Word
deriving DecidableEq, Repr

/-- Live counters, the sets latched at the last edges (newest first), and the published shadows (R45, R46), by shadow
offset of the _LO word. -/
structure Counters where
  live : Tab Dword
  latched : List CounterSet
  shadow : Tab Dword
  shadowBeat : Dword
deriving DecidableEq, Repr

/-! ### Stem and buds -/

/-- A broadcast (R396). -/
structure Broadcast where
  code : BitVec 4
  arg : BitVec 64
deriving DecidableEq, Repr

/-- The broadcasts issued since SYS_READY, in order (R50), the tiles whose FREEZE acknowledgement has reached its region root (R79), and the
acknowledgements of SCRUB counted there. -/
structure Stem where
  issued : List Broadcast
  frozen : List Nat
  scrubbed : Nat
deriving DecidableEq, Repr

/-- The states of a bud (R81). -/
inductive BudState where
  | absent
  | idle
  | armed
  | frozen
  | drained
deriving DecidableEq, Repr

/-- The kinds of a line on the up path (R397). -/
inductive UpKind where
  | drain
  | context
  | cbw
deriving DecidableEq, Repr

/-- A line read by a bud and not yet accepted by its region root. -/
structure UpLine where
  kind : UpKind
  line : Nat
  data : LineData
deriving DecidableEq, Repr

/-- The counters of one bud (04_cut, counter shadows). -/
structure BudCounts where
  cbw : Dword
  stall : Dword
  early : Dword
deriving DecidableEq, Repr

/-- An acknowledgement on its way up (R396): its code, whether it is poisoned, and for a counter acknowledgement the beat and the
counters as latched (R45). -/
structure BudAck where
  code : BitVec 4
  poisoned : Bool
  beat : BitVec 52
  counts : BudCounts
deriving DecidableEq, Repr

/-- One bud (R81 to R89). -/
structure Bud where
  state : BudState
  tenant : TenantNo
  drained : BitVec 1024
  latch : List UpLine
  buffer : List UpLine
  up : List UpLine
  resumed : Bool
  beat : BitVec 52
  /-- how many of the issued broadcasts have reached it (R50) -/
  seen : Nat
  /-- acknowledgements on their way up -/
  acks : List BudAck
  counts : BudCounts
  /-- cycles counted since its beat began, as of the last event that it stamped (R48) -/
  cycle : BitVec 12
  /-- a tile write that waits for room in the buffer has been counted as an early write (R80) -/
  earlyHeld : Bool
deriving DecidableEq, Repr

/-- A bud whose tile has no loaded configuration (R376). -/
def Bud.none : Bud :=
  { state := .absent, tenant := 0, drained := 0, latch := [], buffer := [], up := [], resumed := false, beat := 0,
    seen := 0, acks := [], counts := ⟨0, 0, 0⟩, cycle := 0, earlyHeld := false }

/-! ### Recipes -/

/-- The steps of R165, without their stream. -/
inductive Step where
  | gather (fmt : Fmt) (elemOff scaleOff count : Nat)
  | narrow (wt : Fmt) (rnd : Rnd) (seed : Word)
  | widen (wt : Fmt)
  | code (rate : Nat)
  | seal
  | digest
  | scatter (ext : Nat)
  | residual
deriving DecidableEq, Repr

/-- A step with the stream it acts on (R164). -/
structure StepAt where
  stream : Nat
  step : Step
deriving DecidableEq, Repr

/-- A loaded recipe (R163, R168). -/
structure Recipe where
  tenant : TenantNo
  userTag : Word
  cls : Nat
  steps : List StepAt
deriving DecidableEq, Repr

/-- A bound binding set (R170): its tenant and the recipe of each class. -/
structure BindSet where
  tenant : TenantNo
  entries : List (Option Nat)
deriving DecidableEq, Repr

/-- The recipe store (R168, R171). -/
structure Recipes where
  held : Tab Recipe
  sets : Tab BindSet
deriving DecidableEq, Repr

/-! ### The Bulb -/

/-- The front partitions of R111. -/
inductive Part where
  | disp
  | cut
  | stream
  | vault
deriving DecidableEq, Repr

/-- A Bulb line: data and the fields of its metadata word (R108). -/
structure Line where
  data : LineData
  tenant : TenantNo
  cls : BitVec 4
  poison : Bool
  epoch : Bool
  sealed : Bool
  coded : Bool
deriving DecidableEq, Repr

/-- What a front line is a copy of. -/
inductive FrontKey where
  /-- a grid-state line of a tile: context (true) or scratchpad, and its number -/
  | grid (tile : Nat) (ctx : Bool) (line : Nat)
  /-- a line of a memory-resident granule of a guard range -/
  | granule (range granule line : Nat)
  /-- a body line, by logical bank × 131,072 + line -/
  | body (line : Nat)
  /-- a line of a buddy window, by line offset in the window -/
  | window (window : Nat) (line : Nat)
  /-- a source line that a stream stages, by stream number and line number -/
  | stream (stream line : Nat)
deriving DecidableEq, Repr

/-- A line held in the front. -/
structure FrontLine where
  part : Part
  key : FrontKey
  line : Line
  dirty : Bool
  /-- the region whose floor a displaced line counts against (R102); the queue whose WRITE put a vault line there, when a failure of
  its write-back is a deferred error (R302, R303) -/
  region : Nat
  /-- which value of a vault line this is: the number of its application (R116, R300) -/
  ver : Nat
  /-- stored bits that have been upset since the line was written (R109) -/
  flips : List Nat
  /-- its front line, counted from the first line of its partition (R111) -/
  place : Nat
deriving DecidableEq, Repr

/-- The front (R111 to R115): its lines in the order they arrived, lines reserved for vault writes (R290), STREAM lines whose reads are
under way, and the front patrol's position (R136). -/
structure Front where
  lines : List FrontLine
  reserved : Nat
  streamLines : Nat
  patrol : Nat
  clearedCc : Nat
deriving DecidableEq, Repr

/-- The states of a physical bank (05_bulb). -/
inductive BankState where
  | inUse
  | free
  | retired
  | worn
deriving DecidableEq, Repr

/-- The stored values of a physical bank. -/
structure Bank where
  state : BankState
  step : BitVec 3
  writes : Dword
deriving DecidableEq, Repr

/-- A physical bank at manufacture: 0-255 IN_USE, 256-271 FREE. -/
def Bank.made (p : Nat) : Bank :=
  { state := if p < 256 then .inUse else .free, step := 0, writes := 0 }

/-- The stored values of a tenant slot (R187, R197, R315, BODY_STATE). -/
structure Kept where
  aComplete : Bool
  bComplete : Bool
  valid : Bool
  lastSlot : Bool
  glxValid : Bool
  glxLast : Bool
  lastEpoch : Dword
  lastStep : Dword
  nextEpoch : Dword
  owner : BitVec 128
  kcv : BitVec 64
  xtsNext : Word
deriving DecidableEq, Repr

/-- A slot's stored values at manufacture: NEXT_EPOCH 1, everything else clear. -/
def Kept.made : Kept :=
  { aComplete := false, bComplete := false, valid := false, lastSlot := false, glxValid := false, glxLast := false,
    lastEpoch := 0, lastStep := 0, nextEpoch := 1, owner := 0, kcv := 0, xtsNext := 0 }

/-- What has befallen a body line since it was written: its stored bits that are upset (R109), and how many verifications the next
write that a background activity makes to it will fail (R118). -/
structure Upset where
  flips : List Nat
  fails : Nat
deriving DecidableEq, Repr

/-- A sound line. -/
def Upset.none : Upset := { flips := [], fails := 0 }

/-- The non-volatile store: it survives every reset and loss of supply (R128, R187, R315, R356, R372). -/
structure Body where
  /-- by physical bank × 131,072 + line; a line not listed holds no data -/
  lines : Tab Line
  /-- upset lines, by the same key -/
  upsets : Tab Upset
  /-- physical bank of a logical bank; identity where not listed -/
  remap : Tab Nat
  banks : Tab Bank
  kept : Tab Kept
  badEnc : List Nat
  badDec : List Nat
  badCipher : List Nat
  badHash : List Nat
  minSvn : Word
  slot0 : List Byte
  slot1 : List Byte
  activeSlot : Bool
  nextSlot : Bool
deriving DecidableEq, Repr

/-- The counts of a bank in the running error window (R129). -/
structure BankErrors where
  dec : Nat
  ue : Nat
  writeFail : Nat
deriving DecidableEq, Repr

/-- A running remap (R132). -/
structure Remap where
  logical : Nat
  source : Nat
  target : Nat
  pointer : Nat
  retire : Bool
deriving DecidableEq, Repr

/-- What a body line write is for. -/
inductive BodyFor where
  /-- write-back of a vault line, by logical bank × 131,072 + line, and the value written -/
  | vault (line ver : Nat)
  /-- a line of the body copy of a cut -/
  | copy (line : Nat)
  /-- the COMMIT_STATE write of step 5 of R188 -/
  | commitState (tenant : Nat)
deriving DecidableEq, Repr

/-- A body line write waiting for its read-back (R118). -/
structure BodyWrite where
  use : BodyFor
  line : Line
  attempts : Nat
deriving DecidableEq, Repr

/-- A body copy in progress (R127, R189): lines still to write, by line offset in the partition; whether they are all there is to
write; whether a line of it has failed for good (R118). -/
structure BodyCopy where
  tenant : Nat
  slot : Bool
  todo : List (Nat × Line)
  complete : Bool
  failed : Bool
deriving DecidableEq, Repr

/-- A calibration pass that runs (R135, R137): what its tests will find, and how many of the eight accesses to the test lines of each
bank in turn it has made. -/
structure Calibration where
  outcomes : List CalOutcome
  pos : Nat
deriving DecidableEq, Repr

/-- The volatile part of the body's management. -/
structure Bulb where
  errors : Tab BankErrors
  remap : Option Remap
  due : List Nat
  writes : List BodyWrite
  copies : List BodyCopy
  patrol : Nat
  patrolWait : Nat
  vwbGoal : Int
  cal : Option Calibration
deriving DecidableEq, Repr

/-! ### Units with spares -/

/-- Where a logical unit runs: a physical unit, and whether it is withdrawn (R157, R331). -/
structure UnitMap where
  phys : Nat
  withdrawn : Bool
deriving DecidableEq, Repr

/-- The states of the noise source (LARK_STATUS). -/
inductive Noise where
  | startup
  | healthy
  | failed
deriving DecidableEq, Repr

/-- Lane and core maps, identity where not listed, and SPARE_STATUS (R357). -/
structure Units where
  enc : Tab UnitMap
  dec : Tab UnitMap
  cipher : Tab UnitMap
  hash : Tab UnitMap
  noise : Noise
  spareBusy : Bool
  spareCode : Code
deriving DecidableEq, Repr

/-! ### Jobs and rings -/

/-- The entry that a job came from. -/
structure JobId where
  ring : Nat
  cmdId : Dword
  index : Nat
  irq : Bool
deriving DecidableEq, Repr

/-- What a job in flight is. -/
inductive JobKind where
  | cut
  | drain
  | restore
  | stream (n : Nat)
  | adminSend (tenant slot port : Nat) (seq : Word)
  | release (slot : Nat)
  /-- a job that completes when its destination writes are answered, with this RESULT -/
  | wait (result : List Byte)
deriving DecidableEq, Repr

/-- A job in flight. `tenant` is none for a job that acts for no tenant (R313). -/
structure Job where
  id : JobId
  tenant : Option TenantNo
  kind : JobKind
  /-- host memory that the job names, directly or through data that it reads, as addresses and lengths (R257) -/
  spans : List (Nat × Nat) := []
deriving DecidableEq, Repr

/-- A framed submission entry that has not started (R258 to R265). -/
structure Entry where
  opcode : Nat
  fence : Bool
  irq : Bool
  cmdId : Dword
  index : Nat
  lines : Nat
  /-- the entry carries a non-zero reserved field, or FLAGS that its mode does not allow (R258, R259) -/
  badHeader : Bool
  params : List Byte
deriving DecidableEq, Repr

/-- A framing failure whose entry still consumes lines without a check (R265): lines left, or up to LAST. -/
structure Failing where
  code : Code
  cmdId : Dword
  index : Nat
  irq : Bool
  taken : Nat
  left : Nat
  toLast : Bool
deriving DecidableEq, Repr

/-- A completion entry that software has not released: its 32 bytes, whether it drives INT (R270), and whether its write
has been answered (one completion write of a ring is outstanding at a time, log 11). -/
structure CqEntry where
  bytes : List Byte
  irq : Bool
  /-- the first line of the entry that this completes, for SQ_HEAD (R264); none for a halt notice and a plan completion -/
  entry : Option Nat
  written : Bool
deriving DecidableEq, Repr

/-- A completion that waits for a free completion entry (R268): a halt notice or a plan completion. -/
inductive Waiting where
  | halt (cmdId : Dword) (index : Nat) (addr : Dword) (position stream : Nat)
  | plan (code : Code) (result : List Byte)
deriving DecidableEq, Repr

/-- The consumed lines of an entry whose completion may not yet be written, for SQ_HEAD (R264). -/
structure OpenEntry where
  index : Nat
  lines : Nat
  done : Bool
deriving DecidableEq, Repr

/-- The running state of one ring pair (R255 to R270). Its configuration words stand in the register file. -/
structure Ring where
  tail : Nat
  fetch : Nat
  /-- the PHASE expected at the fetch position (R263) -/
  phase : Bool
  chain : List LineData
  opens : List OpenEntry
  ready : List Entry
  /-- re-reads made of a line whose PHASE does not match (R263), and the beat of the last read -/
  phaseWait : Option Nat
  phaseBeat : Dword
  failing : Option Failing
  cqHead : Nat
  cqTail : Nat
  cqPhase : Bool
  cq : List CqEntry
  /-- address and bytes of the completion write that has not been answered without error -/
  cqOut : Option (Nat × List Byte)
  cqFailed : Bool
  waiting : List Waiting
  burst : Nat
deriving DecidableEq, Repr

/-- A ring that has just become active (R275). -/
def Ring.fresh : Ring :=
  { tail := 0, fetch := 0, phase := true, chain := [], opens := [], ready := [], phaseWait := none, phaseBeat := 0, failing := none,
    cqHead := 0, cqTail := 0, cqPhase := true, cq := [], cqOut := none, cqFailed := false, waiting := [], burst := 0 }

/-- The rings, the turn pointer and the weight left of the running turn (R277), and the jobs in flight, oldest first. -/
structure Rings where
  rings : Tab Ring
  turn : Nat
  weight : Nat
  jobs : List Job
deriving DecidableEq, Repr

/-! ### The cut -/

/-- The phases of CUT_STATUS. -/
inductive CutPhase where
  | none
  | armed
  | pause
  | drain
  | commit
deriving DecidableEq, Repr

/-- The parameters of a CUT (R71, 11_rings). -/
structure CutParams where
  step : Dword
  ranges : Dword
  recipeSet : Nat
  replicas : Nat
  dest : Nat
  hostBase : Nat
  hostPages : Nat
  glxPages : Nat
  g0 : Nat
  g1 : Nat
deriving DecidableEq, Repr

/-- A source of a KSF run (R159, R178, R181): a tile's scratchpad or context lines, or a guard range. -/
inductive SrcKind where
  | tile (tile : Nat) (ctx : Bool)
  | range (n : Nat)
deriving DecidableEq, Repr

/-- A coordinate record (R182). -/
structure Coord where
  tensorId : Dword
  unitStart : Dword
  unitCount : Dword
  rank : Nat
  layout : Nat
  rotPhase : Word
  gshape : List Nat
  sstart : List Nat
  slen : List Nat
deriving DecidableEq, Repr

/-- One output extent of a recipe run (R181), without its place in a shard. `flags` is XFORM; `lines` are the stored lines
before sealing. -/
structure Extent where
  cls : Nat
  fmt : Fmt
  srcFmt : Fmt
  flags : Nat
  runExt : Nat
  rnd : Nat
  rate : Nat
  seed : Word
  len : Nat
  scaleOff : Nat
  units : Nat
  lines : List MemBeat
deriving DecidableEq, Repr

/-- A source of the running cut: its shard and place in run order, its steps, its lines in all, the slot offsets of its main
and residual extents, its seed, its coordinate records; the lines that a numeric run has taken; how many of its lines have
arrived; and the extents of its finished run. -/
structure Source where
  kind : SrcKind
  shard : Nat
  cls : Nat
  steps : List StepAt
  lines : Nat
  mainOff : Nat
  resOff : Nat
  seed : Word
  coords : List Coord
  got : Tab MemBeat
  arrived : Nat
  /-- chunks of its coded plane that have passed a lane (R155) -/
  coded : Nat
  run : Option (List Extent)
deriving DecidableEq, Repr

/-- A line of a cut as stored (R179): its data, its poison mark, and what its metadata says. -/
structure ImgLine where
  data : LineData
  poison : Bool
  cls : BitVec 4
  sealed : Bool
  coded : Bool
deriving DecidableEq, Repr

/-- A piece that a replica verifies (R221): slot offset, length, and the digest expected. -/
structure Piece where
  off : Nat
  len : Nat
  digest : BitVec 256
deriving DecidableEq, Repr

/-- A finished shard (R179): its place in the slot, its length and DATA_OFF, its digest over the bytes before DATA_OFF, and its
extents as slot offsets and lengths in index order. -/
structure Shard where
  no : Nat
  off : Nat
  len : Nat
  dataOff : Nat
  digest : BitVec 256
  extents : List (Nat × Nat)
deriving DecidableEq, Repr

/-- Room of a shard in its slot (R177). -/
structure Room where
  no : Nat
  off : Nat
  len : Nat
deriving DecidableEq, Repr

/-- Where a cut writes (R188, R197). -/
inductive Dest where
  /-- the peer in slot i of the tenant's peer table -/
  | peer (i : Nat)
  | host
  | glarax
deriving DecidableEq, Repr

/-- One write or verification that a destination still has to answer. Offsets are in the slot or Glarax area. -/
inductive DestOp where
  | clear
  /-- lines of the image, with the priority of what they carry (R24); 5 for tables -/
  | lines (off len prio : Nat)
  | verify (p : Piece)
  | manifest
  | record
deriving DecidableEq, Repr

/-- A destination of the running cut: the step of R188 it stands at (1 clear, 2 shards, 3 manifest, 4 record, 5 done; for
Glarax 1 open header, 2 sources, 3 entries, 4 closing header), what it still has to be given of that step, and how much of
what it was given it has not answered. -/
structure DestState where
  dest : Dest
  stage : Nat
  todo : List DestOp
  unanswered : Nat
  /-- MEM requests of the first operation that have been issued, when it goes to host memory -/
  issued : Nat
deriving DecidableEq, Repr

/-- A front line of the cut that has been given to its destinations (R28): an offset for every acknowledgement that it waits for. -/
structure HeldLine where
  key : FrontKey
  waits : List Nat
deriving DecidableEq, Repr

/-- The running cut. -/
structure Running where
  params : CutParams
  tenant : TenantNo
  job : Option JobId
  /-- armed, retargeted or adopted by a pre-emption plan (R105, R106) -/
  plan : Bool
  /-- taken at the next pulse whatever its number (R105) -/
  anyStep : Bool
  xtsEpoch : Word
  epoch : Dword
  prevEpoch : Dword
  /-- the target slot T; true is slot B -/
  slot : Bool
  freezeTime : Dword
  freezeBeat : Dword
  tiles : List Nat
  sources : List Source
  rooms : List Room
  image : Tab ImgLine
  held : List HeldLine
  shards : List Shard
  dests : List DestState
  manifest : List Byte
  record : List Byte
  /-- the COMMIT_STATE write of step 5 has been handed to the body -/
  waitBody : Bool
  /-- broadcasts issued up to and with its RESUME: a bud that has seen as many has had it (R77) -/
  resumeAt : Nat
deriving DecidableEq, Repr

/-- The cut and the pre-emption plan. `template` holds each tenant's most recent accepted CUT (R105). -/
structure Cut where
  phase : CutPhase
  run : Option Running
  lastCode : Code
  lastTenant : TenantNo
  step : Dword
  lastStep : Option Dword
  template : Tab CutParams
  planActive : Bool
  planTenant : TenantNo
  planSource : BitVec 2
  planLeft : Nat
  planWaits : Bool
  /-- tiles whose extents the last cut recorded with the poison marker (R79, R82) -/
  missing : List Nat
deriving DecidableEq, Repr

/-! ### The guard -/

/-- A registered guard range (R90, R91). `base` is in granules of 1 MiB. A granule's bit is `flag`, but for the granules
listed in `flipped`, whose bit is the other. -/
structure Range where
  base : Nat
  granules : Nat
  owner : TenantNo
  cls : Nat
  coords : List Coord
  armed : Bool
  parity : Bool
  flag : Bool
  flipped : List Nat
deriving DecidableEq, Repr

/-- A granule of a running cut that is being read: whether it stands in the hot-granule table (R95), whether it drains at
priority 1 (R95, R101), where its chunk order starts, and its chunks that are in the front. -/
structure Gran where
  range : Nat
  granule : Nat
  hot : Bool
  prio1 : Bool
  start : Nat
  chunks : List Nat
deriving DecidableEq, Repr

/-- A hold outstanding (R95): the client, its tag, and the chunk it waits for. -/
structure Hold where
  client : Nat
  htag : BitVec 4
  range : Nat
  granule : Nat
  chunk : Nat
deriving DecidableEq, Repr

/-- A chunk whose read has been issued: lines of it not yet in the front, and whether it is a held chunk. -/
structure Reading where
  range : Nat
  granule : Nat
  chunk : Nat
  left : Nat
  held : Bool
deriving DecidableEq, Repr

/-- The guard (R90 to R101). `queue` is the held-chunk queue: (range, granule, chunk). -/
structure Guard where
  ranges : Tab Range
  /-- P[n] of each range number, kept while no range stands there (R91) -/
  parities : BitVec 64
  grans : List Gran
  holds : List Hold
  queue : List (Nat × Nat × Nat)
  reading : List Reading
deriving DecidableEq, Repr

/-! ### MEM requests -/

/-- What a MEM request is for. -/
inductive MemFor where
  | completion (ring : Nat)
  | outPacket (queue : Nat)
  | chunk (range granule chunk firstLine : Nat)
  | streamRead (stream : Nat) (lines : List Nat)
  | streamWrite (stream : Nat) (lines : List Nat)
  /-- source lines of a restore's entry, and which of their locations is read -/
  | restoreRead (job : JobId) (stream : Nat) (lines : List Nat) (holder : Nat)
  | restoreWrite (job : JobId) (stream : Nat)
  | cutWrite (tenant : TenantNo)
  /-- write-back of a window line, and which value of it is written -/
  | windowLine (window line ver : Nat)
  | job (id : JobId)
  /-- a request whose response is discarded: its cut, its queue or its job has ended; it may still hold a write tracker (R234) -/
  | dropped (tracker : Bool)
  /-- a write of a job that has ended: its completion waits for the answer (R266); none is a plan completion -/
  | closing (id : Option JobId) (code : Code) (plan : Bool) (result : List Byte)
deriving DecidableEq, Repr

/-- An outstanding MEM request (R385 to R389). -/
structure MemReq where
  channel : Nat
  tag : BitVec 12
  isWrite : Bool
  addr : Nat
  lines : Nat
  prio : BitVec 2
  use : MemFor
deriving DecidableEq, Repr

/-- The requests outstanding, oldest first, and the tag given last. -/
structure Mem where
  reqs : List MemReq
  lastTag : BitVec 12
deriving DecidableEq, Repr

/-! ### Streams and restores -/

/-- A stream descriptor (R228). -/
structure Descr where
  base : Nat
  codedBase : Nat
  counts : List Nat
  strides : List Int
  rank : Nat
  fence : Bool
  format : Nat
  layer : Nat
  pace : Nat
  readSlots : Nat
  due0 : Nat
  recipe : Nat
  spillId : Nat
  xtsEpoch : Nat
  scaleBase : Nat
deriving DecidableEq, Repr

/-- The states of a stream (STREAM_STATE). -/
inductive StreamState where
  | fenced
  | running
  | halted
  /-- its job ends once its writes are answered (R227, R266) -/
  | ending
deriving DecidableEq, Repr

/-- A held stream (R227 to R243). Source lines and destination lines are numbered as `StreamOps.lean` says. -/
structure Stream where
  tenant : TenantNo
  job : JobId
  spill : Bool
  descr : Descr
  steps : List StepAt
  fmt : Fmt
  rate : Nat
  sealed : Bool
  xtsEpoch : Word
  /-- the seed of a SPILL's narrowing, once its run has begun (R65) -/
  seed : Option Word
  state : StreamState
  cause : Nat
  /-- acceptance order, for fences -/
  order : Nat
  elemLines : Nat
  scaleLines : Nat
  /-- lines of the escape extent of a SPILL's run, once its last chunk is made -/
  escLines : Nat
  /-- source lines not yet asked for, in order -/
  toRead : List Nat
  /-- source lines asked for and not yet answered -/
  reading : Nat
  /-- source lines that the pipeline has read from the front -/
  got : Tab MemBeat
  table : Option (List Nat)
  /-- chunks whose output has been made -/
  made : List Nat
  /-- destination lines made and not yet acknowledged, and those of them not yet written -/
  out : Tab MemBeat
  toWrite : List Nat
  reads : Nat
  writes : Nat
  /-- saved position of a halt, and whether a write met it -/
  position : Nat
  haltWrite : Bool
  code : Code
  /-- the code of a request that failed while the stream was halted (R243) -/
  failing : Code
deriving DecidableEq, Repr

/-- A target entry of a restore plan (R244). `rsv` says that a reserved value or field is set. -/
structure PlanEntry where
  tensorId : Dword
  grid : Bool
  rank : Nat
  exact_ : Bool
  layout : Nat
  fmt : Nat
  dst0 : Nat
  dst1 : Nat
  gshape : List Nat
  sstart : List Nat
  slen : List Nat
  rsv : Bool
deriving DecidableEq, Repr

/-- A shard entry of a manifest (R185). -/
structure ShardEntry where
  no : Nat
  len : Nat
  off : Nat
  digest : Nat
  buddies : List Nat
deriving DecidableEq, Repr

/-- An extent entry as read (R181), with its index in its shard and its coordinate records. -/
structure ExtentIn where
  idx : Nat
  cls : Nat
  fmt : Nat
  srcFmt : Nat
  flags : Nat
  runExt : Nat
  rnd : Nat
  rate : Nat
  src : Nat
  link : Nat
  off : Nat
  len : Nat
  scaleOff : Nat
  units : Nat
  digest : Nat
  coords : List Coord
deriving DecidableEq, Repr

/-- A shard that has passed its checks. -/
structure ShardIn where
  entry : ShardEntry
  xtsEpoch : Word
  extents : List ExtentIn
deriving DecidableEq, Repr

/-- A location of a group whose slot has been chosen (R246): what kind it is, its peer, slot A or B, the slot's first byte in host memory
for KIND 0b01, its size, the first shard and extent that a body tail record names as absent (R189), and what the peer's slot holds
for KIND 0b10 (log 58). -/
structure SrcLoc where
  kind : Nat
  peer : Nat
  slot : Bool
  base : Nat
  size : Nat
  absent : Nat × Nat
  held : SlotData
deriving DecidableEq, Repr

/-- A group of a restore after planning: its number, the grid of its manifest, the shards that its manifest lists, those that have been
read, in ascending SHARD_NO, and its locations. -/
structure SrcGroup where
  no : Nat
  gridCols : Nat
  gridRows : Nat
  listed : List ShardEntry
  shards : List ShardIn
  locs : List SrcLoc
deriving DecidableEq, Repr

/-- An extent that a target entry reads: its group, shard and index, which of the locations that hold it is being read, the numbers of its
lines among the entry's source lines, and the code of the last location that failed (R246). -/
structure SrcPiece where
  group : Nat
  shard : Nat
  extent : Nat
  holder : Nat
  first : Nat
  lines : Nat
  code : Code
deriving DecidableEq, Repr

/-- One write of a restore (R244, R252): its address, its bytes, which of its lines carry the poison marker, and the number of its first
line among the lines that its entry writes. -/
structure RestoreWrite where
  addr : Nat
  bytes : List Byte
  poison : List Bool
  line : Nat
deriving DecidableEq, Repr

/-- The states of a target entry of a restore. -/
inductive EntryState where
  | waiting
  | running
  | ended
deriving DecidableEq, Repr

/-- A target entry of a running restore (R244, R252): what it restores, what it still reads and has read, the writes it makes, in order,
and what bytes 192-255 of it will say. -/
structure RestoreEntry where
  state : EntryState
  stream : Nat
  target : PlanEntry
  pieces : List SrcPiece
  /-- source lines not yet asked for, in order, lines asked for and not yet answered, requests outstanding -/
  toRead : List Nat
  reading : Nat
  reads : Nat
  /-- source lines that the pipeline has read from the front -/
  got : Tab MemBeat
  /-- chunks of its coded extents that have passed a lane (R155) -/
  coded : Nat
  /-- its writes have been made -/
  made : Bool
  writes : List RestoreWrite
  /-- writes issued and not yet answered -/
  sent : List RestoreWrite
  /-- saved position while the entry's stream is halted: the number of the first line of the faulting request -/
  halted : Option Nat
  cause : Nat
  /-- the last write, of bytes 192 to 255 of the target entry, has been issued -/
  closed : Bool
  result : Code
  rotPhase : Word
  doneUnits : Nat
  rounded : Nat
  resultAddr : Nat
deriving DecidableEq, Repr

/-- What a restore of this engine's own checkpoint sets at completion (R191, R254): slot, EPOCH, STEP, and the largest EPOCH of the valid
slots of its pair. -/
structure RestoreCommit where
  slot : Bool
  epoch : Dword
  step : Dword
  newest : Dword
deriving DecidableEq, Repr

/-- A running restore. -/
structure Restore where
  job : JobId
  tenant : TenantNo
  /-- acceptance order, for fences -/
  order : Nat
  /-- its stream numbers (R227) -/
  numbers : List Nat
  groups : List SrcGroup
  entries : List RestoreEntry
  /-- for each group of this engine's own, in ascending order -/
  commits : List RestoreCommit
  /-- it has ended: its job completes once its writes are answered (R227) -/
  ending : Bool
deriving DecidableEq, Repr

/-- Streams by number, restores in flight, the order given last, and the streams without a deadline that were granted a request and an
encode and a decode lane last. -/
structure Streams where
  held : Tab Stream
  restores : List Restore
  nextOrder : Nat
  turn : Nat
  encTurn : Nat
  decTurn : Nat
deriving DecidableEq, Repr

/-! ### Pollen -/

/-- The states of a session (PEER_STATUS). -/
inductive SessState where
  | none
  | opening
  | keyed
deriving DecidableEq, Repr

/-- A sequenced frame of this engine (R213): its SEQ once it has been sent, and how often it has been resent. -/
structure TxFrame where
  seq : Option Word
  frame : Frame
  retries : Nat
deriving DecidableEq, Repr

/-- Sequence and credit state of one session on one port (R211 to R215). `queue` holds the frames that wait to be sent or
to be sent again; `used` counts the lines charged against the far end's CREDIT_LIMIT `limitIn`, and `charged` the lines that
the far end has used of `limitOut`. -/
structure PortSess where
  nextSeq : Word
  unacked : List TxFrame
  queue : List TxFrame
  expect : Word
  owed : Nat
  nakFor : Option Word
  nakAge : Nat
  limitIn : Word
  used : Word
  limitOut : Word
  charged : Word
deriving DecidableEq, Repr

/-- A session's port before its first frame (R207). -/
def PortSess.fresh : PortSess :=
  { nextSeq := 0, unacked := [], queue := [], expect := 0, owed := 0, nakFor := .none, nakAge := 0, limitIn := 0, used := 0,
    limitOut := 0, charged := 0 }

/-- The session of one tenant with one peer slot (R207 to R210), and the setup that may replace it (R208). -/
structure Session where
  state : SessState
  initiator : Bool
  id : Word
  nonceI : BitVec 256
  nonceR : BitVec 256
  key : BitVec 256
  pages : Nat
  live : BitVec 48
  ports : Tab PortSess
  sinceRx : Nat
  openBeats : Nat
  rekey : Bool
  newId : Word
  newNonceI : BitVec 256
  newNonceR : BitVec 256
  newKey : BitVec 256
  newSetup : Bool
  /-- an OPEN accepted on this port waits for the draw of its NONCE_R (R330) -/
  drawWait : Option Nat
deriving DecidableEq, Repr

/-- No session. -/
def Session.none : Session :=
  { state := .none, initiator := false, id := 0, nonceI := 0, nonceR := 0, key := 0, pages := 0, live := 0, ports := [],
    sinceRx := 0, openBeats := 0, rekey := false, newId := 0, newNonceI := 0, newNonceR := 0, newKey := 0,
    newSetup := false, drawWait := Option.none }

/-- What an exchange that this engine started is for. -/
inductive XchgFor where
  /-- an operation of the running cut at the peer slot -/
  | cut (op : DestOp)
  /-- a WRITE of a cut that has ended: its completion waits for the answer (R266); none is a plan completion -/
  | closing (id : Option JobId) (code : Code) (plan : Bool) (result : List Byte)
  /-- a VERIFY of a cut that has ended: its answer means nothing more -/
  | over
deriving DecidableEq, Repr

/-- A vault exchange that this engine started (R221, R289). -/
structure Xchg where
  tenant : Nat
  slot : Nat
  port : Nat
  tag : BitVec 8
  use : XchgFor
  dataSent : Bool
deriving DecidableEq, Repr

/-- Pollen (09_pollen): link state, sessions by 16 × tenant + slot, strangers met per port in this beat, exchanges, and the session
of each port that was granted credit last (R214). -/
structure Pollen where
  portUp : BitVec 48
  sess : Tab Session
  strangers : Tab Nat
  xchgs : List Xchg
  lastTag : BitVec 8
  creditTurn : Tab Nat
deriving DecidableEq, Repr

/-! ### The vault -/

/-- A framed vault packet of a host queue: its 32 B header and its payload lines (R284, R286). -/
structure Packet where
  hdr : BitVec 256
  payload : List MemBeat
  /-- a reserved bit of its header line is set -/
  rsv : Bool
deriving DecidableEq, Repr

/-- What a READ or VERIFY will meet: what its reads of the window lines of a link queue find, and the mismatches of the hash cores
(R298, R301, R331). -/
structure CmdReads where
  window : List LineRead := []
  faults : List CoreFault := []
deriving DecidableEq, Repr

/-- What a VERIFY needs once its flush has ended (R301): the digest expected, and what it will meet. -/
structure VerifyReads where
  expected : BitVec 256
  reads : CmdReads
deriving DecidableEq, Repr

/-- An entry of the deferred-error page (R302, R303). -/
structure Deferred where
  stamp : Dword
  queue : Nat
  code : Code
  offset : Nat
deriving DecidableEq, Repr

/-- A vault command in flight (R283 to R293). `session` is 16 × tenant + slot of the session that carried it. -/
structure VCmd where
  tag : BitVec 8
  opcode : Nat
  flags : Nat
  tenant : TenantNo
  session : Option Nat
  offset : Nat
  len : Nat
  arg : Nat
  /-- XFER_RDY has been sent and LEN ÷ 64 lines are reserved -/
  ready : Bool
  staged : List MemBeat
  /-- its RESP waits for the durability of the lines of `waits` -/
  waiting : Bool
  waits : List (FrontKey × Nat)
  /-- failures met by its flush, by byte offset -/
  failures : List (Nat × Code)
  verify : Option VerifyReads
  /-- DATA packets that wait for OUT lines, and the RESP behind them: code and ARG -/
  toSend : List (BitVec 256 × List MemBeat)
  answer : Option (Code × Nat)
  age : Nat
  /-- order of acceptance over all queues (R307) -/
  order : Nat
  /-- class arbitration has given it the way out (R307) -/
  serving : Bool
  /-- the deferred errors that a GET_LOG with CLEAR returns and removes (R303) -/
  clear : List Deferred
deriving DecidableEq, Repr

/-- A CMD that a link queue has received and that has not started, for want of a steward (R354): its session, packet header and
payload, and what the reads of a READ or VERIFY will find. -/
structure LinkCmd where
  session : Nat
  hdr : BitVec 256
  payload : List MemBeat
  reads : CmdReads
deriving DecidableEq, Repr

/-- The state of one path's class arbitration for one tenant (R307): credit of HIGH, NORMAL and BULK, and the class served last. -/
structure VArb where
  credit : List Int
  last : Nat
deriving DecidableEq, Repr

/-- No credit yet; HIGH is the first class after the last one served. -/
def VArb.fresh : VArb := { credit := [0, 0, 0], last := 2 }

/-- One vault queue (R282 to R288). -/
structure VQueue where
  inTail : Nat
  inFetch : Nat
  inPhase : Bool
  chain : List LineData
  phaseWait : Option Nat
  phaseBeat : Dword
  packets : List Packet
  /-- lines of the IN window that have been read while framing waits for an OUT line -/
  unread : List LineRead
  outHead : Nat
  outTail : Nat
  outPhase : Bool
  cmds : List VCmd
  resetting : Bool
  outWait : Bool
  held : List LinkCmd
deriving DecidableEq, Repr

/-- A queue that is not active or has just been reset. -/
def VQueue.fresh : VQueue :=
  { inTail := 0, inFetch := 0, inPhase := true, chain := [], phaseWait := none, phaseBeat := 0, packets := [], unread := [], outHead := 0,
    outTail := 0, outPhase := true, cmds := [], resetting := false, outWait := false, held := [] }

/-- A tenant's features and log pages (R303, R304). -/
structure VTenant where
  arb : Word
  wcache : Word
  /-- 32 B entries, newest first, at most 32 -/
  errors : List (List Byte)
  /-- in order of occurrence, at most 31 -/
  deferred : List Deferred
  overflow : Bool
deriving DecidableEq, Repr

/-- Features at their defaults, empty logs. -/
def VTenant.fresh : VTenant :=
  { arb := 0x00010408, wcache := 0, errors := [], deferred := [], overflow := false }

/-- A DRAIN in flight (R276): lines it flushes and the failures met. -/
structure Drain where
  job : JobId
  waits : List (FrontKey × Nat)
  failures : List (Nat × Code)
deriving DecidableEq, Repr

/-- The vault (12_vault): queues, per-tenant features and logs, drains, the firmware staging buffer (R305), the vault lines
whose write-back has failed and waits (R118, R302), the deferred errors that no FLUSH or VERIFY has reported (R302), class
arbitration by path (R307; log 74), and the next number of an acceptance and of an application. -/
structure Vault where
  queues : Tab VQueue
  tenants : Tab VTenant
  drains : List Drain
  staging : List Byte
  failed : List (FrontKey × Code)
  owed : List (FrontKey × Code)
  arbs : Tab VArb
  nextOrder : Nat
deriving DecidableEq, Repr

/-! ### Tenants -/

/-- The states of a tenant slot (13_security). -/
inductive SlotState where
  | free
  | admitted
  | attested
deriving DecidableEq, Repr

/-- A RELEASE that runs (R332): the cycles still to pass before edge e, then the edges still to come until its completion, and its
job. -/
structure Releasing where
  wait : Nat
  after : Option Nat
  job : Option JobId
deriving DecidableEq, Repr

/-- One tenant slot. -/
structure Tenant where
  state : SlotState
  uid : BitVec 128
  policy : BitVec 4
  sealKey : Option (BitVec 512)
  pollenKey : Option (BitVec 256)
  keyId : Word
  /-- a KEY_EXCHANGE has been answered and its FINISH has not come -/
  exchanging : Bool
  session : Bool
  /-- the SPDM session keys that the KEY_EXCHANGE derived (R325) -/
  sessionKeys : Option (BitVec 512)
  debugAccessed : Bool
  releasing : Option Releasing
deriving DecidableEq, Repr

/-- A FREE slot. -/
def Tenant.none : Tenant :=
  { state := .free, uid := 0, policy := 0, sealKey := .none, pollenKey := .none, keyId := 0, exchanging := false,
    session := false, sessionKeys := .none, debugAccessed := false, releasing := .none }

/-! ### Service -/

/-- One Foxglove record (R344). -/
structure FoxRec where
  seq : Word
  source : BitVec 8
  sev : BitVec 3
  escalated : Bool
  tenant : Option TenantNo
  stamp : Dword
deriving DecidableEq, Repr

/-- PENDING and EFF_SEV of a source (R345). -/
structure FoxSrc where
  pending : Bool
  sev : BitVec 3
deriving DecidableEq, Repr

/-- Foxglove (R343 to R350). Record i of FOX_LOG stands at index i. -/
structure Fox where
  seq : Word
  log : Tab FoxRec
  srcs : Tab FoxSrc
  recovery : Bool
  fatHeld : Bool
  fatalDue : Bool
deriving DecidableEq, Repr

/-- The steps of a live firmware update (R359). -/
inductive FwStep where
  | none
  /-- step 1: the standby restarts on the new slot; beats since -/
  | restarting (beats : Nat)
  /-- step 3: the soak; beats left -/
  | soak (left : Nat)
deriving DecidableEq, Repr

/-- The scheduler state that the standby copies at every edge, where the hardware does not hold it itself (R31): whose turn it is, of the
rings, the streams, the sessions' credit, and the classes of the vault. -/
structure Mirror where
  turn : Nat
  weight : Nat
  streamTurn : Nat
  creditTurn : Tab Nat
  arbs : Tab VArb
deriving DecidableEq, Repr

/-- The referee and the control halves (R351 to R360). -/
structure Referee where
  steward : Option Half
  /-- the standby's copy of the scheduler state, as of the last edge (R31) -/
  mirror : Option Mirror
  /-- a planned handover is due at the edge just taken (R353) -/
  edgeDue : Bool
  /-- the named half has resumed as steward since the last reset (R373) -/
  resumed : Bool
  epoch : Word
  standbyReady : Bool
  missNorth : Nat
  missSouth : Nat
  beatNorth : Bool
  beatSouth : Bool
  claims : List (Half × Word)
  handover : Bool
  /-- beats since the other half restarted, while it resynchronises -/
  resync : Option Nat
  fw : FwStep
  fwTag : BitVec 8
  fwSvn : Word
deriving DecidableEq, Repr

/-- Supply, power states and bring-up (15_power_reset). -/
structure Power where
  state : BitVec 2
  req : BitVec 2
  entering : Bool
  /-- an exit is in progress after a wake event -/
  exiting : Bool
  lastReset : BitVec 2
  bodyLoaded : Bool
  frontClear : Bool
  noiseOk : Bool
  fwRunning : Bool
  /-- full firmware has run since the cold reset (R253) -/
  started : Bool
  sysReady : Bool
  vwbStep : BitVec 5
  vaonStep : BitVec 5
  level : Nat
  cooler : Nat
  sample : Word
  p2Beats : Nat
deriving DecidableEq, Repr

/-- The fuses and buffers behind the KEY port (R325, R409). -/
structure Keys where
  identity : Option (BitVec 384)
  chain : List Word
  chainLocked : Bool
  fwWords : List Word
  fwDigest : Option (BitVec 384)
deriving DecidableEq, Repr

/-- The DBG port (R411, R412, R334). -/
structure Dbg where
  dr : BitVec 56
  testMode : Bool
deriving DecidableEq, Repr

/-- Self-test (R432). -/
structure SelfTest where
  running : Bool
  ctrl : BitVec 4
  last : BitVec 4
  code : Code
deriving DecidableEq, Repr

/-! ### Outputs -/

/-- The SPDM responses of the subset (R319). -/
inductive SpdmRsp where
  | version
  | capabilities
  | algorithms
  | digests
  | certificate
  | challengeAuth
  | measurements
  | keyExchange
  | finish
  | keyUpdate
  | endSession
  | vendor
  /-- ERROR with code UnexpectedRequest (R322) -/
  | unexpected
  /-- ERROR with code UnsupportedRequest (R319) -/
  | unsupported
  /-- ERROR with a code that the manual does not name (R320) -/
  | otherError
  /-- no response: its signature failed twice (R329) -/
  | signFailed
deriving DecidableEq, Repr

/-- What the engine drives on its ports. Delays in cc count from the event that the command stands for. -/
inductive Output where
  | memRead (channel : Nat) (tag : BitVec 12) (addr lines : Nat) (prio : BitVec 2)
  | memWrite (channel : Nat) (tag : BitVec 12) (addr : Nat) (bytes : List Byte) (poison : List Bool) (prio : BitVec 2)
  | broadcast (b : Broadcast) (delay : Nat)
  | sysResume (delay : Nat)
  | sysCommitOut
  | verdict (client : Nat) (htag : BitVec 4) (hold : Bool) (delay : Nat)
  | release (client : Nat) (htag : BitVec 4)
  | frame (port : Nat) (f : Frame)
  | tileWait (tile : Nat)
  | busError
  | cfgDone
  | keyRsp (status : BitVec 2) (rdata : Word)
  | dbgOut (dr : BitVec 56)
  | idcode (code : Word)
  /-- an SPDM response: its kind, and what it carries of the engine's state; the message bytes are DMTF's (R319) -/
  | spdm (slot : TenantNo) (kind : SpdmRsp) (content : List Byte)
deriving DecidableEq, Repr

/-! ### The engine and the state -/

/-- Everything of the engine but the kit, the register file and the command queue. -/
structure Engine where
  beat : Beat
  budget : Budget
  count : Counters
  stem : Stem
  buds : Tab Bud
  cut : Cut
  guard : Guard
  front : Front
  body : Body
  bulb : Bulb
  units : Units
  recipes : Recipes
  pollen : Pollen
  streams : Streams
  rings : Rings
  vault : Vault
  tenants : Tab Tenant
  fox : Fox
  referee : Referee
  power : Power
  keys : Keys
  dbg : Dbg
  selfTest : SelfTest
  mem : Mem
  out : List Output
  /-- the model's own field: how many free values have been drawn -/
  draws : Nat
deriving DecidableEq, Repr

/-- The state: the kit, the register file, the engine, and the commands that wait, first in first out. -/
structure State where
  kit : Kit
  regs : Regs
  eng : Engine
  pending : List Instr
deriving DecidableEq, Repr

/-- Why the engine stops. It never does by itself: the one fault is the model's. -/
inductive Fault where
  /-- Raised by a command that names a tile, port, client, channel or region beyond the configured counts (R3): there is no
  such object to present it. Safe. -/
  | noSuchUnit
deriving DecidableEq, Repr

/-- Why the model refuses a command. -/
inductive Refusal where
  /-- Raised by an arm of `exec` whose command has no meaning yet; none is left. Safe. -/
  | notModelled (mnemonic : String)
deriving DecidableEq, Repr

/-- The register file at reset: every word at its reset value. -/
def Regs.reset : Regs :=
  { live := [], shadow := [], cmtSource := 0, cmtCode := 0, cmtOffset := 0, strobeHeld := false, crcLive := 0,
    passValid := false, mismatch := false }

/-- The stored values at manufacture. -/
def Body.made : Body :=
  { lines := [], upsets := [], remap := [], banks := [], kept := [], badEnc := [], badDec := [], badCipher := [], badHash := [], minSvn := 0,
    slot0 := [], slot1 := [], activeSlot := false, nextSlot := false }

/-- The engine after a cold reset of a part as manufactured (R372). -/
def Engine.reset : Engine :=
  { beat := { mode := .acquire, num := 0, offset := 0, slip := 0, lastCc := 0, clampRun := 0, timeNow := 0, cc := 2500,
              sealed := false, firstLock := false, firstEdgeDue := false, sinceWindow := 0, sinceCal := 0, cycle := 0 }
    budget := { entries := 0, bulb := 0, streamRead := [], streamWrite := [], hold := [], buddy := [], link := [], memRead := [], memWrite := [] }
    count := { live := [], latched := [], shadow := [], shadowBeat := 0 }
    stem := { issued := [], frozen := [], scrubbed := 0 }
    buds := []
    cut := { phase := .none, run := none, lastCode := 0, lastTenant := 0, step := 0, lastStep := none, template := [],
             planActive := false, planTenant := 0, planSource := 0, planLeft := 0, planWaits := false, missing := [] }
    guard := { ranges := [], parities := 0, grans := [], holds := [], queue := [], reading := [] }
    front := { lines := [], reserved := 0, streamLines := 0, patrol := 0, clearedCc := 0 }
    body := Body.made
    bulb := { errors := [], remap := none, due := [], writes := [], copies := [], patrol := 0, patrolWait := 0,
              vwbGoal := 16, cal := none }
    units := { enc := [], dec := [], cipher := [], hash := [], noise := .startup, spareBusy := false, spareCode := 0 }
    recipes := { held := [], sets := [] }
    pollen := { portUp := 0, sess := [], strangers := [], xchgs := [], lastTag := 0, creditTurn := [] }
    streams := { held := [], restores := [], nextOrder := 0, turn := 511, encTurn := 511, decTurn := 511 }
    rings := { rings := [], turn := 255, weight := 0, jobs := [] }
    vault := { queues := [], tenants := [], drains := [], staging := [], failed := [], owed := [], arbs := [], nextOrder := 0 }
    tenants := []
    fox := { seq := 0, log := [], srcs := [], recovery := false, fatHeld := false, fatalDue := false }
    referee := { steward := none, mirror := none, edgeDue := false, resumed := false, epoch := 0, standbyReady := false, missNorth := 0, missSouth := 0,
                 beatNorth := false, beatSouth := false, claims := [], handover := false, resync := none, fw := .none,
                 fwTag := 0, fwSvn := 0 }
    power := { state := 0, req := 0, entering := false, exiting := false, lastReset := 1, bodyLoaded := false,
               frontClear := false, noiseOk := false, fwRunning := false, started := false, sysReady := false, vwbStep := 16, vaonStep := 16,
               level := 0, cooler := 0, sample := 0, p2Beats := 0 }
    keys := { identity := none, chain := [], chainLocked := false, fwWords := [], fwDigest := none }
    dbg := { dr := 0, testMode := false }
    selfTest := { running := false, ctrl := 0, last := 0, code := 0 }
    mem := { reqs := [], lastTag := 0 }
    out := []
    draws := 0 }

/-- The state right after a cold reset: RC-A, as manufactured, with an empty command queue. -/
def State.reset : State :=
  { kit := Kit.rcA, regs := Regs.reset, eng := Engine.reset, pending := [] }

end Sys2Proof.Machine
end

