-- ==== Sys2Proof/Machine/RegMap.lean ====
section
/-!
DEFINITION. The address map of the CFG window (17_registers, R433): which words hold an RW field, their masks and reset
values (the field maps of every chapter), the accessors of the live words, and the offsets of the counters.
-/

namespace Sys2Proof.Machine

/-- A word with an RW field: the mask of its RW bits and the mask of its reserved bits (R414). -/
structure WordInfo where
  rw : Nat
  rsv : Nat
deriving DecidableEq, Repr

/-- A word whose bits are RW in `m` and reserved elsewhere. -/
def rwOnly (m : Nat) : Option WordInfo := some ⟨m, 2 ^ 32 - 1 - m⟩

/-- `off` is `base + stride × i + at` for some i below `n`; answers i. -/
def instanceOf (base stride n at_ off : Nat) : Option Nat :=
  if base + at_ ≤ off ∧ (off - base - at_) % stride = 0 ∧ (off - base - at_) / stride < n then
    some ((off - base - at_) / stride)
  else none

/-- `off` is one of such instances. -/
def isInstance (base stride n at_ off : Nat) : Bool := (instanceOf base stride n at_ off).isSome

/-- The default severity of a fault source (R343). -/
def foxDefault (s : Nat) : Nat :=
  if s ∈ [0x09, 0x15, 0x28, 0x2C, 0x30] then 0
  else if s ∈ [0x06, 0x10, 0x12, 0x18, 0x1C, 0x20, 0x21] then 1
  else if s ∈ [0x00, 0x02, 0x05, 0x08, 0x0C, 0x11, 0x13, 0x14, 0x16, 0x1D, 0x22, 0x29, 0x2A, 0x2D, 0x31] then 2
  else if s ∈ [0x01, 0x04, 0x07, 0x0A, 0x0B, 0x17, 0x23, 0x24, 0x2E, 0x32, 0x38] then 3
  else if s = 0x03 then 4
  else if 0x40 ≤ s ∧ s < 0x80 then 1
  else if 0x80 ≤ s then 2
  else 0

/-- The fixed sources of R343. -/
def foxFixed : List Nat :=
  [0x00, 0x01, 0x02, 0x03, 0x04, 0x05, 0x06, 0x07, 0x08, 0x09, 0x0A, 0x0B, 0x0C, 0x10, 0x11, 0x12, 0x13, 0x14, 0x15, 0x16,
   0x17, 0x18, 0x1C, 0x1D, 0x20, 0x21, 0x22, 0x23, 0x24, 0x28, 0x29, 0x2A, 0x2C, 0x2D, 0x2E, 0x30, 0x31, 0x32, 0x38]

/-- The configuration implements source `s` (R343). -/
def foxImplemented (k : Kit) (s : Nat) : Bool :=
  foxFixed.contains s || (decide (0x40 ≤ s) && decide (s < 0x40 + k.linkPorts)) ||
    (decide (0x80 ≤ s) && decide (s < 0x80 + k.regions))

/-- The reset value of a word with an RW field, or of a ring's configuration word (R372, the field maps). -/
def resetWord (off : Nat) : Word :=
  if off = 0x2000 then 0x9C4
  else if off = 0x4018 then 0x40
  else if off = 0x8004 then 1
  else if off = 0x800C then 0x01000000
  else if off = 0x8010 then 0x40
  else if off = 0x8014 then 0x100
  else if off = 0x9004 then 0x380
  else if off = 0xC000 then 0xFFFF
  else if off = 0xC004 then 0x01082000
  else if off = 0xC008 then 0x100
  else if off = 0xC00C then 0x400
  else if off = 0x10014 then 0x108
  else if off = 0x50004 then 0x400
  else if off = 0x5001C then 0x20007A12
  else match instanceOf 0x50400 4 256 0 off with
    | some s => BitVec.ofNat 32 (foxDefault s)
    | none => 0

/-- The masks of a word that holds an RW field (R413), none for every other offset. -/
def rwWord (k : Kit) (off : Nat) : Option WordInfo :=
  if off = 0x1008 then rwOnly 1
  else if off = 0x100C then rwOnly 0xFFFFFFFF
  else if off = 0x2000 then rwOnly 0xFFF
  else if off = 0x4018 then rwOnly 0xFFF
  else if off = 0x4020 then rwOnly 0x8FFFFFFF
  else if off = 0x8004 then rwOnly 0x7FF
  else if off = 0x8008 ∨ off = 0x800C then rwOnly 0xFFFFFFFF
  else if off = 0x8010 then rwOnly 0xFFFF
  else if off = 0x8014 then rwOnly 0xFFFFFF
  else if isInstance 0x8100 4 16 0 off then rwOnly 0xC001FFFF
  else if off = 0x9004 then rwOnly 0x7FF
  else if off = 0xC000 then rwOnly 0xFFFF
  else if off = 0xC004 then rwOnly 0x0FFFFFFF
  else if off = 0xC008 then rwOnly 0x7FF
  else if off = 0xC00C then rwOnly 0xFFFF
  else if isInstance 0xC040 4 16 0 off then rwOnly 0x7FF
  else if isInstance 0xC100 0x20 256 0 off then rwOnly 0x8000FFFF
  else if isInstance 0xC100 0x20 256 4 off then rwOnly 0xFFFFFFFF
  else if isInstance 0xC100 0x20 256 8 off then rwOnly 0xFFFF
  else if isInstance 0xE200 0x10 16 0 off ∨ isInstance 0xE200 0x10 16 4 off ∨ isInstance 0xE200 0x10 16 8 off then
    rwOnly 0xFFFFFFFF
  else if isInstance 0xE200 0x10 16 0xC off then rwOnly 0xFFF
  else if isInstance 0xE400 0x10 64 0 off then rwOnly 0xFFFFF000
  else if isInstance 0xE400 0x10 64 4 off then rwOnly 0xFFFFFFFF
  else if isInstance 0xE400 0x10 64 8 off then rwOnly 0x0FFFFFFF
  else if isInstance 0xE400 0x10 64 0xC off then rwOnly 0x800FFFFF
  else if off = 0x10000 ∨ off = 0x10008 then rwOnly 0xFFFFF000
  else if off = 0x10004 ∨ off = 0x1000C then rwOnly 0xFFFFFFFF
  else if off = 0x10010 then rwOnly 0xFFFE000F
  else if isInstance 0x10000 0x40 256 0x14 off then rwOnly 0xFFFF
  else if isInstance 0x18000 0x10 128 0 off then rwOnly 0xFFFFF000
  else if isInstance 0x18000 0x10 128 4 off ∨ isInstance 0x18000 0x10 128 8 off then rwOnly 0xFFFFFFFF
  else if isInstance 0x18000 0x10 128 0xC off then rwOnly 0x8000000F
  else if isInstance 0x30000 0x40 16 0 off ∨ isInstance 0x30000 0x40 16 8 off then rwOnly 0xFFFFF000
  else if isInstance 0x30000 0x40 16 4 off ∨ isInstance 0x30000 0x40 16 0xC off then rwOnly 0xFFFFFFFF
  else if isInstance 0x30000 0x40 16 0x10 off then rwOnly 0xBFFE000F
  else if isInstance 0x40000 0x40 16 0x18 off ∨ isInstance 0x40000 0x40 16 0x1C off ∨ isInstance 0x40000 0x40 16 0x20 off then
    rwOnly 0x7FF
  else if isInstance 0x40000 0x40 16 0x24 off then rwOnly 0x3FFFFF
  else if isInstance 0x40000 0x40 16 0x28 off then rwOnly 0x7FFFFFF
  else if off = 0x40400 then rwOnly 1
  else if off = 0x50004 then rwOnly 0xF07
  else if off = 0x5001C then rwOnly 0xF00FFFFF
  else match instanceOf 0x50400 4 256 0 off with
    | some s => if foxImplemented k s then some ⟨0x17, 0x0FFFFFE8⟩ else none
    | none => none

/-- The offsets of the words that hold an RW field, ascending (R428 reads them in this order). -/
def rwOffsets (k : Kit) : List Nat :=
  let range (base stride n : Nat) (ats : List Nat) : List Nat :=
    (List.range n).flatMap fun i => ats.map fun a => base + stride * i + a
  [0x1008, 0x100C, 0x2000, 0x4018, 0x4020, 0x8004, 0x8008, 0x800C, 0x8010, 0x8014] ++ range 0x8100 4 16 [0] ++
  [0x9004, 0xC000, 0xC004, 0xC008, 0xC00C] ++ range 0xC040 4 16 [0] ++ range 0xC100 0x20 256 [0, 4, 8] ++
  range 0xE200 0x10 16 [0, 4, 8, 0xC] ++ range 0xE400 0x10 64 [0, 4, 8, 0xC] ++
  [0x10000, 0x10004, 0x10008, 0x1000C, 0x10010] ++ range 0x10000 0x40 256 [0x14] ++
  range 0x18000 0x10 128 [0, 4, 8, 0xC] ++ range 0x30000 0x40 16 [0, 4, 8, 0xC, 0x10] ++
  range 0x40000 0x40 16 [0x18, 0x1C, 0x20, 0x24, 0x28] ++ [0x40400, 0x50004, 0x5001C] ++
  ((List.range 256).filter (foxImplemented k)).map fun s => 0x50400 + 4 * s

/-- The live value of a word. -/
def Regs.word (r : Regs) (off : Nat) : Nat := (tabGet resetWord off r.live).toNat

/-- The shadow value of a word (R414). -/
def Regs.shadowWord (r : Regs) (off : Nat) : Nat := (tabGet resetWord off r.shadow).toNat

/-- Bits [hi:lo] of the live word at `off`. -/
def Regs.fld (r : Regs) (off hi lo : Nat) : Nat := bits hi lo (r.word off)

/-- A live 64-bit pair. -/
def Regs.pair (r : Regs) (off : Nat) : Nat := r.word off + 2 ^ 32 * r.word (off + 4)

/-- BEAT_CC (02_beat). -/
def Regs.beatCc (r : Regs) : Nat := r.fld 0x2000 11 0

/-- DISP_FLOOR (R102). -/
def Regs.dispFloor (r : Regs) : Nat := r.fld 0x4018 11 0

/-- PREEMPT_PLAN fields (04_cut). -/
def Regs.planEnable (r : Regs) : Bool := bitOf 31 (r.word 0x4020)
def Regs.planTenant (r : Regs) : TenantNo := BitVec.ofNat 4 (r.fld 0x4020 27 24)
def Regs.planRing (r : Regs) : Nat := r.fld 0x4020 23 16
def Regs.planDeadline (r : Regs) : Nat := r.fld 0x4020 15 0

/-- Bulb control registers (05_bulb). -/
def Regs.scrubInterval (r : Regs) : Nat := r.fld 0x8004 10 0
def Regs.wearLimit (r : Regs) : Nat := r.pair 0x8008
def Regs.ceLimit (r : Regs) : Nat := r.fld 0x8010 15 0
def Regs.rotateGap (r : Regs) : Nat := r.fld 0x8014 23 0

/-- BODY_PART of tenant `t` (R124). -/
def Regs.bodyMode (r : Regs) (t : Nat) : Nat := r.fld (0x8100 + 4 * t) 31 30
def Regs.bodyBanks (r : Regs) (t : Nat) : Nat := r.fld (0x8100 + 4 * t) 16 8
def Regs.bodyBase (r : Regs) (t : Nat) : Nat := r.fld (0x8100 + 4 * t) 7 0

/-- STREAM_MEM_SHARE (R98, R237). -/
def Regs.streamShare (r : Regs) : Nat := r.fld 0x9004 10 0

/-- Pollen registers (09_pollen). -/
def Regs.self (r : Regs) : Nat := r.fld 0xC000 15 0
def Regs.rto (r : Regs) : Nat := r.fld 0xC004 15 0
def Regs.probeInterval (r : Regs) : Nat := r.fld 0xC004 27 20
def Regs.retryLimit (r : Regs) : Nat := r.fld 0xC004 19 16
def Regs.buddyShare (r : Regs) : Nat := r.fld 0xC008 10 0
def Regs.inboundLines (r : Regs) : Nat := r.fld 0xC00C 15 0
def Regs.linkShare (r : Regs) (t : Nat) : Nat := r.fld (0xC040 + 4 * t) 10 0

/-- Offset of the peer slot `i` of tenant `t`. -/
def peerOff (t i : Nat) : Nat := 0xC100 + 0x20 * (16 * t + i)

def Regs.peerEnable (r : Regs) (t i : Nat) : Bool := bitOf 31 (r.word (peerOff t i))
def Regs.peerId (r : Regs) (t i : Nat) : Nat := r.fld (peerOff t i) 15 0
def Regs.peerMask (r : Regs) (t i : Nat) : Nat := r.word (peerOff t i + 4) + 2 ^ 32 * r.fld (peerOff t i + 8) 15 0

/-- Replica list `l` of tenant `t`: its peer slots in order (R217). -/
def Regs.buddyList (r : Regs) (t l : Nat) : List Nat :=
  (List.range (r.fld (0xE20C + 0x10 * t) (4 * l + 3) (4 * l))).map fun j => r.fld (0xE200 + 0x10 * t + 4 * l) (4 * j + 3) (4 * j)

/-- Buddy window `w` (R219). -/
def Regs.winBase (r : Regs) (w : Nat) : Nat := r.pair (0xE400 + 0x10 * w)
def Regs.winPages (r : Regs) (w : Nat) : Nat := r.fld (0xE408 + 0x10 * w) 27 0
def Regs.winEnable (r : Regs) (w : Nat) : Bool := bitOf 31 (r.word (0xE40C + 0x10 * w))
def Regs.winTenant (r : Regs) (w : Nat) : Nat := r.fld (0xE40C + 0x10 * w) 19 16
def Regs.winPeer (r : Regs) (w : Nat) : Nat := r.fld (0xE40C + 0x10 * w) 15 0

/-- The enabled window of a tenant and a peer number, if one is set up. -/
def Regs.windowOf (r : Regs) (t peer : Nat) : Option Nat :=
  (List.range 64).find? fun w => r.winEnable w && r.winTenant w == t && r.winPeer w == peer

/-- Ring configuration words (11_rings). -/
def ringOff (n : Nat) : Nat := 0x10000 + 0x40 * n
def Regs.sqBase (r : Regs) (n : Nat) : Nat := r.pair (ringOff n)
def Regs.cqBase (r : Regs) (n : Nat) : Nat := r.pair (ringOff n + 8)
def Regs.ringActive (r : Regs) (n : Nat) : Bool := bitOf 31 (r.word (ringOff n + 0x10))
def Regs.ringChained (r : Regs) (n : Nat) : Bool := bitOf 30 (r.word (ringOff n + 0x10))
def Regs.ringVec (r : Regs) (n : Nat) : Nat := r.fld (ringOff n + 0x10) 29 27
def Regs.cqSize (r : Regs) (n : Nat) : Nat := 2 ^ r.fld (ringOff n + 0x10) 26 22
def Regs.sqSize (r : Regs) (n : Nat) : Nat := 2 ^ r.fld (ringOff n + 0x10) 21 17
def Regs.ringTenant (r : Regs) (n : Nat) : TenantNo := BitVec.ofNat 4 (r.fld (ringOff n + 0x10) 3 0)
def Regs.ringWeight (r : Regs) (n : Nat) : Nat := r.fld (ringOff n + 0x14) 15 8
def Regs.ringBurst (r : Regs) (n : Nat) : Nat := r.fld (ringOff n + 0x14) 7 0

/-- Host regions (R257). -/
def Regs.regBase (r : Regs) (g : Nat) : Nat := r.pair (0x18000 + 0x10 * g)
def Regs.regPages (r : Regs) (g : Nat) : Nat := r.word (0x18008 + 0x10 * g)
def Regs.regEnable (r : Regs) (g : Nat) : Bool := bitOf 31 (r.word (0x1800C + 0x10 * g))
def Regs.regOwner (r : Regs) (g : Nat) : Nat := r.fld (0x1800C + 0x10 * g) 3 0

/-- Host queue registers (12_vault). -/
def vqOff (q : Nat) : Nat := 0x30000 + 0x40 * q
def Regs.inBase (r : Regs) (q : Nat) : Nat := r.pair (vqOff q)
def Regs.outBase (r : Regs) (q : Nat) : Nat := r.pair (vqOff q + 8)
def Regs.vqActive (r : Regs) (q : Nat) : Bool := bitOf 31 (r.word (vqOff q + 0x10))
def Regs.vqVec (r : Regs) (q : Nat) : Nat := r.fld (vqOff q + 0x10) 29 27
def Regs.outSize (r : Regs) (q : Nat) : Nat := 2 ^ r.fld (vqOff q + 0x10) 26 22
def Regs.inSize (r : Regs) (q : Nat) : Nat := 2 ^ r.fld (vqOff q + 0x10) 21 17
def Regs.vqTenant (r : Regs) (q : Nat) : TenantNo := BitVec.ofNat 4 (r.fld (vqOff q + 0x10) 3 0)

/-- The tenant that a raise about ring `n`, or about host queue `q`, concerns: none while it is not active (FOX_LOG; log 73). -/
def Regs.ringConcerned (r : Regs) (n : Nat) : Option TenantNo := if r.ringActive n then some (r.ringTenant n) else none
def Regs.queueConcerned (r : Regs) (q : Nat) : Option TenantNo := if r.vqActive q then some (r.vqTenant q) else none

/-- Tenant shares and quotas (R336, R337). -/
def tenantOff (t : Nat) : Nat := 0x40000 + 0x40 * t
def Regs.tshareMem (r : Regs) (t : Nat) : Nat := r.fld (tenantOff t + 0x18) 10 0
def Regs.tshareCrypto (r : Regs) (t : Nat) : Nat := r.fld (tenantOff t + 0x1C) 10 0
def Regs.tshareBulb (r : Regs) (t : Nat) : Nat := r.fld (tenantOff t + 0x20) 10 0
def Regs.quotaStreams (r : Regs) (t : Nat) : Nat := r.fld (tenantOff t + 0x24) 9 0
def Regs.quotaReads (r : Regs) (t : Nat) : Nat := r.fld (tenantOff t + 0x24) 21 10
def Regs.quotaRecipes (r : Regs) (t : Nat) : Nat := r.fld (tenantOff t + 0x28) 10 0
def Regs.quotaRings (r : Regs) (t : Nat) : Nat := r.fld (tenantOff t + 0x28) 19 11
def Regs.quotaRanges (r : Regs) (t : Nat) : Nat := r.fld (tenantOff t + 0x28) 26 20
def Regs.sealedMode (r : Regs) : Bool := bitOf 0 (r.word 0x40400)

/-- Foxglove and referee controls (14_faults_service). -/
def Regs.irqMin (r : Regs) : Nat := r.fld 0x50004 11 9
def Regs.irqEn (r : Regs) : Bool := bitOf 8 (r.word 0x50004)
def Regs.irqVec (r : Regs) : Nat := r.fld 0x50004 2 0
def Regs.hbLimit (r : Regs) : Nat := r.fld 0x5001C 31 28
def Regs.fwSoak (r : Regs) : Nat := 8 * r.fld 0x5001C 19 0
def Regs.foxSev (r : Regs) (s : Nat) : Nat := r.fld (0x50400 + 4 * s) 2 0
def Regs.fatalOk (r : Regs) (s : Nat) : Bool := bitOf 4 (r.word (0x50400 + 4 * s))

/-- The CRC check is enabled (R429). -/
def Regs.crcCheck (r : Regs) : Bool := bitOf 0 (r.word 0x1008)

/-- An RW word set by an event: live value and shadow together (R421). -/
def Regs.setBoth (off : Nat) (v : Nat) (r : Regs) : Regs :=
  { r with live := tabPut resetWord off (BitVec.ofNat 32 v) r.live,
           shadow := tabPut resetWord off (BitVec.ofNat 32 v) r.shadow, passValid := false }

/-- Words set back to their reset values by an event (R421). -/
def Regs.resetBoth (offs : List Nat) (r : Regs) : Regs :=
  { r with live := offs.foldl (fun t o => tabErase o t) r.live, shadow := offs.foldl (fun t o => tabErase o t) r.shadow, passValid := false }

/-! ### Counters: the shadow offset of the _LO word of each -/

namespace Ctr
def narrowBlocks (t : Nat) : Nat := 0x60100 + 0x20 * t
def elemSat (t : Nat) : Nat := 0x60108 + 0x20 * t
def expSat (t : Nat) : Nat := 0x60110 + 0x20 * t
def resPoison (t : Nat) : Nat := 0x60118 + 0x20 * t
def cutsCommitted : Nat := 0x60300
def cbwLines : Nat := 0x60308
def budStall : Nat := 0x60310
def holds : Nat := 0x60318
def holdCc : Nat := 0x60320
def grdBpCc : Nat := 0x60328
def selfHoldCc : Nat := 0x60330
def earlyWrites : Nat := 0x60338
def ceLines : Nat := 0x60400
def ueLines : Nat := 0x60408
def partialPoison : Nat := 0x60410
def writeRetries : Nat := 0x60418
def readHits : Nat := 0x60420
def remapLines : Nat := 0x60428
def slotsEncoded (t : Nat) : Nat := 0x60500 + 0x40 * t
def fallbackSlots (t : Nat) : Nat := 0x60508 + 0x40 * t
def exactSlots (t : Nat) : Nat := 0x60510 + 0x40 * t
def slotsDecoded (t : Nat) : Nat := 0x60518 + 0x40 * t
def decodeErrors (t : Nat) : Nat := 0x60520 + 0x40 * t
def poisonSlots (t : Nat) : Nat := 0x60528 + 0x40 * t
def laneFaults : Nat := 0x60900
def recipeRuns : Nat := 0x60A00
def recipeUnits : Nat := 0x60A08
def recipeRefused : Nat := 0x60A10
def framesTx : Nat := 0x60B00
def framesRx : Nat := 0x60B08
def retxFrames : Nat := 0x60B10
def crcDrops : Nat := 0x60B18
def badFrameDrops : Nat := 0x60B20
def strangerDrops : Nat := 0x60B28
def creditDrops : Nat := 0x60B30
def portFails : Nat := 0x60B38
def stallCc (cause : Nat) : Nat := 0x60C00 + 8 * (cause - 1)
def lateChunks : Nat := 0x60C48
def mergedReqs : Nat := 0x60C50
def resliceRounded : Nat := 0x60C58
def streamHalts : Nat := 0x60C60
def chunksDone : Nat := 0x60C68
def entriesStarted : Nat := 0x60D00
def framingErrors : Nat := 0x60D08
def badDoorbells : Nat := 0x60D10
def phaseRetries : Nat := 0x60D18
def cmdsDone : Nat := 0x60E00
def cmdsFailed : Nat := 0x60E08
def seqErrors : Nat := 0x60E10
def vaultReadHits : Nat := 0x60E18
def deferredErrors : Nat := 0x60E20
def xchgTimeouts : Nat := 0x60E28
def queueResets : Nat := 0x60E30
def cipherFaults : Nat := 0x60F00
def hashFaults : Nat := 0x60F08
def signatures : Nat := 0x60F10
def noiseFails : Nat := 0x60F18
def throttledBeats : Nat := 0x60F20
def dbgDenied : Nat := 0x60F28
def faultsRaised : Nat := 0x61C00
def escalations : Nat := 0x61C08
def handovers : Nat := 0x61C10
def claimConflicts : Nat := 0x61C18
def sparesUsed : Nat := 0x61C20
def p1Beats : Nat := 0x61D00
def p2Beats : Nat := 0x61D08
def pwrWakes : Nat := 0x61D10
def entryReversals : Nat := 0x61D18
def commitsApplied : Nat := 0x61E00
def commitsRefused : Nat := 0x61E08
def crcPasses : Nat := 0x61E10
def crcMismatches : Nat := 0x61E18
def linesSealed (t : Nat) : Nat := 0x62000 + 0x20 * t
def linesUnsealed (t : Nat) : Nat := 0x62008 + 0x20 * t
def dbgReads (t : Nat) : Nat := 0x62010 + 0x20 * t
end Ctr

/-- The per-tenant counters of tenant `t` (R332 zeroes them). -/
def tenantCounters (t : Nat) : List Nat :=
  [Ctr.narrowBlocks t, Ctr.elemSat t, Ctr.expSat t, Ctr.resPoison t, Ctr.slotsEncoded t, Ctr.fallbackSlots t,
   Ctr.exactSlots t, Ctr.slotsDecoded t, Ctr.decodeErrors t, Ctr.poisonSlots t, Ctr.linesSealed t, Ctr.linesUnsealed t,
   Ctr.dbgReads t]

/-- The tenant whose counter stands at a shadow offset (R335), if it is a tenant's. -/
def counterTenant (off : Nat) : Option Nat :=
  if 0x60100 ≤ off ∧ off < 0x60300 then some ((off - 0x60100) / 0x20)
  else if 0x60500 ≤ off ∧ off < 0x60900 then some ((off - 0x60500) / 0x40)
  else if 0x62000 ≤ off ∧ off < 0x62200 then some ((off - 0x62000) / 0x20)
  else none

/-- `off` (of an 8-byte pair) is an implemented shadow (R433): SHADOW_BEAT, a counter of some table, or BANK_WRITES. -/
def shadowImplemented (off : Nat) : Bool :=
  let block (base size n : Nat) (stride : Nat) : Bool :=
    decide (base ≤ off) && decide (off < base + stride * n) && decide ((off - base) % stride < size)
  off % 8 == 0 &&
    (off == 0x60000 || block 0x60100 0x20 16 0x20 || block 0x60300 0x40 1 0x40 || block 0x60400 0x30 1 0x30 ||
      block 0x60500 0x30 16 0x40 || off == 0x60900 || block 0x60A00 0x18 1 0x18 || block 0x60B00 0x40 1 0x40 ||
      block 0x60C00 0x70 1 0x70 || block 0x60D00 0x20 1 0x20 || block 0x60E00 0x38 1 0x38 || block 0x60F00 0x30 1 0x30 ||
      block 0x61000 8 272 8 || block 0x61C00 0x28 1 0x28 || block 0x61D00 0x20 1 0x20 || block 0x61E00 0x20 1 0x20 ||
      block 0x62000 0x18 16 0x20)

end Sys2Proof.Machine
end

