-- ==== Sys2Proof/Machine/Ops.lean ====
section
/-!
DEFINITION. The operations that every family shares: how a command acts on the state, free values, stamps, counters, fault
raises, refusal order, MEM requests, broadcasts, readiness and throttling.
-/

namespace Sys2Proof.Machine

/-- The outcome of a command. -/
abbrev Out := Host.Outcome State Fault Refusal

/-! ### How a command acts -/

/-- A command that changes the engine only: kit, register file and queue stay. -/
def State.eff (f : Kit → Regs → Engine → Engine) (s : State) : Out :=
  .next { s with eng := f s.kit s.regs s.eng }

/-- A command that may change the register file too: kit and queue stay. -/
def State.effRegs (f : Kit → Regs → Engine → Regs × Engine) (s : State) : Out :=
  .next { s with regs := (f s.kit s.regs s.eng).1, eng := (f s.kit s.regs s.eng).2 }

/-- A command that names a numbered unit of the kit: without that unit it faults (log 7). -/
def State.needs (ok : Bool) (s : State) (o : State → Out) : Out :=
  if ok then o s else .fault .noSuchUnit

/-- `f` applied when `c` holds. -/
def Engine.when (c : Bool) (f : Engine → Engine) (e : Engine) : Engine :=
  if c then f e else e

/-- `f` applied to each element in turn. -/
def Engine.forEach {α : Type} (xs : List α) (f : α → Engine → Engine) (e : Engine) : Engine :=
  xs.foldl (fun e x => f x e) e

/-! ### Free values, stamps, outputs, counters -/

/-- A value that the manual leaves open (log 3). -/
def Engine.freeWord (e : Engine) : Word := Config.freeWord e.draws

/-- The next free value. -/
def Engine.drawn (e : Engine) : Engine := { e with draws := e.draws + 1 }

/-- The next free value drops `n`: `n` free values have been used. -/
def Engine.drewN (n : Nat) (e : Engine) : Engine := { e with draws := e.draws + n }

/-- The 256 free bits of a nonce, a seed or a digest drawn from the noise source (R330). -/
def Engine.noise256 (e : Engine) : BitVec 256 := (Config.noise e.draws).setWidth 256

/-- The cycle inside a beat at which a unit stamps an event (R48, R51): the cycle of the last event that it stamped and a free number of
cycles since (log 9), saturating at 0xFFF. -/
def satCycle (last : BitVec 12) (since : Word) : BitVec 12 := BitVec.ofNat 12 (min 0xFFF (last.toNat + since.toNat % 4096))

/-- The core's cycle inside its beat. -/
def Engine.cycleNow (e : Engine) : BitVec 12 := satCycle e.beat.cycle e.freeWord

/-- The stamp of R48: BEAT_NUM[51:0] above the core's cycle inside the beat. -/
def Engine.stamp (e : Engine) : Dword :=
  (e.beat.num.setWidth 52 ++ e.cycleNow : BitVec 64)

/-- The core has stamped an event: the cycle stands, and its free value is used. -/
def Engine.ticked (e : Engine) : Engine :=
  { e with beat := { e.beat with cycle := e.cycleNow }, draws := e.draws + 1 }

/-- An output driven. -/
def Engine.emit (o : Output) (e : Engine) : Engine := { e with out := e.out ++ [o] }

/-- `n` added to a counter (R46: counters wrap modulo their width). -/
def Engine.bump (off n : Nat) (e : Engine) : Engine :=
  { e with count := { e.count with live := tabPut (fun _ => 0) off (tabGet (fun _ => 0) off e.count.live + BitVec.ofNat 64 n) e.count.live } }

/-- The live value of a counter. -/
def Engine.counter (off : Nat) (e : Engine) : Dword := tabGet (fun _ => 0) off e.count.live

/-! ### Foxglove -/

/-- The escalation class of a source (the source table of R343). -/
def foxClass (s : Nat) : Nat :=
  if s < 0x08 ∨ s = 0x38 then 0
  else if s < 0x0A then 1
  else if s < 0x10 then 2
  else if s < 0x1C then 3
  else if s < 0x20 then 4
  else if s < 0x28 then 5
  else if s < 0x2C then 6
  else if s < 0x30 then 7
  else if s < 0x38 then 8
  else if s < 0x80 then 9
  else 10

/-- A source that has not been raised. -/
def FoxSrc.clear : FoxSrc := { pending := false, sev := 0 }

/-- PENDING and EFF_SEV of a source. -/
def Fox.src (s : Nat) (f : Fox) : FoxSrc := tabGet (fun _ => FoxSrc.clear) s f.srcs

/-- A source of the class of `s` is PENDING at CORRECTED or above and is not programmed NOTE (R347). -/
def classPending (r : Regs) (s : Nat) (f : Fox) : Bool :=
  f.srcs.any fun p => p.2.pending && foxClass p.1 == foxClass s && r.foxSev p.1 != 0

/-- Effective severity of a raise and whether it escalates (R347). -/
def effectiveSev (r : Regs) (s : Nat) (f : Fox) : Nat × Bool :=
  let sev := r.foxSev s
  if sev = 0 ∨ sev = 4 ∨ !classPending r s f then (sev, false)
  else if sev = 3 then (if r.fatalOk s then (4, true) else (3, false))
  else (sev + 1, true)

/-- PENDING and EFF_SEV after a raise at severity `sev` (R345): NOTE leaves them; a raise of a PENDING source keeps the
larger severity. -/
def FoxSrc.raised (sev : Nat) (p : FoxSrc) : FoxSrc :=
  if sev = 0 then p
  else { pending := true, sev := BitVec.ofNat 3 (if p.pending then max p.sev.toNat sev else sev) }

/-- Foxglove after a raise of source `s` with stamp `st` (R344, R345, R350). The record with SEQ n stands at index
(n − 1) mod 64. -/
def Fox.raise (r : Regs) (s : Nat) (t : Option TenantNo) (st : Dword) (f : Fox) : Fox :=
  let es := effectiveSev r s f
  let seq := f.seq + 1
  { f with
    seq := seq
    log := tabSet ((seq - 1).toNat % 64)
      { seq := seq, source := BitVec.ofNat 8 s, sev := BitVec.ofNat 3 es.1, escalated := es.2, tenant := t, stamp := st } f.log
    srcs := tabPut (fun _ => FoxSrc.clear) s ((f.src s).raised es.1) f.srcs
    fatHeld := f.fatHeld || es.1 == 4
    fatalDue := f.fatalDue || es.1 == 4 }

/-- A raise of fault source `s` with stamp `st` (R343 to R348): a source that the configuration does not implement never raises. -/
def Engine.raiseAt (k : Kit) (r : Regs) (s : Nat) (t : Option TenantNo) (st : Dword) (e : Engine) : Engine :=
  if foxImplemented k s then
    let es := effectiveSev r s e.fox
    let e' := ({ e with fox := e.fox.raise r s t st }).bump Ctr.faultsRaised 1
    if es.2 then e'.bump Ctr.escalations 1 else e'
  else e

/-- A raise that the core stamps (R48, R49). -/
def Engine.raise (k : Kit) (r : Regs) (s : Nat) (t : Option TenantNo) (e : Engine) : Engine :=
  if foxImplemented k s then (e.raiseAt k r s t e.stamp).ticked else e

/-! ### The order of refusals -/

/-- The rank of a completion code among the conditions of one request (R14): security, software, resources, the rest; the
lower code first inside a class. -/
def refusalRank (c : Code) : Nat :=
  let n := c.toNat
  if 0x40 ≤ n ∧ n < 0x50 then n - 0x40
  else if 0x10 ≤ n ∧ n < 0x20 then 0x100 + (n - 0x10)
  else if 0x50 ≤ n ∧ n < 0x60 then 0x200 + (n - 0x50)
  else 0x300 + n

/-- The first refusal of R14 among the conditions that hold, if one holds. -/
def judge : List (Bool × Code) → Option Code
  | [] => none
  | (b, c) :: cs =>
    match judge cs with
    | none => if b then some c else none
    | some d => if b && decide (refusalRank c ≤ refusalRank d) then some c else some d

/-! ### Readiness and the mode -/

/-- Every bit of READY_STATUS [5:0] (R374). -/
def Engine.readyBits (e : Engine) : Nat :=
  b2n (e.referee.steward.isSome && e.referee.resumed) + 2 * b2n e.power.bodyLoaded + 4 * b2n e.power.frontClear + 8 * b2n e.beat.firstLock +
    16 * b2n e.power.noiseOk + 32 * b2n e.power.fwRunning

/-- The values of MODE (R253). -/
inductive Mode where
  | startUp
  | normal
  | selfTest
  | recovery
deriving DecidableEq, Repr

/-- MODE of R253: RECOVERY from the edge after a FATAL raise; START_UP from a cold reset until full firmware runs; SELF_TEST while a test
runs. -/
def Engine.mode (e : Engine) : Mode :=
  if e.fox.recovery then .recovery
  else if !e.power.started then .startUp
  else if e.selfTest.running then .selfTest
  else .normal

/-- The engine is in P0, so the core runs. -/
def Engine.inP0 (e : Engine) : Bool := e.power.state == 0 && !e.power.exiting

/-- Firmware of a granted steward schedules work: SYS_READY is high, a steward is granted, the core runs (R354, R368,
R375). -/
def Engine.scheduling (e : Engine) : Bool :=
  e.power.sysReady && e.referee.steward.isSome && e.referee.resumed && e.inP0

/-- A half is granted, and drives the outputs towards the host; every other half's drive is fenced (R30). -/
def Engine.drives (e : Engine) : Bool := e.referee.steward.isSome

/-- An output towards the host: driven by the steward alone (R30). -/
def Engine.emitHost (o : Output) (e : Engine) : Engine := e.when e.drives fun e => e.emit o

/-- CFG accesses are served once the referee has granted a steward after a reset (R373, R383). -/
def Engine.cfgOpen (e : Engine) : Bool := e.referee.resumed

/-- A command that is a write on the CFG port, with its response (R381): until the port opens it has not been accepted (R383; log 1). -/
def State.effCfg (f : Kit → Regs → Engine → Engine) (s : State) : Out :=
  s.eff fun k r e => if e.cfgOpen then (f k r e).emit .cfgDone else e

/-! ### Tenants -/

/-- Tenant slot `t`. -/
def Engine.tenant (t : Nat) (e : Engine) : Tenant := tabGet (fun _ => Tenant.none) t e.tenants

/-- Tenant slot `t` replaced. -/
def Engine.setTenant (t : Nat) (v : Tenant) (e : Engine) : Engine :=
  { e with tenants := tabPut (fun _ => Tenant.none) t v e.tenants }

/-- Stored values of tenant slot `t`. -/
def Engine.kept (t : Nat) (e : Engine) : Kept := tabGet (fun _ => Kept.made) t e.body.kept

/-- Stored values of tenant slot `t` replaced. -/
def Engine.setKept (t : Nat) (v : Kept) (e : Engine) : Engine :=
  { e with body := { e.body with kept := tabPut (fun _ => Kept.made) t v e.body.kept } }

/-- Every tenant slot is FREE. -/
def Engine.allFree (e : Engine) : Bool := e.tenants.all fun p => p.2.state == .free

/-! ### Shares -/

/-- What a share of `s` / 1,024 grants per beat on a 64 B/cc path (R43). -/
def shareLines (beatCc s : Nat) : Nat := s * beatCc / 1024

/-- A grant scaled by the throttle level (R340): level n grants (4 − n) / 4 of it, rounded down. -/
def throttled (level g : Nat) : Nat := g * (4 - level) / 4

/-! ### MEM -/

/-- The channel of a host address (R385). -/
def channelOf (k : Kit) (addr : Nat) : Nat := addr / 4096 % k.memChannels

/-- A tag that no outstanding request of the channel carries: the first after the last one given (log 10). -/
def Mem.freeTag (c : Nat) (m : Mem) : BitVec 12 :=
  match lowestFrom (fun i => !(m.reqs.any fun q => q.channel == c && q.tag == m.lastTag + BitVec.ofNat 12 i)) 1 4096 with
  | some i => m.lastTag + BitVec.ofNat 12 i
  | none => m.lastTag + 1

/-- A MEM read of `lines` lines at `addr` on channel `c` (R385, R386, R389). -/
def Engine.memReadOn (c addr lines : Nat) (prio : BitVec 2) (use : MemFor) (e : Engine) : Engine :=
  let tag := e.mem.freeTag c
  { e with
    mem := { reqs := e.mem.reqs ++ [{ channel := c, tag := tag, isWrite := false, addr := addr, lines := lines, prio := prio, use := use }]
             lastTag := tag }
    out := e.out ++ [.memRead c tag addr lines prio] }

/-- Lines that a channel can still move in this beat, in one direction (R43). -/
def Engine.memLeft (write : Bool) (c : Nat) (e : Engine) : Nat :=
  tabGet (fun _ => 0) c (if write then e.budget.memWrite else e.budget.memRead)

/-- `n` lines of a channel's beat used (R41). -/
def Engine.spendMem (write : Bool) (c n : Nat) (e : Engine) : Engine :=
  { e with budget :=
    if write then { e.budget with memWrite := tabPut (fun _ => 0) c (tabGet (fun _ => 0) c e.budget.memWrite - n) e.budget.memWrite }
    else { e.budget with memRead := tabPut (fun _ => 0) c (tabGet (fun _ => 0) c e.budget.memRead - n) e.budget.memRead } }

/-- What the stream share of a channel still holds in this beat, over every tenant (R43, R237). -/
def Engine.streamPool (write : Bool) (c : Nat) (e : Engine) : Nat :=
  ((List.range 16).map fun u => tabGet (fun _ => 0) (16 * c + u) (if write then e.budget.streamWrite else e.budget.streamRead)).sum

/-- A refill stream has work: a REFILL that is not halted or held, or a RESTORE (R29). -/
def Engine.refillRuns (e : Engine) : Bool :=
  (e.streams.held.any fun p => !p.2.spill && p.2.state == .running) || e.streams.restores.any fun x => !x.ending

/-- What the MEM share of tenant `t` on a channel still holds in this beat in sealed mode (R336). -/
def Engine.tenantMem (write : Bool) (c t : Nat) (e : Engine) : Nat :=
  tabGet (fun _ => 0) (16 * c + t) (if write then e.budget.streamWrite else e.budget.streamRead)

/-- Cut traffic of tenant `t` may move `n` lines on a channel: it leaves a refill stream with work the share granted to it (R29), and in
sealed mode it keeps within its tenant's own (R336). -/
def Engine.cutCovers (write : Bool) (c t n : Nat) (e : Engine) : Bool :=
  decide (n ≤ e.memLeft write c) &&
    (if e.beat.sealed then decide (n ≤ e.tenantMem write c t)
     else decide (n + (if e.refillRuns then e.streamPool write c else 0) ≤ e.memLeft write c))

/-- `n` lines of the share of tenant `t` on a channel used. -/
def Engine.spendTenant (write : Bool) (c t n : Nat) (e : Engine) : Engine :=
  let less (tab : Tab Nat) : Tab Nat := tabPut (fun _ => 0) (16 * c + t) (tabGet (fun _ => 0) (16 * c + t) tab - n) tab
  { e with budget :=
    if write then { e.budget with streamWrite := less e.budget.streamWrite } else { e.budget with streamRead := less e.budget.streamRead } }

/-- `n` lines of cut traffic charged (R41). -/
def Engine.chargeCut (write : Bool) (c t n : Nat) (e : Engine) : Engine :=
  (e.spendMem write c n).when e.beat.sealed (Engine.spendTenant write c t n)

/-- A MEM read on the channel of its address. -/
def Engine.memRead (k : Kit) (addr lines : Nat) (prio : BitVec 2) (use : MemFor) (e : Engine) : Engine :=
  e.memReadOn (channelOf k addr) addr lines prio use

/-- A MEM write of the bytes from `addr`, inside one 4 KiB page, on the channel of its address. `poison` marks lines of it
(R386, R388). -/
def Engine.memWrite (k : Kit) (addr : Nat) (bytes : List Byte) (poison : List Bool) (prio : BitVec 2) (use : MemFor)
    (e : Engine) : Engine :=
  let c := channelOf k addr
  let tag := e.mem.freeTag c
  let lines := ceilDiv (addr % 64 + bytes.length) 64
  { e with
    mem := { reqs := e.mem.reqs ++ [{ channel := c, tag := tag, isWrite := true, addr := addr, lines := lines, prio := prio, use := use }]
             lastTag := tag }
    out := e.out ++ [.memWrite c tag addr bytes poison prio] }

/-- The bytes at `addr` cut where a 4 KiB page ends (R385: every request lies within one page); `fuel` pages at most. -/
def pageCuts : Nat → Nat → List Byte → List (Nat × List Byte)
  | 0, _, _ => []
  | fuel + 1, addr, bs =>
    if bs.isEmpty then []
    else
      let n := 4096 - addr % 4096
      (addr, bs.take n) :: pageCuts fuel (addr + n) (bs.drop n)

/-- The writes of a run of bytes, one in each page it touches. -/
def pageWrites (addr : Nat) (bs : List Byte) : List (Nat × List Byte) :=
  pageCuts (bs.length / 4096 + 2) addr bs

/-- The request that a response on channel `c` with tag `tag` answers, if one is outstanding. -/
def Mem.find (c : Nat) (tag : BitVec 12) (w : Bool) (m : Mem) : Option MemReq :=
  m.reqs.find? fun q => q.channel == c && q.tag == tag && q.isWrite == w

/-- The requests without that one. -/
def Mem.remove (q : MemReq) (m : Mem) : Mem :=
  { m with reqs := m.reqs.filter fun p => !(p.channel == q.channel && p.tag == q.tag && p.isWrite == q.isWrite) }

/-- A response code as the engine takes it (R387): any code but 0x00, 0x27 and 0x28 counts as 0x27. -/
def memCode (c : Code) : Code := if c = 0 ∨ c = 0x27 ∨ c = 0x28 then c else 0x27

/-! ### Broadcasts -/

/-- Broadcast codes of R396. -/
def bcBeat : BitVec 4 := 1
def bcArm : BitVec 4 := 2
def bcFreeze : BitVec 4 := 3
def bcResume : BitVec 4 := 4
def bcDisarm : BitVec 4 := 5
def bcRelease : BitVec 4 := 6
def bcScrub : BitVec 4 := 7

/-- A broadcast on every stem trunk, `delay` cc after the event (R396); the root sends none until SYS_READY (R395). -/
def Engine.broadcast (code : BitVec 4) (arg : BitVec 64) (delay : Nat) (e : Engine) : Engine :=
  if e.power.sysReady then
    { e with
      stem := { e.stem with issued := e.stem.issued ++ [{ code := code, arg := arg }] }
      out := e.out ++ [.broadcast { code := code, arg := arg } delay] }
  else e

/-- A broadcast whose ARG is a tenant. -/
def Engine.broadcastTenant (code : BitVec 4) (t : TenantNo) (delay : Nat) (e : Engine) : Engine :=
  e.broadcast code (t.setWidth 64) delay

/-- Bud of a tile. -/
def Engine.bud (tile : Nat) (e : Engine) : Bud := tabGet (fun _ => Bud.none) tile e.buds

/-- Bud of a tile replaced. -/
def Engine.setBud (tile : Nat) (b : Bud) (e : Engine) : Engine :=
  { e with buds := tabPut (fun _ => Bud.none) tile b e.buds }

/-- Region of a tile (R4; log 4). -/
def Kit.regionOf (k : Kit) (tile : Nat) : Nat := tabGet (fun i => i % k.regions) tile k.tileRegion

/-- Scratchpad lines of a tile (R4; log 4). -/
def Kit.linesOf (k : Kit) (tile : Nat) : Nat := tabGet (fun _ => 1024) tile k.scratchLines

end Sys2Proof.Machine
end

