-- ==== Sys2Proof/Machine/BulbOps.lean ====
section
/-!
DEFINITION. The Bulb (05_bulb): the line and its code, the partitions of the front, the body behind its remap table, bank
counts, remaps.
-/

namespace Sys2Proof.Machine

/-! ### The line and its code -/

/-- Metadata bits [42:0] of a line (R108). -/
def Line.fields (l : Line) : BitVec 43 :=
  (0#11 ++ (l.tenant ++ (l.cls ++ (BitVec.ofBool l.poison ++ (BitVec.ofBool l.epoch ++ (BitVec.ofBool l.sealed ++
    (BitVec.ofBool l.coded ++ 0#20)))))) : BitVec 43)

/-- g(x) of R109 without its x^20 term: the minimal polynomials of α and α³ over GF(2^10), α a root of x^10 + x^3 + 1, are
x^10 + x^3 + 1 and x^10 + x^3 + x^2 + x + 1. -/
def bchLow : BitVec 20 := 0x1877

/-- One step of the division by g(x): the remainder so far times x, plus `b` times x^20 taken modulo g(x). -/
def bchStep (b : Bool) (r : BitVec 20) : BitVec 20 :=
  if xor b (r.getLsbD 19) then (r <<< 1) ^^^ bchLow else r <<< 1

/-- The remainder of x^20 · m(x) by g(x), coefficients of m(x) from bit `n − 1` down (R109). -/
def bchRem {w : Nat} (m : BitVec w) : Nat → BitVec 20 → BitVec 20
  | 0, r => r
  | n + 1, r => bchRem m n (bchStep (m.getLsbD n) r)

/-- The message of R109: data bits 0 to 511, then metadata bits [42:0]. -/
def Line.message (l : Line) : BitVec 555 := (l.fields ++ l.data : BitVec 555)

/-- ECC bits [62:43] (R109). -/
def Line.ecc (l : Line) : BitVec 20 := bchRem l.message 555 0

/-- Even parity of a bit vector, bits `n − 1` down. -/
def parityBits {w : Nat} (m : BitVec w) : Nat → Bool
  | 0 => false
  | n + 1 => xor (m.getLsbD n) (parityBits m n)

/-- PAR: even parity over the data and metadata bits [62:0] (R108). -/
def Line.par (l : Line) : Bool := xor (parityBits l.message 555) (parityBits l.ecc 20)

/-- The metadata word of a line (R108). -/
def Line.metaWord (l : Line) : BitVec 64 := (BitVec.ofBool l.par ++ (l.ecc ++ l.fields) : BitVec 64)

/-- The line that data and metadata bits [42:0] spell. -/
def lineOfFields (d : LineData) (m : BitVec 43) : Line :=
  { data := d, tenant := m.extractLsb' 28 4, cls := m.extractLsb' 24 4, poison := m.getLsbD 23, epoch := m.getLsbD 22,
    sealed := m.getLsbD 21, coded := m.getLsbD 20 }

/-- A data line of a tenant and class. -/
def Line.ofData (d : LineData) (t : TenantNo) (cls : BitVec 4) (poison : Bool) : Line :=
  { data := d, tenant := t, cls := cls, poison := poison, epoch := false, sealed := false, coded := false }

/-- The stored bits that a list names, as a mask over the 576 bits of a line: data below the metadata word (R108, R109). -/
def flipMask (flips : List Nat) : BitVec 576 := flips.foldl (fun m b => m ^^^ (1#576 <<< b)) 0

/-- Two lists of upset bits together: a bit upset twice stands as it was. -/
def flipsXor (a b : List Nat) : List Nat :=
  let b := (b.filter fun x => decide (x < 576)).eraseDups
  (a.filter fun x => !b.contains x) ++ b.filter fun x => !a.contains x

/-- An uncorrectable line as it is read, with POISON set (R120). -/
def Line.asRead (flips : List Nat) (l : Line) : Line :=
  let m := flipMask flips
  { lineOfFields (l.data ^^^ m.setWidth 512) (l.fields ^^^ m.extractLsb' 512 43) with poison := true }

/-- What a read of a stored line finds (R109, R119, R120): the line, how many bits were corrected, or an uncorrectable
error. -/
inductive EccRead where
  | good (l : Line)
  | corrected (l : Line) (bits : Nat)
  | bad
deriving DecidableEq, Repr

/-- The read of a line in which the stored bits named by `flips` are inverted. Up to two are corrected, three are detected;
of four or more the manual says only that the read may be detected or miscorrected, so a free value decides (log 8). -/
def eccRead (draws : Nat) (flips : List Nat) (l : Line) : EccRead :=
  let n := (flips.filter fun b => decide (b < 576)).eraseDups.length
  if n = 0 then .good l
  else if n ≤ 2 then .corrected l n
  else if n = 3 then .bad
  else if (Config.freeWord draws).getLsbD 0 then .bad
  else .corrected (lineOfFields (Config.miscorrectedData draws) (Config.miscorrectedMeta draws)) (1 + b2n ((Config.freeWord draws).getLsbD 1))

/-! ### The front -/

/-- Lines of a partition (R111). -/
def Part.size : Part → Nat
  | .disp => 786432
  | .cut => 131072
  | .stream => 65536
  | .vault => 65536

/-- Lines of a partition that are in use. -/
def Front.used (p : Part) (f : Front) : Nat :=
  (f.lines.filter fun l => l.part == p).length + (if p = .vault then f.reserved else 0) + (if p = .stream then f.streamLines else 0)

/-- The first front line of a partition (R111). -/
def Part.first : Part → Nat
  | .disp => 0
  | .cut => 786432
  | .stream => 917504
  | .vault => 983040

/-- `n` more lines fit the partition (R111, R112). -/
def Front.room (p : Part) (n : Nat) (f : Front) : Bool := decide (f.used p + n ≤ p.size)

/-- The line held for a key. -/
def Front.find (key : FrontKey) (f : Front) : Option FrontLine := f.lines.find? fun l => l.key == key

/-- The data of a line that has a copy in the front, written over (R115). -/
def Front.merge (key : FrontKey) (l : Line) (f : Front) : Front :=
  let put (x : FrontLine) : FrontLine := { x with line := l }
  { f with lines := updFirst (fun x => x.key == key) put f.lines }

/-- The queue number of a vault line that no WRITE put into the front: its failure is no deferred error of a queue (R303). -/
def noQueue : Nat := 256

/-- A line of the front as a writer puts it there: sound, and in no place yet. -/
def FrontLine.made (part : Part) (key : FrontKey) (line : Line) (dirty : Bool) (region : Nat) : FrontLine :=
  { part := part, key := key, line := line, dirty := dirty, region := region, ver := 0, flips := [], place := 0 }

/-- The lowest front line of a partition that holds nothing. -/
def Front.freePlace (p : Part) (f : Front) : Nat :=
  (lowestFrom (fun n => !(f.lines.any fun l => l.part == p && l.place == n)) 0 p.size).getD 0

/-- A line put into the front: it merges into the copy that is there, in its place (R115), else it comes last. -/
def Front.put (l : FrontLine) (f : Front) : Front :=
  match f.find l.key with
  | some x => { f with lines := updFirst (fun y => y.key == l.key) (fun _ => { l with place := x.place }) f.lines }
  | none => { f with lines := f.lines ++ [{ l with place := f.freePlace l.part }] }

/-- A line put into the front behind every other: the order of the lines is the order of their last application (R297). -/
def Front.putLast (l : FrontLine) (f : Front) : Front :=
  let place := match f.find l.key with
    | some x => x.place
    | none => f.freePlace l.part
  { f with lines := (f.lines.filter fun y => y.key != l.key) ++ [{ l with place := place }] }

/-- The front without the line of a key. -/
def Front.drop (key : FrontKey) (f : Front) : Front := { f with lines := f.lines.filter fun l => !(l.key == key) }

/-- The front without the lines that satisfy `p`. -/
def Front.dropWhere (p : FrontLine → Bool) (f : Front) : Front := { f with lines := f.lines.filter fun l => !p l }

/-- The front with the line of a key marked clean. -/
def Front.clean (key : FrontKey) (f : Front) : Front :=
  { f with lines := f.lines.map fun l => if l.key = key then { l with dirty := false } else l }

/-- Some line of the front is dirty. -/
def Front.anyDirty (f : Front) : Bool := f.lines.any fun l => l.dirty

/-- An operation on the front. -/
def Engine.onFront (f : Front → Front) (e : Engine) : Engine := { e with front := f e.front }

/-- Displaced lines of a region that the front holds (R102). -/
def Front.dispOf (region : Nat) (f : Front) : Nat :=
  (f.lines.filter fun l => l.part == .disp && l.region == region).length

/-- A displaced line of `region` may enter: its region is below its floor, or a line outside every floor is free (R102). -/
def Front.dispRoom (k : Kit) (floor region : Nat) (f : Front) : Bool :=
  f.room .disp 1 &&
    (decide (f.dispOf region < floor) ||
      decide (((List.range k.regions).map fun g => max (f.dispOf g) floor).sum < Part.size .disp))

/-! ### The body -/

/-- A physical bank. -/
def Body.bank (p : Nat) (b : Body) : Bank := tabGet Bank.made p b.banks

/-- A physical bank replaced. -/
def Body.setBank (p : Nat) (v : Bank) (b : Body) : Body := { b with banks := tabPut Bank.made p v b.banks }

/-- What has befallen a body line. -/
def Body.upset (key : Nat) (b : Body) : Upset := tabGet (fun _ => Upset.none) key b.upsets

/-- The same, replaced. -/
def Body.setUpset (key : Nat) (u : Upset) (b : Body) : Body := { b with upsets := tabPut (fun _ => Upset.none) key u b.upsets }

/-- The physical bank of a logical bank (REMAP_MAP). -/
def Body.map (l : Nat) (b : Body) : Nat := tabGet (fun i => i) l b.remap

/-- Lines of a bank. -/
def bankLines : Nat := 131072

/-- The body's key of a line of a physical bank. -/
def physKey (p line : Nat) : Nat := p * bankLines + line

/-- Where a line of a logical bank is accessed: the target below the copy pointer of its running remap, the mapped bank
otherwise (R132). -/
def Engine.physOf (l line : Nat) (e : Engine) : Nat :=
  match e.bulb.remap with
  | some m => if m.logical = l ∧ line < m.pointer then physKey m.target line else physKey (e.body.map l) line
  | none => physKey (e.body.map l) line

/-- The body's key of a body line, given by logical bank × 131,072 + line. -/
def Engine.bodyKey (line : Nat) (e : Engine) : Nat := e.physOf (line / bankLines) (line % bankLines)

/-- Line `off` of the partition of tenant `t`, as a body line (R124). -/
def Regs.partLine (r : Regs) (t off : Nat) : Nat := r.bodyBase t * bankLines + off

/-- The body's key of line `off` of the partition of tenant `t` (R124). -/
def Engine.partKey (r : Regs) (t off : Nat) (e : Engine) : Nat := e.bodyKey (r.partLine t off)

/-- A body line lies in the partition of tenant `t` (R124). -/
def Regs.inPart (r : Regs) (t line : Nat) : Bool :=
  decide (r.bodyBase t * bankLines ≤ line) && decide (line < (r.bodyBase t + r.bodyBanks t) * bankLines)

/-- Lines of a tenant's body partition. -/
def Regs.partLines (r : Regs) (t : Nat) : Nat := r.bodyBanks t * bankLines

/-- Lines of one slot of a tenant's body partition (R124). -/
def Regs.slotLines (r : Regs) (t : Nat) : Nat := r.partLines t / 2

/-- A line without data: zero, in every field. -/
def Line.empty : Line := Line.ofData 0 0 0 false

/-- The line stored at a key of the body; a key not listed holds no data (log 5). -/
def Body.line (key : Nat) (b : Body) : Option Line := tabFind key b.lines

/-- A line stored at a key of the body: a line of zeros without an owner is one that holds no data (log 5). -/
def Body.setLine (key : Nat) (l : Line) (b : Body) : Body := { b with lines := tabPut (fun _ => Line.empty) key l b.lines }

/-- The canonical form of the body's lines: keys strictly rising, and none listed that holds no data (log 5). -/
def Body.wf (b : Body) : Bool := tabWf (fun _ => Line.empty) b.lines

/-- The line at offset `off` of the partition of tenant `t`: the body's, if it holds data. -/
def Engine.partLine (r : Regs) (t off : Nat) (e : Engine) : Option Line := e.body.line (e.partKey r t off)

/-- The line as a reader of the partition finds it: from its front copy if there is one (R115). -/
def Engine.partRead (r : Regs) (t off : Nat) (e : Engine) : Option Line :=
  match e.front.find (.body (r.partLine t off)) with
  | some f => some f.line
  | none => e.partLine r t off

/-- Line writes to a physical bank counted in BANK_WRITES (R129). -/
def Body.countWrites (p n : Nat) (b : Body) : Body := b.setBank p { b.bank p with writes := (b.bank p).writes + BitVec.ofNat 64 n }

/-- One line write to a physical bank counted. -/
def Body.countWrite (p : Nat) (b : Body) : Body := b.countWrites p 1

/-- A line stored: it is sound. -/
def Body.store (key : Nat) (l : Line) (b : Body) : Body := (b.setLine key l).setUpset key Upset.none

/-- A body line written and verified: stored, and counted. -/
def Engine.storeLine (key : Nat) (l : Line) (e : Engine) : Engine :=
  { e with body := (e.body.countWrite (key / bankLines)).store key l }

/-- Counts of a bank in the running error window (R129). -/
def Engine.bankErrors (p : Nat) (e : Engine) : BankErrors := tabGet (fun _ => ⟨0, 0, 0⟩) p e.bulb.errors

/-- Those counts replaced. -/
def Engine.setBankErrors (p : Nat) (v : BankErrors) (e : Engine) : Engine :=
  { e with bulb := { e.bulb with errors := tabPut (fun _ => ⟨0, 0, 0⟩) p v e.bulb.errors } }

/-- A two-bit correction counted for a bank (R119). -/
def Engine.countDec (p : Nat) (e : Engine) : Engine :=
  e.setBankErrors p { e.bankErrors p with dec := (e.bankErrors p).dec + 1 }

/-- An uncorrectable read counted for a bank (R120). -/
def Engine.countUe (p : Nat) (e : Engine) : Engine :=
  e.setBankErrors p { e.bankErrors p with ue := (e.bankErrors p).ue + 1 }

/-- A failed line write counted for a bank (R118). -/
def Engine.countWriteFail (p : Nat) (e : Engine) : Engine :=
  e.setBankErrors p { e.bankErrors p with writeFail := (e.bankErrors p).writeFail + 1 }

/-- The logical bank that a physical bank carries. -/
def Body.logicalOf (p : Nat) (b : Body) : Option Nat := (List.range 256).find? fun l => b.map l == p

/-- The body line that is accessed at a key, if one is: none at a line of a FREE or RETIRED bank, and none at a line of a remap's
source below the copy pointer or of its target above it (R132). -/
def Engine.lineAt (key : Nat) (e : Engine) : Option Nat :=
  let p := key / bankLines
  let l := match e.bulb.remap with
    | some m => if p = m.target then some m.logical else e.body.logicalOf p
    | none => e.body.logicalOf p
  (l.map fun l => l * bankLines + key % bankLines).filter fun n => e.bodyKey n == key

/-- The write-back of a key has failed with a code. -/
def Engine.markFailed (key : FrontKey) (code : Code) (e : Engine) : Engine :=
  { e with vault := { e.vault with failed := (e.vault.failed.filter fun x => x.1 != key) ++ [(key, code)] } }

/-- A body line that could not be written stays dirty in the front (R118): in the copy that is there, else in a line of VAULT, if one is
free (R112; log 75). -/
def Engine.keepDirty (line : Nat) (l : Line) (e : Engine) : Engine :=
  let key : FrontKey := .body line
  if (e.front.find key).isSome then e.markFailed key 0x26
  else if e.front.room .vault 1 then (e.onFront (Front.put (FrontLine.made .vault key l true noQueue))).markFailed key 0x26
  else e

/-- A line write that a background activity makes (R118, R129): up to four attempts; after the fourth has failed, the bank's count rises
and the line stays dirty in the front. -/
def Engine.rewriteLine (k : Kit) (r : Regs) (key : Nat) (l : Line) (e : Engine) : Engine :=
  let p := key / bankLines
  let u := e.body.upset key
  let e := ({ e with body := e.body.countWrites p (min (u.fails + 1) 4) }).bump Ctr.writeRetries (min u.fails 3)
  if u.fails < 4 then { e with body := e.body.store key l }
  else
    let e := (e.countWriteFail p).raise k r 0x14 (some l.tenant)
    match e.lineAt key with
    | some n => e.keepDirty n l
    | none => e

/-- A read of a body line (R119, R120): what the reader gets, the code it meets (0x20 now uncorrectable, 0x21 poisoned before), and
the engine after corrections, counts and raises. `fix` says that a line with one corrected bit is written back too (the patrol). -/
def Engine.readBody (k : Kit) (r : Regs) (key : Nat) (fix : Bool) (e : Engine) : Line × Code × Engine :=
  let p := key / bankLines
  let stored := (e.body.line key).getD Line.empty
  let flips := (e.body.upset key).flips
  let concerned := (e.body.line key).map fun l => l.tenant
  match eccRead e.draws flips stored with
  | .good l => (l, if l.poison then 0x21 else 0, e)
  | .corrected l n =>
    let e := ((e.drewN 1).bump Ctr.ceLines 1).raise k r 0x12 concerned
    let e := if n = 2 then (e.countDec p).rewriteLine k r key l else if fix then e.rewriteLine k r key l else e
    (l, if l.poison then 0x21 else 0, e)
  | .bad =>
    let l := stored.asRead flips
    let e := ((e.drewN 1).bump Ctr.ueLines 1).raise k r 0x13 concerned
    (l, 0x20, (e.countUe p).rewriteLine k r key l)

/-- A read of a line held in the front (R119, R120). -/
def Engine.readFront (k : Kit) (r : Regs) (f : FrontLine) (e : Engine) : Line × Code × Engine :=
  match eccRead e.draws f.flips f.line with
  | .good l => (l, if l.poison then 0x21 else 0, e)
  | .corrected l _ =>
    let e := ((e.drewN 1).bump Ctr.ceLines 1).raise k r 0x10 (some f.line.tenant)
    (l, if l.poison then 0x21 else 0, e.onFront (Front.put { f with line := l, flips := [] }))
  | .bad =>
    let l := f.line.asRead f.flips
    let e := ((e.drewN 1).bump Ctr.ueLines 1).raise k r 0x11 (some f.line.tenant)
    (l, 0x20, e.onFront (Front.put { f with line := l, flips := [] }))

/-- Stored bits of a front line upset (R109); a front line that holds nothing has none. -/
def Engine.upsetFront (u : FrontUpset) (e : Engine) : Engine :=
  let struck (l : FrontLine) : Bool := l.part.first + l.place == u.line
  e.onFront fun f => { f with lines := updFirst struck (fun l => { l with flips := flipsXor l.flips u.flips }) f.lines }

/-- Stored bits of a body line upset, and the trouble of the next write to it (R109, R118). -/
def Engine.upsetBody (u : BodyUpset) (e : Engine) : Engine :=
  if 272 * bankLines ≤ u.key then e
  else
    let old := e.body.upset u.key
    { e with body := e.body.setUpset u.key { flips := flipsXor old.flips u.flips, fails := old.fails + u.fails } }

/-- Upsets strike the front and the body (R109). -/
def Engine.strike (u : Upsets) (e : Engine) : Engine := (e.forEach u.front Engine.upsetFront).forEach u.body Engine.upsetBody

/-! ### Body writes -/

/-- Where the line of a body write goes. COMMIT_STATE stands in the body outside the data lines. -/
def Engine.writeKey (u : BodyFor) (e : Engine) : Option Nat :=
  match u with
  | .vault l _ => some (e.bodyKey l)
  | .copy l => some (e.bodyKey l)
  | .commitState _ => none

/-- The physical bank that a body write goes to. The COMMIT_STATE of tenant t stands in the bank that carries logical bank t (DESIGN
CHOICE, log 76). -/
def Engine.writeBank (u : BodyFor) (e : Engine) : Nat :=
  match u with
  | .vault l _ => e.bodyKey l / bankLines
  | .copy l => e.bodyKey l / bankLines
  | .commitState t => e.body.map t

/-- A line write handed to the body (R118). -/
def Engine.pushBodyWrite (u : BodyFor) (l : Line) (e : Engine) : Engine :=
  { e with bulb := { e.bulb with writes := e.bulb.writes ++ [{ use := u, line := l, attempts := 0 }] } }

/-! ### Remaps -/

/-- The banks in a state. -/
def Body.banksIn (st : BankState) (b : Body) : List Nat := (List.range 272).filter fun p => (b.bank p).state == st

/-- FREE_BANKS. -/
def Body.freeBanks (b : Body) : Nat := (b.banksIn .free).length

/-- The bank of a list with the smallest BANK_WRITES, a tie to the lowest number (R132). -/
def Body.leastWritten (b : Body) (ps : List Nat) : Option Nat :=
  ps.foldl (fun best p =>
    match best with
    | none => some p
    | some q => if (b.bank p).writes < (b.bank q).writes then some p else some q) none

/-- The bank of a list with the largest BANK_WRITES (R131). A tie goes to the lowest number: DESIGN CHOICE, the rule names none (log 77). -/
def Body.mostWritten (b : Body) (ps : List Nat) : Option Nat :=
  ps.foldl (fun best p =>
    match best with
    | none => some p
    | some q => if (b.bank q).writes < (b.bank p).writes then some p else some q) none

/-- A retirement criterion of R130 holds of a physical bank. -/
def Engine.retireDue (r : Regs) (p : Nat) (e : Engine) : Bool :=
  decide (r.wearLimit ≤ (e.body.bank p).writes.toNat) || decide (r.ceLimit < (e.bankErrors p).dec) ||
    decide (2 ≤ (e.bankErrors p).ue) || decide (4 ≤ (e.bankErrors p).writeFail)

/-- The body-spare sources when FREE_BANKS has fallen to 4 or to 0 (R134). -/
def Engine.raiseSpares (k : Kit) (r : Regs) (before : Nat) (e : Engine) : Engine :=
  let now := e.body.freeBanks
  let e := if now = 4 ∧ 4 < before then e.raise k r 0x16 none else e
  if now = 0 ∧ 0 < before then e.raise k r 0x17 none else e

/-- Lines of the running remap below its copy pointer whose value in the target differs from the source's. -/
def Body.changedBelow (m : Remap) (b : Body) : List Nat :=
  let ns := (b.lines.filter fun x => x.1 / bankLines == m.target || x.1 / bankLines == m.source).map fun x => x.1 % bankLines
  ns.eraseDups.filter fun n => decide (n < m.pointer) && b.line (physKey m.target n) != b.line (physKey m.source n)

/-- The target of a remap given up: what was written to it alone goes back to the source, so that no verified line loses its value (R128;
DESIGN CHOICE, log 78). -/
def Body.foldBack (m : Remap) (b : Body) : Body :=
  (b.changedBelow m).foldl (fun b n =>
    (b.countWrite m.source).store (physKey m.source n) ((b.line (physKey m.target n)).getD Line.empty)) b

/-- The running remap given up (R133; log 78): the map is unchanged. -/
def Engine.abandonRemap (e : Engine) : Engine :=
  match e.bulb.remap with
  | some m => { e with body := e.body.foldBack m, bulb := { e.bulb with remap := none } }
  | none => e

/-- A retirement of bank `p` starts (R132, R133, R134): with no FREE bank the bank becomes WORN; while another retirement
runs it waits; a rotation is abandoned. -/
def Engine.startRetire (p : Nat) (e : Engine) : Engine :=
  match e.body.logicalOf p with
  | none => e
  | some l =>
    match e.body.leastWritten (e.body.banksIn .free) with
    | none => { e with body := e.body.setBank p { e.body.bank p with state := .worn } }
    | some target =>
      let run (e : Engine) : Engine := { e with bulb := { e.bulb with
        remap := some { logical := l, source := p, target := target, pointer := 0, retire := true } } }
      match e.bulb.remap with
      | some m =>
        if m.retire then
          (if m.source = p ∨ e.bulb.due.contains p then e else { e with bulb := { e.bulb with due := e.bulb.due ++ [p] } })
        else run e.abandonRemap
      | none => run e

/-- One line of the running remap copied (R132): read, an uncorrectable line with POISON set, and written to the target. A line that
cannot be written to the target stays dirty in the front; while that has no room for it, the copy waits there (R112; log 75). -/
def Engine.copyPair (k : Kit) (r : Regs) (m : Remap) (e : Engine) : Engine :=
  let src := physKey m.source m.pointer
  let dst := physKey m.target m.pointer
  let n := m.logical * bankLines + m.pointer
  if (e.body.upset dst).fails < 4 ∨ (e.front.find (.body n)).isSome ∨ e.front.room .vault 1 then
    let x := e.readBody k r src false
    let e := x.2.2.bump Ctr.remapLines 1
    ({ e with bulb := { e.bulb with remap := some { m with pointer := m.pointer + 1 } } }).rewriteLine k r dst x.1
  else e

/-- `n` lines of the running remap copied in ascending order (R132). -/
def Engine.copyRemap (k : Kit) (r : Regs) : Nat → Engine → Engine
  | 0, e => e
  | n + 1, e =>
    match e.bulb.remap with
    | none => e
    | some m => if bankLines ≤ m.pointer then e else Engine.copyRemap k r n (e.copyPair k r m)

end Sys2Proof.Machine
end

