-- ==== Sys2Proof/Machine/RingOps.lean ====
section
/-!
DEFINITION. The rings (11_rings): host regions, framing of entries, completions, and which ring starts the next entry.
-/

namespace Sys2Proof.Machine

/-! ### Host regions -/

/-- The enabled regions of a tenant as (base, end). -/
def Regs.tenantRegions (r : Regs) (t : Nat) : List (Nat × Nat) :=
  ((List.range 128).filter fun g => r.regEnable g && r.regOwner g == t).map fun g =>
    (r.regBase g, r.regBase g + 4096 * r.regPages g)

/-- From `a` up to `stop`, regions follow one another without a gap; each turn uses one region. -/
def coveredFrom (regions : List (Nat × Nat)) (stop : Nat) : Nat → Nat → Bool
  | 0, a => decide (stop ≤ a)
  | fuel + 1, a =>
    if stop ≤ a then true
    else match regions.find? fun g => decide (g.1 ≤ a) && decide (a < g.2) with
      | some g => coveredFrom regions stop fuel g.2
      | none => false

/-- `len` bytes from `addr` lie wholly inside enabled regions of tenant `t` (R257). -/
def Regs.inRegions (r : Regs) (t addr len : Nat) : Bool :=
  decide (addr + len ≤ 2 ^ 64) && coveredFrom (r.tenantRegions t) (addr + len) 128 addr

/-- Two spans of host memory share a byte. -/
def spansMeet (a b : Nat × Nat) : Bool :=
  decide (0 < a.2) && decide (0 < b.2) && decide (a.1 < b.1 + b.2) && decide (b.1 < a.1 + a.2)

/-! ### Ring state -/

/-- Ring `n`. -/
def Engine.ring (n : Nat) (e : Engine) : Ring := tabGet (fun _ => Ring.fresh) n e.rings.rings

/-- Ring `n` replaced. -/
def Engine.setRing (n : Nat) (v : Ring) (e : Engine) : Engine :=
  { e with rings := { e.rings with rings := tabPut (fun _ => Ring.fresh) n v e.rings.rings } }

/-- Jobs of a ring in flight. -/
def Engine.jobsOf (n : Nat) (e : Engine) : List Job := e.rings.jobs.filter fun j => j.id.ring == n

/-- First line of the entry that is being read, or of the next one. -/
def Ring.entryStart (size : Nat) (g : Ring) : Nat :=
  match g.failing with
  | some f => f.index
  | none => (g.fetch + size - g.chain.length) % size

/-- SQ_HEAD after the completions that stand in the completion ring (R264, R266): the first line of the oldest entry that has none. -/
def Ring.sqHead (size : Nat) (g : Ring) : Nat :=
  match g.opens.find? fun o => !o.done with
  | some o => o.index
  | none => g.entryStart size

/-- First line of the entry that a completion completes, while that has not been written. -/
def CqEntry.openIndex (c : CqEntry) : Option Nat := if c.written then none else c.entry

/-- SQ_HEAD as read and as the doorbells see it (R264): it passes an entry when its completion has been written, and of the
completions that are on their way the oldest entry's counts. -/
def Ring.sqHeadNow (size : Nat) (g : Ring) : Nat :=
  let behind (i : Nat) : Nat := (g.entryStart size + size - i) % size
  (g.cq.filterMap CqEntry.openIndex).foldl (fun h i => if behind h < behind i then i else h) (g.sqHead size)

/-- CQ_TAIL as read (R266): it passes a completion when that has been written. -/
def Ring.cqTailNow (size : Nat) (g : Ring) : Nat :=
  (g.cqTail + size - (g.cq.filter fun c => !c.written).length) % size

/-- Completion entries reserved: framed entries, jobs in flight, and the entry that is being read (R267). -/
def Engine.reserved (n : Nat) (e : Engine) : Nat :=
  (e.ring n).ready.length + (e.jobsOf n).length + b2n (!(e.ring n).chain.isEmpty || (e.ring n).failing.isSome)

/-- One more completion entry is free (R267). -/
def Engine.cqFree (r : Regs) (n : Nat) (e : Engine) : Bool :=
  decide ((e.ring n).cq.length + e.reserved n + 1 < r.cqSize n)

/-! ### Completions -/

/-- The 32 bytes of a completion entry (R266). -/
def cqBytes (cmdId : Dword) (code : Code) (phase notice plan : Bool) (index head : Nat) (result : List Byte) : List Byte :=
  natLE 8 cmdId.toNat ++ [code, BitVec.ofNat 8 (b2n phase + 2 * b2n notice + 4 * b2n plan)] ++ natLE 2 index ++ natLE 2 head ++
    zeroBytes 2 ++ (result ++ zeroBytes 16).take 16

/-- The write of the ring's oldest completion that is not yet written is issued, when no completion write is outstanding
(R30, R266, R269; log 11). -/
def Engine.issueCq (k : Kit) (r : Regs) (n : Nat) (e : Engine) : Engine :=
  let g := e.ring n
  if g.cqOut.isSome ∨ !e.drives then e
  else match g.cq.find? fun c => !c.written with
    | none => e
    | some c =>
      let addr := r.cqBase n + 32 * g.cqTailNow (r.cqSize n)
      (e.setRing n { g with cqOut := some (addr, c.bytes) }).memWrite k addr c.bytes [] 1 (.completion n)

/-- A completion entry put at the tail of the completion ring (R266). -/
def Engine.pushCq (k : Kit) (r : Regs) (n : Nat) (cmdId : Dword) (code : Code) (notice plan : Bool) (index : Nat) (entry : Option Nat)
    (irq : Bool) (result : List Byte) (e : Engine) : Engine :=
  let g := e.ring n
  let size := r.cqSize n
  let bytes := cqBytes cmdId code g.cqPhase notice plan index (g.sqHead (r.sqSize n)) result
  let next := (g.cqTail + 1) % size
  (e.setRing n { g with cq := g.cq ++ [{ bytes := bytes, irq := irq, entry := entry, written := false }], cqTail := next,
                        cqPhase := if next = 0 then !g.cqPhase else g.cqPhase }).issueCq k r n

/-- The entry of a job has its completion: it no longer holds SQ_HEAD (R264). -/
def Ring.close (index : Nat) (g : Ring) : Ring :=
  { g with opens := (updFirst (fun o => o.index == index && !o.done) (fun o => { o with done := true }) g.opens).dropWhile (fun o => o.done) }

/-- The completion of an entry (R266): it is closed, its job is no longer in flight, and the completion entry is written. -/
def Engine.completeOne (k : Kit) (r : Regs) (id : JobId) (code : Code) (plan : Bool) (result : List Byte) (e : Engine) : Engine :=
  let e := { e with rings := { e.rings with jobs := e.rings.jobs.filter fun j => !(j.id == id) } }
  (e.setRing id.ring ((e.ring id.ring).close id.index)).pushCq k r id.ring id.cmdId code false plan id.index (some id.index) id.irq result

/-- The first failure in line order (R117). -/
def firstFailure (fs : List (Nat × Code)) : Option (Nat × Code) :=
  fs.foldl (fun best x =>
    match best with
    | none => some x
    | some y => if x.1 < y.1 then some x else some y) none

/-- Every job of the ring fetched before the DRAIN has completed. -/
def Engine.drainAlone (d : Drain) (e : Engine) : Bool :=
  !((e.rings.jobs.takeWhile fun j => j.id != d.job).any fun j => j.id.ring == d.job.ring)

/-- Every DRAIN whose earlier jobs and flush are over completes, in the order of their acceptance (R276). -/
def Engine.endDrains (k : Kit) (r : Regs) (e : Engine) : Engine :=
  e.forEach (e.vault.drains.filter fun d => d.waits.isEmpty) fun d e =>
    if e.drainAlone d then
      let e : Engine := { e with vault := { e.vault with drains := e.vault.drains.filter fun y => y.job != d.job } }
      e.completeOne k r d.job (((firstFailure d.failures).map fun y => y.2).getD 0) false []
    else e

/-- A completion, and what it lets complete. -/
def Engine.completeWith (k : Kit) (r : Regs) (id : JobId) (code : Code) (plan : Bool) (result : List Byte) (e : Engine) : Engine :=
  (e.completeOne k r id code plan result).endDrains k r

/-- A completion without FLAGS.PLAN. -/
def Engine.complete (k : Kit) (r : Regs) (id : JobId) (code : Code) (result : List Byte) (e : Engine) : Engine :=
  e.completeWith k r id code false result

/-- A completion with a code and a zero RESULT (R266). -/
def Engine.refuse (k : Kit) (r : Regs) (id : JobId) (code : Code) (e : Engine) : Engine :=
  e.complete k r id code []

/-- A job that has been accepted and stays in flight. -/
def Engine.addJob (j : Job) (e : Engine) : Engine := { e with rings := { e.rings with jobs := e.rings.jobs ++ [j] } }

/-! ### Framing -/

/-- PLEN and lines of a job type (R260). -/
def jobShape (opcode : Nat) : Option (Nat × Nat) :=
  match opcode with
  | 0x01 => some (64, 2)
  | 0x02 => some (0, 1)
  | 0x03 => some (32, 1)
  | 0x04 => some (128, 3)
  | 0x05 => some (128, 3)
  | 0x06 => some (32, 1)
  | 0x07 => some (48, 1)
  | 0x08 => some (16, 1)
  | 0x09 => some (32, 1)
  | 0x0A => some (48, 1)
  | 0x0B => some (16, 1)
  | 0x0C => some (48, 1)
  | 0x0D => some (16, 1)
  | _ => none

/-- The fields of a line's header (R258). -/
structure Header where
  opcode : Nat
  flags : Nat
  lines : Nat
  rsv : Nat
  cmdId : Dword
deriving DecidableEq, Repr

/-- The header of an entry line (R258). -/
def headerOf (d : LineData) : Header :=
  { opcode := (d.extractLsb' 0 8).toNat, flags := (d.extractLsb' 8 8).toNat, lines := (d.extractLsb' 16 8).toNat,
    rsv := (d.extractLsb' 24 40).toNat, cmdId := d.extractLsb' 64 64 }

def Header.phase (h : Header) : Bool := bitOf 0 h.flags
def Header.fence (h : Header) : Bool := bitOf 1 h.flags
def Header.first (h : Header) : Bool := bitOf 2 h.flags
def Header.last (h : Header) : Bool := bitOf 3 h.flags
def Header.irq (h : Header) : Bool := bitOf 4 h.flags

/-- A reserved header field is set, or a flag has no meaning there (R11, R258, R259). -/
def Header.bad (h : Header) (chained isFirst : Bool) : Bool :=
  bits 7 5 h.flags != 0 || h.rsv != 0 || (!chained && !(h.first && h.last)) || (chained && !isFirst && (h.fence || h.irq))

/-- The framed entry that lines spell (R259). -/
def entryOf (chained : Bool) (index : Nat) (ls : List LineData) : Entry :=
  let h := headerOf (ls.headD 0)
  let params := if chained then ls.flatMap fun d => (lineBytes d).drop 16 else (bytesOfLines ls).drop 16
  let plen := ((jobShape h.opcode).map fun p => p.1).getD 0
  let badLines := if chained then h.bad true true || (ls.tail.any fun d => (headerOf d).bad true false) else h.bad false true
  { opcode := h.opcode, fence := h.fence, irq := h.irq, cmdId := h.cmdId, index := index, lines := ls.length,
    badHeader := badLines || leNat (params.drop plen) != 0, params := params }

/-- One line consumed: the fetch position moves, and the expected PHASE flips at the wrap (R263). -/
def Ring.advance (size : Nat) (g : Ring) : Ring :=
  let next := (g.fetch + 1) % size
  { g with fetch := next, phase := if next = 0 then !g.phase else g.phase, phaseWait := none }

/-- What framing charges: one entry of the beat's entries and of the ring's burst (R277). -/
def Engine.chargeEntry (n : Nat) (e : Engine) : Engine :=
  let e := { e with budget := { e.budget with entries := e.budget.entries - 1 } }
  e.setRing n { e.ring n with burst := (e.ring n).burst - 1 }

/-- A framing failure completes (R265): its lines are consumed, it counts as one entry, and FRAMING_ERRORS rises. -/
def Engine.failFrame (k : Kit) (r : Regs) (n : Nat) (code : Code) (cmdId : Dword) (index lines : Nat) (irq : Bool)
    (e : Engine) : Engine :=
  let g := e.ring n
  let e := e.setRing n { g with chain := [], failing := none, opens := g.opens ++ [{ index := index, lines := lines, done := false }] }
  ((e.chargeEntry n).bump Ctr.framingErrors 1).complete k r { ring := n, cmdId := cmdId, index := index, irq := irq } code []

/-- The free CMD_ID of an entry line that could not be read: two free values (log 3). -/
def Engine.freeCmdId (e : Engine) : Dword := (Config.freeWord (e.draws + 1) ++ Config.freeWord e.draws : BitVec 64)

/-- An entry whose lines have all been read: it is ready, or it completes at once for an undefined OPCODE or a wrong line
count (R265). -/
def Engine.finishEntry (k : Kit) (r : Regs) (n : Nat) (e : Engine) : Engine :=
  let g := e.ring n
  let index := g.entryStart (r.sqSize n)
  let x := entryOf (r.ringChained n) index g.chain
  match jobShape x.opcode with
  | none => e.failFrame k r n 0x10 x.cmdId index x.lines x.irq
  | some p =>
    if p.2 ≠ x.lines then e.failFrame k r n 0x12 x.cmdId index x.lines x.irq
    else e.setRing n { g with chain := [], ready := g.ready ++ [x], opens := g.opens ++ [{ index := index, lines := x.lines, done := false }] }

/-- The entry under way fails at the line just consumed; `left` lines, or those up to LAST, are still consumed (R265). -/
def Engine.failChain (k : Kit) (r : Regs) (n : Nat) (code : Code) (taken left : Nat) (toLast : Bool) (e : Engine) : Engine :=
  let g := e.ring n
  let h := headerOf (g.chain.headD 0)
  let index := (g.fetch + r.sqSize n - taken) % r.sqSize n
  if left = 0 then e.failFrame k r n code h.cmdId index taken h.irq
  else e.setRing n { g with chain := [], failing := some { code := code, cmdId := h.cmdId, index := index, irq := h.irq, taken := taken, left := left, toLast := toLast } }

/-- A line that a failed entry consumes without a check (R265). -/
def Engine.consumeFailed (k : Kit) (r : Regs) (n : Nat) (f : Failing) (x : LineRead) (e : Engine) : Engine :=
  let g := (e.ring n).advance (r.sqSize n)
  let isLast := f.toLast && (match x with | .ok d => (headerOf d).last | _ => false)
  let e := e.setRing n g
  if f.left ≤ 1 ∨ isLast then e.failFrame k r n f.code f.cmdId f.index (f.taken + 1) f.irq
  else e.setRing n { g with failing := some { f with taken := f.taken + 1, left := f.left - 1 } }

/-- A line whose PHASE is not the expected one waits (R263). -/
def Engine.waitPhase (n : Nat) (e : Engine) : Engine :=
  e.setRing n { e.ring n with phaseWait := some 0, phaseBeat := e.beat.num }

/-- The first line of an entry (R262, R263, R265). The Bool says whether framing goes on. -/
def Engine.frameFirst (k : Kit) (r : Regs) (n : Nat) (x : LineRead) (e : Engine) : Engine × Bool :=
  let g := e.ring n
  let size := r.sqSize n
  match x with
  | .ok d =>
    let h := headerOf d
    let took := e.setRing n { g.advance size with chain := [d] }
    if h.phase ≠ g.phase then (e.waitPhase n, false)
    else if r.ringChained n then
      if !h.first then ((e.setRing n (g.advance size)).failFrame k r n 0x19 h.cmdId g.fetch 1 h.irq, true)
      else if h.last then
        (if h.lines = 1 then took.finishEntry k r n else took.failChain k r n 0x12 1 0 false, true)
      else (took, true)
    else if h.lines < 1 ∨ 8 < h.lines then
      ((e.setRing n (g.advance size)).failFrame k r n 0x12 h.cmdId g.fetch 1 h.irq, true)
    else if (g.tail + size - g.fetch) % size < h.lines then (e, false)
    else if h.lines = 1 then (took.finishEntry k r n, true)
    else (took, true)
  | .memError => (((e.setRing n (g.advance size)).drewN 2).failFrame k r n 0x27 e.freeCmdId g.fetch 1 false, true)
  | .poison => (((e.setRing n (g.advance size)).drewN 2).failFrame k r n 0x21 e.freeCmdId g.fetch 1 false, true)

/-- What must hold for the engine to begin reading an entry (R267, R277, R278): firmware schedules, an announced line, a
completion entry to reserve, an entry left in the beat and in the burst, and no fenced entry that waits. -/
def Engine.canFetch (r : Regs) (n : Nat) (e : Engine) : Bool :=
  e.cqFree r n && decide (0 < e.budget.entries) && decide (0 < (e.ring n).burst) &&
    !((e.ring n).ready.any fun x => x.fence)

/-- A later line of an open chain or of a variable entry (R259, R263, R265). -/
def Engine.frameLater (k : Kit) (r : Regs) (n : Nat) (x : LineRead) (e : Engine) : Engine × Bool :=
  let g := e.ring n
  let size := r.sqSize n
  let h0 := headerOf (g.chain.headD 0)
  let taken := g.chain.length + 1
  let rest := min 8 h0.lines - taken
  match x with
  | .ok d =>
    let h := headerOf d
    let took := e.setRing n { g.advance size with chain := g.chain ++ [d] }
    let gone := e.setRing n (g.advance size)
    if !r.ringChained n then (if taken = h0.lines then took.finishEntry k r n else took, true)
    else if h.phase ≠ g.phase then (e.waitPhase n, false)
    else if h.first then
      let e := e.failChain k r n 0x19 (taken - 1) 0 false
      if e.canFetch r n then e.frameFirst k r n x else (e, false)
    else if h.opcode ≠ h0.opcode ∨ h.lines ≠ h0.lines ∨ h.cmdId ≠ h0.cmdId then
      (gone.failChain k r n 0x12 taken (if h.last then 0 else 8 - taken) true, true)
    else if h.last then
      (if taken = h0.lines then took.finishEntry k r n else gone.failChain k r n 0x12 taken 0 false, true)
    else if taken = 8 then (gone.failChain k r n 0x12 taken 0 false, true)
    else (took, true)
  | .memError => ((e.setRing n (g.advance size)).failChain k r n 0x27 taken rest false, true)
  | .poison => ((e.setRing n (g.advance size)).failChain k r n 0x21 taken rest false, true)

/-- One line read at the fetch position (R262 to R265). -/
def Engine.frameLine (k : Kit) (r : Regs) (n : Nat) (x : LineRead) (e : Engine) : Engine × Bool :=
  let g := e.ring n
  if g.fetch = g.tail then (e, false)
  else match g.failing with
    | some f => (e.consumeFailed k r n f x, true)
    | none =>
      if g.chain.isEmpty then (if e.canFetch r n then e.frameFirst k r n x else (e, false))
      else e.frameLater k r n x

/-- Lines read one after another from the fetch position, until framing stops. -/
def Engine.frameLines (k : Kit) (r : Regs) (n : Nat) : List LineRead → Engine → Engine
  | [], e => e
  | x :: xs, e =>
    let p := e.frameLine k r n x
    if p.2 then Engine.frameLines k r n xs p.1 else p.1

/-! ### Which entry starts -/

/-- The tenant whose URGENT class is raised (R105, R107). -/
def Engine.urgentTenant (e : Engine) : Option TenantNo := if e.cut.planActive then some e.cut.planTenant else none

/-- Every earlier job of the ring has completed and its completion has been written (R278). -/
def Engine.fenceMet (n : Nat) (e : Engine) : Bool :=
  (e.jobsOf n).isEmpty && (e.ring n).cqOut.isNone && (e.ring n).cq.all fun c => c.written

/-- The ring's oldest framed entry may start (R277): a fenced one first needs its release (R278). -/
def Engine.entryReady (r : Regs) (n : Nat) (e : Engine) : Bool :=
  r.ringActive n && decide (0 < (e.ring n).burst) && decide (0 < e.budget.entries) &&
    (match (e.ring n).ready with
     | [] => false
     | x :: _ => !x.fence)

/-- The ring's tenant has its URGENT class raised. -/
def Engine.ringUrgent (r : Regs) (n : Nat) (e : Engine) : Bool := e.urgentTenant == some (r.ringTenant n)

/-- The ring whose turn it is (R277): the one that has weight left, else the next ready ring in ascending number,
cyclically. -/
def Engine.turnRing (r : Regs) (e : Engine) : Option Nat :=
  if 0 < e.rings.weight ∧ e.entryReady r e.rings.turn then some e.rings.turn
  else (lowestFrom (fun i => e.entryReady r ((e.rings.turn + i) % 256)) 1 256).map fun i => (e.rings.turn + i) % 256

/-- Ring `n` starts the next entry (R277): the rings of an urgent tenant go ahead of the turns. -/
def Engine.mayStart (r : Regs) (n : Nat) (e : Engine) : Bool :=
  e.scheduling && e.entryReady r n &&
    (e.ringUrgent r n ||
      (!((List.range 256).any fun m => e.ringUrgent r m && e.entryReady r m) && e.turnRing r == some n))

/-- The turn after ring `n` has started an entry in its turn. -/
def Engine.takeTurn (r : Regs) (n : Nat) (e : Engine) : Engine :=
  if e.ringUrgent r n then e
  else
    let w := if e.rings.turn = n ∧ 0 < e.rings.weight then e.rings.weight else r.ringWeight n
    { e with rings := { e.rings with turn := n, weight := w - 1 } }

/-- The ring has no entry left that may start in its turn: none is framed, its next one waits on a fence, or its burst is spent (R277). -/
def Ring.spent (g : Ring) : Bool := g.burst == 0 || (match g.ready with | [] => true | x :: _ => x.fence)

/-- The turn of ring `n` ends early with its last entry (R277). -/
def Engine.endTurn (n : Nat) (e : Engine) : Engine :=
  e.when (e.rings.turn == n && (e.ring n).spent) fun e => { e with rings := { e.rings with weight := 0 } }

/-- The oldest framed entry of a ring taken from it and started: charged and counted (R277). -/
def Engine.takeEntry (r : Regs) (n : Nat) (e : Engine) : Engine :=
  let e := ((e.takeTurn r n).chargeEntry n).bump Ctr.entriesStarted 1
  (e.setRing n { e.ring n with ready := (e.ring n).ready.tail }).endTurn n

/-- What of a ring a new steward fetches again (R32): the entries that have been read and have not started, and what is being read. -/
def Ring.refetch (size : Nat) (g : Ring) : Ring :=
  let first := match g.ready with
    | x :: _ => x.index
    | [] => g.entryStart size
  { g with fetch := first, phase := if g.fetch < first then !g.phase else g.phase, chain := [], failing := none, phaseWait := none,
           ready := [], opens := g.opens.take (g.opens.length - g.ready.length) }

/-- The job identity of an entry. -/
def Entry.jobId (n : Nat) (x : Entry) : JobId := { ring := n, cmdId := x.cmdId, index := x.index, irq := x.irq }

/-- A job of ring `n` starts (R277): when the ring may start its oldest framed entry and that entry is of the kind `p`,
`f` is what the job does; otherwise nothing starts (log 1). -/
def Engine.startJob (r : Regs) (n : Nat) (p : Entry → Bool) (f : Entry → Engine → Engine) (e : Engine) : Engine :=
  match (e.ring n).ready with
  | [] => e
  | x :: _ => if e.mayStart r n && p x then f x (e.takeEntry r n) else e

/-- What every job of a tenant is refused for (R316, R332). -/
def Engine.tenantConds (t : TenantNo) (e : Engine) : List (Bool × Code) :=
  let x := e.tenant t.toNat
  [(x.state == .free || x.releasing.isSome, 0x40), (x.state == .admitted, 0x44)]

/-- A started job judged from its entry and the engine's state (R14): refused with the first condition, or carried out. -/
def Engine.judged (k : Kit) (r : Regs) (n : Nat) (x : Entry) (conds : List (Bool × Code)) (go : Engine → Engine) (e : Engine) : Engine :=
  match judge ((x.badHeader, 0x11) :: conds) with
  | some c => e.refuse k r (x.jobId n) c
  | none => go e

/-- The two stages of R434: conditions of the entry and the state, then the read of the named data, then the conditions of
the data. `go` gets the bytes. -/
def Engine.judgedData (k : Kit) (r : Regs) (n : Nat) (x : Entry) (conds : List (Bool × Code)) (d : HostRead)
    (later : List Byte → List (Bool × Code)) (go : List Byte → Engine → Engine) (e : Engine) : Engine :=
  e.judged k r n x conds fun e =>
    match d with
    | .memError => e.refuse k r (x.jobId n) 0x27
    | .poison => e.refuse k r (x.jobId n) 0x21
    | .ok bs =>
      match judge (later bs) with
      | some c => e.refuse k r (x.jobId n) c
      | none => go bs e

end Sys2Proof.Machine
end

