-- ==== Sys2Proof/Machine/RecipeOps.lean ====
section
/-!
DEFINITION. Recipes (07_recipes): images and their validation, binding sets, what a run gathers, and the extents that a run
makes of a source.
-/

namespace Sys2Proof.Machine

/-! ### Images -/

/-- A step as it stands in an image (R164). -/
structure RawStep where
  opcode : Nat
  stream : Nat
  value : Nat
deriving DecidableEq, Repr

/-- The steps of an image after its header, at most `n` (R163). -/
def rawSteps (n : Nat) (bs : List Byte) : List RawStep :=
  (List.range (min n ((bs.length - 16) / 16))).map fun i =>
    let v := leAt (16 + 16 * i) 16 bs
    { opcode := bits 7 0 v, stream := bits 9 8 v, value := v }

/-- The operand bits that an opcode names (R165); bits outside them are reserved. -/
def operandMask (opcode : Nat) : Nat :=
  match opcode with
  | 1 => 0xF0000 + 0xFFFFFFFF * 2 ^ 24 + 0xFFFFFFFF * 2 ^ 56 + 0xFFFFFFFF * 2 ^ 88
  | 2 => 0xF0000 + 0x300000 + 0xFFFFFFFF * 2 ^ 24
  | 3 => 0xF0000
  | 4 => 0x30000
  | 7 => 0xF0000
  | _ => 0

/-- An opcode is defined (R165). -/
def opcodeDefined (op : Nat) : Bool := decide (1 ≤ op) && decide (op ≤ 8)

/-- A reserved bit of the step is 1 (R164). -/
def RawStep.reserved (s : RawStep) : Bool :=
  bits 15 10 s.value != 0 || (opcodeDefined s.opcode && (s.value / 2 ^ 16 * 2 ^ 16) &&& (2 ^ 128 - 1 - operandMask s.opcode) != 0)

/-- The step that a raw step spells, when its opcode and its codes are defined. -/
def RawStep.step (s : RawStep) : Option Step :=
  match s.opcode with
  | 1 => (fmtOf (bits 19 16 s.value)).map fun f => .gather f (bits 55 24 s.value) (bits 87 56 s.value) (bits 119 88 s.value)
  | 2 =>
    match fmtOf (bits 19 16 s.value), rndOf (bits 21 20 s.value) with
    | some f, some r => some (.narrow f r (BitVec.ofNat 32 (bits 55 24 s.value)))
    | _, _ => none
  | 3 => (fmtOf (bits 19 16 s.value)).map fun f => .widen f
  | 4 => (rateGeom (bits 17 16 s.value)).map fun _ => .code (bits 17 16 s.value)
  | 5 => some .seal
  | 6 => some .digest
  | 7 => some (.scatter (bits 19 16 s.value))
  | 8 => some .residual
  | _ => none

/-- The steps of an image, those that spell one. -/
def stepsOf (raw : List RawStep) : List StepAt := raw.filterMap fun s => s.step.map fun x => { stream := s.stream, step := x }

def Step.isGather : Step → Bool
  | .gather _ _ _ _ => true
  | _ => false

def Step.isNarrow : Step → Bool
  | .narrow _ _ _ => true
  | _ => false

def Step.isWiden : Step → Bool
  | .widen _ => true
  | _ => false

def Step.isCode : Step → Bool
  | .code _ => true
  | _ => false

def Step.isScatter : Step → Bool
  | .scatter _ => true
  | _ => false

/-- The format current on each of the three streams before the first step (R161, R167): none on stream 0 until a GATHER, BYTES on the
streams that RESIDUAL opens. -/
def startFormats : List (Option Fmt) := [none, some .bytes, some .bytes]

/-- NARROW, WIDEN, CODE and RESIDUAL act on a numeric format (R53, R139), and WT obeys R53, R61 and R66 against the format current on the
step's stream, where there is one (R167). -/
def formatsOk : List (Option Fmt) → List StepAt → Bool
  | _, [] => true
  | cur, s :: rest =>
    let f := ((cur[s.stream]?).getD none)
    let numeric := f.all fun x => x != .bytes
    match s.step with
    | .gather x _ _ _ => formatsOk (cur.set s.stream (some x)) rest
    | .narrow wt _ _ =>
      numeric && wt != .bytes && (f.all fun x => decide (wt.width < x.width)) && formatsOk (cur.set s.stream (some wt)) rest
    | .widen wt =>
      numeric && wt != .bytes && (f.all fun x => decide (x.width < wt.width)) && formatsOk (cur.set s.stream (some wt)) rest
    | .code _ => numeric && formatsOk cur rest
    | .residual => numeric && formatsOk cur rest
    | _ => formatsOk cur rest

/-- The GATHER rules of R167: classes 0x1 and 0x2 gather BYTES whole; a BYTES GATHER has SCALE_OFF 0. -/
def gathersOk (cls : Nat) (steps : List StepAt) : Bool :=
  steps.all fun s =>
    match s.step with
    | .gather f eo so c =>
      (f != .bytes || so == 0) && (!(cls == 1 || cls == 2) || (f == .bytes && eo == 0 && so == 0 && c == 0))
    | _ => true

/-- Index of the first step that satisfies `p`. -/
def stepIndex (p : Step → Bool) (steps : List StepAt) : Option Nat := steps.findIdx? fun s => p s.step

/-- The steps of one stream. -/
def onStream (n : Nat) (steps : List StepAt) : List StepAt := steps.filter fun s => s.stream == n

/-- The order rules of one stream (R158, R167): SEAL and DIGEST at most once, only DIGEST and SCATTER after SEAL, DIGEST
directly before SCATTER, and an open stream ends in exactly one SCATTER. -/
def streamOk (steps : List StepAt) : Bool :=
  let xs := steps.map fun s => s.step
  decide ((xs.filter fun s => s == .seal).length ≤ 1) && decide ((xs.filter fun s => s == .digest).length ≤ 1) &&
    (((xs.dropWhile fun s => s != .seal).drop 1).all fun s => s == .digest || s.isScatter) &&
    (match (xs.dropWhile fun s => s != .digest).drop 1 with
     | [] => !xs.contains .digest
     | s :: _ => s.isScatter) &&
    (xs.isEmpty || (decide ((xs.filter Step.isScatter).length = 1) && (match xs.getLast? with | some s => s.isScatter | none => false)))

/-- The structural rules of R167 that answer 0x18. -/
def structureOk (cls : Nat) (steps : List StepAt) : Bool :=
  let at_ (p : Step → Bool) := stepIndex p steps
  let count (p : Step → Bool) := (steps.filter fun s => p s.step).length
  let resAt := (at_ (· == .residual)).getD steps.length
  (match steps with
   | s :: rest => s.step.isGather && s.stream == 0 && !(rest.any fun x => x.step.isGather)
   | [] => false) &&
    decide (count Step.isNarrow ≤ 1) && decide (count Step.isWiden ≤ 1) && decide (count Step.isCode ≤ 1) &&
    decide (count (· == .residual) ≤ 1) &&
    (steps.all fun s => !(s.step.isNarrow || s.step.isWiden || s.step.isCode || s.step == .residual) || s.stream == 0) &&
    (match at_ (· == .residual) with
     | none => true
     | some i => decide (0 < i) && (match steps[i - 1]? with | some s => s.step.isNarrow | none => false)) &&
    (match at_ Step.isCode with
     | none => true
     | some i => ((steps.drop (i + 1)).all fun s => !(s.step.isNarrow || s.step.isWiden)) && (cls == 6 || cls == 8 || cls == 9)) &&
    ((steps.take resAt).all fun s => s.stream == 0) &&
    streamOk (onStream 0 steps) && !(onStream 0 steps).isEmpty &&
    (if resAt < steps.length then
       streamOk (onStream 1 steps) && streamOk (onStream 2 steps) && !(onStream 1 steps).isEmpty && !(onStream 2 steps).isEmpty
     else true) &&
    decide ((steps.filterMap fun s => match s.step with | .scatter x => some x | _ => none).Nodup)

/-- The conditions of R167 that depend on the image. `len` is IMAGE_LEN. -/
def imageConds (len : Nat) (bs : List Byte) : List (Bool × Code) :=
  let h := leAt 0 16 bs
  let nsteps := bits 15 8 h
  let cls := bits 19 16 h
  let raw := rawSteps nsteps bs
  let steps := stepsOf raw
  let whole := raw.length == nsteps && (raw.all fun s => s.step.isSome)
  [(decide (len ≠ 16 * (1 + nsteps)) || decide (bits 127 96 h ≠ (crc32c (bs.take 12 ++ slice 16 (16 * nsteps) bs)).toNat), 0x12),
   (decide (bits 7 0 h ≠ 1) || decide (nsteps < 1) || decide (64 < nsteps) || !(decide (cls ≤ 9) || cls == 0xD) ||
      bits 95 64 h != 0 || bits 31 20 h != 0 || (raw.any fun s => s.reserved || s.stream == 3) ||
      (raw.any fun s => opcodeDefined s.opcode && s.step.isNone) || !formatsOk startFormats steps ||
      !gathersOk cls steps, 0x11),
   (raw.any fun s => !opcodeDefined s.opcode, 0x10),
   (whole && !structureOk cls steps, 0x18)]

/-- The recipe that a valid image spells. -/
def recipeOf (t : TenantNo) (bs : List Byte) : Recipe :=
  let h := leAt 0 16 bs
  { tenant := t, userTag := BitVec.ofNat 32 (bits 63 32 h), cls := bits 19 16 h, steps := stepsOf (rawSteps (bits 15 8 h) bs) }

/-- The built-in recipe (R172). -/
def builtinSteps : List StepAt :=
  [{ stream := 0, step := .gather .bytes 0 0 0 }, { stream := 0, step := .seal }, { stream := 0, step := .digest },
   { stream := 0, step := .scatter 0 }]

/-- The steps of every source under DEST 0b10 (R195). -/
def glaraxSteps : List StepAt := [{ stream := 0, step := .gather .bytes 0 0 0 }, { stream := 0, step := .scatter 0 }]

/-- A step list has a SEAL and a DIGEST on each of its streams (R172). -/
def sealsAndDigests (steps : List StepAt) : Bool :=
  [0, 1, 2].all fun n =>
    let xs := (onStream n steps).map fun s => s.step
    xs.isEmpty || (xs.contains .seal && xs.contains .digest)

/-- A step list has a SEAL. -/
def hasSeal (steps : List StepAt) : Bool := steps.any fun s => s.step == .seal

/-! ### The store -/

/-- Binding entries of an image (R170): entry c is RECIPE_ID when VALID. -/
def bindEntries (bs : List Byte) : List (Option Nat) :=
  (List.range 16).map fun c =>
    let v := leAt (2 * c) 2 bs
    if bitOf 15 v then some (bits 9 0 v) else none

/-- A reserved bit of a binding image is set, or a class that R170 excludes has VALID. -/
def bindBad (bs : List Byte) : Bool :=
  (List.range 16).any fun c =>
    let v := leAt (2 * c) 2 bs
    bits 14 10 v != 0 || (bitOf 15 v && [0xA, 0xB, 0xC, 0xE, 0xF].contains c)

/-- The loaded recipe of an id. -/
def Engine.recipe (n : Nat) (e : Engine) : Option Recipe := tabFind n e.recipes.held

/-- The steps that serve a class under a binding set (R172). -/
def Engine.stepsFor (set cls : Nat) (e : Engine) : List StepAt :=
  match tabFind set e.recipes.sets with
  | none => builtinSteps
  | some b =>
    match (b.entries[cls]?).getD none with
    | none => builtinSteps
    | some n => match e.recipe n with
      | some rc => rc.steps
      | none => builtinSteps

/-- Recipes that a tenant holds. -/
def Engine.recipesOf (t : TenantNo) (e : Engine) : Nat := (e.recipes.held.filter fun p => p.2.tenant == t).length

/-! ### Shapes -/

/-- What a step list says, gathered: formats, the transformations of the main stream, and per stream whether it is sealed
and digested and its RUN_EXT. -/
structure Shape where
  fmt : Fmt
  elemOff : Nat
  scaleOff : Nat
  count : Nat
  /-- the format after NARROW and WIDEN -/
  outFmt : Fmt
  narrow : Option (Fmt × Fmt × Rnd × Word)
  widened : Bool
  code : Option Nat
  residual : Bool
  seals : List Bool
  digests : List Bool
  exts : List Nat
deriving DecidableEq, Repr

/-- The shape of a step list. -/
def shapeOf (steps : List StepAt) : Shape :=
  let start : Shape :=
    { fmt := .bytes, elemOff := 0, scaleOff := 0, count := 0, outFmt := .bytes, narrow := none, widened := false, code := none,
      residual := false, seals := [false, false, false], digests := [false, false, false], exts := [0, 0, 0] }
  steps.foldl (fun sh s =>
    match s.step with
    | .gather f eo so c => { sh with fmt := f, elemOff := eo, scaleOff := so, count := c, outFmt := f }
    | .narrow wt r seed => { sh with narrow := some (sh.outFmt, wt, r, seed), outFmt := wt }
    | .widen wt => { sh with widened := true, outFmt := wt }
    | .code r => { sh with code := some r }
    | .seal => { sh with seals := sh.seals.set s.stream true }
    | .digest => { sh with digests := sh.digests.set s.stream true }
    | .scatter x => { sh with exts := sh.exts.set s.stream x }
    | .residual => { sh with residual := true }) start

/-- Units that a source of `lines` lines gives (R165): lines for BYTES, blocks otherwise. -/
def Shape.units (sh : Shape) (lines : Nat) : Nat :=
  if sh.count ≠ 0 then sh.count
  else if sh.fmt = .bytes then lines - sh.elemOff
  else
    let stop := if sh.elemOff < sh.scaleOff then sh.scaleOff else lines
    (stop - sh.elemOff) * 64 / (4 * sh.fmt.width)

/-- Element lines that the units take. -/
def Shape.elemLines (sh : Shape) (lines : Nat) : Nat :=
  if sh.fmt = .bytes then sh.units lines else ceilDiv (sh.units lines * (4 * sh.fmt.width)) 64

/-- Scale lines that the units take (R173). -/
def Shape.scaleLines (sh : Shape) (lines : Nat) : Nat :=
  if sh.fmt = .bytes then 0 else ceilDiv (sh.units lines) 64

/-- A GATHER range runs past the end of its source, or its planes overlap (R173). -/
def Shape.gatherBad (sh : Shape) (lines : Nat) : Bool :=
  decide (lines < sh.elemOff + sh.elemLines lines) ||
    (sh.fmt != .bytes &&
      (decide (lines < sh.scaleOff + sh.scaleLines lines) ||
        spansMeet (sh.elemOff, sh.elemLines lines) (sh.scaleOff, sh.scaleLines lines)))

/-- Lines of the element plane as stored before coding. -/
def Shape.planeLines (sh : Shape) (units : Nat) : Nat :=
  if sh.fmt = .bytes then units else ceilDiv (units * (4 * sh.outFmt.width)) 64

/-- Bytes of the element plane as stored (R141, R181). -/
def Shape.planeBytes (sh : Shape) (units : Nat) : Nat :=
  match sh.code.bind rateGeom with
  | some g => codedBytes g (sh.planeLines units)
  | none => 64 * sh.planeLines units

/-- Stored bytes of the main extent. -/
def Shape.mainLen (sh : Shape) (units : Nat) : Nat :=
  sh.planeBytes units + (if sh.fmt = .bytes then 0 else roundUp 64 units)

/-- Stored bytes of the residual extent. -/
def Shape.resLen (sh : Shape) (units : Nat) : Nat :=
  match sh.narrow with
  | some (src, wt, _, _) => if sh.residual then roundUp 64 (units * resSize src.width wt.width) else 0
  | none => 0

/-- The most bytes that the escape extent can take: every block escapes (R177). -/
def Shape.escMax (sh : Shape) (units : Nat) : Nat :=
  match sh.narrow with
  | some (src, _, _, _) => if sh.residual then roundUp 64 (units * (8 + 4 * src.width)) else 0
  | none => 0

/-- The run takes each source line to one stored line on its own (the built-in recipe and every recipe on BYTES). -/
def Shape.lineWise (sh : Shape) : Bool := sh.fmt == .bytes

/-! ### Runs -/

/-- A unit of a numeric run on its way: its block, and its poison mark (R175). -/
structure UnitRun where
  block : Block
  poison : Bool
deriving DecidableEq, Repr

/-- A block of 32 zero elements with scale 0: what a poisoned unit gives after a step that changes its size (R175). -/
def Block.zero : Block := { q := List.replicate 32 0, e := 0 }

/-- The units that GATHER forms of a numeric source (R160, R165). -/
def gatherUnits (sh : Shape) (src : List MemBeat) : List UnitRun :=
  let elems := bytesOfLines ((src.drop sh.elemOff).map fun b => b.data)
  let scales := bytesOfLines ((src.drop sh.scaleOff).map fun b => b.data)
  let bw := 4 * sh.fmt.width
  (List.range (sh.units src.length)).map fun j =>
    let first := sh.elemOff + j * bw / 64
    let last := sh.elemOff + (j * bw + bw - 1) / 64
    { block := blockOf sh.fmt.width (slice (j * bw) bw elems) (byteAt j scales)
      poison := ((src.drop first).take (last + 1 - first)).any (fun b => b.poison) ||
        (match src[sh.scaleOff + j / 64]? with | some b => b.poison | none => false) }

/-- What a narrowing makes of a unit: the narrowed unit, and the record of it when the unit is not poisoned. -/
def narrowUnit (wt : Fmt) (rnd : Rnd) (seed : Word) (n : Nat) (u : UnitRun) : UnitRun × Option (Block × Narrowed) :=
  if u.poison then ({ block := Block.zero, poison := true }, none)
  else
    let r := narrowBlock rnd wt.width seed n u.block
    ({ block := r.block, poison := false }, some (u.block, r))

/-- What a run has made: units of the main stream, and what its NARROW recorded. -/
structure RunState where
  units : List UnitRun
  narrowed : List (Option (Block × Narrowed))
deriving DecidableEq, Repr

/-- NARROW and WIDEN in step order (R160). -/
def runSteps (seed : Word) : Fmt → List StepAt → RunState → RunState
  | _, [], s => s
  | cur, x :: rest, s =>
    match x.step with
    | .narrow wt rnd _ =>
      let ys := s.units.mapIdx fun n u => narrowUnit wt rnd seed n u
      runSteps seed wt rest { units := ys.map Prod.fst, narrowed := ys.map Prod.snd }
    | .widen wt =>
      runSteps seed wt rest { s with units := s.units.map fun u => { u with block := if u.poison then Block.zero else widenBlock u.block } }
    | .gather f _ _ _ => runSteps seed f rest s
    | _ => runSteps seed cur rest s

/-- A list of `n` poison marks for lines of 64 bytes, from marks on items of `size` bytes. -/
def lineMarks (size n : Nat) (marks : List Bool) : List Bool :=
  (List.range n).map fun l =>
    (marks.mapIdx fun i b => b && decide (i * size < 64 * l + 64) && decide (64 * l < i * size + size)).any id

/-- Bytes as stored lines with the poison marks of the items they come from. -/
def markedLines (size : Nat) (bs : List Byte) (marks : List Bool) : List MemBeat :=
  let ls := toLines bs
  (ls.zip (lineMarks size ls.length marks)).map fun p => { data := p.1, poison := p.2 }

/-- The coded form of an element plane (R140 to R149): the table line and the coded chunks; a coded line carries the poison
marker when a slot of it does (R175). `chunks` groups of 64 source lines. -/
def codePlane (g : RateGeom) (fmt : Fmt) (rate : Nat) (lines : List MemBeat) : List MemBeat :=
  let sample := (lines.take 64).map fun b => b.data
  let ls := codeLengths fmt.width sample
  let chunk (c : Nat) : List MemBeat :=
    let src := (lines.drop (64 * c)).take 64
    (encodeChunk g fmt.width ls src).mapIdx fun i d =>
      { data := d, poison := ((src.drop (i * g.group)).take g.group).any fun b => b.poison }
  { data := tableLine fmt rate ls sample.length, poison := false } :: (List.range (ceilDiv lines.length 64)).flatMap chunk

/-- The residual records and escape entries of a narrowing, with the poison marks of the records (R67 to R69, R175):
`esc` counts the escaping blocks so far. -/
def residualRun (src wt : Fmt) : Nat → List (Option (Block × Narrowed)) → List (List Byte × Bool × List Byte)
  | _, [] => []
  | esc, none :: rest => (zeroBytes (resSize src.width wt.width), true, []) :: residualRun src wt esc rest
  | esc, some (b, r) :: rest =>
    (resRecord src.width wt.width b r esc, false, if r.esc then escEntry src b else []) ::
      residualRun src wt (esc + b2n r.esc) rest

/-- XFORM of R181. -/
def xform (narrowed widened coded sealed digested residual escape : Bool) : Nat :=
  b2n narrowed + 2 * b2n widened + 4 * b2n coded + 8 * b2n sealed + 16 * b2n digested + 32 * b2n residual + 64 * b2n escape

/-- The main extent of a run without its lines. -/
def mainExtent (sh : Shape) (cls units : Nat) (seed : Word) (lines : List MemBeat) : Extent :=
  { cls := cls, fmt := sh.outFmt, srcFmt := sh.fmt,
    flags := xform sh.narrow.isSome sh.widened sh.code.isSome (sh.seals.getD 0 false) (sh.digests.getD 0 false) false false
    runExt := sh.exts.getD 0 0
    rnd := (match sh.narrow with | some (_, _, r, _) => r.code | none => 0)
    rate := sh.code.getD 0
    seed := if sh.narrow.isSome then seed else 0
    len := sh.mainLen units
    scaleOff := if sh.fmt = .bytes then sh.mainLen units else sh.planeBytes units
    units := units, lines := lines }

/-- The extents of a numeric run (R159 to R161): main, and residual and escape where RESIDUAL opens them. -/
def runNumeric (steps : List StepAt) (cls : Nat) (seed : Word) (src : List MemBeat) : List Extent :=
  let sh := shapeOf steps
  let st := runSteps seed sh.fmt steps { units := gatherUnits sh src, narrowed := [] }
  let marks := st.units.map fun u => u.poison
  let w := sh.outFmt.width
  let plane := markedLines (4 * w) (st.units.flatMap fun u => blockBytes w u.block) marks
  let stored := match sh.code.bind rateGeom with
    | some g => codePlane g sh.outFmt (sh.code.getD 0) plane
    | none => plane
  let scales := markedLines 1 (st.units.map fun u => scaleByte u.block) marks
  let main := mainExtent sh cls st.units.length seed (stored ++ scales)
  match sh.residual, sh.narrow with
  | true, some (from_, wt, _, _) =>
    let rs := residualRun from_ wt 0 st.narrowed
    let rec_ := markedLines (resSize from_.width wt.width) (rs.flatMap fun r => r.1) (rs.map fun r => r.2.1)
    let esc := toLines (rs.flatMap fun r => r.2.2)
    let ext (i clsNo : Nat) (isRes : Bool) (units : Nat) (ls : List MemBeat) : Extent :=
      { cls := clsNo, fmt := .bytes, srcFmt := from_,
        flags := xform false false false (sh.seals.getD i false) (sh.digests.getD i false) isRes (!isRes)
        runExt := sh.exts.getD i 0, rnd := 0, rate := 0, seed := 0, len := 64 * ls.length, scaleOff := 64 * ls.length,
        units := units, lines := ls }
    [main, ext 1 0xA true rs.length rec_,
     ext 2 0xB false ((rs.filter fun r => !r.2.2.isEmpty).length) (esc.map fun d => { data := d, poison := false })]
  | _, _ => [main]

/-- The arithmetic counters of a numeric run, for tenant `t` (03_arithmetic). -/
def Engine.countNarrowing (t : Nat) (steps : List StepAt) (seed : Word) (src : List MemBeat) (e : Engine) : Engine :=
  let sh := shapeOf steps
  let st := runSteps seed sh.fmt steps { units := gatherUnits sh src, narrowed := [] }
  let done := st.narrowed.filterMap id
  ((e.bump (Ctr.narrowBlocks t) done.length).bump (Ctr.elemSat t) ((done.map fun p => p.2.satCount).sum)).bump (Ctr.expSat t)
    (done.filter fun p => p.2.esc).length

/-- A refused job whose code comes from a condition of R167 to R173, `mine`, counts in RECIPE_REFUSED. -/
def Engine.countRecipe (conds : List (Bool × Code)) (mine : List (Bool × Code)) (e : Engine) : Engine :=
  match judge conds with
  | some c => e.bump Ctr.recipeRefused (b2n (mine.any fun p => p.1 && p.2 == c))
  | none => e

/-- The seed of a run (R65): the step's own, or a draw of the noise source when it is zero, zero replaced by one. -/
def Engine.seedOf (steps : List StepAt) (e : Engine) : Word × Engine :=
  match (shapeOf steps).narrow with
  | none => (0, e)
  | some (_, _, _, s) =>
    if s ≠ 0 then (s, e)
    else
      let d := (Config.noise e.draws).setWidth 32
      (if d = 0 then 1 else d, e.drawn)

end Sys2Proof.Machine
end

