-- ==== Sys2Proof/Machine/KsfOps.lean ====
section
/-!
DEFINITION. The Kareux Shard Format as the engine writes it (08_shard_format): sources and their places, headers, tables,
manifest, commit record, Glarax images; sealing and digests (13_security).
-/

namespace Sys2Proof.Machine

/-! ### Identity, seals and digests -/

/-- The public key of the fused identity key as 96 bytes, X then Y (R325). -/
def Keys.publicBytes (x : Keys) : List Byte :=
  match x.identity with
  | none => []
  | some d => natLE 96 (publicKey d).toNat

/-- ENGINE_UID: the first 16 bytes of the SHA3-384 digest of the identity public key; zero until it is fused (R179, R431). -/
def Keys.uid (x : Keys) : Nat :=
  match x.identity with
  | none => 0
  | some _ => (sha3_384 x.publicBytes).toNat % 2 ^ 128

/-- The tweak of a line (R326): LINE_INDEX, XTS_EPOCH, SHARD_NO or SPILL_ID. -/
def tweak (lineIndex : Nat) (xtsEpoch : Word) (shardNo : Nat) : BitVec 128 :=
  BitVec.ofNat 128 (lineIndex % 2 ^ 64 + 2 ^ 64 * xtsEpoch.toNat + 2 ^ 96 * (shardNo % 2 ^ 32))

/-- The seal key of tenant `t`; without one the sealing rows are not reached (R72, R173). -/
def Engine.sealKey (t : TenantNo) (e : Engine) : BitVec 512 := (e.tenant t.toNat).sealKey.getD 0

/-! ### Sources -/

/-- Tiles that a cut of tenant `t` covers, ascending (R73, R178). -/
def Engine.tilesOf (t : TenantNo) (e : Engine) : List Nat :=
  (e.buds.filter fun p => p.2.tenant == t && p.2.state != .absent).map fun p => p.1

/-- The guard ranges of a RANGES mask, ascending. -/
def rangesOf (mask : Dword) : List Nat := (List.range 64).filter fun n => mask.getLsbD n

/-- Lines of a granule (R90). -/
def granuleLines : Nat := 16384

/-- The coordinate record of a tile extent of `n` lines (R183). -/
def tileCoord (k : Kit) (tile n : Nat) : Coord :=
  { tensorId := 0, unitStart := 0, unitCount := n, rank := 2, layout := 8, rotPhase := 0,
    gshape := [k.gridCols, k.gridRows], sstart := [tile % k.gridCols, tile / k.gridCols], slen := [1, 1] }

/-- A source before it has a place. -/
def sourceOf (kind : SrcKind) (shard cls : Nat) (steps : List StepAt) (lines : Nat) (coords : List Coord) : Source :=
  { kind := kind, shard := shard, cls := cls, steps := steps, lines := lines, mainOff := 0, resOff := 0, seed := 0,
    coords := coords, got := [], arrived := 0, coded := 0, run := none }

/-- The steps of a class under the parameters of a cut (R172, R195). -/
def Engine.cutSteps (p : CutParams) (cls : Nat) (e : Engine) : List StepAt :=
  if p.dest = 2 then glaraxSteps else e.stepsFor p.recipeSet cls

/-- The sources of a tile, in run order (R178): context, then scratchpad. -/
def Engine.tileSources (k : Kit) (p : CutParams) (tile : Nat) (e : Engine) : List Source :=
  let mk (ctx : Bool) (cls lines : Nat) : Source :=
    let steps := e.cutSteps p cls
    sourceOf (.tile tile ctx) (k.regionOf tile) cls steps lines [tileCoord k tile ((shapeOf steps).units lines)]
  [mk true 2 4, mk false 1 (k.linesOf tile)]

/-- The sources of a cut of tenant `t`, in run order (R178). -/
def Engine.cutSources (k : Kit) (t : TenantNo) (p : CutParams) (e : Engine) : List Source :=
  let tiles := e.tilesOf t
  ((List.range k.regions).flatMap fun g => (tiles.filter fun x => k.regionOf x == g).flatMap fun x => e.tileSources k p x) ++
    (rangesOf p.ranges).filterMap fun n =>
      (tabFind n e.guard.ranges).map fun g =>
        sourceOf (.range n) (128 + n) g.cls (e.cutSteps p g.cls) (granuleLines * g.granules) g.coords

/-- The shard numbers of a list of sources, ascending. -/
def shardNos (ss : List Source) : List Nat := (ss.map fun s => s.shard).eraseDups

/-- Extents that the run of a source gives. -/
def Source.extents (s : Source) : Nat := if (shapeOf s.steps).residual then 3 else 1

/-- DATA_OFF of a shard with these sources (R179): header, extent table, coordinate table. -/
def dataOff (ss : List Source) : Nat :=
  256 + 128 * (ss.map Source.extents).sum + 192 * (ss.map fun s => s.coords.length).sum

/-- Sources given their places from slot offset `off`, one after another, and the offset after the last (R178). -/
def placeSources : Nat → List Source → List Source × Nat
  | off, [] => ([], off)
  | off, s :: rest =>
    let sh := shapeOf s.steps
    let res := off + sh.mainLen (sh.units s.lines)
    let p := placeSources (res + sh.resLen (sh.units s.lines)) rest
    ({ s with mainOff := off, resOff := res } :: p.1, p.2)

/-- The most that the escape extents of a list of sources take (R177). -/
def escRoom (ss : List Source) : Nat :=
  (ss.map fun s => (shapeOf s.steps).escMax ((shapeOf s.steps).units s.lines)).sum

/-- Shards given room, in ascending number from slot offset `off` (R177), and their sources with places. -/
def placeShards (ss : List Source) : Nat → List Nat → List Room × List Source
  | _, [] => ([], [])
  | off, n :: rest =>
    let mine := ss.filter fun s => s.shard == n
    let p := placeSources (off + dataOff mine) mine
    let stop := p.2 + escRoom mine
    let q := placeShards ss (roundUp 4096 stop) rest
    ({ no := n, off := off, len := stop - off } :: q.1, p.1 ++ q.2)

/-- Rooms and placed sources of a KSF cut. -/
def ksfLayout (ss : List Source) : List Room × List Source := placeShards ss 0x5000 (shardNos ss)

/-- Bytes from the slot base to the end of the last room: what R72 checks against a destination; 0x5000 without a shard. -/
def slotNeed (rooms : List Room) : Nat :=
  match rooms.getLast? with
  | some x => x.off + x.len
  | none => 0x5000

/-- Offset of the first source's bytes in a Glarax image of `n` sources (R196). -/
def glaraxData (n : Nat) : Nat := roundUp 4096 (64 + 32 * n)

/-- Placed sources and length of a Glarax image (R196). -/
def glaraxLayout (ss : List Source) : List Source × Nat := placeSources (glaraxData ss.length) ss

/-! ### Structures -/

/-- Six 8-byte entries of a coordinate array, `fill` at and above RANK (R182). -/
def coordArray (fill : Nat) (xs : List Nat) : List Byte :=
  (List.range 6).flatMap fun i => natLE 8 ((xs[i]?).getD fill)

/-- A coordinate record (R182). -/
def Coord.bytes (c : Coord) : List Byte :=
  natLE 8 c.tensorId.toNat ++ natLE 8 c.unitStart.toNat ++ natLE 8 c.unitCount.toNat ++ natLE 1 c.rank ++ natLE 3 c.layout ++
    natLE 4 c.rotPhase.toNat ++ coordArray 1 c.gshape ++ coordArray 0 c.sstart ++ coordArray 1 c.slen ++ zeroBytes 16

/-- SRC of an extent (R181). -/
def SrcKind.src : SrcKind → Nat
  | .tile n _ => n
  | .range n => 0x80000000 + n

/-- An extent with what its table entry needs. -/
structure PlacedExtent where
  ext : Extent
  src : Nat
  link : Nat
  /-- offset from the slot base -/
  off : Nat
  coordFirst : Nat
  coordCount : Nat
deriving DecidableEq, Repr

/-- An extent entry (R181). `start` is the shard's offset in its slot. -/
def PlacedExtent.bytes (start : Nat) (digest : BitVec 256) (x : PlacedExtent) : List Byte :=
  natLE 1 x.ext.cls ++ natLE 1 (x.ext.fmt.code + 16 * x.ext.srcFmt.code) ++ natLE 1 x.ext.flags ++
    natLE 1 (x.ext.runExt + 16 * x.ext.rnd + 64 * x.ext.rate) ++ natLE 4 x.ext.seed.toNat ++ natLE 4 x.src ++ natLE 4 x.link ++
    natLE 8 (x.off - start) ++ natLE 8 x.ext.len ++ natLE 8 x.ext.scaleOff ++ natLE 8 x.ext.units ++ natLE 4 x.coordFirst ++
    natLE 4 x.coordCount ++ natLE 32 digest.toNat ++ zeroBytes 40

/-- TENANT_SLOT (R179). -/
def tenantSlot (t : TenantNo) (slot : Bool) : Nat := t.toNat + 16 * b2n slot

/-- Bytes followed by their CRC-32C. -/
def withCrc (bs : List Byte) : List Byte := bs ++ natLE 4 (crc32c bs).toNat

/-- ENGINE_ID of block version 1.2 (R1). -/
def blockVersion : Nat := 0x4F500102

/-- A shard header and its empty TLV area (R179, R180). -/
def shardHeader (k : Kit) (uid : Nat) (run : Running) (no extCount coordCount shardLen : Nat) : List Byte :=
  let coordOff := 256 + 128 * extCount
  withCrc (natLE 4 0x5346534B ++ natLE 1 1 ++ natLE 1 0 ++ natLE 2 4 ++ natLE 8 run.params.step.toNat ++ natLE 8 run.epoch.toNat ++
    natLE 4 run.xtsEpoch.toNat ++ natLE 4 no ++ natLE 1 (tenantSlot run.tenant run.slot) ++ natLE 1 0 ++ natLE 2 128 ++ natLE 2 192 ++
    natLE 2 0 ++ natLE 4 extCount ++ natLE 4 coordCount ++ natLE 8 256 ++ natLE 8 coordOff ++ natLE 8 (coordOff + 192 * coordCount) ++
    natLE 8 shardLen ++ natLE 16 uid ++ natLE 4 blockVersion ++ natLE 2 k.gridCols ++ natLE 2 k.gridRows ++ natLE 4 0 ++ zeroBytes 144)

/-- The manifest (R185). `buddies` gives the peer numbers of a shard's replicas by its index. -/
def manifestBytes (k : Kit) (uid : Nat) (run : Running) (shards : List Shard) (buddies : Nat → List Nat) : List Byte :=
  let head := natLE 4 0x4D46534B ++ natLE 1 1 ++ natLE 1 0 ++ natLE 2 4 ++ natLE 8 run.params.step.toNat ++ natLE 8 run.epoch.toNat ++
    natLE 4 run.xtsEpoch.toNat ++ natLE 1 (tenantSlot run.tenant run.slot) ++ natLE 1 (run.params.dest + 4 * run.params.replicas) ++
    natLE 2 64 ++ natLE 4 shards.length ++ natLE 4 0 ++ natLE 16 uid ++ natLE 8 run.freezeTime.toNat ++ natLE 8 run.freezeBeat.toNat ++
    natLE 4 blockVersion ++ natLE 2 k.gridCols ++ natLE 2 k.gridRows ++ natLE 8 run.prevEpoch.toNat ++ zeroBytes 164
  let entry (i : Nat) (x : Shard) : List Byte :=
    natLE 4 x.no ++ natLE 4 0 ++ natLE 8 x.len ++ natLE 8 x.off ++ natLE 32 x.digest.toNat ++
      ((List.range 3).flatMap fun j => natLE 2 (((buddies i)[j]?).getD 0xFFFF)) ++ natLE 2 0
  withCrc head ++ (shards.mapIdx entry).flatten

/-- Bytes 0 to 95 of the commit record: what the signature covers (R186). -/
def recordHead (uid : Nat) (run : Running) (manifest : List Byte) : List Byte :=
  natLE 4 0x4346534B ++ natLE 1 1 ++ natLE 1 0 ++ natLE 2 0 ++ natLE 8 run.params.step.toNat ++ natLE 8 run.epoch.toNat ++
    natLE 1 (tenantSlot run.tenant run.slot) ++ zeroBytes 7 ++ natLE 8 manifest.length ++
    natLE 32 (parallelHash manifest).toNat ++ natLE 16 uid ++ zeroBytes 8

/-- The commit record (R186). -/
def recordBytes (head : List Byte) (sig : BitVec 384 × BitVec 384) : List Byte :=
  withCrc (head ++ natLE 48 sig.1.toNat ++ natLE 48 sig.2.toNat ++ zeroBytes 56 ++ natLE 4 0x4546534B)

/-- The body tail record of PARTIAL mode (R189). -/
def tailBytes (epoch : Dword) (shard extent : Nat) : List Byte :=
  withCrc (natLE 4 0x4246534B ++ zeroBytes 4 ++ natLE 8 epoch.toNat ++ natLE 4 shard ++ natLE 4 extent ++ zeroBytes 36)

/-- A Glarax header (R196): the CRC is that of the header with DONE = 1. -/
def glaraxHeader (entries : Nat) (step : Dword) (total : Nat) (done : Bool) : List Byte :=
  let head (d : Bool) : List Byte :=
    natLE 4 0x54584C47 ++ natLE 4 entries ++ natLE 8 step.toNat ++ natLE 4 (b2n d) ++ natLE 4 0 ++ natLE 8 total ++ zeroBytes 28
  head done ++ natLE 4 (crc32c (head true)).toNat

/-- A Glarax entry (R196). -/
def glaraxEntry (s : Source) (len : Nat) (crc : Word) : List Byte :=
  natLE 8 s.mainOff ++ natLE 8 len ++ natLE 4 s.kind.src ++ natLE 1 s.cls ++ zeroBytes 3 ++ natLE 4 crc.toNat ++ zeroBytes 4

/-! ### The image -/

/-- Bytes of a stored image from `off`; a line not there yet reads zero. -/
def imageBytes (image : Tab ImgLine) (off len : Nat) : List Byte :=
  ((List.range (ceilDiv len 64)).flatMap fun i =>
    match tabFind (off / 64 + i) image with
    | some l => lineBytes l.data
    | none => zeroBytes 64).take len

/-- Lines put into an image from slot offset `off`. -/
def putImage (off : Nat) : List ImgLine → Tab ImgLine → Tab ImgLine
  | [], t => t
  | l :: rest, t => putImage (off + 64) rest (tabSet (off / 64) l t)

/-- A line of an extent as stored (R22, R326): sealed with the tweak of its place in its shard when `sealed` says so and it
carries no poison marker. -/
def storeImg (key : BitVec 512) (xtsEpoch : Word) (shardNo shardOff off : Nat) (cls : Nat) (sealed coded : Bool) (b : MemBeat) : ImgLine :=
  { data := if sealed && !b.poison then xtsEncrypt key (tweak ((off - shardOff) / 64) xtsEpoch shardNo) b.data else b.data
    poison := b.poison, cls := BitVec.ofNat 4 cls, sealed := sealed && !b.poison, coded := coded }

/-- The lines of an extent as stored from slot offset `off`. -/
def storeExtent (key : BitVec 512) (xtsEpoch : Word) (shardNo shardOff off : Nat) (x : Extent) : List ImgLine :=
  x.lines.mapIdx fun i b =>
    storeImg key xtsEpoch shardNo shardOff (off + 64 * i) x.cls (bitOf 3 x.flags) (bitOf 2 x.flags && decide (64 * i < x.scaleOff)) b

/-- A plain line of a header, table, manifest or commit record: class 0xC, never sealed (R179). -/
def plainImg (d : LineData) : ImgLine := { data := d, poison := false, cls := 0xC, sealed := false, coded := false }

/-! ### A finished shard -/

/-- The extents of a shard's sources that are not escape extents, with their places, in table order from entry `idx`; `esc` is the
entry index of the next escape extent, `coord` that of the next coordinate record (R178, R181). -/
def mainEntries : Nat → Nat → Nat → List Source → List PlacedExtent
  | _, _, _, [] => []
  | idx, esc, coord, s :: rest =>
    let n := s.coords.length
    match s.run with
    | some [m, r, _] =>
      { ext := m, src := s.kind.src, link := idx + 1, off := s.mainOff, coordFirst := coord, coordCount := n } ::
        { ext := r, src := s.kind.src, link := esc, off := s.resOff, coordFirst := coord, coordCount := n } ::
        mainEntries (idx + 2) (esc + 1) (coord + n) rest
    | some (m :: _) =>
      { ext := m, src := s.kind.src, link := 0xFFFFFFFF, off := s.mainOff, coordFirst := coord, coordCount := n } ::
        mainEntries (idx + 1) esc (coord + n) rest
    | _ => mainEntries idx esc (coord + n) rest

/-- The escape extents of a shard's sources, from slot offset `off` (R178). -/
def escEntries : Nat → Nat → List Source → List PlacedExtent
  | _, _, [] => []
  | off, coord, s :: rest =>
    let n := s.coords.length
    match s.run with
    | some [_, _, x] =>
      { ext := x, src := s.kind.src, link := 0xFFFFFFFF, off := off, coordFirst := coord, coordCount := n } ::
        escEntries (off + x.len) (coord + n) rest
    | _ => escEntries off (coord + n) rest

/-- Extents of a shard's sources before the escape extents. -/
def plainExtents (ss : List Source) : Nat := (ss.map fun s => if (shapeOf s.steps).residual then 2 else 1).sum

/-- A finished shard: its record, the image with its escape extents, header and tables, and the pieces that a replica verifies. -/
structure Built where
  shard : Shard
  image : Tab ImgLine
  pieces : List Piece
  escapes : List PlacedExtent
deriving DecidableEq, Repr

/-- A shard built once every run of it has ended (R178, R179, R184). `stop` is the slot offset after its last extent that is no
escape extent. -/
def buildShard (k : Kit) (uid : Nat) (key : BitVec 512) (run : Running) (room : Room) (ss : List Source) : Built :=
  let stop := (placeSources (room.off + dataOff ss) ss).2
  let escs := escEntries stop 0 ss
  let entries := mainEntries 0 (plainExtents ss) 0 ss ++ escs
  let image := escs.foldl (fun t x => putImage x.off (storeExtent key run.xtsEpoch room.no room.off x.off x.ext) t) run.image
  let pieces : List Piece := entries.map fun x =>
    { off := x.off, len := x.ext.len, digest := if bitOf 4 x.ext.flags then parallelHash (imageBytes image x.off x.ext.len) else 0 }
  let coords := ss.flatMap fun s => s.coords
  let len := stop + (escs.map fun x => x.ext.len).sum - room.off
  let head := shardHeader k uid run room.no entries.length coords.length len ++
    ((entries.zip pieces).flatMap fun p => p.1.bytes room.off p.2.digest) ++ coords.flatMap Coord.bytes
  let digest := parallelHash head
  { shard := { no := room.no, off := room.off, len := len, dataOff := dataOff ss, digest := digest,
               extents := entries.map fun x => (x.off, x.ext.len) }
    image := putImage room.off ((toLines head).map plainImg) image
    pieces := (pieces.filter fun p => decide (0 < p.len)) ++ [{ off := room.off, len := dataOff ss, digest := digest }]
    escapes := escs }

end Sys2Proof.Machine
end

