-- ==== Sys2Proof/Machine/PollenOps.lean ====
section
/-!
DEFINITION. Pollen (09_pollen), below the level of single commands: frames and their checks, sessions, sequence and credit,
what is sent when.
-/

namespace Sys2Proof.Machine

/-! ### Frames -/

/-- Frame types of R200. -/
def ftVault : BitVec 8 := 0x01
def ftAck : BitVec 8 := 0x02
def ftNak : BitVec 8 := 0x03
def ftCredit : BitVec 8 := 0x04
def ftOpen : BitVec 8 := 0x05
def ftAccept : BitVec 8 := 0x06
def ftConfirm : BitVec 8 := 0x07
def ftClose : BitVec 8 := 0x08
def ftProbe : BitVec 8 := 0x09
def ftProbeReply : BitVec 8 := 0x0A
def ftAdmin : BitVec 8 := 0x0B

/-- The frame's type is sequenced (R200). -/
def sequenced (t : BitVec 8) : Bool := t == ftVault || t == ftAdmin

end Sys2Proof.Machine

namespace Sys2Proof

open Machine

/-- The header bytes 0 to 63 (R199). -/
def Frame.header (f : Frame) : List Byte :=
  [f.type, f.flags] ++ natLE 2 f.lines.toNat ++ natLE 2 f.srcPeer.toNat ++ natLE 2 f.dstPeer.toNat ++ natLE 4 f.sessionId.toNat ++
    natLE 4 f.seq.toNat ++ natLE 4 f.ackSeq.toNat ++ natLE 4 f.creditLimit.toNat ++ natLE 40 f.body.toNat


/-- The frame check of R201: header, payload, trailer bytes 0 to 23. -/
def Frame.crcOf (f : Frame) : BitVec 64 :=
  crc64 (f.header ++ bytesOfLines f.payload ++ natLE 8 f.poison.toNat ++ natLE 16 f.tag.toNat)

end Sys2Proof

namespace Sys2Proof.Machine

/-- The customisation string of TAG (R202). -/
def tagString (t : BitVec 8) : String := if t = ftOpen then "PLN OPEN" else "PLN TAG"

end Sys2Proof.Machine

namespace Sys2Proof

open Machine

/-- TAG under a key (R202): the first 16 bytes of the KMAC over header and POISON. -/
def Frame.tagOf (key : BitVec 256) (f : Frame) : BitVec 128 :=
  (kmac256 (natLE 32 key.toNat) (f.header ++ natLE 8 f.poison.toNat) (tagString f.type)).setWidth 128


/-- TAG and CRC filled in for sending. -/
def Frame.close (key : BitVec 256) (f : Frame) : Frame :=
  let f := { f with tag := f.tagOf key }
  { f with crc := f.crcOf }

end Sys2Proof

namespace Sys2Proof.Machine

/-- BODY from bytes 24 to 55 and 56 to 59. -/
def bodyOf (lo : BitVec 256) (hi : Word) : BitVec 320 := (0#32 ++ (hi ++ lo) : BitVec 320)

end Sys2Proof.Machine

namespace Sys2Proof

open Machine

/-- BODY bytes 24 to 55. -/
def Frame.bodyLo (f : Frame) : BitVec 256 := f.body.setWidth 256


/-- BODY bytes 56 to 59. -/
def Frame.bodyHi (f : Frame) : Word := f.body.extractLsb' 256 32


/-- A frame without payload, before its session fields and its checks are filled in. -/
def Frame.bare (type : BitVec 8) (body : BitVec 320) : Frame :=
  { type := type, flags := 0, lines := 0, srcPeer := 0, dstPeer := 0, sessionId := 0, seq := 0, ackSeq := 0, creditLimit := 0,
    body := body, payload := [], poison := 0, tag := 0, crc := 0, trailerRsv := 0 }

end Sys2Proof

namespace Sys2Proof.Machine

/-- A VAULT frame: packet header and payload lines with their poison marks (R199, R203, R285). -/
def vaultFrame (hdr : BitVec 256) (payload : List MemBeat) : Frame :=
  { Frame.bare ftVault (bodyOf hdr 0) with
    lines := BitVec.ofNat 16 payload.length
    payload := payload.map fun b => b.data
    poison := BitVec.ofNat 64 (ofLsb (payload.map fun b => b.poison)) }

end Sys2Proof.Machine

namespace Sys2Proof

open Machine

/-- The payload lines of a frame with their poison marks (R203). -/
def Frame.beats (f : Frame) : List MemBeat :=
  f.payload.mapIdx fun i d => { data := d, poison := f.poison.getLsbD i }


/-- Reserved bits of BODY for a type (R200). -/
def Frame.bodyRsv (f : Frame) : Nat :=
  let n := f.body.toNat
  if f.type = ftVault then n / 2 ^ 256
  else if f.type = ftOpen ∨ f.type = ftAccept then n / 2 ^ 288
  else if f.type = ftProbeReply then n % 2 ^ 256 + n / 2 ^ 288
  else if f.type = ftAdmin then n / 2 ^ 8
  else n


/-- Check 2 of R204: TYPE and LINES obey R200, and the reserved fields are 0. -/
def Frame.formOk (f : Frame) : Bool :=
  decide (1 ≤ f.type.toNat) && decide (f.type.toNat ≤ 0x0B) &&
    (if f.type = ftVault then decide (f.lines.toNat ≤ 64) else f.lines == 0) &&
    bits 7 1 f.flags.toNat == 0 && f.bodyRsv == 0 && f.trailerRsv == 0

end Sys2Proof

namespace Sys2Proof.Machine

/-! ### Sessions -/

/-- The session of tenant `t` with peer slot `i`. -/
def Engine.sess (t i : Nat) (e : Engine) : Session := tabGet (fun _ => Session.none) (16 * t + i) e.pollen.sess

/-- That session replaced. -/
def Engine.setSess (t i : Nat) (v : Session) (e : Engine) : Engine :=
  { e with pollen := { e.pollen with sess := tabPut (fun _ => Session.none) (16 * t + i) v e.pollen.sess } }

/-- Sequence and credit state of a session on a port. -/
def Session.port (p : Nat) (s : Session) : PortSess := tabGet (fun _ => PortSess.fresh) p s.ports

/-- That state replaced. -/
def Session.setPort (p : Nat) (v : PortSess) (s : Session) : Session :=
  { s with ports := tabPut (fun _ => PortSess.fresh) p v s.ports }

/-- A session's port changed. -/
def Engine.onPort (t i p : Nat) (f : PortSess → PortSess) (e : Engine) : Engine :=
  e.setSess t i ((e.sess t i).setPort p (f ((e.sess t i).port p)))

/-- Ports of a mask that are up. -/
def Engine.upMask (mask : Nat) (e : Engine) : BitVec 48 := BitVec.ofNat 48 mask &&& e.pollen.portUp

/-- The lowest port of a set (R207). -/
def lowestPort (m : BitVec 48) : Option Nat := (List.range 48).find? fun p => m.getLsbD p


/-- This engine has the lower peer number, so it initiates (R207). -/
def initiates (r : Regs) (t i : Nat) : Bool := decide (r.self < r.peerId t i)

/-- K_s of R207. -/
def sessionKey (pollenKey nonceI nonceR : BitVec 256) (initiator responder : Nat) (id : Word) : BitVec 256 :=
  kmac256 (natLE 32 pollenKey.toNat)
    (natLE 32 nonceI.toNat ++ natLE 32 nonceR.toNat ++ natLE 2 initiator ++ natLE 2 responder ++ natLE 4 id.toNat) "PLN SESSION"

/-! ### Link budgets -/

/-- Flits left of a tenant's link share on a port (R216). -/
def Engine.linkLeft (p t : Nat) (e : Engine) : Nat := tabGet (fun _ => 0) (16 * p + t) e.budget.link

/-- Flits left on a port over all tenants. -/
def Engine.linkPool (p : Nat) (e : Engine) : Nat := ((List.range 16).map fun t => e.linkLeft p t).sum

/-- The budget covers `n` flits for tenant `t` (R41): its own share, and in shared mode what others leave (R44, R339). -/
def Engine.linkCovers (p t n : Nat) (e : Engine) : Bool :=
  decide (n ≤ e.linkLeft p t) || (!e.beat.sealed && decide (n ≤ e.linkPool p))

/-- `n` flits taken from a list of tenants' shares in order. -/
def Engine.takeLink (p : Nat) : List Nat → Nat → Engine → Engine
  | [], _, e => e
  | t :: ts, n, e =>
    let d := min n (e.linkLeft p t)
    Engine.takeLink p ts (n - d)
      { e with budget := { e.budget with link := tabPut (fun _ => 0) (16 * p + t) (e.linkLeft p t - d) e.budget.link } }

/-- `n` flits charged to tenant `t`, its own share first, then what is lent (R44). Whose share is lent first, the lowest tenant's, and that
a share counts as unused while its owner may still need it in the beat, are the model's choices (DESIGN CHOICE, log 80). -/
def Engine.chargeLink (p t n : Nat) (e : Engine) : Engine :=
  e.takeLink p (t :: (List.range 16).filter fun u => u != t) n

/-! ### Sending -/

/-- Frames may leave: SYS_READY is high, POLLEN_SELF is set, and the core is not in P2 (R206, R371, R375). -/
def Engine.canSend (r : Regs) (e : Engine) : Bool :=
  e.power.sysReady && r.self != 0xFFFF && e.power.state != 2

/-- Sequenced frames may leave: not in P1 and not while entry runs (R368). -/
def Engine.canSendSeq (r : Regs) (e : Engine) : Bool := e.canSend r && e.inP0 && !e.power.entering

/-- A frame put on a port of a session (R199, R212): the session fields filled in, counted, the acknowledgement it carries
no longer owed. -/
def Engine.putFrame (r : Regs) (t i p : Nat) (id : Word) (key : BitVec 256) (f : Frame) (e : Engine) : Engine :=
  let ps := (e.sess t i).port p
  let f := { f with srcPeer := BitVec.ofNat 16 r.self, dstPeer := BitVec.ofNat 16 (r.peerId t i), sessionId := id,
                    ackSeq := ps.expect, creditLimit := ps.limitOut }
  ((e.emit (.frame p (f.close key))).bump Ctr.framesTx 1).onPort t i p fun ps => { ps with owed := 0 }

/-- A control frame of the session in use. -/
def Engine.sendControl (r : Regs) (t i p : Nat) (type : BitVec 8) (body : BitVec 320) (e : Engine) : Engine :=
  if e.canSend r then
    let s := e.sess t i
    e.putFrame r t i p s.id s.key (Frame.bare type body)
  else e

/-- `a` lies before `b` in modulo-2^32 order. -/
def seqBefore (a b : Word) : Bool := (b - a).toNat != 0 && decide ((b - a).toNat < 2 ^ 31)

/-- A sequenced frame of `n` payload lines may leave on the port of a session now (R209, R213, R214, R216). `fresh` says that it has not
been sent before. -/
def Engine.frameMayGo (r : Regs) (t i p n : Nat) (fresh : Bool) (e : Engine) : Bool :=
  let s := e.sess t i
  let ps := s.port p
  e.canSendSeq r && s.state == .keyed && s.live.getLsbD p && decide (ps.unacked.length < 32) &&
    (n == 0 || decide ((ps.limitIn - ps.used).toNat < 2 ^ 31 ∧ n ≤ (ps.limitIn - ps.used).toNat)) &&
    (!fresh || decide (ps.nextSeq.toNat ≤ 0x80000000)) && e.linkCovers p t (n + 2)

/-- The first frame of the port's queue may go now. -/
def Engine.headMayGo (r : Regs) (t i p : Nat) (e : Engine) : Bool :=
  match ((e.sess t i).port p).queue with
  | [] => false
  | x :: _ => e.frameMayGo r t i p x.frame.lines.toNat x.seq.isNone

/-- A new frame of `n` payload lines handed to the port would leave at once. -/
def Engine.sendsNow (r : Regs) (t i p n : Nat) (e : Engine) : Bool :=
  ((e.sess t i).port p).queue.isEmpty && e.frameMayGo r t i p n true

/-- The first frame of the port's queue sent (R211, R213, R215, R216). -/
def Engine.sendHead (r : Regs) (t i p : Nat) (e : Engine) : Engine :=
  let s := e.sess t i
  let ps := s.port p
  match ps.queue with
  | [] => e
  | x :: rest =>
    let seq := x.seq.getD ps.nextSeq
    let f := { x.frame with seq := seq, flags := if x.seq.isSome then 1 else 0 }
    let e := e.onPort t i p fun ps =>
      { ps with queue := rest, unacked := ps.unacked ++ [{ x with seq := some seq }],
                nextSeq := if x.seq.isSome then ps.nextSeq else ps.nextSeq + 1, used := ps.used + BitVec.ofNat 32 x.frame.lines.toNat }
    ((e.chargeLink p t (x.frame.lines.toNat + 2)).putFrame r t i p s.id s.key f).bump Ctr.retxFrames (b2n x.seq.isSome)

/-- Frames of the port's queue sent while the first may go; at most `fuel`. -/
def Engine.pumpPort (r : Regs) (t i p : Nat) : Nat → Engine → Engine
  | 0, e => e
  | fuel + 1, e => if e.headMayGo r t i p then Engine.pumpPort r t i p fuel (e.sendHead r t i p) else e

/-- The port's queue served: no more than 32 frames can be unacknowledged. -/
def Engine.pump (r : Regs) (t i p : Nat) (e : Engine) : Engine := e.pumpPort r t i p 33

/-- Every port of every session served. -/
def Engine.pumpAll (r : Regs) (e : Engine) : Engine :=
  e.forEach e.pollen.sess fun x e => e.forEach x.2.ports fun y e => e.pump r (x.1 / 16) (x.1 % 16) y.1

/-- A sequenced frame handed to a session's port (R211). -/
def Engine.sendSeq (r : Regs) (t i p : Nat) (f : Frame) (e : Engine) : Engine :=
  (e.onPort t i p fun ps => { ps with queue := ps.queue ++ [{ seq := none, frame := f, retries := 0 }] }).pump r t i p

/-- The sender goes back to the oldest unacknowledged frame at or after SEQ `n` (R213, R215): those frames wait to be sent
again, before every new one, and their credit is returned. -/
def PortSess.goBack (n : Word) (ps : PortSess) : PortSess :=
  let again := ps.unacked.filter fun x => !seqBefore (x.seq.getD 0) n
  { ps with
    unacked := ps.unacked.filter fun x => seqBefore (x.seq.getD 0) n
    queue := (again.map fun x => { x with retries := x.retries + 1 }) ++ ps.queue
    used := ps.used - BitVec.ofNat 32 ((again.map fun x => x.frame.lines.toNat).sum) }

/-- An ACK_SEQ releases every frame before it (R212, R213): an acknowledged frame that waited to be sent again counts as
charged once more, because the far end accepted it. -/
def PortSess.ack (n : Word) (ps : PortSess) : PortSess :=
  let mine (x : TxFrame) : Bool := match x.seq with | some s => seqBefore s n | none => false
  let known := (ps.unacked ++ ps.queue).any mine
  if known then
    { ps with
      unacked := ps.unacked.filter fun x => !mine x
      queue := ps.queue.filter fun x => !mine x
      used := ps.used + BitVec.ofNat 32 (((ps.queue.filter mine).map fun x => x.frame.lines.toNat).sum) }
  else ps

/-- Some frame of the port has been resent more often than RETRY_LIMIT allows (R213). -/
def PortSess.exhausted (limit : Nat) (ps : PortSess) : Bool :=
  (ps.unacked ++ ps.queue).any fun x => decide (limit < x.retries)

/-! ### Receiving -/

/-- A frame dropped: the counter it adds one to. -/
inductive Drop where
  | crc
  | bad
  | stranger (peerPort : Nat)
deriving DecidableEq, Repr

/-- Peer slots that a frame's SRC_PEER fills, as (tenant, slot). -/
def slotsOf (r : Regs) (src : Nat) : List (Nat × Nat) :=
  (List.range 256).filterMap fun x =>
    if r.peerEnable (x / 16) (x % 16) && r.peerId (x / 16) (x % 16) == src then some (x / 16, x % 16) else none

/-- The Pollen key of a tenant with this KEY_ID, bound (R204, R324). -/
def Engine.pollenKeyNamed (t : Nat) (id : Word) (e : Engine) : Option (BitVec 256) :=
  if (e.tenant t).keyId = id then (e.tenant t).pollenKey else none

/-- The session a frame belongs to under checks 4 and 5 of R204, with the key of its TAG. -/
def Engine.matchFrame (r : Regs) (f : Frame) (e : Engine) : Option (Nat × Nat × BitVec 256) :=
  (slotsOf r f.srcPeer.toNat).findSome? fun (t, i) =>
    let s := e.sess t i
    if f.type = ftOpen then (e.pollenKeyNamed t f.bodyHi).map fun key => (t, i, key)
    else if s.newSetup ∧ s.newId = f.sessionId ∧ f.type = (if initiates r t i then ftAccept else ftConfirm) then
      (if f.type = ftAccept then
        ((e.tenant t).pollenKey).map fun kp => (t, i, sessionKey kp s.newNonceI f.bodyLo r.self (r.peerId t i) s.newId)
       else some (t, i, s.newKey))
    else if s.id = f.sessionId ∧ s.state = .keyed then some (t, i, s.key)
    else none

/-- Checks 1 to 6 of R204: the tenant and slot of the session, or the drop. -/
def Engine.checkFrame (r : Regs) (port : Nat) (f : Frame) (e : Engine) : Nat × Nat ⊕ Drop :=
  if f.crc ≠ f.crcOf ∨ f.payload.length ≠ f.lines.toNat then .inr .crc
  else if !f.formOk then .inr .bad
  else if r.self = 0xFFFF ∨ f.dstPeer.toNat ≠ r.self then .inr (.stranger port)
  else match e.matchFrame r f with
    | none => .inr (.stranger port)
    | some (t, i, key) => if f.tag = f.tagOf key then .inl (t, i) else .inr (.stranger port)

/-- Strangers met at a port in this beat. -/
def Engine.strangersAt (p : Nat) (e : Engine) : Nat := tabGet (fun _ => 0) p e.pollen.strangers

/-- A drop counted (R204). The Pollen-stranger source is raised once in a beat, when a port has met more than 64 strangers in it (R205). -/
def Engine.dropFrame (k : Kit) (r : Regs) (d : Drop) (e : Engine) : Engine :=
  match d with
  | .crc => e.bump Ctr.crcDrops 1
  | .bad => e.bump Ctr.badFrameDrops 1
  | .stranger p =>
    let e := e.bump Ctr.strangerDrops 1
    let before := e.pollen.strangers.any fun x => decide (64 < x.2)
    let e := { e with pollen := { e.pollen with strangers := tabPut (fun _ => 0) p (e.strangersAt p + 1) e.pollen.strangers } }
    e.when (!before && decide (64 < e.strangersAt p)) fun e => e.raise k r 0x28 none

/-- A frame of a peer has arrived: the peer of slot (t, i) is alive for every session with it (R222). -/
def Engine.alive (r : Regs) (t i : Nat) (e : Engine) : Engine :=
  let peer := r.peerId t i
  let note (x : Nat × Session) : Nat × Session :=
    if r.peerId (x.1 / 16) (x.1 % 16) = peer then (x.1, { x.2 with sinceRx := 0 }) else x
  { e with pollen := { e.pollen with sess := e.pollen.sess.map note } }

end Sys2Proof.Machine

namespace Sys2Proof

open Machine

/-- The frame belongs to the setup of a session and not to the one in use: what its header says of sequence and credit is of a session
that has none yet (R207, R208). -/
def Frame.ofSetup (f : Frame) : Bool := f.type == ftOpen || f.type == ftAccept || f.type == ftConfirm

end Sys2Proof

namespace Sys2Proof.Machine

/-- An accepted frame of a session: what it acknowledges is released (R213), and the credit it carries is taken (R214). -/
def Engine.heard (t i p : Nat) (f : Frame) (e : Engine) : Engine :=
  if f.ofSetup then e
  else e.onPort t i p fun ps =>
    let ps := ps.ack f.ackSeq
    if seqBefore ps.limitIn f.creditLimit then { ps with limitIn := f.creditLimit } else ps

/-- An explicit ACK (R212). -/
def Engine.sendAck (r : Regs) (t i p : Nat) (e : Engine) : Engine := e.sendControl r t i p ftAck 0

/-- The answer to a sequenced frame that fails check 7 (R211): ACK for a duplicate, NAK for one ahead unless one has been
sent for this E within RTO. -/
def Engine.answerOutOfOrder (r : Regs) (t i p : Nat) (f : Frame) (e : Engine) : Engine :=
  let ps := (e.sess t i).port p
  if seqBefore f.seq ps.expect then e.sendAck r t i p
  else if ps.nakFor = some ps.expect then e
  else (e.onPort t i p fun ps => { ps with nakFor := some ps.expect, nakAge := 0 }).sendControl r t i p ftNak 0

/-- A received frame at checks 7 and 8 of R204: accepted ones are counted, raise E, and are acknowledged once 8 are owed
(R212). The Bool says that the frame is accepted. -/
def Engine.sequenceFrame (k : Kit) (r : Regs) (t i p : Nat) (f : Frame) (e : Engine) : Engine × Bool :=
  if !sequenced f.type then ((e.heard t i p f).bump Ctr.framesRx 1, true)
  else
    let ps := (e.sess t i).port p
    if f.seq ≠ ps.expect then (e.answerOutOfOrder r t i p f, false)
    else
      let e := e.onPort t i p fun ps => { ps with expect := ps.expect + 1, nakFor := none }
      if f.type = ftVault ∧ 0 < f.lines.toNat ∧ (ps.limitOut - ps.charged).toNat < f.lines.toNat then
        ((e.bump Ctr.creditDrops 1).raise k r 0x29 (some (BitVec.ofNat 4 t)), false)
      else
        let e := (e.heard t i p f).onPort t i p fun ps =>
          { ps with owed := ps.owed + 1, charged := ps.charged + BitVec.ofNat 32 f.lines.toNat }
        let e := e.bump Ctr.framesRx 1
        (if 8 ≤ ((e.sess t i).port p).owed then e.sendAck r t i p else e, true)

/-- A VAULT or ADMIN frame that passes the checks wakes the engine from P1 or reverses an entry (R369, R312). -/
def Engine.wake (e : Engine) : Engine :=
  if e.power.entering then
    ({ e with power := { e.power with entering := false } }).bump Ctr.entryReversals 1
  else if e.power.state ≠ 0 ∧ !e.power.exiting then
    ({ e with power := { e.power with exiting := true } }).bump Ctr.pwrWakes 1
  else e

/-- Frames are looked at at all: the port is up, SYS_READY is high, and the core is not in P2 (R371, R375, R379). -/
def Engine.listening (port : Nat) (e : Engine) : Bool :=
  e.pollen.portUp.getLsbD port && e.power.sysReady && e.power.state != 2

/-- The frame with this SEQ has been sent on the port and acknowledged. -/
def PortSess.acked (seq : Word) (ps : PortSess) : Bool :=
  seqBefore seq ps.nextSeq && !((ps.unacked ++ ps.queue).any fun x => x.seq == some seq)

/-- The SEQ that the next frame handed to a port will get. -/
def PortSess.seqAhead (ps : PortSess) : Word := ps.nextSeq + BitVec.ofNat 32 (ps.queue.filter fun x => x.seq.isNone).length

/-- ADMIN_SEND jobs whose frame has been acknowledged complete (R276). -/
def Engine.endAdmin (k : Kit) (r : Regs) (t i p : Nat) (e : Engine) : Engine :=
  e.forEach e.rings.jobs fun j e =>
    match j.kind with
    | .adminSend u n q seq => if u = t ∧ n = i ∧ q = p ∧ ((e.sess t i).port p).acked seq then e.refuse k r j.id 0 else e
    | _ => e

/-- A received frame of type `ty` (R204): dropped and counted, or accepted and given to `act` with its tenant and slot. A
frame of another type is another command's (log 1). -/
def Engine.receive (k : Kit) (r : Regs) (ty : BitVec 8) (port : Nat) (f : Frame) (act : Nat → Nat → Engine → Engine)
    (e : Engine) : Engine :=
  if f.type ≠ ty ∨ !e.listening port then e
  else match e.checkFrame r port f with
    | .inr d => e.dropFrame k r d
    | .inl (t, i) =>
      let p := (e.alive r t i).sequenceFrame k r t i port f
      let e := p.1.endAdmin k r t i port
      if p.2 then act t i (if sequenced ty then e.wake else e) else e

end Sys2Proof.Machine
end

