-- ==== Sys2Proof/Machine/Operands.lean ====
section
/-!
DEFINITION. Operand forms: vault packet headers (12_vault), parameter blocks of ring jobs (11_rings), coordinate records
(08_shard_format), stream descriptors (10_restore_streams).
-/

namespace Sys2Proof.Machine

/-! ### Vault packets -/

/-- The fields of a vault packet header (R284). `rsv` gathers the reserved bits. -/
structure VaultHdr where
  type : Nat
  tag : BitVec 8
  opcode : Nat
  flags : Nat
  len : Nat
  offset : Nat
  arg : Nat
  code : Code
  rsv : Nat
deriving DecidableEq, Repr

/-- Packet types of R284. -/
def ptCmd : Nat := 1
def ptXferRdy : Nat := 2
def ptData : Nat := 3
def ptResp : Nat := 4

/-- The header that 32 bytes spell. -/
def vaultHdrOf (h : BitVec 256) : VaultHdr :=
  let n := h.toNat
  { type := bits 3 0 n, tag := h.extractLsb' 8 8, opcode := bits 23 16 n, flags := bits 31 24 n, len := bits 63 32 n,
    offset := bits 127 64 n, arg := bits 191 128 n, code := h.extractLsb' 192 8, rsv := bits 7 4 n + bits 255 200 n }

/-- The 32 bytes of a header. -/
def VaultHdr.word (h : VaultHdr) : BitVec 256 :=
  BitVec.ofNat 256 (h.type + 2 ^ 8 * h.tag.toNat + 2 ^ 16 * h.opcode + 2 ^ 24 * h.flags + 2 ^ 32 * h.len + 2 ^ 64 * h.offset +
    2 ^ 128 * h.arg + 2 ^ 192 * h.code.toNat)

/-- A header without code. -/
def mkHdr (type : Nat) (tag : BitVec 8) (opcode flags len offset arg : Nat) : VaultHdr :=
  { type := type, tag := tag, opcode := opcode, flags := flags, len := len, offset := offset, arg := arg, code := 0, rsv := 0 }

/-- FLAGS bits of R284. -/
def VaultHdr.fua (h : VaultHdr) : Bool := bitOf 2 h.flags
def VaultHdr.last (h : VaultHdr) : Bool := bitOf 3 h.flags

/-- Opcodes of R294. -/
def opWrite : Nat := 0x01
def opRead : Nat := 0x02
def opFlush : Nat := 0x03
def opVerify : Nat := 0x04
def opIdentify : Nat := 0x10
def opGetLog : Nat := 0x11
def opGetFeature : Nat := 0x12
def opSetFeature : Nat := 0x13
def opFwDownload : Nat := 0x14
def opFwCommit : Nat := 0x15

/-- DATA packets over payload lines from byte offset `off`: at most 64 lines each, LAST on the final one (R285, R289);
`fuel` packets at most. -/
def dataPackets (tag : BitVec 8) (opcode flags : Nat) : Nat → Nat → List MemBeat → List (VaultHdr × List MemBeat)
  | 0, _, _ => []
  | fuel + 1, off, bs =>
    let rest := bs.drop 64
    let h := mkHdr ptData tag opcode (flags + (if rest.isEmpty then 8 else 0)) 0 off 0
    if bs.isEmpty then []
    else if rest.isEmpty then [(h, bs)]
    else (h, bs.take 64) :: dataPackets tag opcode flags fuel (off + 4096) rest

/-- All DATA packets of a payload. -/
def dataPacketsOf (tag : BitVec 8) (opcode flags off : Nat) (bs : List MemBeat) : List (VaultHdr × List MemBeat) :=
  dataPackets tag opcode flags (bs.length / 64 + 1) off bs

/-! ### Coordinate records -/

/-- The record that 192 bytes spell (R182); reserved fields are ignored (R193). -/
def coordOf (bs : List Byte) : Coord :=
  let arr (off : Nat) : List Nat := (List.range 6).map fun i => leAt (off + 8 * i) 8 bs
  { tensorId := BitVec.ofNat 64 (leAt 0 8 bs), unitStart := BitVec.ofNat 64 (leAt 8 8 bs), unitCount := BitVec.ofNat 64 (leAt 16 8 bs),
    rank := leAt 24 1 bs % 8, layout := leAt 25 3 bs % 2 ^ 18, rotPhase := BitVec.ofNat 32 (leAt 28 4 bs), gshape := arr 32,
    sstart := arr 80, slen := arr 128 }

/-- Dimension that LAYOUT field `j` names (R182). -/
def Coord.dim (c : Coord) (j : Nat) : Nat := bits (3 * j + 2) (3 * j) c.layout

/-- RANK is known (R182, R193). -/
def Coord.rankOk (c : Coord) : Bool := decide (1 ≤ c.rank) && decide (c.rank ≤ 6)

/-- LAYOUT is a permutation of 0 to RANK − 1 (R193). -/
def Coord.layoutOk (c : Coord) : Bool :=
  (List.range c.rank).all fun d => ((List.range c.rank).map c.dim).contains d

/-- The slice lies in the tensor in every dimension (R193). -/
def Coord.sliceOk (c : Coord) : Bool :=
  (List.range 6).all fun d => decide ((c.sstart[d]?).getD 0 + (c.slen[d]?).getD 0 ≤ (c.gshape[d]?).getD 0)

/-- Unit spans of two records overlap. -/
def coordsMeet (a b : Coord) : Bool :=
  spansMeet (a.unitStart.toNat, a.unitCount.toNat) (b.unitStart.toNat, b.unitCount.toNat)

/-- No record of the list overlaps a later one. -/
def coordsApart : List Coord → Bool
  | [] => true
  | c :: cs => (cs.all fun d => !coordsMeet c d) && coordsApart cs

/-- Elements of the slice of a record. -/
def Coord.elements (c : Coord) : Nat := ((List.range c.rank).map fun d => (c.slen[d]?).getD 0).foldl (· * ·) 1

/-! ### CUT parameters -/

/-- The parameters of a CUT (11_rings). -/
def cutParamsOf (bs : List Byte) : CutParams :=
  let rd := leAt 18 1 bs
  { step := BitVec.ofNat 64 (leAt 0 8 bs), ranges := BitVec.ofNat 64 (leAt 8 8 bs), recipeSet := leAt 16 2 bs % 1024,
    replicas := rd % 4, dest := rd / 4 % 4, hostBase := leAt 24 8 bs, hostPages := leAt 32 4 bs, glxPages := leAt 36 4 bs,
    g0 := leAt 40 8 bs, g1 := leAt 48 8 bs }

/-- A reserved bit of a CUT's parameters is set. -/
def cutParamsRsv (bs : List Byte) : Bool :=
  leAt 16 2 bs / 1024 != 0 || leAt 18 1 bs / 16 != 0 || leAt 19 5 bs != 0 || leAt 56 8 bs != 0

end Sys2Proof.Machine
end

