-- ==== Sys2Proof/Machine/CutOps.lean ====
section
/-!
DEFINITION. The running cut (04_cut, 08_shard_format): lines into shards, destinations, the guard's reads, the body copy, and
how a cut ends.
-/

namespace Sys2Proof.Machine

/-! ### Endings of jobs with destination writes -/

/-- A plan completion waits for a free entry of PREEMPT_PLAN.RING (R106, R268). -/
def Engine.planCompletion (r : Regs) (code : Code) (result : List Byte) (e : Engine) : Engine :=
  e.setRing r.planRing { e.ring r.planRing with waiting := (e.ring r.planRing).waiting ++ [.plan code result] }

/-- The streams of a job that completes no longer exist (R227). -/
def Streams.forget (id : JobId) (x : Streams) : Streams :=
  { x with held := x.held.filter fun (p : Nat × Stream) => p.2.job != id, restores := x.restores.filter fun (y : Restore) => y.job != id }

/-- The completion of a job, or of a cut that a plan armed itself. -/
def Engine.finishJob (k : Kit) (r : Regs) (id : Option JobId) (code : Code) (plan : Bool) (result : List Byte) (e : Engine) : Engine :=
  match id with
  | some x => ({ e with streams := e.streams.forget x }).completeWith k r x code plan result
  | none => e.planCompletion r code result

/-- The requests of a job that ends: its reads' data is discarded, and its writes are still waited for (R266). -/
def closeReq (p : MemFor → Bool) (id : Option JobId) (code : Code) (plan : Bool) (result : List Byte) (q : MemReq) : MemReq :=
  if p q.use then { q with use := if q.isWrite then .closing id code plan result else .dropped false } else q

/-- A job ends: its completion is written once no destination write of it is unanswered (R266). `p` picks its requests. -/
def Engine.endJob (k : Kit) (r : Regs) (p : MemFor → Bool) (id : Option JobId) (code : Code) (plan : Bool) (result : List Byte)
    (e : Engine) : Engine :=
  let waits := (e.mem.reqs.any fun q => q.isWrite && p q.use) || e.pollen.xchgs.any fun x => x.use == .closing id code plan result
  let e := { e with mem := { e.mem with reqs := e.mem.reqs.map (closeReq p id code plan result) } }
  if waits then e else e.finishJob k r id code plan result

/-- A write of an ended job has been answered: the last one lets the completion go. -/
def Engine.closingAnswered (k : Kit) (r : Regs) (id : Option JobId) (code : Code) (plan : Bool) (result : List Byte) (e : Engine) : Engine :=
  if (e.mem.reqs.any fun q => q.use == .closing id code plan result) || e.pollen.xchgs.any fun x => x.use == .closing id code plan result then e
  else e.finishJob k r id code plan result

/-- Exchanges of this engine taken away, and what waited for the end of those that belong to ended cuts. -/
def Engine.dropXchgs (k : Kit) (r : Regs) (p : Xchg → Bool) (e : Engine) : Engine :=
  let gone := e.pollen.xchgs.filter p
  let left : List Xchg := e.pollen.xchgs.filter fun x => !p x
  ({ e with pollen := { e.pollen with xchgs := left } }).forEach (gone.map fun (x : Xchg) => x.use).eraseDups fun (u : XchgFor) e =>
    match u with
    | .closing id code plan result => e.closingAnswered k r id code plan result
    | _ => e

/-! ### Ranges and granules -/

/-- The bit of a granule (R91). -/
def Range.bit (granule : Nat) (g : Range) : Bool := xor g.flag (g.flipped.contains granule)

/-- The granule is undrained (R91). -/
def Range.undrained (granule : Nat) (g : Range) : Bool := g.armed && g.bit granule != g.parity

/-- The granule's bit set equal to the parity (R92). -/
def Range.drain (granule : Nat) (g : Range) : Range :=
  if g.bit granule = g.parity then g
  else { g with flipped := if g.flipped.contains granule then g.flipped.filter fun x => x != granule else granule :: g.flipped }

/-- A range that stops being armed, or is registered: every bit equals the parity (R91). -/
def Range.rest (g : Range) : Range := { g with armed := false, flag := g.parity, flipped := [] }

/-- A range that is armed: the parity flips, which makes every granule undrained (R91). -/
def Range.arm (g : Range) : Range := { g with armed := true, parity := !g.parity }

/-- P[n] of a range number, registered or not (R91). -/
def Guard.parity (n : Nat) (g : Guard) : Bool :=
  match tabFind n g.ranges with
  | some w => w.parity
  | none => g.parities.getLsbD n

/-- Ranges no longer registered: each keeps its P[n] (R91). -/
def Guard.forget (p : Nat → Bool) (g : Guard) : Guard :=
  { g with parities := BitVec.ofBoolListLE ((List.range 64).map fun n => g.parity n)
           ranges := g.ranges.filter fun x => !p x.1 }

/-- Guard range `n`. -/
def Engine.range (n : Nat) (e : Engine) : Option Range := tabFind n e.guard.ranges

/-- A guard range changed. -/
def Engine.onRange (n : Nat) (f : Range → Range) (e : Engine) : Engine :=
  match e.range n with
  | some g => { e with guard := { e.guard with ranges := tabSet n (f g) e.guard.ranges } }
  | none => e

/-- The registered range and granule that hold a byte address. -/
def Guard.find (addr : Nat) (g : Guard) : Option (Nat × Nat) :=
  (g.ranges.find? fun p => decide (p.2.base ≤ addr / 2 ^ 20) && decide (addr / 2 ^ 20 < p.2.base + p.2.granules)).map fun p =>
    (p.1, addr / 2 ^ 20 - p.2.base)

/-- The undrained granule of an armed range that holds a byte address, if one does. -/
def Guard.undrainedAt (addr : Nat) (g : Guard) : Option (Nat × Nat) :=
  match g.find addr with
  | some (n, x) =>
    match tabFind n g.ranges with
    | some w => if w.undrained x then some (n, x) else none
    | none => none
  | none => none

/-- The entry of a granule that is being read. -/
def Guard.gran (n granule : Nat) (g : Guard) : Option Gran := g.grans.find? fun x => x.range == n && x.granule == granule

/-- An entry of a granule changed; a granule without one gets one first. -/
def Guard.onGran (n granule : Nat) (f : Gran → Gran) (g : Guard) : Guard :=
  match g.gran n granule with
  | some _ => { g with grans := updFirst (fun x => x.range == n && x.granule == granule) f g.grans }
  | none => { g with grans := g.grans ++ [f { range := n, granule := granule, hot := false, prio1 := false, start := 0, chunks := [] }] }

/-- An operation on the guard. -/
def Engine.onGuard (f : Guard → Guard) (e : Engine) : Engine := { e with guard := f e.guard }

/-- A granule moves to priority 1 (R95, R101). -/
def Gran.first (chunk : Nat) (x : Gran) : Gran := if x.prio1 then x else { x with prio1 := true, start := chunk }

/-- Holds of a granule's chunk, or of every chunk, released: the signals go out, and the cycles held are a free value (log 9). -/
def Engine.releaseHolds (p : Hold → Bool) (e : Engine) : Engine :=
  let gone := e.guard.holds.filter p
  let e := e.forEach gone fun h e => ((e.emit (.release h.client h.htag)).bump Ctr.holdCc e.freeWord.toNat).drawn
  e.onGuard fun g => { g with holds := g.holds.filter fun h => !p h }

/-! ### Write-back of vault lines -/

/-- The number of the value that the front holds of a line; 0 where it holds none. -/
def Engine.verOf (key : FrontKey) (e : Engine) : Nat := ((e.front.find key).map fun l => l.ver).getD 0

/-- A write-back of the key is still under way. -/
def Engine.writing (key : FrontKey) (e : Engine) : Bool :=
  match key with
  | .body n => e.bulb.writes.any fun w => match w.use with | .vault m _ => m == n | _ => false
  | .window w n => e.mem.reqs.any fun q => match q.use with | .windowLine v m _ => v == w && m == n | _ => false
  | _ => false

/-- The line's write-back has failed and it is not written again by itself. -/
def Engine.backFailed (key : FrontKey) (e : Engine) : Option Code := (e.vault.failed.find? fun x => x.1 == key).map fun x => x.2

/-- The failed mark of a key removed: it is written back again. -/
def Engine.unfail (key : FrontKey) (e : Engine) : Engine :=
  { e with vault := { e.vault with failed := e.vault.failed.filter fun x => x.1 != key } }

/-- Buddy lines left on a channel in this beat (R220). -/
def Engine.buddyLeft (c : Nat) (e : Engine) : Nat := tabGet (fun _ => 0) c e.budget.buddy

/-- A granule that an engine write waits at moves to priority 1, and the cycles count (R101; log 9). -/
def Engine.waitGuard (n granule chunk : Nat) (e : Engine) : Engine :=
  ((e.onGuard fun g => g.onGran n granule (Gran.first chunk)).bump Ctr.selfHoldCc e.freeWord.toNat).drawn

/-- Host address of a line of a window (R219). -/
def windowAddr (r : Regs) (w n : Nat) : Nat := r.winBase w + 64 * n

/-- A window line is due to be written back: dirty, not under way in this value, and not failed (R302). -/
def Engine.backDue (l : FrontLine) (e : Engine) : Bool :=
  match l.key with
  | .window w n => l.dirty && (e.backFailed l.key).isNone && !(e.mem.reqs.any fun q => q.use == MemFor.windowLine w n l.ver)
  | _ => false

/-- The oldest window line that is due written back, when nothing holds it: an earlier write of the same line, the buddy share of its
channel, a granule that is undrained (R101, R220). None where it is held or none is due. The line is read from the front for it
(R119, R120). -/
def Engine.writeBack (k : Kit) (r : Regs) (e : Engine) : Option Engine :=
  match e.front.lines.find? fun l => e.backDue l with
  | none => none
  | some l =>
    match l.key with
    | .window w n =>
      let addr := windowAddr r w n
      let c := channelOf k addr
      if e.writing l.key || e.buddyLeft c == 0 || (e.guard.undrainedAt addr).isSome then none
      else
        let x := e.readFront k r l
        let e := x.2.2
        some (({ e with budget := { e.budget with buddy := tabPut (fun _ => 0) c (e.buddyLeft c - 1) e.budget.buddy } }).memWrite k addr
          (lineBytes x.1.data) (if x.1.poison then [true] else []) 2 (.windowLine w n l.ver))
    | _ => none

/-- The granule that holds the oldest due window line, if one does, moves to priority 1 (R101). -/
def Engine.waitOldest (r : Regs) (e : Engine) : Engine :=
  match e.front.lines.find? fun l => e.backDue l with
  | some l =>
    match l.key with
    | .window w n =>
      match e.guard.undrainedAt (windowAddr r w n) with
      | some (g, x) => e.waitGuard g x (windowAddr r w n / 4096 % 256)
      | none => e
    | _ => e
  | none => e

/-- Window lines written back in the order in which they were applied, until one is held (R297); `fuel` at most. -/
def Engine.pumpBack (k : Kit) (r : Regs) : Nat → Engine → Engine
  | 0, e => e
  | fuel + 1, e =>
    match e.writeBack k r with
    | some e => Engine.pumpBack k r fuel e
    | none => e.waitOldest r

/-- Window lines written back as far as nothing holds them (R297). -/
def Engine.pumpWindows (k : Kit) (r : Regs) (e : Engine) : Engine := e.pumpBack k r (e.front.lines.length + 1)

/-! ### The lines of a cut -/

/-- The running cut replaced. -/
def Engine.setRun (run : Running) (e : Engine) : Engine := { e with cut := { e.cut with run := some run } }

/-- `f` of the cut that is armed or running, if there is one. -/
def Engine.onRun (f : Running → Engine → Engine) (e : Engine) : Engine :=
  match e.cut.run with
  | some run => f run e
  | none => e

/-- The front key is a line of the cut. -/
def FrontKey.ofCut : FrontKey → Bool
  | .grid _ _ _ => true
  | .granule _ _ _ => true
  | _ => false

/-- Replica destinations of the shard with index `i` (R217), or the one host destination. -/
def Running.carriers (r : Regs) (run : Running) (i : Nat) : List Dest :=
  if run.params.dest = 0 then
    ((List.range run.params.replicas).filterMap fun l =>
      let slots := r.buddyList run.tenant.toNat l
      (slots[i % slots.length]?).map Dest.peer).eraseDups
  else if run.params.dest = 1 then [.host]
  else [.glarax]

/-- Every destination of a cut (R217). -/
def cutDests (r : Regs) (t : Nat) (p : CutParams) : List Dest :=
  if p.dest = 0 then ((List.range p.replicas).flatMap fun l => (r.buddyList t l).map Dest.peer).eraseDups
  else if p.dest = 1 then [.host]
  else [.glarax]

/-- Place of a shard in ascending SHARD_NO. -/
def Running.shardIndex (run : Running) (no : Nat) : Nat := (run.rooms.findIdx? fun x => x.no == no).getD 0

/-- Where lines of a priority go among the operations that wait: before the first lines of a lower priority, but for the operation that is
being written (R24). -/
def placeOp (busy : Bool) (prio : Nat) (todo : List DestOp) : Nat :=
  let later (op : DestOp) : Bool := match op with | .lines _ _ q => decide (prio < q) | _ => false
  (lowestFrom (fun i => decide (b2n busy ≤ i) && ((todo[i]?).map later).getD false) 0 todo.length).getD todo.length

/-- An operation put behind the others of its priority (R24): lines that continue the ones before them join them, up to 256 KiB, unless
those are being written. -/
def addOp (busy : Bool) (op : DestOp) (todo : List DestOp) : List DestOp :=
  match op with
  | .lines off len prio =>
    let n := placeOp busy prio todo
    let before := todo.take n
    match before.getLast? with
    | some (.lines o l q) =>
      if o + l = off ∧ l + len ≤ 262144 ∧ q = prio ∧ !(busy && n == 1) then before.dropLast ++ [.lines o (l + len) q] ++ todo.drop n
      else before ++ [op] ++ todo.drop n
    | _ => before ++ [op] ++ todo.drop n
  | _ => todo ++ [op]

/-- Operations handed to the destinations of a list. -/
def Running.give (ds : List Dest) (ops : List DestOp) (run : Running) : Running :=
  { run with dests := run.dests.map fun d =>
      if ds.contains d.dest then { d with todo := ops.foldl (fun t op => addOp (0 < d.unanswered) op t) d.todo } else d }

/-- The source that a front line of a cut belongs to. -/
def FrontKey.source : FrontKey → Option SrcKind
  | .grid tile ctx _ => some (.tile tile ctx)
  | .granule n _ _ => some (.range n)
  | _ => none

/-- A line of a line-wise source stored and handed on: it stays in the front until every destination has it (R28). -/
def Engine.storeLineOf (r : Regs) (prio : Nat) (key : FrontKey) (s : Source) (off : Nat) (b : MemBeat) (run : Running) (e : Engine) : Engine :=
  let sh := shapeOf s.steps
  let sealed := sh.seals.getD 0 false
  let room := (run.rooms.find? fun x => x.no == s.shard).getD { no := 0, off := 0, len := 0 }
  let ds := run.carriers r (run.shardIndex s.shard)
  let l := storeImg (e.sealKey run.tenant) run.xtsEpoch s.shard room.off off s.cls sealed false b
  let h : HeldLine := { key := key, waits := List.replicate ds.length off }
  let run := ({ run with image := tabSet (off / 64) l run.image, held := run.held ++ [h] }).give ds [.lines off 64 prio]
  ((e.setRun run).bump (Ctr.linesSealed run.tenant.toNat) (b2n sealed)).bump Ctr.recipeUnits 1

/-- A run needs line `n` of its source: it lies in the planes that it gathers (R165). -/
def Shape.gathers (sh : Shape) (lines n : Nat) : Bool :=
  if sh.lineWise then decide (sh.elemOff ≤ n) && decide (n < sh.elemOff + sh.units lines)
  else (decide (sh.elemOff ≤ n) && decide (n < sh.elemOff + sh.elemLines lines)) ||
    (decide (sh.scaleOff ≤ n) && decide (n < sh.scaleOff + sh.scaleLines lines))

/-- Line `n` of a source of the cut has reached the front under `key`, with the priority of R24 (R160): a line-wise run stores it at once; a
numeric run takes it, and it stays in the front until what the run makes has been acknowledged (R28; log 20). -/
def Engine.takeLine (r : Regs) (kind : SrcKind) (n prio : Nat) (key : FrontKey) (b : MemBeat) (e : Engine) : Engine :=
  e.onRun fun run e =>
    match run.sources.find? fun s => s.kind == kind with
    | none => e
    | some s =>
      let sh := shapeOf s.steps
      let s' := { s with arrived := s.arrived + 1, got := if sh.lineWise then s.got else tabSet n b s.got }
      let run := { run with sources := updFirst (fun x => x.kind == kind) (fun _ => s') run.sources }
      let e := e.setRun run
      if !sh.gathers s.lines n then e.onFront (Front.drop key)
      else if sh.lineWise then e.storeLineOf r prio key s (s.mainOff + 64 * (n - sh.elemOff)) b run
      else e

/-- Front lines read by the pipeline (R119, R120, R123): the code of the worst of them, 0x20 before 0x21, and the engine after it. -/
def Engine.pipeRead (k : Kit) (r : Regs) (ls : List FrontLine) (e : Engine) : Code × Engine :=
  ls.foldl (fun x l =>
    let y := x.2.readFront k r l
    (if x.1 = 0 ∨ (y.2.1 = 0x20 ∧ x.1 = 0x21) then y.2.1 else x.1, y.2.2)) ((0 : Code), e)

/-- The front lines of an operation read for it: each time a destination is given their bytes (R22, R119). -/
def Engine.readOp (k : Kit) (r : Regs) (run : Running) (op : DestOp) (e : Engine) : Code × Engine :=
  match op with
  | .lines off len _ =>
    let keys := (run.held.filter fun h => h.waits.any fun o => decide (off ≤ o) && decide (o < off + len)).map fun h => h.key
    e.pipeRead k r (e.front.lines.filter fun l => l.key.ofCut && keys.contains l.key)
  | _ => (0, e)

/-! ### Runs and shards -/

/-- Encoded slots of a coded plane counted (06_poppy_codec). -/
def Engine.countEncoded (t : Nat) (modes : List SlotMode) (w : Nat) (e : Engine) : Engine :=
  (((e.bump (Ctr.slotsEncoded t) modes.length).bump (Ctr.fallbackSlots t)
    (modes.filter fun m => match m with | .fallback _ => true | _ => false).length).bump (Ctr.exactSlots t)
    (modes.filter fun m => match m with | .coded k => k == w - 1 | _ => false).length).bump (Ctr.poisonSlots t)
    (modes.filter fun m => match m with | .poisoned => true | _ => false).length

/-- The slots that the code step of a numeric run makes. -/
def planeModes (sh : Shape) (plane : List MemBeat) : List SlotMode :=
  match sh.code.bind rateGeom with
  | none => []
  | some g =>
    let w := sh.outFmt.width
    let ls := codeLengths w ((plane.take 64).map fun b => b.data)
    plane.map fun b => slotMode g w ls b.poison (elemsOfLine w b.data)

/-- The element plane that a numeric run codes. -/
def runPlane (steps : List StepAt) (seed : Word) (src : List MemBeat) : List MemBeat :=
  let sh := shapeOf steps
  let st := runSteps seed sh.fmt steps { units := gatherUnits sh src, narrowed := [] }
  let w := sh.outFmt.width
  markedLines (4 * w) (st.units.flatMap fun u => blockBytes w u.block) (st.units.map fun u => u.poison)

/-- A draw that a run needs may be made: its seed is given, or the noise source is healthy (R65, R330). -/
def Engine.mayDraw (e : Engine) : Bool := e.units.noise == .healthy

/-- The run of a source needs a draw. -/
def needsDraw (steps : List StepAt) : Bool :=
  match (shapeOf steps).narrow with
  | some (_, _, _, s) => s == 0
  | none => false

/-- The line of a source that a front line is. -/
def FrontKey.sourceLine : FrontKey → Nat
  | .grid _ _ n => n
  | .granule _ g n => granuleLines * g + n
  | _ => 0

/-- The lines of a source as a numeric run reads them: those that are in the front from there, the others as it took them. -/
def Engine.sourceLines (s : Source) (e : Engine) : Tab MemBeat :=
  e.front.lines.foldl (fun t l =>
    if l.key.source == some s.kind then tabSet l.key.sourceLine { data := l.line.data, poison := l.line.poison } t else t) s.got

/-- Acknowledgements that the front lines of a source wait for besides, for extents at these offsets and lengths: one for each operation
and destination (R28). -/
def Running.holdFor (kind : SrcKind) (keys : List FrontKey) (ds : List Dest) (xs : List (Nat × Nat)) (run : Running) : Running :=
  let offs := xs.flatMap fun x => (List.range (ceilDiv x.2 262144)).flatMap fun i => List.replicate ds.length (x.1 + 262144 * i)
  let known (key : FrontKey) : Bool := run.held.any fun h => h.key == key
  let more (h : HeldLine) : HeldLine := if h.key.source == some kind then { h with waits := h.waits ++ offs } else h
  let new : List HeldLine := (keys.filter fun key => !known key).map fun key => { key := key, waits := offs }
  { run with held := (run.held.map more) ++ (if offs.isEmpty then [] else new) }

/-- Front lines of a source that nothing waits for any more are released (R28). -/
def Engine.releaseSource (kind : SrcKind) (e : Engine) : Engine :=
  e.onRun fun run e =>
    e.onFront (Front.dropWhere fun l => l.key.source == some kind && !(run.held.any fun h => h.key == l.key))

/-- Pieces of an extent as operations of the priority of memory-resident granules (R24). -/
def extentOps (off len : Nat) : List DestOp := (List.range (ceilDiv len 262144)).map fun i => .lines (off + 262144 * i) (min 262144 (len - 262144 * i)) 4

/-- The run of a source whose every line has arrived ends: a numeric one makes its extents, stores main and residual ones
and hands them on (R159 to R161). -/
def Engine.endRun (r : Regs) (s : Source) (run : Running) (e : Engine) : Engine :=
  let sh := shapeOf s.steps
  if sh.lineWise then
    let s' := { s with run := some [mainExtent sh s.cls (sh.units s.lines) 0 []] }
    e.setRun { run with sources := updFirst (fun x => x.kind == s.kind) (fun _ => s') run.sources }
  else
    let sd := e.seedOf s.steps
    let src := (e.sourceLines s).map fun p => p.2
    let keys := (e.front.lines.filter fun l => l.key.source == some s.kind).map fun l => l.key
    let xs := runNumeric s.steps s.cls sd.1 src
    let t := run.tenant.toNat
    let e := ((sd.2.countNarrowing t s.steps sd.1 src).countEncoded t (planeModes sh (runPlane s.steps sd.1 src)) sh.outFmt.width).bump
      Ctr.recipeUnits (sh.units s.lines)
    let room := (run.rooms.find? fun x => x.no == s.shard).getD { no := 0, off := 0, len := 0 }
    let ds := run.carriers r (run.shardIndex s.shard)
    let put (off : Nat) (x : Option Extent) (run : Running) : Running :=
      match x with
      | none => run
      | some x => ({ run with image := putImage off (storeExtent (e.sealKey run.tenant) run.xtsEpoch s.shard room.off off x) run.image }).give ds
          (extentOps off x.len)
    let s' := { s with run := some xs, seed := sd.1, got := [] }
    let run := { run with sources := updFirst (fun x => x.kind == s.kind) (fun _ => s') run.sources }
    let run := put s.resOff (xs[1]?) (put s.mainOff (xs[0]?) run)
    let run := run.holdFor s.kind keys ds ((s.mainOff, ((xs[0]?).map fun x => x.len).getD 0) :: [(s.resOff, ((xs[1]?).map fun x => x.len).getD 0)])
    let sealedLines := ((xs.filter fun x => bitOf 3 x.flags).map fun x => x.lines.length).sum
    ((e.setRun run).releaseSource s.kind).bump (Ctr.linesSealed t) sealedLines

/-- Chunks of the coded plane of a source that its run codes (R141). -/
def Source.codedChunks (s : Source) : Nat :=
  let sh := shapeOf s.steps
  match sh.code.bind rateGeom with
  | some _ => ceilDiv (sh.planeLines (sh.units s.lines)) 64
  | none => 0

/-- The source's run may end: every chunk that it codes has passed a lane (R155). -/
def Engine.runDue (s : Source) (e : Engine) : Bool :=
  s.run.isNone && decide (s.lines ≤ s.arrived) && decide (s.codedChunks ≤ s.coded) && (!needsDraw s.steps || e.mayDraw)

/-- A chunk of the source waits for a lane. -/
def Source.waitsLane (s : Source) : Bool := s.run.isNone && decide (s.lines ≤ s.arrived) && decide (s.coded < s.codedChunks)

/-- Every run that may end ends. The lines of a numeric one that are in the front are read for it: the code of the first that could not
be read, or 0 (R119, R120, R123). -/
def Engine.endRuns (k : Kit) (r : Regs) (e : Engine) : Code × Engine :=
  match e.cut.run with
  | none => (0, e)
  | some run =>
    run.sources.foldl (fun (x : Code × Engine) s =>
      if x.1 ≠ 0 ∨ !x.2.runDue s then x
      else
        let y := x.2.pipeRead k r (if (shapeOf s.steps).lineWise then [] else x.2.front.lines.filter fun l => l.key.source == some s.kind)
        if y.1 ≠ 0 then y else (0, y.2.onRun fun run e => e.endRun r s run)) (0, e)

/-- The shard of a room built and handed to its replicas, with what they verify (R179, R221). -/
def Engine.endShard (k : Kit) (r : Regs) (room : Room) (run : Running) (e : Engine) : Engine :=
  let ss := run.sources.filter fun s => s.shard == room.no
  let b := buildShard k e.keys.uid (e.sealKey run.tenant) run room ss
  let ds := run.carriers r (run.shardIndex room.no)
  let ops : List DestOp := (b.escapes.flatMap fun x => extentOps x.off x.ext.len) ++
    (List.range (ceilDiv b.shard.dataOff 262144)).map fun i => .lines (room.off + 262144 * i) (min 262144 (b.shard.dataOff - 262144 * i)) 5
  let checks : List DestOp := if run.params.dest = 0 then b.pieces.map DestOp.verify else []
  let escs (run : Running) : Running := b.escapes.foldl (fun run x =>
    match ss.find? fun s => s.kind.src == x.src with
    | some s => run.holdFor s.kind [] ds [(x.off, x.ext.len)]
    | none => run) run
  e.setRun (escs (({ run with image := b.image, shards := run.shards ++ [b.shard] }).give ds (ops ++ checks)))

/-- A room's shard is not built yet and every run of it has ended. -/
def Running.shardDue (run : Running) (room : Room) : Bool :=
  !(run.shards.any fun x => x.no == room.no) && (run.sources.all fun s => s.shard != room.no || s.run.isSome)

/-- Every shard whose runs have ended is built. -/
def Engine.endShards (k : Kit) (r : Regs) (e : Engine) : Engine :=
  e.onRun fun run e => e.forEach run.rooms fun room e =>
    e.onRun fun run e => if run.shardDue room then e.endShard k r room run else e

/-! ### The body copy -/

/-- The line of a body copy at slot offset `off` (R125). -/
def copyLine (r : Regs) (run : Running) (off : Nat) (l : ImgLine) : Nat × Line :=
  (b2n run.slot * r.slotLines run.tenant.toNat + off / 64,
   { data := l.data, tenant := run.tenant, cls := l.cls, poison := l.poison, epoch := run.slot, sealed := l.sealed, coded := l.coded })

/-- Bytes as lines of a body copy. -/
def copyPlain (r : Regs) (run : Running) (off : Nat) (bs : List Byte) : List (Nat × Line) :=
  (toLines bs).mapIdx fun i d => copyLine r run (off + 64 * i) (plainImg d)

/-- Lines of the image as lines of a body copy. -/
def copyImage (r : Regs) (run : Running) (off len : Nat) : List (Nat × Line) :=
  (List.range (len / 64)).map fun i => copyLine r run (off + 64 * i) ((tabFind (off / 64 + i) run.image).getD (plainImg 0))

/-- Extents of the shards in shard order: (shard index, extent index, offset, length). -/
def Running.extents (run : Running) : List (Nat × Nat × Nat × Nat) :=
  (run.shards.mapIdx fun i x => x.extents.mapIdx fun j y => (i, j, y.1, y.2)).flatten

/-- The extents that a body copy keeps in a slot of `size` bytes (R126). -/
def keptExtents (mode size : Nat) (xs : List (Nat × Nat × Nat × Nat)) : List (Nat × Nat × Nat × Nat) :=
  if mode = 1 then xs.takeWhile fun x => decide (x.2.2.1 + x.2.2.2 ≤ size) else xs

/-- The first extent that is absent from the body, as indices of R189. -/
def firstAbsent (mode size : Nat) (xs : List (Nat × Nat × Nat × Nat)) : Nat × Nat :=
  match xs.drop (keptExtents mode size xs).length with
  | [] => (0xFFFFFFFF, 0xFFFFFFFF)
  | x :: _ => (x.1, x.2.1)

/-- Tables and manifest fit the slot (R189). -/
def Running.tablesFit (run : Running) (size : Nat) : Bool :=
  decide (0x1000 + run.manifest.length ≤ size) && run.shards.all fun x => decide (x.off + x.dataOff ≤ size)

/-- Everything that a body copy writes after the clearing of the commit record, in the order of R189. -/
def copyLines (r : Regs) (run : Running) : List (Nat × Line) :=
  let t := run.tenant.toNat
  let mode := r.bodyMode t
  let size := 64 * r.slotLines t
  let xs := run.extents
  let gone := firstAbsent mode size xs
  (run.shards.flatMap fun x => copyImage r run x.off x.dataOff) ++
    ((keptExtents mode size xs).flatMap fun x => copyImage r run x.2.2.1 x.2.2.2) ++ copyPlain r run 0x1000 run.manifest ++
    copyPlain r run 0x100 (fillTo (0x1000 - 0x100) (if mode = 1 then tailBytes run.epoch gone.1 gone.2 else [])) ++ copyPlain r run 0 run.record

/-- The COMPLETE bit of a slot (R127). -/
def Kept.setComplete (slot v : Bool) (x : Kept) : Kept := if slot then { x with bComplete := v } else { x with aComplete := v }

/-- The line at the offset of a copy's partition belongs to another tenant (R114). -/
def Engine.notOurs (r : Regs) (t off : Nat) (e : Engine) : Bool :=
  match e.partRead r t off with
  | some l => l.tenant != BitVec.ofNat 4 t
  | none => false

/-- The next line of the oldest body copy is handed to the body, one at a time; the first write into a slot clears its COMPLETE
bit, and a copy whose lines have all verified sets it at the last one (R127). A later copy waits. A front copy of the line takes
the new value too (R115). A line of another tenant is not written, and the copy then stays incomplete (R114; log 79). -/
def Engine.copyStep (r : Regs) (e : Engine) : Engine :=
  match e.bulb.copies with
  | [] => e
  | c :: rest =>
    if e.bulb.writes.any fun w => (match w.use with | .copy _ => true | _ => false) then e
    else match c.todo with
      | [] =>
        if c.complete then
          { (if c.failed then e else e.setKept c.tenant ((e.kept c.tenant).setComplete c.slot true)) with
            bulb := { e.bulb with copies := rest } }
        else e
      | x :: todo =>
        let e := e.setKept c.tenant ((e.kept c.tenant).setComplete c.slot false)
        if e.notOurs r c.tenant x.1 then { e with bulb := { e.bulb with copies := { c with todo := todo, failed := true } :: rest } }
        else
          let n := r.partLine c.tenant x.1
          let e := e.onFront (Front.merge (.body n) x.2)
          ({ e with bulb := { e.bulb with copies := { c with todo := todo } :: rest } }).pushBodyWrite (.copy n) x.2

/-- Steps of the body copies until a line is being written or nothing is left; `fuel` at most. -/
def Engine.copySteps (r : Regs) : Nat → Engine → Engine
  | 0, e => e
  | fuel + 1, e => Engine.copySteps r fuel (e.copyStep r)

/-- The body copies go on. -/
def Engine.copyPump (r : Regs) (e : Engine) : Engine :=
  e.copySteps r (1 + (e.bulb.copies.map fun c => c.todo.length + 1).sum)

/-- A line of the oldest copy has been answered: it goes on, or ends and the next one begins. -/
def Engine.copyNext (r : Regs) (e : Engine) : Engine := e.copyPump r

/-- The body copy of the running cut begins with the clearing of its commit record (R188); MODE NONE keeps nothing (R126). -/
def Engine.beginCopy (r : Regs) (run : Running) (e : Engine) : Engine :=
  let t := run.tenant.toNat
  if r.bodyMode t = 0 ∨ r.bodyBanks t = 0 ∨ run.params.dest = 2 then e
  else
    let c : BodyCopy := { tenant := t, slot := run.slot, todo := copyPlain r run 0 (zeroBytes 256), complete := false, failed := false }
    ({ e with bulb := { e.bulb with copies := e.bulb.copies ++ [c] } }).copyPump r

/-- The rest of the body copy, once the whole image is known (R189): where the tables do not fit, the copy writes nothing beyond the
clearing of the commit record, and COMPLETE stays clear. -/
def Engine.fillCopy (r : Regs) (run : Running) (e : Engine) : Engine :=
  let mine (c : BodyCopy) : Bool := c.tenant == run.tenant.toNat && c.slot == run.slot && !c.complete
  let fits := run.tablesFit (64 * r.slotLines run.tenant.toNat)
  let f (c : BodyCopy) : BodyCopy :=
    if fits then { c with todo := c.todo ++ copyLines r run, complete := true } else { c with complete := true, failed := true }
  ({ e with bulb := { e.bulb with copies := updFirst mine f e.bulb.copies } }).copyPump r

/-- The body copy of a cut that ends without commit is abandoned. -/
def Engine.dropCopy (r : Regs) (run : Running) (e : Engine) : Engine :=
  let t := run.tenant.toNat
  let mine (c : BodyCopy) : Bool := c.tenant == t && c.slot == run.slot
  let lineMine (w : BodyWrite) : Bool :=
    match w.use with
    | .copy n => r.inPart t n && decide (r.slotLines t ≤ n - r.partLine t 0) == run.slot
    | _ => false
  ({ e with bulb := { e.bulb with copies := e.bulb.copies.filter fun c => !mine c
                                  writes := e.bulb.writes.filter fun w => !lineMine w } }).copyPump r

/-! ### How a cut ends -/

/-- Everything a cut holds is let go: holds released, ranges at rest, chunk reads discarded, its lines out of the front, its
exchanges ended (R83, R91, R92). -/
def Engine.freeCut (run : Running) (e : Engine) : Engine :=
  let e := e.releaseHolds fun _ => true
  let e := e.forEach (rangesOf run.params.ranges) fun n e => e.onRange n Range.rest
  let e := e.onGuard fun g => { g with grans := [], queue := [], reading := [] }
  let e := e.onFront (Front.dropWhere fun l => l.key.ofCut)
  let isChunk (u : MemFor) : Bool := match u with | .chunk _ _ _ _ => true | _ => false
  { e with mem := { e.mem with reqs := e.mem.reqs.map fun q => if isChunk q.use then { q with use := .dropped false } else q } }

/-- The exchanges of a cut that ends: its completion waits for the answers to its WRITEs (R266). -/
def closeXchg (id : Option JobId) (code : Code) (plan : Bool) (result : List Byte) (x : Xchg) : Xchg :=
  match x.use with
  | .cut (.verify _) => { x with use := .over }
  | .cut _ => { x with use := .closing id code plan result }
  | _ => x

/-- Plan state after the plan has ended (R107); SOURCE and REMAINING then read 0 (DESIGN CHOICE, log 92). -/
def Cut.endPlan (c : Cut) : Cut := { c with planActive := false, planSource := 0, planLeft := 0, planWaits := false }

/-- The cut that is armed or running ends without commit (R83, R15): DISARM, everything let go, its completion with `code`; writes that
waited at its granules go on (R92). -/
def Engine.endCut (k : Kit) (r : Regs) (code : Code) (e : Engine) : Engine :=
  e.onRun fun run e =>
    let e := ((e.broadcastTenant bcDisarm run.tenant 0).freeCut run).dropCopy r run
    let e := { e with
      cut := { e.cut with phase := .none, run := none, lastCode := code, lastTenant := run.tenant }
      bulb := { e.bulb with writes := e.bulb.writes.filter fun w => w.use != BodyFor.commitState run.tenant.toNat }
      pollen := { e.pollen with xchgs := e.pollen.xchgs.map (closeXchg run.job code run.plan []) } }
    (e.endJob k r (fun u => u == MemFor.cutWrite run.tenant) run.job code run.plan []).pumpWindows k r

/-- The cut has committed (R188 steps 5 and 6, R197): RELEASE, everything let go, its completion with 0x00. -/
def Engine.commitCut (k : Kit) (r : Regs) (run : Running) (e : Engine) : Engine :=
  let e := (e.broadcastTenant bcRelease run.tenant 0).freeCut run
  let cut := { e.cut with phase := .none, run := none, lastCode := 0, lastTenant := run.tenant }
  let e := { e with cut := if run.plan then cut.endPlan else cut }
  (e.bump Ctr.cutsCommitted 1).endJob k r (fun u => u == MemFor.cutWrite run.tenant) run.job 0 run.plan
    (natLE 8 run.epoch.toNat ++ natLE 8 run.params.step.toNat)

/-- COMMIT_STATE after the commit of a KSF cut (R188). -/
def Kept.committed (slot : Bool) (epoch step : Dword) (x : Kept) : Kept :=
  { x with valid := true, lastSlot := slot, lastEpoch := epoch, lastStep := step }

/-! ### Destinations -/

/-- Where an operation's bytes start, from the slot or image base. -/
def DestOp.off (glarax : Bool) : DestOp → Nat
  | .clear => 0
  | .lines off _ _ => off
  | .verify p => p.off
  | .manifest => if glarax then 64 else 0x1000
  | .record => 0

/-- The bytes that an operation writes. -/
def Running.opBytes (run : Running) (op : DestOp) : List Byte :=
  match op with
  | .clear =>
    if run.params.dest = 2 then glaraxHeader run.sources.length run.params.step (glaraxLayout run.sources).2 false
    else zeroBytes 256
  | .lines off len _ => imageBytes run.image off len
  | .verify _ => []
  | .manifest => run.manifest
  | .record => if run.params.dest = 2 then run.record else fillTo 0x1000 run.record

/-- The lines that an operation sends, with their poison marks (R203); only lines of the image can carry one. -/
def Running.opBeats (run : Running) (op : DestOp) : List MemBeat :=
  match op with
  | .lines off len _ => (List.range (len / 64)).map fun i =>
      let l := (tabFind (off / 64 + i) run.image).getD (plainImg 0)
      { data := l.data, poison := l.poison }
  | _ => (toLines (run.opBytes op)).map fun d => { data := d, poison := false }

/-- Base address of the slot or image that a cut writes in host memory (R196, R271). -/
def Running.hostBase (run : Running) : Nat :=
  if run.params.dest = 1 then run.params.hostBase + b2n run.slot * (4096 * run.params.hostPages)
  else if run.slot then run.params.g1 else run.params.g0

/-- The requests that an operation makes of host memory (R385: one for each page). -/
def Running.hostWrites (run : Running) (op : DestOp) : List (Nat × List Byte) :=
  pageWrites (run.hostBase + op.off (run.params.dest == 2)) (run.opBytes op)

/-- Lines that a write touches. -/
def writeLines (addr len : Nat) : Nat := ceilDiv (addr % 64 + len) 64

/-- The requests of an operation issued from a list of them, as far as the share of their channels covers them (R29, R41): how many, and
the engine after them. -/
def Engine.issueHost (k : Kit) (t : TenantNo) : List (Nat × List Byte) → Engine → Nat × Engine
  | [], e => (0, e)
  | p :: rest, e =>
    let c := channelOf k p.1
    let n := writeLines p.1 p.2.length
    if e.cutCovers true c t.toNat n then
      let x := Engine.issueHost k t rest ((e.chargeCut true c t.toNat n).memWrite k p.1 p.2 [] 2 (.cutWrite t))
      (x.1 + 1, x.2)
    else (0, e)

/-- Exchanges that this engine runs with peer slot `i` of tenant `t`. -/
def Engine.xchgsWith (t i : Nat) (e : Engine) : List Xchg := e.pollen.xchgs.filter fun x => x.tenant == t && x.slot == i

/-- A live port of a peer that carries no exchange with it (R218). -/
def Engine.freePort (t i : Nat) (e : Engine) : Option Nat :=
  (List.range 48).find? fun p => (e.sess t i).live.getLsbD p && !((e.xchgsWith t i).any fun x => x.port == p)

/-- A tag that no exchange of the port carries: the first after the last one given (log 10). -/
def Pollen.freeTag (p : Nat) (x : Pollen) : BitVec 8 :=
  match lowestFrom (fun i => !(x.xchgs.any fun y => y.port == p && y.tag == x.lastTag + BitVec.ofNat 8 i)) 1 256 with
  | some i => x.lastTag + BitVec.ofNat 8 i
  | none => x.lastTag + 1

/-- FLAGS of a buddy command (R299, R308): PRIO, and FUA on the structures that are acknowledged by their WRITE alone. -/
def Engine.buddyFlags (t : TenantNo) (op : DestOp) (e : Engine) : Nat :=
  let prio := if e.urgentTenant = some t then 0 else 2
  let fua := match op with | .clear => true | .manifest => true | .record => true | _ => false
  prio + 4 * b2n fua

/-- Byte offset of an operation in the peer's window (R219). -/
def Engine.windowOff (run : Running) (i : Nat) (op : DestOp) (e : Engine) : Nat :=
  b2n run.slot * (4096 * (e.sess run.tenant.toNat i).pages) + op.off false

/-- The CMD of an operation (R289, R294). -/
def Engine.opCmd (run : Running) (i : Nat) (tag : BitVec 8) (op : DestOp) (e : Engine) : Frame :=
  let flags := e.buddyFlags run.tenant op
  match op with
  | .verify p =>
    vaultFrame (mkHdr ptCmd tag opVerify flags p.len (e.windowOff run i op) 0).word
      [{ data := lineOfBytes (natLE 32 p.digest.toNat), poison := false }]
  | _ => vaultFrame (mkHdr ptCmd tag opWrite flags (run.opBytes op).length (e.windowOff run i op) 0).word []

/-- An operation started as a vault exchange with peer slot `i` on port `p` (R218, R221). -/
def Engine.startXchg (r : Regs) (run : Running) (i p : Nat) (op : DestOp) (e : Engine) : Engine :=
  let t := run.tenant.toNat
  let tag := e.pollen.freeTag p
  let x : Xchg := { tenant := t, slot := i, port := p, tag := tag, use := .cut op, dataSent := false }
  let e := { e with pollen := { e.pollen with lastTag := tag, xchgs := e.pollen.xchgs ++ [x] } }
  e.sendSeq r t i p (e.opCmd run i tag op)

/-- An operation that goes alone: nothing else is outstanding with it (R188, R221). -/
def DestOp.alone : DestOp → Bool
  | .clear => true
  | .manifest => true
  | .record => true
  | _ => false

def DestOp.isVerify : DestOp → Bool
  | .verify _ => true
  | _ => false

/-- The operation may start at peer slot `i` now: VERIFY follows the answers to every WRITE before it (R221). -/
def Engine.opMayStart (run : Running) (i : Nat) (op : DestOp) (e : Engine) : Bool :=
  let out := e.xchgsWith run.tenant.toNat i
  let ops := out.filterMap fun x => match x.use with | .cut y => some y | _ => none
  !(ops.any DestOp.alone) && (!op.alone || ops.isEmpty) && (!op.isVerify || ops.all DestOp.isVerify) &&
    (op != .record || !run.record.isEmpty) && (e.sess run.tenant.toNat i).state == .keyed && !(e.sess run.tenant.toNat i).rekey

/-- A destination's record changed. -/
def Running.onDest (d : Dest) (f : DestState → DestState) (run : Running) : Running :=
  { run with dests := updFirst (fun x => x.dest == d) f run.dests }

/-- Operations of a peer started while one may start and a live port is free; `fuel` at most. -/
def Engine.pumpPeer (r : Regs) (i : Nat) : Nat → Engine → Engine
  | 0, e => e
  | fuel + 1, e =>
    match e.cut.run with
    | none => e
    | some run =>
      match run.dests.find? fun d => d.dest == .peer i with
      | none => e
      | some d =>
        match d.todo, e.freePort run.tenant.toNat i with
        | op :: rest, some p =>
          if e.opMayStart run i op then
            Engine.pumpPeer r i fuel ((e.setRun (run.onDest d.dest fun d => { d with todo := rest })).startXchg r run i p op)
          else e
        | _, _ => e

/-- The next operation of a host destination started, when the one before has been answered (R188, R197), and what is left of one that
waited for its MEM share issued (R29, R42). -/
def Engine.pumpHost (k : Kit) (r : Regs) (d : Dest) (e : Engine) : Engine :=
  e.onRun fun run e =>
    match run.dests.find? fun x => x.dest == d with
    | none => e
    | some x =>
      match x.todo with
      | [] => e
      | op :: _ =>
        if op = .record ∧ run.record.isEmpty then e
        else
          let y := if x.unanswered ≠ 0 then ((0 : Code), e) else e.readOp k r run op
          if y.1 ≠ 0 then y.2.endCut k r y.1
          else
            let ws := run.hostWrites op
            let x := if x.unanswered ≠ 0 then x else { x with unanswered := ws.length, issued := 0 }
            let z := y.2.issueHost k run.tenant (ws.drop x.issued)
            z.2.setRun (run.onDest d fun _ => { x with issued := x.issued + z.1 })

/-- Nothing given to the destination is left or unanswered. -/
def Engine.destIdle (run : Running) (d : DestState) (e : Engine) : Bool :=
  d.todo.isEmpty && d.unanswered == 0 &&
    (match d.dest with
     | .peer i => !((e.xchgsWith run.tenant.toNat i).any fun x => match x.use with | .cut _ => true | _ => false)
     | _ => true)

/-- Every shard is with all of its replicas (R25). -/
def Engine.shardsDone (run : Running) (e : Engine) : Bool :=
  run.shards.length == run.rooms.length && (run.sources.all fun s => s.run.isSome) &&
    (run.dests.all fun d => d.stage == 2 && e.destIdle run d)

/-- The shards of a cut in ascending SHARD_NO. -/
def Running.sorted (run : Running) : List Shard := run.rooms.filterMap fun x => run.shards.find? fun s => s.no == x.no

/-- Peer numbers of the replicas of shard `i` (R185). -/
def Running.buddies (r : Regs) (run : Running) (i : Nat) : List Nat :=
  (run.carriers r i).filterMap fun d => match d with | .peer j => some (r.peerId run.tenant.toNat j) | _ => none

/-- Entries of a Glarax image (R196). -/
def Running.glaraxEntries (run : Running) : List Byte :=
  run.sources.flatMap fun s =>
    let len := 64 * (shapeOf s.steps).units s.lines
    glaraxEntry s len (crc32c (imageBytes run.image s.mainOff len))

/-- Step 3 of R188, or the entries of R197, begin. -/
def Engine.beginManifest (k : Kit) (r : Regs) (run : Running) (e : Engine) : Engine :=
  let run := { run with shards := run.sorted }
  let manifest :=
    if run.params.dest = 2 then run.glaraxEntries
    else manifestBytes k e.keys.uid run run.shards (run.buddies r)
  let record := if run.params.dest = 2 then glaraxHeader run.sources.length run.params.step (glaraxLayout run.sources).2 true else []
  let next (d : DestState) : DestState :=
    if manifest.isEmpty then { d with stage := 4, todo := [.record] } else { d with stage := 3, todo := [.manifest] }
  let e := e.setRun { run with manifest := manifest, record := record, dests := run.dests.map next }
  { e with cut := { e.cut with phase := .commit } }

/-- The signature that the engine makes of a digest with the `n`-th draw (R329, R330): ECDSA P-384, but where the arithmetic unit errs. -/
def madeSignature (key digest : BitVec 384) (n : Nat) : BitVec 384 × BitVec 384 :=
  (Config.signFault n).getD (ecdsaSign key digest (Config.noise n))

/-- A signature with the identity key, verified before it is used (R329): one more try after a failed verification; both failing gives
none. -/
def Engine.signDigest (digest : BitVec 384) (e : Engine) : Option (BitVec 384 × BitVec 384) × Engine :=
  let key := e.keys.identity.getD 0
  let ok (s : BitVec 384 × BitVec 384) : Bool := ecdsaVerify (publicKey key) digest s.1 s.2
  let s1 := madeSignature key digest e.draws
  let s2 := madeSignature key digest (e.draws + 1)
  if ok s1 then (some s1, (e.drewN 1).bump Ctr.signatures 1)
  else if ok s2 then (some s2, (e.drewN 2).bump Ctr.signatures 1)
  else (none, e.drewN 2)

/-- The commit record signed once the manifest is known and the noise source may be drawn from (R186, R329, R330). -/
def Engine.beginRecord (k : Kit) (r : Regs) (run : Running) (e : Engine) : Engine :=
  if run.manifest.isEmpty || !run.record.isEmpty || !e.mayDraw then e
  else
    let head := recordHead e.keys.uid run run.manifest
    match e.signDigest (sha3_384 head) with
    | (some sig, e) =>
      let run := { run with record := recordBytes head sig }
      (e.setRun run).fillCopy r run
    | (none, e) => (e.raise k r 0x23 (some run.tenant)).endCut k r 0x47

/-- The commit once every destination has acknowledged its commit record (R188 step 5, R197). -/
def Engine.tryCommit (k : Kit) (r : Regs) (run : Running) (e : Engine) : Engine :=
  if !(run.dests.all fun d => d.stage == 5) then e
  else if run.params.dest = 2 then
    (e.setKept run.tenant.toNat { e.kept run.tenant.toNat with glxValid := true, glxLast := run.slot }).commitCut k r run
  else if run.waitBody then e
  else (e.setRun { run with waitBody := true }).pushBodyWrite (.commitState run.tenant.toNat) Line.empty

/-- Everything of a cut that has been frozen that may go on goes on: runs, shards, manifest, record, destinations, commit. -/
def Engine.pumpFrozen (k : Kit) (r : Regs) (e : Engine) : Engine :=
  let x := e.endRuns k r
  let e := if x.1 ≠ 0 then x.2.endCut k r x.1 else x.2.endShards k r
  let e := e.onRun fun run e => if e.shardsDone run then e.beginManifest k r run else e
  let e := e.onRun fun run e => e.beginRecord k r run
  let e := e.onRun fun run e => e.forEach run.dests fun d e =>
    match d.dest with
    | .peer i => e.pumpPeer r i 48
    | _ => e.pumpHost k r d.dest
  e.onRun fun run e => e.tryCommit k r run

/-- What a running cut does next: an armed one waits for its pulse (R74). -/
def Engine.cutPump (k : Kit) (r : Regs) (e : Engine) : Engine :=
  if e.cut.phase = .armed ∨ e.cut.phase = .none then e else e.pumpFrozen k r

/-- Front lines of the cut that every destination has acknowledged are released (R28). -/
def Engine.releaseLines (off len : Nat) (run : Running) (e : Engine) : Engine :=
  let less (h : HeldLine) : HeldLine :=
    { h with waits := ((h.waits.eraseDups.filter fun o => decide (off ≤ o) && decide (o < off + len)).foldl (fun w o => w.erase o) h.waits) }
  let held := run.held.map less
  let gone := (held.filter fun h => h.waits.isEmpty).map fun h => h.key
  (e.setRun { run with held := held.filter fun h => !h.waits.isEmpty }).onFront (Front.dropWhere fun l => gone.contains l.key)

/-- A destination has acknowledged an operation. -/
def Engine.ackOp (k : Kit) (r : Regs) (d : Dest) (op : DestOp) (e : Engine) : Engine :=
  e.onRun fun run e =>
    let e := match op with
      | .clear => e.setRun (run.onDest d fun x => { x with stage := 2 })
      | .lines off len _ => e.releaseLines off len run
      | .verify _ => e
      | .manifest => e.setRun (run.onDest d fun x => { x with stage := 4, todo := [.record] })
      | .record => e.setRun (run.onDest d fun x => { x with stage := 5 })
    e.cutPump k r

/-- A host write of the running cut has been answered without error. -/
def Engine.cutWriteAnswered (k : Kit) (r : Regs) (e : Engine) : Engine :=
  e.onRun fun run e =>
    match run.dests with
    | d :: _ =>
      match d.todo with
      | op :: rest =>
        if d.unanswered ≤ 1 then
          (e.setRun (run.onDest d.dest fun x => { x with unanswered := 0, issued := 0, todo := rest })).ackOp k r d.dest op
        else e.setRun (run.onDest d.dest fun x => { x with unanswered := x.unanswered - 1 })
      | [] => e
    | [] => e

/-! ### The guard's reads -/

/-- Host address of a chunk (R90). -/
def Range.chunkAddr (g : Range) (granule chunk : Nat) : Nat := (g.base + granule) * 2 ^ 20 + 4096 * chunk

/-- A chunk's read has been issued or its lines are in the front. -/
def Guard.chunkKnown (n granule chunk : Nat) (g : Guard) : Bool :=
  (match g.gran n granule with | some x => x.chunks.contains chunk | none => false) ||
    g.reading.any fun x => x.range == n && x.granule == granule && x.chunk == chunk

/-- First line and count of run `i` of a held chunk over `n` channels (R385). -/
def heldRun (n i : Nat) : Nat × Nat :=
  let js := (List.range 64).filter fun j => j * n / 64 == i
  (js.headD 0, js.length)

/-- Hold lines left on a channel in this beat (R98). -/
def Engine.holdLeft (c : Nat) (e : Engine) : Nat := tabGet (fun _ => 0) c e.budget.hold

/-- A chunk read recorded. -/
def Guard.startRead (n granule chunk : Nat) (held : Bool) (g : Guard) : Guard :=
  { g with reading := g.reading ++ [{ range := n, granule := granule, chunk := chunk, left := 64, held := held }] }

/-- The front has room for one more chunk beyond those being read (R112). -/
def Engine.chunkRoom (e : Engine) : Bool := e.front.room .cut (64 + (e.guard.reading.map fun x => x.left).sum)

/-- The hold share covers a held chunk on every channel it uses (R98). -/
def Engine.heldCovered (k : Kit) (addr : Nat) (e : Engine) : Bool :=
  (List.range k.memChannels).all fun i => decide ((heldRun k.memChannels i).2 ≤ e.holdLeft ((addr / 4096 + i) % k.memChannels))

/-- The read of the chunk at the head of the held-chunk queue (R95, R98, R385, R389). -/
def Engine.readHeld (k : Kit) (g : Range) (n granule chunk : Nat) (e : Engine) : Engine :=
  let addr := g.chunkAddr granule chunk
  let e := e.onGuard fun x => ({ x with queue := x.queue.tail }).startRead n granule chunk true
  e.forEach (List.range k.memChannels) fun i e =>
    let run := heldRun k.memChannels i
    let c := (addr / 4096 + i) % k.memChannels
    if run.2 = 0 then e
    else
      (({ e with budget := { e.budget with hold := tabPut (fun _ => 0) c (e.holdLeft c - run.2) e.budget.hold } }).spendMem false c run.2).memReadOn c
        (addr + 64 * run.1) run.2 0 (.chunk n granule chunk run.1)

/-- The read of another chunk (R92, R95, R389). -/
def Engine.readChunk (k : Kit) (g : Range) (n granule chunk : Nat) (prio : BitVec 2) (e : Engine) : Engine :=
  ((e.onGuard fun x => (x.onGran n granule id).startRead n granule chunk false).chargeCut false (channelOf k (g.chunkAddr granule chunk))
    g.owner.toNat 64).memRead k (g.chunkAddr granule chunk) 64 prio
    (.chunk n granule chunk 0)

/-- The next chunk of a granule that no read has been issued for, from chunk `start` upward, wrapping (R95). -/
def Guard.nextChunk (n granule start : Nat) (g : Guard) : Option Nat :=
  (lowestFrom (fun i => !g.chunkKnown n granule ((start + i) % 256)) 0 256).map fun i => (start + i) % 256

/-- The next chunk that is not a held one: granules at priority 1 in the order of their entries, then the ranges of the cut in
ascending order (R92, R95): range, granule, chunk, priority 1. -/
def Engine.nextRead (run : Running) (e : Engine) : Option (Nat × Nat × Nat × Bool) :=
  let hot := e.guard.grans.findSome? fun x =>
    if x.prio1 then (e.guard.nextChunk x.range x.granule x.start).map fun c => (x.range, x.granule, c, true) else none
  match hot with
  | some y => some y
  | none => (rangesOf run.params.ranges).findSome? fun n =>
      match e.range n with
      | none => none
      | some g => (lowestFrom (fun x => g.undrained x && (e.guard.nextChunk n x 0).isSome) 0 g.granules).bind fun x =>
          (e.guard.nextChunk n x 0).map fun c => (n, x, c, false)

/-- Held chunks whose reads the hold share covers, in queue order; `fuel` at most. -/
def Engine.pumpHeld (k : Kit) : Nat → Engine → Engine
  | 0, e => e
  | fuel + 1, e =>
    match e.guard.queue with
    | [] => e
    | (n, granule, chunk) :: _ =>
      match e.range n with
      | none => e
      | some g =>
        if e.chunkRoom && e.heldCovered k (g.chunkAddr granule chunk) then Engine.pumpHeld k fuel (e.readHeld k g n granule chunk)
        else e

/-- While CUT has no room for a chunk and nothing in it waits to be acknowledged, it is full of lines that numeric runs have taken: they
leave it, since a run cannot end before its last line (log 20). -/
def Engine.makeRoom (run : Running) (e : Engine) : Engine :=
  let taken (l : FrontLine) : Bool := run.sources.any fun s => l.key.source == some s.kind && s.run.isNone && !(shapeOf s.steps).lineWise
  if e.chunkRoom || !run.held.isEmpty then e else e.onFront (Front.dropWhere fun l => l.part == .cut && taken l)

/-- The guard's reads of a running cut: held chunks within the hold share, then one other chunk at a time within what refill streams leave
(R29, R98; log 21). -/
def Engine.guardPump (k : Kit) (e : Engine) : Engine :=
  e.onRun fun run e =>
    if e.cut.phase = .armed then e
    else
      let e := (e.makeRoom run).pumpHeld k 64
      if (e.guard.reading.any fun x => !x.held) || !e.chunkRoom then e
      else match e.nextRead run with
        | none => e
        | some (n, granule, chunk, first) =>
          match e.range n with
          | none => e
          | some g =>
            if e.cutCovers false (channelOf k (g.chunkAddr granule chunk)) run.tenant.toNat 64 then e.readChunk k g n granule chunk (if first then 1 else 2)
            else e

/-- A whole granule is in the front: its bit is set and its entry leaves the table (R92, R97). -/
def Engine.granuleDone (n granule : Nat) (e : Engine) : Engine :=
  (e.onRange n (Range.drain granule)).onGuard fun g => { g with grans := g.grans.filter fun x => !(x.range == n && x.granule == granule) }

/-- The last line of a chunk has reached the front (R95): its bit is set and every hold on it is released. -/
def Engine.chunkDone (n granule chunk : Nat) (e : Engine) : Engine :=
  let e := e.onGuard fun g =>
    { g.onGran n granule fun x => { x with chunks := chunk :: x.chunks } with
      reading := g.reading.filter fun x => !(x.range == n && x.granule == granule && x.chunk == chunk) }
  let e := e.releaseHolds fun h => h.range == n && h.granule == granule && h.chunk == chunk
  match e.guard.gran n granule with
  | some x => if 256 ≤ x.chunks.length then e.granuleDone n granule else e
  | none => e

/-- One line of a chunk reaches the front (R92, R123). -/
def Engine.chunkLine (k : Kit) (r : Regs) (n granule chunk line : Nat) (b : MemBeat) (e : Engine) : Engine :=
  e.onRun fun run e =>
    if b.poison then e.endCut k r 0x21
    else
      let gl := 64 * chunk + line
      let key := FrontKey.granule n granule gl
      let cls := ((e.range n).map fun g => g.cls).getD 0
      let l := { Line.ofData b.data run.tenant (BitVec.ofNat 4 cls) false with epoch := run.slot }
      let e := e.onFront (Front.put (FrontLine.made .cut key l false 0))
      let left (x : Reading) : Bool := x.range == n && x.granule == granule && x.chunk == chunk
      let e := e.takeLine r (.range n) (granuleLines * granule + gl) (if e.guard.reading.any fun x => left x && x.held then 1 else 4) key b
      let e := e.onGuard fun g => { g with reading := updFirst left (fun x => { x with left := x.left - 1 }) g.reading }
      if e.guard.reading.any fun x => left x && x.left == 0 then e.chunkDone n granule chunk else e

end Sys2Proof.Machine
end

