-- ==== Sys2Proof/Machine/UnitOps.lean ====
section
/-!
DEFINITION. Units with spares: encode and decode lanes (06_poppy_codec), cipher and hash cores (13_security), and how one is taken
out of service (14_faults_service).
-/

namespace Sys2Proof.Machine

/-- The kinds of R357 that are units of a pipeline. -/
inductive UnitKind where
  | enc
  | dec
  | cipher
  | hash
deriving DecidableEq, Repr

/-- Logical units of a kind. -/
def UnitKind.logical : UnitKind → Nat
  | .enc => 64
  | .dec => 64
  | .cipher => 48
  | .hash => 24

/-- Physical units of a kind. -/
def UnitKind.physical : UnitKind → Nat
  | .enc => 68
  | .dec => 68
  | .cipher => 52
  | .hash => 26

/-- The map of a kind: identity where not listed. -/
def Units.map : UnitKind → Units → Tab UnitMap
  | .enc, u => u.enc
  | .dec, u => u.dec
  | .cipher, u => u.cipher
  | .hash, u => u.hash

def unitIdentity (i : Nat) : UnitMap := { phys := i, withdrawn := false }

/-- Where a logical unit runs. -/
def Units.at (x : UnitKind) (l : Nat) (u : Units) : UnitMap := tabGet unitIdentity l (u.map x)

/-- A logical unit's place changed. -/
def Units.set (x : UnitKind) (l : Nat) (v : UnitMap) (u : Units) : Units :=
  let t := tabPut unitIdentity l v (u.map x)
  match x with
  | .enc => { u with enc := t }
  | .dec => { u with dec := t }
  | .cipher => { u with cipher := t }
  | .hash => { u with hash := t }

/-- Physical units of a kind that are marked BAD (R356). -/
def Body.bad : UnitKind → Body → List Nat
  | .enc, b => b.badEnc
  | .dec, b => b.badDec
  | .cipher, b => b.badCipher
  | .hash, b => b.badHash

/-- A physical unit marked BAD; the marks are kept in the order they were made. -/
def Body.markBad (x : UnitKind) (p : Nat) (b : Body) : Body :=
  if (b.bad x).contains p then b
  else match x with
    | .enc => { b with badEnc := b.badEnc ++ [p] }
    | .dec => { b with badDec := b.badDec ++ [p] }
    | .cipher => { b with badCipher := b.badCipher ++ [p] }
    | .hash => { b with badHash := b.badHash ++ [p] }

/-- A physical unit carries a live logical unit. -/
def Units.used (x : UnitKind) (p : Nat) (u : Units) : Bool :=
  (List.range x.logical).any fun l => !(u.at x l).withdrawn && (u.at x l).phys == p

/-- The spares of a kind that are free: not BAD, not carrying a logical unit (R356). -/
def freeSpares (x : UnitKind) (u : Units) (b : Body) : List Nat :=
  (List.range x.physical).filter fun p => !(b.bad x).contains p && !u.used x p

/-- Live logical units of a kind. -/
def Units.live (x : UnitKind) (u : Units) : Nat := ((List.range x.logical).filter fun l => !(u.at x l).withdrawn).length

/-- The source that is raised when a logical unit of a kind is withdrawn (R343). -/
def withdrawnSource : UnitKind → Nat
  | .enc => 0x1D
  | .dec => 0x1D
  | .cipher => 0x22
  | .hash => 0x22

/-- A logical unit's physical unit is taken out of service (R157, R331, R356): the mark, and a free spare in its place, the lowest (DESIGN
CHOICE, log 93), or the logical unit withdrawn with none. -/
def Engine.takeOut (k : Kit) (r : Regs) (x : UnitKind) (l : Nat) (e : Engine) : Engine :=
  let m := e.units.at x l
  if m.withdrawn then e
  else
    let e := ({ e with body := e.body.markBad x m.phys }).bump Ctr.sparesUsed 1
    match freeSpares x e.units e.body with
    | p :: _ => { e with units := e.units.set x l { phys := p, withdrawn := false } }
    | [] => ({ e with units := e.units.set x l { m with withdrawn := true } }).raise k r (withdrawnSource x) none

/-- The map of a kind after a cold reset (R356, R372): identity, a spare in place of each BAD unit, in ascending order. -/
def Units.remap (x : UnitKind) (b : Body) (u : Units) : Units :=
  (List.range x.logical).foldl (fun u l =>
    if (b.bad x).contains l then
      match freeSpares x u b with
      | p :: _ => u.set x l { phys := p, withdrawn := false }
      | [] => u.set x l { phys := l, withdrawn := true }
    else u.set x l (unitIdentity l)) u

/-- Every map after a cold reset. -/
def Units.remapAll (b : Body) (u : Units) : Units :=
  (((u.remap .enc b).remap .dec b).remap .cipher b).remap .hash b

/-- A cipher or hash mismatch (R331): raised, counted, the core replaced. -/
def Engine.coreFault (k : Kit) (r : Regs) (t : Option TenantNo) (f : CoreFault) (e : Engine) : Engine :=
  if f.hash then
    (((e.raise k r 0x21 t).bump Ctr.hashFaults 1)).takeOut k r .hash (f.core % 24)
  else
    (((e.raise k r 0x20 t).bump Ctr.cipherFaults 1)).takeOut k r .cipher (f.core % 48)

/-- The mismatches met on a line (R331). -/
def Engine.coreFaults (k : Kit) (r : Regs) (t : Option TenantNo) (fs : List CoreFault) (e : Engine) : Engine :=
  e.forEach fs (Engine.coreFault k r t)

/-- A second mismatch on one line ends its job (R331). -/
def coreFatal (fs : List CoreFault) : Bool := fs.any fun f => decide (2 ≤ (fs.filter fun g => g.line == f.line).length)

end Sys2Proof.Machine
end

