-- ==== Sys2Proof/Machine/VaultOps.lean ====
section
/-!
DEFINITION. The vault (12_vault), below the level of single commands: queues and windows, packets, acceptance, application of
writes, write-back, flushes, logs.
-/

namespace Sys2Proof.Machine

/-! ### Queues -/

/-- Vault queue `q`: 0 to 15 host queues, 16 + p the link queue of port p (R282). -/
def Engine.vq (q : Nat) (e : Engine) : VQueue := tabGet (fun _ => VQueue.fresh) q e.vault.queues

/-- Vault queue `q` replaced. -/
def Engine.setVq (q : Nat) (v : VQueue) (e : Engine) : Engine :=
  { e with vault := { e.vault with queues := tabPut (fun _ => VQueue.fresh) q v e.vault.queues } }

/-- A queue's commands changed. -/
def Engine.onCmds (q : Nat) (f : List VCmd → List VCmd) (e : Engine) : Engine := e.setVq q { e.vq q with cmds := f (e.vq q).cmds }

/-- Features and log pages of tenant `t`. -/
def Engine.vtenant (t : Nat) (e : Engine) : VTenant := tabGet (fun _ => VTenant.fresh) t e.vault.tenants

/-- Those replaced. -/
def Engine.setVtenant (t : Nat) (v : VTenant) (e : Engine) : Engine :=
  { e with vault := { e.vault with tenants := tabPut (fun _ => VTenant.fresh) t v e.vault.tenants } }

/-- Commands carried by a host queue have no session. -/
def isHost (q : Nat) : Bool := decide (q < 16)

/-- Lines of OUT window that hold a packet software has not released. -/
def Engine.outUnreleased (r : Regs) (q : Nat) (e : Engine) : Nat :=
  ((e.vq q).outTail + r.outSize q - (e.vq q).outHead) % r.outSize q

/-- The command moves data to the target (R289). -/
def movesIn (opcode : Nat) : Bool := opcode == opWrite || opcode == opFwDownload

/-- OUT lines a command is still owed (R287): its XFER_RDY, while it has not been sent, and its RESP. -/
def VCmd.owedLines (c : VCmd) : Nat := if movesIn c.opcode && !c.ready then 2 else 1

/-- OUT lines that are neither unreleased nor reserved (R267, R287). -/
def Engine.outFree (r : Regs) (q : Nat) (e : Engine) : Nat :=
  r.outSize q - 1 - e.outUnreleased r q - ((e.vq q).cmds.map VCmd.owedLines).sum

/-! ### The IN window -/

/-- The vault header of a header line (R286). -/
def lineHdr (d : LineData) : BitVec 256 := d.extractLsb' 192 256

/-- LINES of a header line. -/
def lineCount (d : LineData) : Nat := (d.extractLsb' 16 16).toNat

/-- A reserved bit of a header line is set. -/
def lineRsv (d : LineData) : Bool :=
  d.extractLsb' 1 15 != 0 || d.extractLsb' 32 160 != 0 || d.extractLsb' 448 64 != 0

/-- IN_HEAD (R264, R286): the first line of the oldest packet that has not been taken. -/
def Engine.inHead (r : Regs) (q : Nat) (e : Engine) : Nat :=
  let v := e.vq q
  let held := (v.packets.map fun p => 1 + p.payload.length).sum + (if v.phaseWait.isSome then 0 else v.chain.length)
  (v.inFetch + r.inSize q - held % r.inSize q) % r.inSize q

/-- One line of the IN window consumed (R263). -/
def VQueue.advance (size : Nat) (v : VQueue) : VQueue :=
  let next := (v.inFetch + 1) % size
  { v with inFetch := next, inPhase := if next = 0 then !v.inPhase else v.inPhase, phaseWait := none }

/-- `n` lines consumed. -/
def VQueue.advanceBy (size : Nat) : Nat → VQueue → VQueue
  | 0, v => v
  | n + 1, v => VQueue.advanceBy size n (v.advance size)

/-! ### Packets out -/

/-- PRIO of a command, carried in every packet of its exchange. -/
def VCmd.prio (c : VCmd) : Nat := c.flags % 4

/-- The header line of an OUT packet (R286, R287). -/
def outHeader (phase : Bool) (n : Nat) (h : BitVec 256) : List Byte :=
  [BitVec.ofNat 8 (b2n phase), 0] ++ natLE 2 n ++ zeroBytes 20 ++ natLE 32 h.toNat ++ zeroBytes 8

/-- Payload lines with their lines of the OUT window: those from line `at_` to the end of the window, then from line 0. -/
def outPieces (base size at_ : Nat) (bs : List MemBeat) : List (Nat × List MemBeat) :=
  [(base + 64 * at_, bs.take (size - at_)), (base, bs.drop (size - at_))]

/-- Lines written from `addr`, one request in each page they touch, each line with its own poison mark (R385, R388). -/
def Engine.memWriteBeats (k : Kit) (addr : Nat) (bs : List MemBeat) (prio : BitVec 2) (use : MemFor) (e : Engine) : Engine :=
  e.forEach (pageWrites addr (bytesOfLines (bs.map fun b => b.data))) fun p e =>
    let mine := (bs.drop ((p.1 - addr) / 64)).take (p.2.length / 64)
    e.memWrite k p.1 p.2 (if mine.any fun b => b.poison then mine.map fun b => b.poison else []) prio use

/-- An OUT packet written: payload lines, then the header line (R287). -/
def Engine.writeOut (k : Kit) (r : Regs) (q : Nat) (h : BitVec 256) (payload : List MemBeat) (e : Engine) : Engine :=
  let v := e.vq q
  let size := r.outSize q
  let base := r.outBase q
  let stop := v.outTail + 1 + payload.length
  let e := e.forEach (outPieces base size ((v.outTail + 1) % size) payload) fun p e => e.memWriteBeats k p.1 p.2 1 (.outPacket q)
  let e := e.memWrite k (base + 64 * v.outTail) (outHeader v.outPhase payload.length h) [] 1 (.outPacket q)
  e.setVq q { v with outTail := stop % size, outPhase := if size ≤ stop then !v.outPhase else v.outPhase }

/-- The session of a command is there and keyed, and its port is live (R293). -/
def Engine.sessionLive (q : Nat) (c : VCmd) (e : Engine) : Bool :=
  match c.session with
  | some n => (e.sess (n / 16) (n % 16)).state == .keyed && (e.sess (n / 16) (n % 16)).live.getLsbD (q - 16)
  | none => true

/-- A packet sent to the initiator: into the OUT window, or as a VAULT frame (R285, R286). -/
def Engine.sendWord (k : Kit) (r : Regs) (q : Nat) (session : Option Nat) (h : BitVec 256) (payload : List MemBeat) (e : Engine) : Engine :=
  match session with
  | some n => e.sendSeq r (n / 16) (n % 16) (q - 16) (vaultFrame h payload)
  | none => e.writeOut k r q h payload

/-- A packet with these header fields sent to the initiator. -/
def Engine.sendPacket (k : Kit) (r : Regs) (q : Nat) (session : Option Nat) (h : VaultHdr) (payload : List MemBeat) (e : Engine) : Engine :=
  e.sendWord k r q session h.word payload

/-- The RESP of a command (R284, R294): `flags` is REFUSED where it applies. -/
def respHdr (tag : BitVec 8) (opcode prio offset arg : Nat) (refused : Bool) (code : Code) : VaultHdr :=
  { mkHdr ptResp tag opcode (prio + 16 * b2n refused) 0 offset arg with code := code }

/-! ### Logs and endings -/

/-- An entry of the ERRORS page (R303). -/
def errorEntry (stamp : Dword) (q : Nat) (c : VCmd) (code : Code) (arg : Nat) : List Byte :=
  natLE 8 stamp.toNat ++ natLE 1 q ++ [c.tag] ++ natLE 1 c.opcode ++ [code] ++ zeroBytes 4 ++ natLE 8 c.offset ++ natLE 8 arg

/-- A command has completed: counted, and logged where its code is not 0x00 (R303). -/
def Engine.countCmd (q : Nat) (c : VCmd) (code : Code) (arg : Nat) (e : Engine) : Engine :=
  if code = 0 then e.bump Ctr.cmdsDone 1
  else
    let t := c.tenant.toNat
    let v := e.vtenant t
    ((e.setVtenant t { v with errors := (errorEntry e.stamp q c code arg :: v.errors).take 32 }).ticked).bump Ctr.cmdsFailed 1

/-- VAULT lines that a command has reserved (R290). -/
def VCmd.reservedLines (c : VCmd) : Nat := if c.ready && !c.waiting && c.answer.isNone then c.len / 64 else 0

/-- A command leaves its queue; the lines reserved for it are free again. -/
def Engine.dropCmd (q : Nat) (c : VCmd) (e : Engine) : Engine :=
  (e.onCmds q fun cs => cs.filter fun x => !(x.tag == c.tag)).onFront fun f => { f with reserved := f.reserved - c.reservedLines }

/-- What a GET_LOG with CLEAR returned leaves the deferred-error page, once it has been returned (R302, R303). -/
def Engine.clearDeferred (c : VCmd) (e : Engine) : Engine :=
  let v := e.vtenant c.tenant.toNat
  let rest := v.deferred.filter fun d => !c.clear.contains d
  e.when (!c.clear.isEmpty) fun e => e.setVtenant c.tenant.toNat { v with deferred := rest, overflow := v.overflow && !rest.isEmpty }

/-- The RESP of a command written or sent, and the command ended. -/
def Engine.answerCmd (k : Kit) (r : Regs) (q : Nat) (c : VCmd) (code : Code) (arg : Nat) (e : Engine) : Engine :=
  let e := ((e.dropCmd q c).countCmd q c code arg).clearDeferred c
  e.sendPacket k r q c.session (respHdr c.tag c.opcode c.prio c.offset arg false code) []

/-! ### Priority classes -/

/-- A command that waits for a shared path, with its queue and its class there: 0 URGENT, 1 HIGH, 2 NORMAL, 3 BULK (R307). -/
structure Candidate where
  queue : Nat
  cls : Nat
  cmd : VCmd
deriving DecidableEq, Repr

/-- The command moves data either way (R289). -/
def movesData (opcode : Nat) : Bool := movesIn opcode || [opRead, opIdentify, opGetLog].contains opcode

/-- Lines of a command as its class counts them (R307). -/
def VCmd.lines (c : VCmd) : Nat := if movesData c.opcode then ceilDiv c.len 64 else 1

/-- The class of a command: while its tenant's URGENT class is raised, URGENT (R307, R308). -/
def Engine.classOf (c : VCmd) (e : Engine) : Nat := if e.urgentTenant = some c.tenant then 0 else c.prio

/-- A command as a candidate. -/
def Engine.candidate (q : Nat) (c : VCmd) (e : Engine) : Candidate := { queue := q, cls := e.classOf c, cmd := c }

/-- The oldest of the candidates of a class. -/
def oldestOf (xs : List Candidate) (cls : Nat) : Option Candidate :=
  (xs.filter fun x => x.cls == cls).foldl (fun best x =>
    match best with
    | none => some x
    | some y => if x.cmd.order < y.cmd.order then some x else some y) none

/-- Credit of class `c`, 0 HIGH to 2 BULK. -/
def VArb.creditOf (c : Nat) (a : VArb) : Int := a.credit.getD c 0

/-- One pass of R307 over the weighted classes, from the one after the class served last: the first that is ready and has credit. -/
def VArb.pass (xs : List Candidate) (a : VArb) : Option (Candidate × VArb) :=
  [1, 2, 3].findSome? fun k =>
    let c := (a.last + k) % 3
    match oldestOf xs (c + 1) with
    | some x =>
      if 0 < a.creditOf c then some (x, { credit := a.credit.set c (a.creditOf c - x.cmd.lines), last := c }) else none
    | none => none

/-- The refill of R307: every class that is ready gains 64 lines for each unit of its weight. -/
def VArb.refill (w : List Nat) (xs : List Candidate) (a : VArb) : VArb :=
  { a with credit := a.credit.mapIdx fun c v => if (oldestOf xs (c + 1)).isSome then v + 64 * (w.getD c 0 : Nat) else v }

/-- Passes and refills until a class has credit; `fuel` at most. The debt of a class is at most one command, 4,096 lines. -/
def VArb.weighted (w : List Nat) (xs : List Candidate) : Nat → VArb → Option (Candidate × VArb)
  | 0, _ => none
  | fuel + 1, a =>
    match a.pass xs with
    | some y => some y
    | none => VArb.weighted w xs fuel (a.refill w xs)

/-- The choice of R307: URGENT commands first, the oldest first; then the other classes by weight. -/
def VArb.choose (w : List Nat) (xs : List Candidate) (a : VArb) : Option (Candidate × VArb) :=
  match oldestOf xs 0 with
  | some x => some (x, a)
  | none => if xs.isEmpty then none else a.weighted w xs 66

/-- The weights of a tenant's ARB feature: HIGH, NORMAL, BULK (R304). -/
def VTenant.weights (v : VTenant) : List Nat := [bits 7 0 v.arb.toNat, bits 15 8 v.arb.toNat, bits 23 16 v.arb.toNat]

/-- The paths on which commands of one tenant wait for one another (log 74): the VAULT partition, the OUT window of a host queue, the
frames of a session on a port. -/
def arbVault (t : Nat) : Nat := t
def arbOut (q : Nat) : Nat := 16 + q
def arbLink (p session : Nat) : Nat := 32 + 256 * p + session

/-- The command that a path serves next, and the engine after the choice. -/
def Engine.chooseCmd (path : Nat) (t : TenantNo) (xs : List Candidate) (e : Engine) : Option (Candidate × Engine) :=
  ((tabGet (fun _ => VArb.fresh) path e.vault.arbs).choose (e.vtenant t.toNat).weights xs).map fun y =>
    (y.1, { e with vault := { e.vault with arbs := tabPut (fun _ => VArb.fresh) path y.2 e.vault.arbs } })

/-- A packet of `n` payload lines of a command may go out now: OUT lines are free for it, or its frame would leave at once. -/
def Engine.mayOut (r : Regs) (q : Nat) (c : VCmd) (n : Nat) (e : Engine) : Bool :=
  match c.session with
  | some m => e.sendsNow r (m / 16) (m % 16) (q - 16) n
  | none => decide (1 + n ≤ e.outFree r q)

/-- DATA packets of a command put out while they may go, then its RESP (R283, R287); `fuel` packets at most. The OUT line of a RESP has
been reserved. -/
def Engine.pumpCmd (k : Kit) (r : Regs) (q : Nat) (tag : BitVec 8) : Nat → Engine → Engine
  | 0, e => e
  | fuel + 1, e =>
    match (e.vq q).cmds.find? fun c => c.tag == tag with
    | none => e
    | some c =>
      match c.toSend, c.answer with
      | (h, b) :: rest, _ =>
        if e.mayOut r q c b.length then
          Engine.pumpCmd k r q tag fuel
            ((e.onCmds q fun cs => updFirst (fun x => x.tag == tag) (fun x => { x with toSend := rest }) cs).sendWord k r q c.session h b)
        else e
      | [], some (code, arg) => if c.session.isNone || e.mayOut r q c 0 then e.answerCmd k r q c code arg else e
      | [], none => e

/-- Commands of a queue that have been carried out and wait for their way out, one after another as the classes choose: those of a
session of a link queue, or those of a host queue while a half drives it (R30, R307); `fuel` at most. -/
def Engine.serveOut (k : Kit) (r : Regs) (q : Nat) (session : Option Nat) : Nat → Engine → Engine
  | 0, e => e
  | fuel + 1, e =>
    let mine := if session.isSome || e.drives then (e.vq q).cmds.filter fun c => c.session == session && c.answer.isSome else []
    match mine.find? fun c => c.serving with
    | some c =>
      let e := e.pumpCmd k r q c.tag (c.toSend.length + 1)
      if (e.vq q).cmds.any fun x => x.tag == c.tag then e else Engine.serveOut k r q session fuel e
    | none =>
      match mine with
      | [] => e
      | c :: _ =>
        let path := match session with
          | some n => arbLink (q - 16) n
          | none => arbOut q
        match e.chooseCmd path c.tenant (mine.map fun x => e.candidate q x) with
        | none => e
        | some (x, e) =>
          Engine.serveOut k r q session fuel
            (e.onCmds q fun cs => updFirst (fun y => y.tag == x.cmd.tag) (fun y => { y with serving := true }) cs)

/-- The way out of a queue served for every session that has a command in it. -/
def Engine.pumpOut (k : Kit) (r : Regs) (q : Nat) (e : Engine) : Engine :=
  e.forEach ((e.vq q).cmds.map fun c => c.session).eraseDups fun n e => e.serveOut k r q n (2 * (e.vq q).cmds.length + 1)

/-- A command has been carried out (R289): its DATA packets and its RESP wait for their way out. -/
def Engine.finishCmd (k : Kit) (r : Regs) (q : Nat) (c : VCmd) (data : List MemBeat) (code : Code) (arg : Nat) (e : Engine) : Engine :=
  let packets := dataPacketsOf c.tag c.opcode c.prio c.offset data
  let free := c.reservedLines
  let c' := { c with toSend := packets.map fun p => (p.1.word, p.2), answer := some (code, arg), waiting := false, waits := [], staged := [] }
  let e := (e.onCmds q fun cs => updFirst (fun x => x.tag == c.tag) (fun _ => c') cs).onFront fun f => { f with reserved := f.reserved - free }
  e.pumpOut k r q

/-- A command ended without effect: its staged lines are discarded, and a RESP goes out where `tell` says so (R291, R293, R309,
R310). -/
def Engine.abortCmd (k : Kit) (r : Regs) (q : Nat) (c : VCmd) (code : Code) (tell : Bool) (e : Engine) : Engine :=
  if tell then e.answerCmd k r q c code 0 else (e.dropCmd q c).countCmd q c code 0

/-- Every command of a queue that satisfies `p` ended; a RESP where `tell` says so. -/
def Engine.abortCmds (k : Kit) (r : Regs) (q : Nat) (p tell : VCmd → Bool) (code : Code) (e : Engine) : Engine :=
  e.forEach ((e.vq q).cmds.filter p) fun c e => e.abortCmd k r q c code (tell c)

/-! ### Address spaces -/

/-- Where a command's offsets lie (R295): the tenant's body partition, or the window of its session. -/
inductive Space where
  | body (tenant : Nat)
  | window (w : Nat)
  | none
deriving DecidableEq, Repr

/-- The space of a queue for a session. -/
def spaceOf (r : Regs) (t : TenantNo) (session : Option Nat) : Space :=
  match session with
  | Option.none => .body t.toNat
  | some n =>
    match r.windowOf (n / 16) (r.peerId (n / 16) (n % 16)) with
    | some w => .window w
    | Option.none => .none

/-- Bytes of a space (R295). -/
def Space.bytes (r : Regs) : Space → Nat
  | .body t => 64 * r.partLines t
  | .window w => 2 * (4096 * r.winPages w)
  | .none => 0

/-- The front key of line `n` of a space. -/
def Space.key (r : Regs) (n : Nat) : Space → Option FrontKey
  | .body t => some (.body (r.partLine t n))
  | .window w => some (.window w n)
  | .none => Option.none

/-- The byte offset that a front key has in a space. -/
def Space.offsetOf (r : Regs) (key : FrontKey) : Space → Option Nat
  | .body t => match key with | .body n => if r.inPart t n then some (64 * (n - r.partLine t 0)) else Option.none | _ => Option.none
  | .window w => match key with | .window v n => if v = w then some (64 * n) else Option.none | _ => Option.none
  | .none => Option.none

/-- A key lies in the bytes [off, off + len) of a space; all of it for `len` 0 (R294). -/
def Space.covers (r : Regs) (off len : Nat) (key : FrontKey) (sp : Space) : Bool :=
  match sp.offsetOf r key with
  | some o => len == 0 || (decide (off ≤ o) && decide (o < off + len))
  | Option.none => false

/-- Line numbers of a byte range. -/
def lineRange (off len : Nat) : List Nat := (List.range (ceilDiv len 64)).map fun i => off / 64 + i

/-- A line of the range belongs to another tenant (R114): the front copy's owner, else the stored line's. -/
def Engine.foreign (r : Regs) (t : TenantNo) (off len : Nat) (e : Engine) : Bool :=
  (lineRange off len).any fun n =>
    match e.partRead r t.toNat n with
    | some l => l.tenant != t
    | none => false

/-! ### Acceptance -/

/-- The opcode is defined (R294). -/
def opDefined (op : Nat) : Bool := [opWrite, opRead, opFlush, opVerify, opIdentify, opGetLog, opGetFeature, opSetFeature,
  opFwDownload, opFwCommit].contains op

/-- Commands of host queues only. -/
def opHostOnly (op : Nat) : Bool := decide (0x11 ≤ op) && decide (op ≤ 0x15)

/-- Bytes of a log page (R303). -/
def pageSize : Nat → Nat
  | 1 => 1024
  | 2 => 1024
  | 3 => 256
  | _ => 0

/-- A feature's value lies in its table (R304). -/
def featureOk (fid value : Nat) : Bool :=
  if fid = 1 then bits 7 0 value != 0 && bits 15 8 value != 0 && bits 23 16 value != 0 && value / 2 ^ 24 == 0
  else if fid = 2 then decide (value ≤ 1)
  else false

/-- Bytes of the staging buffer (R305). -/
def stagingBytes : Nat := 4194304

/-- The fields of a CMD against the command table (R284, R294, R303 to R306). -/
def fieldConds (h : VaultHdr) (payload : List MemBeat) : List (Bool × Code) :=
  let op := h.opcode
  let moves := op == opWrite || op == opRead || op == opFwDownload
  let plain := op == opGetFeature || op == opSetFeature || op == opFwCommit
  let aligned := moves || op == opVerify || (op == opFlush && h.len != 0)
  let page := bits 7 0 h.arg
  [(!opDefined op, 0x10),
   (h.rsv != 0 || h.flags / 8 != 0 || h.code != 0, 0x11),
   (opDefined op && payload.length != (if op = opVerify then 1 else 0), 0x12),
   (op == opVerify && (payload.any fun b => b.data.extractLsb' 256 256 != 0), 0x11),
   (aligned && h.offset % 64 != 0, 0x13),
   (moves && (decide (h.len < 64) || decide (262144 < h.len) || h.len % 64 != 0), 0x11),
   (op == opFlush && (if h.len = 0 then h.offset != 0 else h.len % 64 != 0), 0x11),
   (op == opVerify && h.len == 0, 0x11),
   (op == opIdentify && (h.offset != 0 || h.len != 256), 0x11),
   (plain && (h.offset != 0 || h.len != 0), 0x11),
   ((moves || op == opFlush || op == opVerify || op == opIdentify) && h.arg != 0, 0x11),
   (op == opGetLog && (h.offset != 0 || h.arg / 512 != 0 || pageSize page == 0 || h.len != pageSize page), 0x11),
   (op == opGetFeature && (h.arg / 256 != 0 || (page != 1 && page != 2)), 0x11),
   (op == opSetFeature && (bits 31 8 h.arg != 0 || !featureOk page (bits 63 32 h.arg)), 0x11),
   (op == opFwCommit && h.arg != 1 && h.arg != 2, 0x11)]

/-- Tags that a tenant may hold on a link queue in sealed mode (R337). -/
def linkTags (r : Regs) (t : Nat) : Nat :=
  let n := ((List.range 16).filter fun u => decide (0 < r.linkShare u)).length
  if r.linkShare t = 0 then 0 else 1 + (32 - n) * r.linkShare t / 1024

/-- A slot of the tenant's partition that the range touches. -/
def touchesSlot (r : Regs) (t off len : Nat) (slot : Bool) : Bool :=
  spansMeet (off, len) (b2n slot * (64 * r.slotLines t), 64 * r.slotLines t)

/-- A cut or a body copy of the tenant writes the slot (R296). -/
def Engine.slotWritten (r : Regs) (t : Nat) (slot : Bool) (e : Engine) : Bool :=
  (match e.cut.run with
   | some run => run.tenant.toNat == t && e.cut.phase != .armed && run.params.dest != 2 && r.bodyMode t != 0 && run.slot == slot
   | none => false) || e.bulb.copies.any fun c => c.tenant == t && c.slot == slot

/-- A RESTORE reads this slot of the tenant's body partition (R296). -/
def Engine.bodyRead (t : TenantNo) (slot : Bool) (e : Engine) : Bool :=
  e.streams.restores.any fun x => x.tenant == t && !x.ending && x.groups.any fun g => g.locs.any fun l => l.kind == 0 && l.slot == slot

/-- What the state refuses a CMD for (R283, R295, R296, R306, R332, R337). -/
def Engine.stateConds (r : Regs) (q : Nat) (t : TenantNo) (session : Option Nat) (h : VaultHdr) (e : Engine) : List (Bool × Code) :=
  let tn := t.toNat
  let op := h.opcode
  let sp := spaceOf r t session
  let ranged := op == opWrite || op == opRead || op == opVerify || (op == opFlush && h.len != 0)
  let host := session.isNone
  let touched (slot : Bool) : Bool := host && op == opWrite && touchesSlot r tn h.offset h.len slot
  let cmds := (e.vq q).cmds
  [((e.tenant tn).releasing.isSome, 0x40),
   (opHostOnly op && !host, 0x40),
   ((op == opFwDownload || op == opFwCommit) && q != 0, 0x40),
   (host && (op == opWrite || op == opRead || op == opVerify) && decide (h.offset + h.len ≤ sp.bytes r) && e.foreign r t h.offset h.len, 0x40),
   (cmds.any fun c => c.tag == h.tag, 0x19),
   (ranged && decide (sp.bytes r < h.offset + h.len), 0x13),
   (op == opFwDownload && decide (stagingBytes < h.offset + h.len), 0x13),
   (host && r.bodyBanks tn == 0, 0x14),
   ([false, true].any fun slot => touched slot && (e.kept tn).valid && (e.kept tn).lastSlot == slot, 0x14),
   (decide (32 ≤ cmds.length), 0x52),
   (!host && e.beat.sealed && decide (linkTags r tn ≤ (cmds.filter fun c => c.tenant == t).length), 0x52),
   ([false, true].any fun slot => touched slot && (e.slotWritten r tn slot || e.bodyRead t slot), 0x58),
   (op == opFwCommit && (e.referee.fw != .none || (cmds.any fun c => c.opcode == opFwCommit)), 0x58)]

/-- A command as it enters its queue. A WRITE under WRITE_THROUGH is held as one with FUA (R297). -/
def Engine.newCmd (t : TenantNo) (session : Option Nat) (h : VaultHdr) (e : Engine) : VCmd :=
  let fua := h.fua || (e.vtenant t.toNat).wcache == 1
  { tag := h.tag, opcode := h.opcode, flags := h.flags % 4 + 4 * b2n fua, tenant := t, session := session, offset := h.offset, len := h.len,
    arg := h.arg, ready := false, staged := [], waiting := false, waits := [], failures := [], verify := none, toSend := [], answer := none,
    age := 0, order := e.vault.nextOrder, serving := false, clear := [] }

/-- The next number of an acceptance or of an application used up. -/
def Engine.ordered (e : Engine) : Engine := { e with vault := { e.vault with nextOrder := e.vault.nextOrder + 1 } }

/-- A CMD judged (R14, R294): answered with REFUSED, or in flight and given to `act`. -/
def Engine.acceptCmd (k : Kit) (r : Regs) (q : Nat) (t : TenantNo) (session : Option Nat) (h : VaultHdr) (rsv : Bool)
    (payload : List MemBeat) (act : VCmd → Engine → Engine) (e : Engine) : Engine :=
  match judge ((rsv, 0x11) :: fieldConds h payload ++ e.stateConds r q t session h) with
  | some code =>
    (e.bump Ctr.cmdsFailed 1).sendPacket k r q session (respHdr h.tag h.opcode (h.flags % 4) h.offset 0 true code) []
  | none =>
    let c := e.newCmd t session h
    act c (e.ordered.onCmds q fun cs => cs ++ [c])

/-- The next packet of a host queue taken, when its header satisfies `sel`; a CMD waits for the OUT lines it is owed (R287). -/
def Engine.takePacket (r : Regs) (q : Nat) (sel : VaultHdr → Bool) (act : VaultHdr → Packet → Engine → Engine) (e : Engine) : Engine :=
  let v := e.vq q
  match v.packets with
  | [] => e
  | p :: rest =>
    let h := vaultHdrOf p.hdr
    if !sel h || !r.vqActive q || !e.scheduling then e
    else if h.type = ptCmd ∧ e.outFree r q < (if movesIn h.opcode then 2 else 1) then e.setVq q { v with outWait := true }
    else act h p (e.setVq q { v with packets := rest, outWait := false })

/-- A vault packet that a frame carries, when its header satisfies `sel` (R285). -/
def Engine.takeFrame (k : Kit) (r : Regs) (port : Nat) (f : Frame) (sel : VaultHdr → Bool) (act : Nat → Nat → VaultHdr → Engine → Engine)
    (e : Engine) : Engine :=
  let h := vaultHdrOf f.bodyLo
  if !sel h then e else e.receive k r ftVault port f fun t i e => act t i h e

/-- A granted steward starts vault commands (R354). -/
def Engine.mayServe (e : Engine) : Bool := e.referee.steward.isSome && e.referee.resumed

/-- A CMD of one of the opcodes `mine`, or of an undefined opcode, from either kind of queue. While no steward is granted, a CMD that a
frame has brought waits in its queue (R354). -/
def Engine.command (k : Kit) (r : Regs) (src : VaultSrc) (mine : VaultHdr → Bool) (reads : CmdReads)
    (act : Nat → VCmd → List MemBeat → Engine → Engine) (e : Engine) : Engine :=
  let sel (h : VaultHdr) : Bool := h.type == ptCmd && (mine h || !opDefined h.opcode)
  match src with
  | .host queue =>
    let q := queue.toNat
    e.takePacket r q sel fun h p e => e.acceptCmd k r q (r.vqTenant q) none h p.rsv p.payload (fun c e => act q c p.payload e)
  | .link port f =>
    let q := 16 + port
    e.takeFrame k r port f sel fun t i h e =>
      if e.mayServe then e.acceptCmd k r q (BitVec.ofNat 4 t) (some (16 * t + i)) h false f.beats (fun c e => act q c f.beats e)
      else
        let x : LinkCmd := { session := 16 * t + i, hdr := f.bodyLo, payload := f.beats, reads := reads }
        e.setVq q { e.vq q with held := (e.vq q).held ++ [x] }

/-! ### Waiting for durability -/

/-- A dirty line handed to its destination again; a body line is read from the front for it (R119, R120). -/
def Engine.rewrite (k : Kit) (r : Regs) (key : FrontKey) (e : Engine) : Engine :=
  match key, e.front.find key with
  | .body n, some l =>
    let x := (e.unfail key).readFront k r l
    x.2.2.pushBodyWrite (.vault n l.ver) x.1
  | _, _ => e.unfail key

/-- Value `ver` of a key has become durable or has failed: a command that waits for it or for an older value takes note (R116, R300). -/
def VCmd.note (r : Regs) (sp : Space) (key : FrontKey) (ver : Nat) (code : Code) (c : VCmd) : VCmd :=
  let hit (x : FrontKey × Nat) : Bool := x.1 == key && decide (x.2 ≤ ver)
  if c.waits.any hit then
    { c with waits := c.waits.filter fun x => !hit x
             failures := if code = 0 then c.failures else c.failures ++ [((sp.offsetOf r key).getD 0, code)] }
  else c

/-- The destination's lines that a VERIFY reads (R301): the bytes, the first failure, and the engine after the reads. -/
def Engine.readDest (k : Kit) (r : Regs) (sp : Space) (v : VerifyReads) : List (Nat × Nat) → Engine → List Byte × Option (Nat × Code) × Engine
  | [], e => ([], none, e)
  | (i, n) :: rest, e =>
    let one : LineData × Code × Engine := match sp with
      | .body t =>
        let x := e.readBody k r (e.partKey r t n) false
        (x.1.data, x.2.1, x.2.2)
      | _ =>
        match v.reads.window[i]? with
        | some (.ok d) => (d, 0, e)
        | some .poison => (0, 0x21, e)
        | _ => (0, 0x27, e)
    let p := Engine.readDest k r sp v rest one.2.2
    (lineBytes one.1 ++ p.1, if one.2.1 = 0 then p.2.1 else some (64 * n, one.2.1), p.2.2)

/-- A VERIFY whose flush has ended without failure reads its range and compares the digest (R301); a second mismatch of the hash cores on
one line ends it (R331). -/
def Engine.endVerify (k : Kit) (r : Regs) (q : Nat) (c : VCmd) (v : VerifyReads) (e : Engine) : Engine :=
  let ns := lineRange c.offset c.len
  let p := e.readDest k r (spaceOf r c.tenant c.session) v (ns.mapIdx fun i n => (i, n))
  match p.2.1 with
  | some (off, code) => p.2.2.finishCmd k r q c [] code off
  | none =>
    let e := p.2.2.coreFaults k r (some c.tenant) v.reads.faults
    if coreFatal v.reads.faults then e.finishCmd k r q c [] 0x45 0
    else if parallelHash (p.1.take c.len) = v.expected then e.finishCmd k r q c [] 0 0
    else e.finishCmd k r q c [] 0x22 0

/-- A command whose waits are over completes (R117, R297, R300, R301). -/
def Engine.endWait (k : Kit) (r : Regs) (q : Nat) (c : VCmd) (e : Engine) : Engine :=
  match firstFailure c.failures with
  | some (off, code) => e.finishCmd k r q c [] code off
  | none =>
    match c.verify with
    | some v => e.endVerify k r q c v
    | none => e.finishCmd k r q c [] 0 (if c.opcode = opWrite then c.len else 0)

/-- Every command of every queue whose waits are over completes. -/
def Engine.endWaits (k : Kit) (r : Regs) (e : Engine) : Engine :=
  e.forEach e.vault.queues fun x e =>
    e.forEach ((e.vq x.1).cmds.filter fun c => c.waiting && c.waits.isEmpty) fun c e => e.endWait k r x.1 c

/-- A deferred error (R302, R303): `told` says that a FLUSH or VERIFY under way reports it. -/
def Engine.deferError (told : Bool) (q : Nat) (t : TenantNo) (off : Nat) (key : FrontKey) (code : Code) (e : Engine) : Engine :=
  let v := e.vtenant t.toNat
  let d : Deferred := { stamp := e.stamp, queue := q, code := code, offset := off }
  let v := if v.deferred.length < 31 then { v with deferred := v.deferred ++ [d] }
    else { v with deferred := v.deferred.dropLast ++ [d], overflow := true }
  let e := ((e.setVtenant t.toNat v).ticked).bump Ctr.deferredErrors 1
  if told then e
  else { e with vault := { e.vault with owed := (e.vault.owed.filter fun x => x.1 != key) ++ [(key, code)] } }

/-- Where a line of a DRAIN stands in line order (R117): by its byte offset in the body or in its window. The rule names no order between
lines of different spaces, nor between lines at one offset, of which the one answered first counts (DESIGN CHOICE, log 82). -/
def FrontKey.offset : FrontKey → Nat
  | .body n => 64 * n
  | .window _ n => 64 * n
  | _ => 0

/-- A DRAIN takes note of a line that has become durable or has failed. -/
def Drain.note (key : FrontKey) (ver : Nat) (code : Code) (d : Drain) : Drain :=
  let hit (x : FrontKey × Nat) : Bool := x.1 == key && decide (x.2 ≤ ver)
  if d.waits.any hit then
    { d with waits := d.waits.filter fun x => !hit x
             failures := if code = 0 then d.failures else d.failures ++ [(key.offset, code)] }
  else d

/-- A command that is no WRITE waits for the value of the line, so that it reports its failure. -/
def Engine.awaited (key : FrontKey) (ver : Nat) (e : Engine) : Bool :=
  e.vault.queues.any fun x => x.2.cmds.any fun c => c.opcode != opWrite && c.waits.any fun y => y.1 == key && decide (y.2 ≤ ver)

/-- The offset that a deferred error names: the byte offset of the line in its tenant's space (R303). -/
def deferOffset (r : Regs) (t : TenantNo) (key : FrontKey) : Nat := ((Space.body t.toNat).offsetOf r key).getD key.offset

/-- The write-back of value `ver` of a line has been answered with `code` (R116 to R118, R297, R300, R302). The newest value, durable,
leaves the front; failed, it stays dirty, and is a deferred error where its WRITE has been answered 0x00. -/
def Engine.settleLine (k : Kit) (r : Regs) (key : FrontKey) (ver : Nat) (code : Code) (e : Engine) : Engine :=
  let told := e.awaited key ver
  let here := (e.front.find key).filter fun l => l.ver == ver
  let e := match here with
    | none => e
    | some l =>
      if code = 0 then e.onFront (Front.drop key)
      else
        let e := e.markFailed key code
        if l.region = noQueue then e else e.deferError told l.region l.line.tenant (deferOffset r l.line.tenant key) key code
  let noteCmd (c : VCmd) : VCmd := c.note r (spaceOf r c.tenant c.session) key ver code
  let queues : Tab VQueue := e.vault.queues.map fun (x : Nat × VQueue) => (x.1, { x.2 with cmds := x.2.cmds.map noteCmd })
  let e := { e with vault := { e.vault with queues := queues, drains := e.vault.drains.map (Drain.note key ver code) } }
  (e.endWaits k r).endDrains k r

/-! ### Applying, flushing, reading -/

/-- A line of a WRITE becomes the front copy of its destination, behind every line applied before (R292, R295, R297). The failure of a
line of a WRITE with FUA is answered in its RESP, and is no deferred error (R302). -/
def Engine.applyLine (q : Nat) (t : TenantNo) (fua : Bool) (key : FrontKey) (b : MemBeat) (e : Engine) : Engine :=
  let l := Line.ofData b.data t 0xD b.poison
  let ver := e.vault.nextOrder
  let x := { FrontLine.made .vault key l true (if fua then noQueue else q) with ver := ver }
  let e := (e.ordered.unfail key).onFront (Front.putLast x)
  match key with
  | .body n => e.pushBodyWrite (.vault n ver) l
  | _ => e

/-- Keys with the values that the front holds of them. -/
def Engine.withVers (keys : List FrontKey) (e : Engine) : List (FrontKey × Nat) := keys.map fun x => (x, e.verOf x)

/-- A WRITE applied, all of its lines at once (R292, R296). -/
def Engine.applyWrite (k : Kit) (r : Regs) (q : Nat) (c : VCmd) (e : Engine) : Engine :=
  let sp := spaceOf r c.tenant c.session
  let keys := (lineRange c.offset c.len).filterMap fun n => sp.key r n
  let fua := bitOf 2 c.flags
  let e := e.forEach (keys.zip c.staged) fun x e => e.applyLine q c.tenant fua x.1 x.2
  let t := c.tenant.toNat
  let e := match c.session with
    | some _ => e
    | none => e.forEach [false, true] fun slot e =>
        if touchesSlot r t c.offset c.len slot then e.setKept t ((e.kept t).setComplete slot false) else e
  let e := if fua then
      let c' := { c with waiting := true, waits := e.withVers keys, staged := [] }
      (e.onCmds q fun cs => updFirst (fun x => x.tag == c.tag) (fun _ => c') cs).onFront fun f => { f with reserved := f.reserved - c.reservedLines }
    else e.finishCmd k r q c [] 0 c.len
  e.pumpWindows k r

/-- The dirty vault lines that satisfy `p`, which a flush covers (R116). -/
def Engine.flushKeys (p : FrontKey → Bool) (e : Engine) : List FrontKey :=
  (e.front.lines.filter fun l => l.dirty && l.part == .vault && p l.key).map fun l => l.key

/-- Those of them whose write-back has failed are written again (R116, R302; DEDUCED, log 16). -/
def Engine.rewriteFailed (k : Kit) (r : Regs) (keys : List FrontKey) (e : Engine) : Engine :=
  e.forEach (keys.filter fun x => (e.backFailed x).isSome) fun x e => e.rewrite k r x

/-- FLUSH and the flush of a VERIFY begin (R300 to R302). -/
def Engine.beginFlush (k : Kit) (r : Regs) (q : Nat) (c : VCmd) (verify : Option VerifyReads) (e : Engine) : Engine :=
  let sp := spaceOf r c.tenant c.session
  let mine := sp.covers r c.offset c.len
  let keys := e.flushKeys mine
  let told := (e.vault.owed.filter fun x => mine x.1).map fun x => ((sp.offsetOf r x.1).getD 0, x.2)
  let e := ({ e with vault := { e.vault with owed := e.vault.owed.filter fun x => !mine x.1 } }).rewriteFailed k r keys
  let c' := { c with waiting := true, waits := e.withVers keys, failures := told, verify := verify }
  ((e.onCmds q fun cs => updFirst (fun x => x.tag == c.tag) (fun _ => c') cs).pumpWindows k r).endWaits k r

/-- One line as a READ finds it (R115, R298): data, poison, and a read error's code. What a poisoned host line holds is a free
value (log 3). -/
def Engine.readLine (k : Kit) (r : Regs) (sp : Space) (i n : Nat) (window : List LineRead) (e : Engine) : MemBeat × Code × Engine :=
  let beat (x : Line × Code × Engine) : MemBeat × Code × Engine :=
    ({ data := x.1.data, poison := x.1.poison }, if x.2.1 = 0x20 then 0x20 else 0, x.2.2)
  match (sp.key r n).bind fun key => e.front.find key with
  | some f =>
    let x := beat (e.readFront k r f)
    let hit := x.2.2.bump Ctr.vaultReadHits 1
    (x.1, x.2.1, match sp with | .body _ => hit.bump Ctr.readHits 1 | _ => hit)
  | none =>
    match sp with
    | .body t => beat (e.readBody k r (e.partKey r t n) false)
    | _ =>
      match window[i]? with
      | some (.ok d) => ({ data := d, poison := false }, 0, e)
      | some .poison => ({ data := Config.miscorrectedData e.draws, poison := true }, 0, e.drawn)
      | _ => ({ data := 0, poison := false }, 0x27, e)

end Sys2Proof.Machine
end

