-- ==== Sys2Proof/WellFormed.lean ====
section
/-!
DEFINITION. Which commands are well formed: those whose numbered units exist in the kit (R3, R4).
-/

namespace Sys2Proof

open Machine

/-- A tile, a port, a MEM channel or a guard client exists. -/
def Machine.Kit.hasTile (k : Kit) (tile : Nat) : Bool := decide (tile < k.buds)
def Machine.Kit.hasPort (k : Kit) (port : Nat) : Bool := decide (port < k.linkPorts)
def Machine.Kit.hasChannel (k : Kit) (channel : Nat) : Bool := decide (channel < k.memChannels)
def Machine.Kit.hasClient (k : Kit) (client : Nat) : Bool := decide (client < k.guardClients)

/-- A vault packet that comes on a link names a port that exists. -/
def VaultSrc.wf (k : Kit) : VaultSrc → Bool
  | .host _ => true
  | .link port _ => k.hasPort port

/-- The units that a command names exist. -/
def Instr.wf (k : Kit) : Instr → Bool
  | .write src => src.wf k
  | .read src _ _ => src.wf k
  | .flush src => src.wf k
  | .verify src _ _ => src.wf k
  | .identify src => src.wf k
  | .getLog src => src.wf k
  | .getFeature src => src.wf k
  | .setFeature src => src.wf k
  | .fwDownload src => src.wf k
  | .store src _ => src.wf k
  | .storeActivate src _ => src.wf k
  | .data src => src.wf k
  | .xferRdy port _ => k.hasPort port
  | .resp port _ => k.hasPort port
  | .open_ port _ => k.hasPort port
  | .accept port _ => k.hasPort port
  | .confirm port _ => k.hasPort port
  | .close port _ => k.hasPort port
  | .ack port _ => k.hasPort port
  | .nak port _ => k.hasPort port
  | .credit port _ => k.hasPort port
  | .probe port _ => k.hasPort port
  | .probeReply port _ => k.hasPort port
  | .admin port _ => k.hasPort port
  | .droppedFrame port _ => k.hasPort port
  | .retransmit _ _ port => k.hasPort port
  | .ackTimer _ _ port => k.hasPort port
  | .creditGrant _ _ port => k.hasPort port
  | .lnkUpFall port => k.hasPort port
  | .lnkUpRise port => k.hasPort port
  | .budArm tile _ => k.hasTile tile
  | .budFreeze tile _ _ => k.hasTile tile
  | .budResume tile _ => k.hasTile tile
  | .budDisarm tile _ => k.hasTile tile
  | .budRelease tile _ => k.hasTile tile
  | .budScrub tile _ => k.hasTile tile
  | .budBeat tile _ => k.hasTile tile
  | .tileWrite tile _ _ => k.hasTile tile
  | .budDrainRead tile _ => k.hasTile tile
  | .budForcedDrain tile _ => k.hasTile tile
  | .budCfgDone tile _ _ => k.hasTile tile
  | .tileConfigReload tile => k.hasTile tile
  | .stemLineAccept tile _ _ => k.hasTile tile
  | .stemAck tile _ => k.hasTile tile
  | .grdCheck client _ _ => k.hasClient client
  | .memReadResponse channel _ _ _ _ => k.hasChannel channel
  | .memWriteResponse channel _ _ => k.hasChannel channel
  | .bankRetire bank => decide (bank < 272)
  | .beatLock gaps => gaps.length == 16
  | .cut _ => true
  | .drain _ => true
  | .restore _ _ _ => true
  | .restoreEntryStart _ => true
  | .spill _ => true
  | .refill _ => true
  | .recipeLoad _ _ => true
  | .unload _ => true
  | .bind _ _ => true
  | .unbind _ => true
  | .keyBindAdmit _ _ => true
  | .keyBindRelease _ => true
  | .keyBindSpdm _ _ => true
  | .scrub _ _ => true
  | .telemetry _ => true
  | .guardAdd _ _ => true
  | .guardRemove _ => true
  | .ringCreate _ => true
  | .adminSend _ => true
  | .jobFenceRelease _ => true
  | .phaseRetry _ _ => true
  | .completionRetry _ => true
  | .haltNotice _ => true
  | .planCompletion _ => true
  | .sqTailDb _ _ _ => true
  | .cqHeadDb _ _ => true
  | .vqInDb _ _ _ => true
  | .vqOutDb _ _ => true
  | .xferRdySend _ _ => true
  | .exchangeTimeout _ _ => true
  | .vqReset _ => true
  | .vqResetDone _ => true
  | .sessionOpen _ _ => true
  | .openRetry _ _ => true
  | .sessionRekey _ _ => true
  | .probeSend _ _ => true
  | .peerLost _ _ => true
  | .sysStep _ => true
  | .freezeAckTimeout => true
  | .streamChunkIssue _ => true
  | .streamFenceRelease _ => true
  | .streamCtrlResume _ => true
  | .partitionLineFree _ => true
  | .bodyWriteComplete _ => true
  | .wearRotate => true
  | .remapSwitch => true
  | .errorWindowEnd => true
  | .calibrationPass _ _ => true
  | .tableReady _ => true
  | .codecChunkStart _ _ _ => true
  | .beatEdge _ => true
  | .beatEdgeClamped _ _ => true
  | .beatFreeRun => true
  | .throttleFall => true
  | .sysPreemptNFall => true
  | .planCutArm => true
  | .preemptDeadline => true
  | .heartbeat _ => true
  | .stewardLost => true
  | .standbyLost => true
  | .stewardClaim _ _ => true
  | .handover _ => true
  | .handoverTakeEffect => true
  | .ctrlMemUe _ => true
  | .standbyReady => true
  | .standbyResyncTimeout => true
  | .fwActivateTimeout => true
  | .fwSoakEnd => true
  | .enterRecovery => true
  | .foxAck _ => true
  | .spareCtrl _ => true
  | .frontMarch _ => true
  | .pipelineKat _ => true
  | .stemLoop _ => true
  | .selfTestEnd _ => true
  | .commit _ _ => true
  | .discard _ => true
  | .sysCommitIn _ => true
  | .heldStrobeCommit => true
  | .registerWrite _ _ => true
  | .bitAliasWrite _ _ => true
  | .cfgCrcPassEnd => true
  | .pwrReqChange _ => true
  | .powerEntry => true
  | .powerStateEntered => true
  | .powerExitComplete => true
  | .rstColdN => true
  | .rstFnN _ => true
  | .sysReadyRise => true
  | .noiseStartupDone => true
  | .noiseTestFail => true
  | .genIdentity _ _ => true
  | .readPublic _ _ => true
  | .certWord _ _ => true
  | .lockCert _ _ => true
  | .fwKeyWord _ _ => true
  | .fuseFwKey _ _ => true
  | .status _ _ => true
  | .cfgAccess _ => true
  | .scanTest => true
  | .idcode => true
  | .setKey _ _ _ _ => true
  | .clearKey _ _ => true
  | .setPolicy _ _ => true
  | .getState _ => true
  | .getVersion _ => true
  | .getCapabilities _ => true
  | .negotiateAlgorithms _ => true
  | .getDigests _ => true
  | .getCertificate _ _ _ _ => true
  | .challenge _ _ => true
  | .getMeasurements _ _ _ _ => true
  | .keyExchange _ _ => true
  | .finish _ _ _ => true
  | .keyUpdate _ => true
  | .endSession _ => true
  | .vendorDefinedRequest _ _ _ => true
  | .ctrlMemCe => true
  | .foxParity => true
  | .noiseHealthy => true

end Sys2Proof
end

