-- ==== Sys2Proof/Machine/Vault.lean ====
section
/-!
DEFINITION. The commands of the vault (12_vault): doorbells of host queues, the vault commands as a target serves them, the
packets of an exchange on either side, queue resets; firmware download and commit.
-/

namespace Sys2Proof.Machine

/-! ### The IN window -/

/-- The tag of a header line that could not be read: a free value (log 3). -/
def Engine.freeTag8 (e : Engine) : BitVec 8 := e.freeWord.setWidth 8

/-- A framing failure of the IN window (R265, R286): `n` lines consumed, and a RESP with REFUSED. -/
def Engine.failPacket (k : Kit) (r : Regs) (q n : Nat) (code : Code) (h : VaultHdr) (e : Engine) : Engine :=
  let v := e.vq q
  let e := e.setVq q { v.advanceBy (r.inSize q) n with chain := [] }
  (e.bump Ctr.cmdsFailed 1).sendPacket k r q none (respHdr h.tag h.opcode (h.flags % 4) h.offset 0 true code) []

/-- The packet under way has all of its lines. -/
def VQueue.finishPacket (v : VQueue) : VQueue :=
  match v.chain with
  | [] => v
  | d :: ls => { v with chain := [], packets := v.packets ++ [{ hdr := lineHdr d, payload := ls.map fun x => { data := x, poison := false }, rsv := lineRsv d }] }

/-- The header line of a packet (R263, R265, R286). The Bool says whether framing goes on; a failure waits for an OUT line. -/
def Engine.frameHeader (k : Kit) (r : Regs) (q : Nat) (x : LineRead) (e : Engine) : Engine × Bool :=
  let v := { e.vq q with chain := [], phaseWait := none }
  let size := r.inSize q
  let room := e.drives && decide (0 < e.outFree r q)
  match x with
  | .ok d =>
    let h := vaultHdrOf (lineHdr d)
    let n := lineCount d
    if d.getLsbD 0 ≠ v.inPhase then (e.setVq q { v with chain := [d], phaseWait := some 0, phaseBeat := e.beat.num }, false)
    else if 64 < n then
      if room then ((e.setVq q v).failPacket k r q 1 0x12 h, true) else (e.setVq q { v with outWait := true }, false)
    else if (v.inTail + size - v.inFetch) % size < 1 + n then (e.setVq q v, false)
    else
      let v := { v.advance size with chain := [d] }
      (e.setVq q (if n = 0 then v.finishPacket else v), true)
  | .memError =>
    if room then (((e.setVq q v).drawn).failPacket k r q 1 0x27 (mkHdr 0 e.freeTag8 0 0 0 0 0), true)
    else (e.setVq q { v with outWait := true }, false)
  | .poison =>
    if room then (((e.setVq q v).drawn).failPacket k r q 1 0x21 (mkHdr 0 e.freeTag8 0 0 0 0 0), true)
    else (e.setVq q { v with outWait := true }, false)

/-- A payload line of a packet (R265, R286). -/
def Engine.framePayload (k : Kit) (r : Regs) (q : Nat) (x : LineRead) (e : Engine) : Engine × Bool :=
  let v := e.vq q
  let size := r.inSize q
  let d0 := v.chain.headD 0
  let total := 1 + lineCount d0
  let fail (code : Code) : Engine × Bool :=
    if e.drives ∧ 0 < e.outFree r q then (e.failPacket k r q (total - v.chain.length) code (vaultHdrOf (lineHdr d0)), true)
    else (e.setVq q { v with outWait := true }, false)
  match x with
  | .ok d =>
    let v := { v.advance size with chain := v.chain ++ [d] }
    (e.setVq q (if v.chain.length = total then v.finishPacket else v), true)
  | .memError => fail 0x27
  | .poison => fail 0x21

/-- Lines of the IN window read from the fetch position, until framing stops (R262, R286). What has been read when a failure waits for an
OUT line is kept. -/
def Engine.frameIn (k : Kit) (r : Regs) (q : Nat) : List LineRead → Engine → Engine
  | [], e => e
  | x :: xs, e =>
    let v := e.vq q
    if v.inFetch = v.inTail then e
    else
      let p := if v.chain.isEmpty || v.phaseWait.isSome then e.frameHeader k r q x else e.framePayload k r q x
      if p.2 then Engine.frameIn k r q xs p.1
      else if (p.1.vq q).outWait then p.1.setVq q { p.1.vq q with unread := x :: xs } else p.1

/-- Framing goes on with the lines that were kept. -/
def Engine.resumeIn (k : Kit) (r : Regs) (q : Nat) (e : Engine) : Engine :=
  let v := e.vq q
  e.when (!v.unread.isEmpty) fun e => (e.setVq q { v with unread := [], outWait := false }).frameIn k r q v.unread

/-- A doorbell write of host queue `q` that is ignored (R261, R267, R286). -/
def Engine.badDoorbell (k : Kit) (r : Regs) (q : Nat) (e : Engine) : Engine :=
  (e.bump Ctr.badDoorbells 1).raise k r 0x2C (r.queueConcerned q)

/-- A write of the IN_TAIL doorbell of queue `q` (R286, R369). While the next line waits on its PHASE, it is read again at beat edges only
(R263). -/
def Engine.vqIn (k : Kit) (r : Regs) (q : Nat) (value : Word) (lines : List LineRead) (e : Engine) : Engine :=
  let v := e.vq q
  let size := r.inSize q
  let t := value.toNat
  let h := e.inHead r q
  if !r.vqActive q || decide (size ≤ t) || decide ((t + size - h) % size < (v.inTail + size - h) % size) then e.badDoorbell k r q
  else
    let e := (e.setVq q { v with inTail := t }).wake
    if v.phaseWait.isSome then e else (e.setVq q { e.vq q with unread := [] }).frameIn k r q lines

/-- VQ_IN_DB (R261, R286, R369). The lines are what the reads from the fetch position return. -/
def execVqInDb (queue : BitVec 4) (value : Word) (lines : List LineRead) (s : State) : Out :=
  s.effCfg fun k r e => e.vqIn k r queue.toNat value lines

/-- An IN window that waits on PHASE, at a beat edge (R263, R265, R286): the lines are read again from the fetch position; the 16th re-read
that finds the wrong PHASE fails the packet. A window that does not wait on PHASE is read on from where it stands (R32). -/
def Engine.phaseQueue (k : Kit) (r : Regs) (q : Nat) (lines : List LineRead) (e : Engine) : Engine :=
  let v := e.vq q
  match lines, v.phaseWait with
  | x :: _, some n =>
    if v.phaseBeat = e.beat.num then e
    else
      let e := e.bump Ctr.phaseRetries 1
      let bad : Option LineData := match x with
        | .ok d => if d.getLsbD 0 ≠ v.inPhase then some d else none
        | _ => none
      match bad with
      | none => (e.setVq q { v with chain := [], phaseWait := none }).frameIn k r q lines
      | some d =>
        if n + 1 < 16 then e.setVq q { v with chain := [d], phaseWait := some (n + 1), phaseBeat := e.beat.num }
        else if e.drives ∧ 0 < e.outFree r q then (e.setVq q { v with phaseWait := none }).failPacket k r q 1 0x12 (vaultHdrOf (lineHdr d))
        else e.setVq q { v with outWait := true, phaseBeat := e.beat.num }
  | _ :: _, none => if r.vqActive q && v.unread.isEmpty then e.frameIn k r q lines else e
  | [], _ => e

/-- A write of the OUT_HEAD doorbell of queue `q` (R287). -/
def Engine.vqOut (k : Kit) (r : Regs) (q : Nat) (value : Word) (e : Engine) : Engine :=
  let v := e.vq q
  let size := r.outSize q
  let t := value.toNat
  if !r.vqActive q || decide (size ≤ t) || decide (e.outUnreleased r q < (t + size - v.outHead) % size) then e.badDoorbell k r q
  else ((e.setVq q { v with outHead := t }).pumpOut k r q).resumeIn k r q

/-- VQ_OUT_DB (R267, R287). -/
def execVqOutDb (queue : BitVec 4) (value : Word) (s : State) : Out := s.effCfg fun k r e => e.vqOut k r queue.toNat value

/-! ### Commands as the target serves them -/

/-- The opcode of a CMD is this one. -/
def isOp (op : Nat) (h : VaultHdr) : Bool := h.opcode == op

/-- WRITE (R289, R290): in flight; XFER_RDY_SEND reserves its lines. -/
def execWrite (src : VaultSrc) (s : State) : Out :=
  s.needs (src.wf s.kit) fun s => s.eff fun k r e => e.command k r src (isOp opWrite) {} fun _ _ _ e => e

/-- What the lines of a READ give, one after another, until a read error (R298): lines, the first poisoned offset, the error. -/
def Engine.readAll (k : Kit) (r : Regs) (sp : Space) (window : List LineRead) :
    List (Nat × Nat) → Engine → List MemBeat × Option Nat × Option (Nat × Code) × Engine
  | [], e => ([], none, none, e)
  | (i, n) :: rest, e =>
    let x := e.readLine k r sp i n window
    if x.2.1 ≠ 0 then ([], none, some (64 * n, x.2.1), x.2.2)
    else
      let p := Engine.readAll k r sp window rest x.2.2
      (x.1 :: p.1, if x.1.poison then some (64 * n) else p.2.1, p.2.2.1, p.2.2.2)

/-- A READ in flight carried out (R298). -/
def Engine.serveRead (k : Kit) (r : Regs) (q : Nat) (c : VCmd) (window : List LineRead) (e : Engine) : Engine :=
  let ns := lineRange c.offset c.len
  let p := e.readAll k r (spaceOf r c.tenant c.session) window (ns.mapIdx fun i n => (i, n))
  let e := p.2.2.2
  match p.2.2.1, p.2.1 with
  | some (off, code), _ => e.finishCmd k r q c p.1 code off
  | none, some off => e.finishCmd k r q c p.1 0x21 off
  | none, none => e.finishCmd k r q c p.1 0 c.len

/-- READ (R298). `upsets` are the stored bits upset since the last beat edge (R109), which it may meet. -/
def execRead (src : VaultSrc) (window : List LineRead) (upsets : Upsets) (s : State) : Out :=
  s.needs (src.wf s.kit) fun s => s.eff fun k r e => (e.strike upsets).command k r src (isOp opRead) { window := window } fun q c _ e => e.serveRead k r q c window

/-- FLUSH (R300, R302). -/
def execFlush (src : VaultSrc) (s : State) : Out :=
  s.needs (src.wf s.kit) fun s => s.eff fun k r e => e.command k r src (isOp opFlush) {} fun q c _ e => e.beginFlush k r q c none

/-- A VERIFY in flight begins (R301): its parameter line holds the digest expected. -/
def Engine.serveVerify (k : Kit) (r : Regs) (q : Nat) (c : VCmd) (payload : List MemBeat) (reads : CmdReads) (e : Engine) : Engine :=
  let digest : BitVec 256 := match payload with
    | b :: _ => b.data.setWidth 256
    | [] => 0
  e.beginFlush k r q c (some { expected := digest, reads := reads })

/-- VERIFY (R301, R331). -/
def execVerify (src : VaultSrc) (window : List LineRead) (faults : List CoreFault) (s : State) : Out :=
  let reads : CmdReads := { window := window, faults := faults }
  s.needs (src.wf s.kit) fun s => s.eff fun k r e => e.command k r src (isOp opVerify) reads fun q c payload e =>
    e.serveVerify k r q c payload reads

/-- The image bytes of a firmware slot. -/
def Body.fwSlot (b : Bool) (x : Body) : List Byte := if b then x.slot1 else x.slot0

/-- SHA3-384 of the image in a firmware slot, as 48 bytes (R321). -/
def Body.measurement (b : Bool) (x : Body) : List Byte := natLE 48 (sha3_384 (x.fwSlot b)).toNat

/-- ENGINE_ID (R1). -/
def engineId : Nat := 0x4F500102

/-- IDENTIFY data (R294). -/
def Engine.identifyData (r : Regs) (q : Nat) (c : VCmd) (e : Engine) : List Byte :=
  natLE 4 engineId ++ natLE 2 r.self ++ natLE 1 q ++ natLE 1 c.tenant.toNat ++ natLE 8 ((spaceOf r c.tenant c.session).bytes r) ++
    natLE 4 262144 ++ [0x01, 0x00] ++ natLE 2 0x03FF ++ e.body.measurement e.body.activeSlot ++ zeroBytes 184

/-- Bytes as payload lines. -/
def plainBeats (bs : List Byte) : List MemBeat := (toLines bs).map fun d => { data := d, poison := false }

/-- An IDENTIFY in flight carried out (R294). -/
def Engine.serveIdentify (k : Kit) (r : Regs) (q : Nat) (c : VCmd) (e : Engine) : Engine :=
  e.finishCmd k r q c (plainBeats (e.identifyData r q c)) 0 256

/-- IDENTIFY. -/
def execIdentify (src : VaultSrc) (s : State) : Out :=
  s.needs (src.wf s.kit) fun s => s.eff fun k r e => e.command k r src (isOp opIdentify) {} fun q c _ e => e.serveIdentify k r q c

/-- The CMDs that frames have brought to a queue while no steward was granted start, in the order they came (R354). Only commands for every
queue can be accepted there (R294). -/
def Engine.startHeld (k : Kit) (r : Regs) (q : Nat) (e : Engine) : Engine :=
  let held := (e.vq q).held
  let e := e.when (!held.isEmpty) fun e => e.setVq q { e.vq q with held := [] }
  e.forEach held fun x e =>
    e.acceptCmd k r q (BitVec.ofNat 4 (x.session / 16)) (some x.session) (vaultHdrOf x.hdr) false x.payload fun c e =>
      if c.opcode = opRead then e.serveRead k r q c x.reads.window
      else if c.opcode = opFlush then e.beginFlush k r q c none
      else if c.opcode = opVerify then e.serveVerify k r q c x.payload x.reads
      else if c.opcode = opIdentify then e.serveIdentify k r q c
      else e

/-- Those of every link queue, once a steward is granted. -/
def Engine.startAllHeld (k : Kit) (r : Regs) (e : Engine) : Engine :=
  e.when e.mayServe fun e => e.forEach e.vault.queues fun x e => e.startHeld k r x.1

/-- What of a host queue a new steward fetches again (R32): the packets that have been read and not taken, and what is being read. -/
def VQueue.refetch (size : Nat) (v : VQueue) : VQueue :=
  let back := (v.packets.map fun p => 1 + p.payload.length).sum + (if v.phaseWait.isNone then v.chain.length else 0)
  { v with inFetch := (v.inFetch + size - back % size) % size, inPhase := if v.inFetch < back then !v.inPhase else v.inPhase
           chain := [], packets := [], unread := [], phaseWait := none, outWait := false }

/-- The scheduler state that the standby copies at an edge (R31). -/
def Engine.schedule (e : Engine) : Mirror :=
  { turn := e.rings.turn, weight := e.rings.weight, streamTurn := e.streams.turn, creditTurn := e.pollen.creditTurn, arbs := e.vault.arbs }

/-- A new steward goes on from the scheduler state of the last edge, and fetches again what had been fetched and not started (R32). Jobs in
flight go on from where the hardware stands. -/
def Engine.resumeFrom (r : Regs) (m : Mirror) (e : Engine) : Engine :=
  let rings : Tab Ring := e.rings.rings.map fun (x : Nat × Ring) => (x.1, if r.ringActive x.1 then x.2.refetch (r.sqSize x.1) else x.2)
  let queues : Tab VQueue := e.vault.queues.map fun (x : Nat × VQueue) =>
    (x.1, if isHost x.1 && r.vqActive x.1 then x.2.refetch (r.inSize x.1) else x.2)
  { e with rings := { e.rings with rings := rings, turn := m.turn, weight := m.weight }
           streams := { e.streams with turn := m.streamTurn }
           pollen := { e.pollen with creditTurn := m.creditTurn }
           vault := { e.vault with queues := queues, arbs := m.arbs } }

/-- What waited for a steward goes on (R30, R354): completions, the ways out of the queues, the commands of link queues. -/
def Engine.resumeHost (k : Kit) (r : Regs) (e : Engine) : Engine :=
  let e := e.forEach e.rings.rings fun x e => e.issueCq k r x.1
  let e := e.forEach e.vault.queues fun x e => (e.pumpOut k r x.1).resumeIn k r x.1
  e.startAllHeld k r

/-- An entry of the DEFERRED page (R303). -/
def Deferred.bytes (d : Deferred) : List Byte :=
  natLE 8 d.stamp.toNat ++ natLE 1 d.queue ++ [d.code] ++ zeroBytes 6 ++ natLE 8 d.offset ++ zeroBytes 8

/-- A log page (R303). -/
def Engine.logPage (t page : Nat) (e : Engine) : List Byte :=
  let v := e.vtenant t
  if page = 1 then fillTo 1024 v.errors.flatten
  else if page = 2 then
    fillTo 1024 (natLE 4 (v.deferred.length + 2 ^ 31 * b2n v.overflow) ++ zeroBytes 28 ++ v.deferred.flatMap Deferred.bytes)
  else
    fillTo 256 (natLE 1 (b2n e.body.activeSlot) ++ natLE 1 (b2n e.body.nextSlot) ++ zeroBytes 6 ++ e.body.measurement false ++
      e.body.measurement true ++ natLE 4 e.vault.staging.length)

/-- GET_LOG (R303): CLEAR removes the entries that it returns, once it has returned them. -/
def execGetLog (src : VaultSrc) (s : State) : Out :=
  s.needs (src.wf s.kit) fun s => s.eff fun k r e => e.command k r src (isOp opGetLog) {} fun q c _ e =>
    let t := c.tenant.toNat
    let page := bits 7 0 c.arg
    let c' := { c with clear := if page = 2 ∧ bitOf 8 c.arg then (e.vtenant t).deferred else [] }
    e.finishCmd k r q c' (plainBeats (e.logPage t page)) 0 (pageSize page)

/-- GET_FEATURE (R304). -/
def execGetFeature (src : VaultSrc) (s : State) : Out :=
  s.needs (src.wf s.kit) fun s => s.eff fun k r e => e.command k r src (isOp opGetFeature) {} fun q c _ e =>
    let v := e.vtenant c.tenant.toNat
    e.finishCmd k r q c [] 0 (if c.arg = 1 then v.arb.toNat else v.wcache.toNat)

/-- SET_FEATURE (R304). -/
def execSetFeature (src : VaultSrc) (s : State) : Out :=
  s.needs (src.wf s.kit) fun s => s.eff fun k r e => e.command k r src (isOp opSetFeature) {} fun q c _ e =>
    let t := c.tenant.toNat
    let v := e.vtenant t
    let x := BitVec.ofNat 32 (bits 63 32 c.arg)
    let v := if bits 7 0 c.arg = 1 then { v with arb := x } else { v with wcache := x }
    (e.setVtenant t v).finishCmd k r q c [] 0 0

/-- FW_DOWNLOAD (R305): the exchange of a WRITE. -/
def execFwDownload (src : VaultSrc) (s : State) : Out :=
  s.needs (src.wf s.kit) fun s => s.eff fun k r e => e.command k r src (isOp opFwDownload) {} fun _ _ _ e => e

/-! ### Firmware commit -/

/-- The image that the staging buffer holds (R342): header and PAYLOAD_LEN bytes. -/
def stagedImage (bs : List Byte) : List Byte := bs.take (256 + leAt 4 4 bs)

/-- The authentication of an image (R342). -/
def Engine.authentic (bs : List Byte) (e : Engine) : Bool :=
  let len := 256 + leAt 4 4 bs
  let img := bs.take len
  decide (256 ≤ bs.length) && decide (len ≤ bs.length) && decide (len ≤ stagingBytes) && leAt 0 4 img == 0x57464852 &&
    e.keys.fwDigest == some (sha3_384 (slice 16 96 img)) &&
    ecdsaVerify (BitVec.ofNat 768 (leAt 16 96 img)) (sha3_384 (img.take 112 ++ img.drop 256)) (BitVec.ofNat 384 (leAt 112 48 img))
      (BitVec.ofNat 384 (leAt 160 48 img)) &&
    decide (e.body.minSvn.toNat ≤ leAt 8 4 img)

/-- An image written to a firmware slot. -/
def Body.setFwSlot (b : Bool) (img : List Byte) (x : Body) : Body := if b then { x with slot1 := img } else { x with slot0 := img }

/-- FW_COMMIT completes: the staging buffer is emptied (R305). -/
def Engine.endFwCommit (k : Kit) (r : Regs) (q : Nat) (c : VCmd) (code : Code) (e : Engine) : Engine :=
  ({ e with vault := { e.vault with staging := [] } }).finishCmd k r q c [] code 0

/-- The store of FW_COMMIT (R306): 0x46 without authentication; a slot that does not verify stores nothing to be used, 0x26. -/
def Engine.fwCommit (k : Kit) (r : Regs) (q : Nat) (c : VCmd) (o : StoreOutcome) (go : List Byte → Engine → Engine) (e : Engine) : Engine :=
  if !e.authentic e.vault.staging then e.endFwCommit k r q c 0x46
  else
    let img := stagedImage e.vault.staging
    let slot := !e.body.activeSlot
    let b := e.body.setFwSlot slot img
    if o.verified then go img { e with body := { b with nextSlot := slot } } else ({ e with body := b }).endFwCommit k r q c 0x26

/-- STORE (R306). -/
def execStore (src : VaultSrc) (outcome : StoreOutcome) (s : State) : Out :=
  s.needs (src.wf s.kit) fun s => s.eff fun k r e =>
    e.command k r src (fun h => h.opcode == opFwCommit && h.arg != 2) {} fun q c _ e =>
      e.fwCommit k r q c outcome fun _ e => e.endFwCommit k r q c 0

/-- STORE_ACTIVATE (R306, R359): step 1; its RESP follows the handover. -/
def execStoreActivate (src : VaultSrc) (outcome : StoreOutcome) (s : State) : Out :=
  s.needs (src.wf s.kit) fun s => s.eff fun k r e =>
    e.command k r src (fun h => h.opcode == opFwCommit && h.arg != 1) {} fun q c _ e =>
      e.fwCommit k r q c outcome fun img e =>
        { e with referee := { e.referee with fw := .restarting 0, fwTag := c.tag, fwSvn := BitVec.ofNat 32 (leAt 8 4 img),
                                             standbyReady := false, resync := none } }

/-! ### Packets of an exchange -/

/-- VAULT lines of a tenant that are in use or reserved (R337). -/
def Engine.vaultUsed (t : TenantNo) (e : Engine) : Nat :=
  (e.front.lines.filter fun l => l.part == .vault && l.line.tenant == t).length +
    (e.vault.queues.map fun x => ((x.2.cmds.filter fun c => c.tenant == t).map VCmd.reservedLines).sum).sum

/-- The VAULT partition can hold `n` more lines of a tenant (R111, R290, R337). -/
def Engine.vaultRoom (r : Regs) (t : TenantNo) (n : Nat) (e : Engine) : Bool :=
  let all := ((List.range 16).map fun u => r.tshareBulb u).sum
  e.front.room .vault n &&
    (!e.beat.sealed || decide (e.vaultUsed t + n ≤ Part.size .vault * r.tshareBulb t.toNat / all))

/-- The commands of a tenant that wait for lines of VAULT: of each queue the first, since commands of one queue start in arrival order
(R292). -/
def Engine.waitingWrites (t : TenantNo) (e : Engine) : List Candidate :=
  e.vault.queues.filterMap fun x =>
    (x.2.cmds.find? fun c => c.tenant == t && movesIn c.opcode && !c.ready && c.answer.isNone).map fun c => e.candidate x.1 c

/-- XFER_RDY_SEND (R290, R292, R307): the command that the classes of its tenant choose is given its reservation, when that fits. -/
def execXferRdySend (queue : BitVec 6) (tag : BitVec 8) (s : State) : Out :=
  s.eff fun k r e =>
    let q := queue.toNat
    match (e.vq q).cmds.find? fun c => c.tag == tag && movesIn c.opcode && !c.ready && c.answer.isNone with
    | none => e
    | some c =>
      match e.chooseCmd (arbVault c.tenant.toNat) c.tenant (e.waitingWrites c.tenant) with
      | none => e
      | some (x, chosen) =>
        if x.queue ≠ q ∨ x.cmd.tag ≠ tag ∨ !e.vaultRoom r c.tenant (c.len / 64) ∨ !e.sessionLive q c then e
        else
          let e := (chosen.onCmds q fun cs => updFirst (fun x => x.tag == tag) (fun x => { x with ready := true }) cs).onFront
            fun f => { f with reserved := f.reserved + c.len / 64 }
          e.sendPacket k r q c.session (mkHdr ptXferRdy tag c.opcode c.prio c.len c.offset 0) []

/-- Bytes put into the staging buffer (R305). -/
def putStaging (off : Nat) (bs old : List Byte) : List Byte :=
  (old ++ zeroBytes (off - old.length)).take off ++ bs ++ old.drop (off + bs.length)

/-- The last DATA packet of a command has been accepted (R292, R305). -/
def Engine.dataDone (k : Kit) (r : Regs) (q : Nat) (c : VCmd) (e : Engine) : Engine :=
  if c.opcode = opWrite then e.applyWrite k r q c
  else
    let bs := bytesOfLines (c.staged.map fun b => b.data)
    ({ e with vault := { e.vault with staging := putStaging c.offset bs e.vault.staging } }).finishCmd k r q c [] 0 c.len

/-- A packet that is no CMD, for the target of a command (R291). `mine` says which commands the sender may mean. -/
def Engine.targetPacket (k : Kit) (r : Regs) (q : Nat) (mine : VCmd → Bool) (h : VaultHdr) (payload : List MemBeat) (e : Engine) : Engine :=
  match (e.vq q).cmds.find? fun c => c.tag == h.tag && mine c with
  | none => e.bump Ctr.seqErrors 1
  | some c =>
    let got := c.staged.length + payload.length
    let done := 64 * got == c.len
    if c.answer.isSome then e.bump Ctr.seqErrors 1
    else if h.type ≠ ptData ∨ !c.ready ∨ c.waiting ∨ payload.isEmpty ∨ h.offset ≠ c.offset + 64 * c.staged.length ∨
        c.len < 64 * got ∨ h.last ≠ done then
      (e.bump Ctr.seqErrors 1).finishCmd k r q c [] 0x19 0
    else
      let c := { c with staged := c.staged ++ payload, age := 0 }
      let e := e.onCmds q fun cs => updFirst (fun x => x.tag == h.tag) (fun _ => c) cs
      if done then e.dataDone k r q c else e

/-- DATA (R291, R292), with every packet of no other row that a target receives. -/
def execData (src : VaultSrc) (s : State) : Out :=
  s.needs (src.wf s.kit) fun s => s.eff fun k r e =>
    match src with
    | .host queue =>
      let q := queue.toNat
      e.takePacket r q (fun h => h.type != ptCmd) fun h p e => e.targetPacket k r q (fun _ => true) h p.payload
    | .link port f =>
      e.takeFrame k r port f (fun h => h.type != ptCmd && h.type != ptXferRdy && h.type != ptResp) fun t i h e =>
        e.targetPacket k r (16 + port) (fun c => c.session == some (16 * t + i)) h f.beats

/-- The exchange of this engine that a packet answers. -/
def Engine.xchgOf (t i port : Nat) (tag : BitVec 8) (e : Engine) : Option Xchg :=
  e.pollen.xchgs.find? fun x => x.tenant == t && x.slot == i && x.port == port && x.tag == tag

/-- A packet of a frame that answers no exchange of this engine: it is meant for the target of a command with its tag, if the session has
one in flight (R291). -/
def Engine.strayPacket (k : Kit) (r : Regs) (port t i : Nat) (h : VaultHdr) (f : Frame) (e : Engine) : Engine :=
  e.targetPacket k r (16 + port) (fun c => c.session == some (16 * t + i)) h f.beats

/-- XFER_RDY (R289): the DATA packets that cover LEN go out, each line with its poison mark (R203); its front lines are read for them (R119,
R120, R123). A cut that has ended sends nothing more (log 83). -/
def execXferRdy (port : Nat) (frame : Frame) (s : State) : Out :=
  s.needs (s.kit.hasPort port) fun s => s.eff fun k r e =>
    e.takeFrame k r port frame (fun h => h.type == ptXferRdy) fun t i h e =>
      match e.xchgOf t i port h.tag, e.cut.run with
      | some x, some run =>
        if x.dataSent then e.bump Ctr.seqErrors 1
        else match x.use with
          | .cut op =>
            let xs : List Xchg := updFirst (fun y => y == x) (fun y => { y with dataSent := true }) e.pollen.xchgs
            let y : Code × Engine := ({ e with pollen := { e.pollen with xchgs := xs } }).readOp k r run op
            let packets := dataPacketsOf x.tag opWrite (e.buddyFlags run.tenant op % 4) (e.windowOff run i op) (run.opBeats op)
            if y.1 = 0 then y.2.forEach packets fun p e => e.sendSeq r t i port (vaultFrame p.1.word p.2) else y.2.endCut k r y.1
          | _ => e
      | some _, none => e
      | none, _ => e.strayPacket k r port t i h frame

/-- RESP (R221, R224): the exchange is over. -/
def execResp (port : Nat) (frame : Frame) (s : State) : Out :=
  s.needs (s.kit.hasPort port) fun s => s.eff fun k r e =>
    e.takeFrame k r port frame (fun h => h.type == ptResp) fun t i h e =>
      match e.xchgOf t i port h.tag with
      | none => e.strayPacket k r port t i h frame
      | some x =>
        let e := { e with pollen := { e.pollen with xchgs := e.pollen.xchgs.filter fun y => y != x } }
        match x.use with
        | .cut op => if h.code = 0 then e.ackOp k r (.peer i) op else e.endCut k r 0x35
        | .closing id code plan result => e.closingAnswered k r id code plan result
        | .over => e

/-- EXCHANGE_TIMEOUT (R293). -/
def execExchangeTimeout (queue : BitVec 6) (tag : BitVec 8) (s : State) : Out :=
  s.eff fun k r e =>
    let q := queue.toNat
    match (e.vq q).cmds.find? fun c => c.tag == tag && c.session.isSome with
    | none => e
    | some c =>
      if c.age < 4 * r.probeInterval then e
      else (e.bump Ctr.xchgTimeouts 1).abortCmd k r q c 0x60 (e.sessionLive q c)

/-! ### Queue reset -/

/-- A write of VQ_RESET (R309). -/
def Engine.vqResetWrite (k : Kit) (r : Regs) (value : Word) (e : Engine) : Regs × Engine :=
  let q := value.toNat % 64
  if !value.getLsbD 31 ∨ bits 30 6 value.toNat ≠ 0 ∨ 16 + k.linkPorts ≤ q ∨ (e.vq q).resetting then (r, e)
  else
    let e := (e.abortCmds k r q (fun _ => true) (fun c => !isHost q && e.sessionLive q c) 0x60).bump Ctr.queueResets 1
    if isHost q then
      let mine (u : MemFor) : Bool := u == MemFor.outPacket q
      let reqs : List MemReq := e.mem.reqs.map fun x => if mine x.use then { x with use := .dropped false } else x
      (r.setBoth (vqOff q + 0x10) (r.word (vqOff q + 0x10) % 2 ^ 31),
       ({ e with mem := { e.mem with reqs := reqs } }).setVq q { VQueue.fresh with resetting := true })
    else (r, e.setVq q { e.vq q with resetting := true })

/-- VQ_RESET (R309). -/
def execVqReset (value : Word) (s : State) : Out :=
  s.effRegs fun k r e =>
    if e.cfgOpen then
      let x := e.vqResetWrite k r value
      (x.1, x.2.emit .cfgDone)
    else (r, e)

/-- VQ_RESET_DONE (R309). -/
def execVqResetDone (queue : BitVec 6) (s : State) : Out :=
  s.eff fun _ _ e => e.setVq queue.toNat { e.vq queue.toNat with resetting := false }

end Sys2Proof.Machine
end

