-- ==== Sys2Proof/Machine/ServiceOps.lean ====
section
/-!
DEFINITION. The referee (14_faults_service): grants, claims, restarts of halves, and the rollback of a firmware update; recovery.
-/

namespace Sys2Proof.Machine

/-! ### Halves -/

def halfOther : Half → Half
  | .north => .south
  | .south => .north

/-- Heartbeat misses of a half. -/
def Referee.miss (h : Half) (x : Referee) : Nat :=
  match h with
  | .north => x.missNorth
  | .south => x.missSouth

def Referee.setMiss (h : Half) (n : Nat) (x : Referee) : Referee :=
  match h with
  | .north => { x with missNorth := n }
  | .south => { x with missSouth := n }

/-- A half has written a heartbeat in the running beat. -/
def Referee.beat (h : Half) (x : Referee) : Bool :=
  match h with
  | .north => x.beatNorth
  | .south => x.beatSouth

def Referee.setBeat (h : Half) (b : Bool) (x : Referee) : Referee :=
  match h with
  | .north => { x with beatNorth := b }
  | .south => { x with beatSouth := b }

/-- An operation on the referee. -/
def Engine.onReferee (f : Referee → Referee) (e : Engine) : Engine := { e with referee := f e.referee }

/-- The half beside the steward restarts and copies the scheduler state (R355). While it restarts for a live update, that restart goes
on. -/
def Referee.restart (x : Referee) : Referee :=
  { x with standbyReady := false, mirror := none, edgeDue := false, resync := match x.fw with | .restarting _ => none | _ => some 0 }

/-- A half granted (R352): STEWARD_EPOCH rises when STEWARD changes or is granted for the first time. -/
def Referee.grant (h : Half) (x : Referee) : Referee :=
  { x with steward := some h, resumed := true, epoch := if x.steward = some h then x.epoch else x.epoch + 1, missNorth := 0, missSouth := 0,
           handover := false, edgeDue := false }

/-- A half granted by the referee: a change of steward empties the firmware staging buffer (R305) and is counted unless it is the first
grant after a cold reset. -/
def Engine.grantTo (h : Half) (e : Engine) : Engine :=
  let changed := e.referee.steward != some h
  let e := (e.onReferee fun x => x.grant h).when (changed && e.referee.epoch != 0) fun e => e.bump Ctr.handovers 1
  e.when changed fun e => { e with vault := { e.vault with staging := [] } }

/-- The roll back of an update in its soak (R360): the old slot is active and next, FW_START is raised, MIN_SVN stays. -/
def Engine.rollback (k : Kit) (r : Regs) (e : Engine) : Engine :=
  match e.referee.fw with
  | .soak _ =>
    let old := !e.body.activeSlot
    let e := { e with body := { e.body with activeSlot := old, nextSlot := old } }
    (e.onReferee fun x => { x with fw := .none }).raise k r 0x05 none
  | _ => e

/-- The steward is gone (R32, R354, R360): the standby is granted if it is ready, and goes on from its copy of the last edge; if not, no half is. `missed` says that missed heartbeats
told it. -/
def Engine.stewardGone (k : Kit) (r : Regs) (missed : Bool) (e : Engine) : Engine :=
  match e.referee.steward with
  | none => e
  | some h =>
    if e.referee.standbyReady then
      let e := match e.referee.mirror with
        | some m => e.resumeFrom r m
        | none => e
      let e := ((e.grantTo (halfOther h)).onReferee Referee.restart).resumeHost k r
      (e.when missed fun e => e.raise k r 0x00 none).rollback k r
    else
      ((e.onReferee fun x => { x.restart with steward := none, handover := false }).raise k r 0x03 none).rollback k r

/-! ### Claims -/

/-- A claim that loses (R352): raised and counted, and its half restarts; a steward that loses is gone (log 43). -/
def Engine.claimLoses (k : Kit) (r : Regs) (h : Half) (e : Engine) : Engine :=
  let e := (e.raise k r 0x01 none).bump Ctr.claimConflicts 1
  if e.referee.steward = some h then e.stewardGone k r false else e.onReferee Referee.restart

/-- The winner of claims that name an issued epoch while no half is granted: the higher epoch, north of equal ones. -/
def claimWinner (cs : List (Half × Word)) : Option Half :=
  (cs.foldl (fun best c =>
    match best with
    | none => some c
    | some b => if b.2.toNat < c.2.toNat ∨ (b.2 = c.2 ∧ c.1 = Half.north) then some c else some b) (none : Option (Half × Word))).map fun c => c.1

/-- A steward granted on a claim: the stored values have been loaded (READY_STATUS, bring-up), the other half resynchronises. -/
def Engine.grantClaim (k : Kit) (r : Regs) (h : Half) (e : Engine) : Engine :=
  let e := (e.grantTo h).onReferee Referee.restart
  ({ e with power := { e.power with bodyLoaded := true } }).resumeHost k r

/-- The claims of the beat just ended settled (R352). -/
def Engine.settleClaims (k : Kit) (r : Regs) (e : Engine) : Engine :=
  let ep := e.referee.epoch
  let cs := e.referee.claims
  let e := e.onReferee fun x => { x with claims := [] }
  let never (c : Half × Word) : Bool := decide (ep.toNat < c.2.toNat)
  let good := cs.filter fun c => !never c
  let e := e.forEach (cs.filter never) fun c e => e.claimLoses k r c.1
  match e.referee.steward with
  | none =>
    match claimWinner good with
    | none => e
    | some h => e.grantClaim k r h
  | some h =>
    let equal := good.contains (h, ep) && good.contains (halfOther h, ep)
    if equal && h == Half.south then e.grantClaim k r .north
    else
      let e := e.forEach (good.filter fun c => c.1 != h) fun c e => e.claimLoses k r c.1
      if good.any fun c => c.1 == h then (e.onReferee fun x => { x with resumed := true }).resumeHost k r else e

/-! ### At an edge -/

/-- The half's heartbeats are expected: the steward's once its firmware runs, the standby's while it is ready (R351; log 44). -/
def Engine.expectsBeat (h : Half) (e : Engine) : Bool :=
  if e.referee.steward = some h then e.referee.resumed && e.power.fwRunning else e.referee.standbyReady

/-- The miss count of a half at an edge (R351). -/
def Engine.countMiss (h : Half) (e : Engine) : Engine :=
  let x := e.referee
  let n := if x.beat h then 0 else if e.expectsBeat h then min 15 (x.miss h + 1) else x.miss h
  { e with referee := (x.setMiss h n).setBeat h false }

/-- The standby's copy taken at an edge, and a handover that is then due (R31, R353). -/
def Engine.mirrorEdge (e : Engine) : Engine :=
  e.onReferee fun x =>
    { x with mirror := if x.standbyReady then some e.schedule else none, edgeDue := x.handover && x.standbyReady }

/-- Beats counted: a resynchronisation, step 1 of an update, a soak. -/
def Referee.tick (x : Referee) : Referee :=
  { x with
    resync := x.resync.map fun n => n + 1
    fw := match x.fw with
      | .restarting n => .restarting (n + 1)
      | .soak n => .soak (n - 1)
      | .none => .none }

/-- RECOVERY at the edge after a FATAL raise (R350, R360). -/
def Engine.enterRecovery (k : Kit) (r : Regs) (e : Engine) : Engine :=
  if e.fox.fatalDue then
    let soaking := match e.referee.fw with | .soak _ => true | _ => false
    let e := { e with fox := { e.fox with recovery := true, fatalDue := false } }
    e.when soaking fun e => e.stewardGone k r false
  else e

/-- The FW_COMMIT that started an update completes on host queue 0, wherever its tag stands (R359, R360). -/
def Engine.endUpdate (k : Kit) (r : Regs) (code : Code) (e : Engine) : Engine :=
  match e.vault.queues.find? fun x => x.2.cmds.any fun c => c.opcode == opFwCommit && c.tag == e.referee.fwTag && isHost x.1 with
  | none => { e with vault := { e.vault with staging := [] } }
  | some x =>
    match x.2.cmds.find? fun c => c.opcode == opFwCommit && c.tag == e.referee.fwTag with
    | none => e
    | some c => e.endFwCommit k r x.1 c code

end Sys2Proof.Machine
end

