-- ==== Sys2Proof/Machine/Cut.lean ====
section
/-!
DEFINITION. The commands of the consistent cut (04_cut): CUT, the step pulse, the buds, the stem roots, the guard, and the
pre-emption plan.
-/

namespace Sys2Proof.Machine

/-! ### CUT -/

/-- Buds that are ABSENT (BUD_ABSENT). -/
def Engine.absent (k : Kit) (e : Engine) : Nat := k.buds - (e.buds.filter fun p => p.2.state != .absent).length

/-- Peer slots of the lists below REPLICAS. -/
def cutPeers (r : Regs) (t : TenantNo) (p : CutParams) : List Nat := (List.range p.replicas).flatMap fun l => r.buddyList t.toNat l

/-- What the window of a peer slot must hold: up to the end of the highest shard it carries, and 0x5000 (R218). -/
def peerNeed (r : Regs) (t : TenantNo) (p : CutParams) (rooms : List Room) (i : Nat) : Nat :=
  let ends (l : Nat) : List Nat :=
    let slots := r.buddyList t.toNat l
    rooms.mapIdx fun n x => if slots[n % slots.length]? = some i then x.off + x.len else 0
  ((List.range p.replicas).flatMap ends).foldl max 0x5000

/-- The conditions that the recipes of a CUT are refused for (R172, R173). -/
def Engine.recipeConds (t : TenantNo) (p : CutParams) (ss : List Source) (e : Engine) : List (Bool × Code) :=
  let set := tabFind p.recipeSet e.recipes.sets
  let lacking := match set with
    | none => true
    | some b => b.entries.any fun x =>
        match x.bind fun n => e.recipe n with
        | some rc => !sealsAndDigests rc.steps
        | none => false
  let foreign := match set with | some b => b.tenant != t | none => false
  [(p.dest != 2 && foreign, 0x40), (p.dest != 2 && lacking, 0x18), (ss.any fun s => (shapeOf s.steps).gatherBad s.lines, 0x13)]

/-- Fields of the entry that the DEST does not use are not zero (R271). -/
def CutParams.unusedSet (p : CutParams) : Bool :=
  (p.dest != 1 && (p.hostBase != 0 || p.hostPages != 0)) || (p.dest != 2 && (p.glxPages != 0 || p.g0 != 0 || p.g1 != 0))

/-- The conditions on what DEST names (R195, R218, R257, R271). -/
def Engine.destConds (r : Regs) (t : TenantNo) (p : CutParams) (rooms : List Room) (glxLen : Nat) (e : Engine) : List (Bool × Code) :=
  let tn := t.toNat
  let glxBytes := 4096 * p.glxPages
  [(p.unusedSet, 0x11),
   (p.dest == 1 && decide (p.hostBase % 4096 ≠ 0), 0x13),
   (p.dest == 1 && !r.inRegions tn p.hostBase (2 * (4096 * p.hostPages)), 0x13),
   (p.dest == 1 && decide (4096 * p.hostPages < slotNeed rooms), 0x57),
   (p.dest == 2 && bitOf 0 (e.tenant tn).policy.toNat, 0x40),
   (p.dest == 2 && (p.replicas != 1 || p.recipeSet != 0), 0x11),
   (p.dest == 2 && (decide (p.g0 % 4096 ≠ 0) || decide (p.g1 % 4096 ≠ 0)), 0x13),
   (p.dest == 2 && (!r.inRegions tn p.g0 glxBytes || !r.inRegions tn p.g1 glxBytes), 0x13),
   (p.dest == 2 && spansMeet (p.g0, glxBytes) (p.g1, glxBytes), 0x11),
   (p.dest == 2 && decide (glxBytes < glxLen), 0x57),
   (p.dest == 0 && ((List.range p.replicas).any fun l => (r.buddyList tn l).isEmpty), 0x11),
   (p.dest == 0 && ((cutPeers r t p).any fun i => (e.sess tn i).state == .keyed && decide (4096 * (e.sess tn i).pages < peerNeed r t p rooms i)), 0x57),
   (p.dest == 0 && ((cutPeers r t p).any fun i => (e.sess tn i).state != .keyed), 0x33)]

/-- The conditions of R71 and R72, but the STEP and the BUSY ones, with what other chapters add to them (R172, R173, R195,
R218, R271). -/
def Engine.cutConds (k : Kit) (r : Regs) (t : TenantNo) (p : CutParams) (e : Engine) : List (Bool × Code) :=
  let tn := t.toNat
  let ss := e.cutSources k t p
  let rooms := (ksfLayout ss).1
  let named := rangesOf p.ranges
  ([(named.any fun n => match e.range n with | some g => g.owner != t | none => false, 0x40),
   (p.dest != 2 && p.dest != 3 && (e.tenant tn).sealKey.isNone, 0x41),
   ((e.kept tn).xtsNext == 0xFFFFFFFF, 0x42),
   (named.any fun n => (e.range n).isNone, 0x11),
   (p.replicas == 0 || p.dest == 3, 0x11),
   (ss.any fun s => match s.kind with
      | .range _ => s.coords.any fun c => decide ((shapeOf s.steps).units s.lines < c.unitStart.toNat + c.unitCount.toNat)
      | _ => false, 0x12),
   (!e.power.sysReady || decide (0 < e.absent k), 0x1A),
   (p.dest != 2 && r.bodyMode tn == 2 && decide (64 * r.slotLines tn < slotNeed rooms), 0x57)] : List (Bool × Code)) ++
    e.destConds r t p rooms (glaraxLayout ss).2 ++ e.recipeConds t p ss

/-- A cut armed (R73, R105, R327): ARM, the XTS epoch, S; PREV_EPOCH is the epoch of the last committed slot (R185). While a plan's own cut
waits for its pulse, CUT_STEP reads the STEP of the template (DESIGN CHOICE, log 91). -/
def Engine.armCut (t : TenantNo) (p : CutParams) (job : Option JobId) (plan : Bool) (e : Engine) : Engine :=
  let x := e.kept t.toNat
  let run : Running :=
    { params := p, tenant := t, job := job, plan := plan, anyStep := plan, xtsEpoch := x.xtsNext, epoch := 0,
      prevEpoch := if x.valid then x.lastEpoch else 0, slot := false, freezeTime := 0, freezeBeat := 0, tiles := [], sources := [],
      rooms := [], image := [], held := [], shards := [], dests := [], manifest := [], record := [], waitBody := false, resumeAt := 0 }
  let e := (e.setKept t.toNat { x with xtsNext := x.xtsNext + 1 }).broadcastTenant bcArm t 0
  { e with cut := { e.cut with phase := .armed, run := some run, lastTenant := t, step := p.step } }

/-- S is not greater than the last SYS_STEP_NUM sampled (R71). -/
def Engine.stepPast (p : CutParams) (e : Engine) : Bool :=
  match e.cut.lastStep with
  | some n => decide (p.step.toNat ≤ n.toNat)
  | none => false

/-- Host memory that a CUT names (R257). -/
def Engine.cutSpans (p : CutParams) (e : Engine) : List (Nat × Nat) :=
  (if p.dest = 1 then [(p.hostBase, 2 * (4096 * p.hostPages))]
    else if p.dest = 2 then [(p.g0, 4096 * p.glxPages), (p.g1, 4096 * p.glxPages)] else []) ++
    (rangesOf p.ranges).filterMap fun n => (e.range n).map fun w => (w.base * 2 ^ 20, w.granules * 2 ^ 20)

/-- CUT (R71 to R73). -/
def execCut (ring : BitVec 8) (s : State) : Out :=
  s.eff fun k r e => e.startJob r ring.toNat (fun x => x.opcode == 1) fun x e =>
    let t := r.ringTenant ring.toNat
    let p := cutParamsOf x.params
    let conds := e.tenantConds t ++ e.cutConds k r t p ++
      [(cutParamsRsv x.params, 0x11), (e.stepPast p, 0x14), (e.mode == .recovery, 0x14), (e.cut.run.isSome, 0x58)]
    let mine := if p.dest = 2 then [] else e.recipeConds t p (e.cutSources k t p)
    let e := e.countRecipe ((x.badHeader, 0x11) :: conds) mine
    e.judged k r ring.toNat x conds fun e =>
      let id := x.jobId ring.toNat
      let e := (e.addJob { id := id, tenant := some t, kind := .cut, spans := e.cutSpans p }).armCut t p (some id) false
      { e with cut := { e.cut with template := tabSet t.toNat p e.cut.template } }

/-! ### The step pulse -/

/-- SYS_TIME at the FREEZE (R185): what the last edge carried into CORE, and the free time since (log 9). -/
def Engine.freezeTime (e : Engine) : Dword := e.beat.timeNow + e.freeWord.setWidth 64

/-- The target slot of a KSF cut (R187), or the target base of a Glarax image, true for G1 (R196). -/
def targetSlot (p : CutParams) (x : Kept) : Bool :=
  if p.dest = 2 then x.glxValid && !x.glxLast else x.valid && !x.lastSlot

/-- The freeze wave (R77, R78, R187): EPOCH and target fixed, FREEZE at cc 2, every range armed, RESUME at cc 18, SYS_RESUME
STEM_DEPTH later. -/
def Engine.freeze (k : Kit) (r : Regs) (num : Dword) (run : Running) (e : Engine) : Engine :=
  let tn := run.tenant.toNat
  let x := e.kept tn
  let p := { run.params with step := num }
  let ss := e.cutSources k run.tenant p
  let lay := if p.dest = 2 then ([], (glaraxLayout ss).1) else ksfLayout ss
  let dests : List DestState := (cutDests r tn p).map fun d => { dest := d, stage := 1, todo := [.clear], unanswered := 0, issued := 0 }
  let run := { run with params := p, epoch := x.nextEpoch, slot := targetSlot p x, freezeTime := e.freezeTime, freezeBeat := e.beat.num,
                        tiles := e.tilesOf run.tenant, sources := lay.2, rooms := lay.1, dests := dests }
  let e := (e.drawn.setKept tn { x with nextEpoch := x.nextEpoch + 1 }).broadcastTenant bcFreeze run.tenant 2
  let e := e.forEach (rangesOf p.ranges) fun n e => e.onRange n Range.arm
  let e := ((e.broadcastTenant bcResume run.tenant 18).emitHost (.sysResume (18 + k.stemDepth))).bump Ctr.recipeRuns ss.length
  let run := { run with resumeAt := e.stem.issued.length }
  let e := { e with stem := { e.stem with frozen := [] }
                    cut := { e.cut with phase := if run.tiles.isEmpty then .drain else .pause, run := some run, step := num, missing := [] } }
  ((e.beginCopy r run).cutPump k r).guardPump k

/-- SYS_STEP (R74, R75, R77, R371, R375). A pulse before SYS_READY is ignored, and so is one before SYS_RESUME, which R76 rules out
(log 22). In P2 the responder samples the pulse alone (log 23). -/
def execSysStep (num : Dword) (s : State) : Out :=
  s.eff fun k r e =>
    if !e.power.sysReady || e.cut.phase == .pause then e
    else if e.power.state == 2 then e.emitHost (.sysResume 8)
    else
      let e := { e with cut := { e.cut with lastStep := some num } }
      match e.cut.run with
      | none => e.emitHost (.sysResume 8)
      | some run =>
        if e.cut.phase ≠ .armed then e.emitHost (.sysResume 8)
        else if 0 < e.absent k then (e.endCut k r 0x1A).emitHost (.sysResume 8)
        else if run.anyStep || num == run.params.step then e.freeze k r num run
        else if num.toNat < run.params.step.toNat then e.emitHost (.sysResume 8)
        else (e.endCut k r 0x14).emitHost (.sysResume 8)

/-- Covered buds of a region that have not acknowledged FREEZE. -/
def Engine.frozenShort (k : Kit) (run : Running) (region : Nat) (e : Engine) : Bool :=
  decide ((e.stem.frozen.filter fun x => k.regionOf x == region).length < (run.tiles.filter fun x => k.regionOf x == region).length)

/-- The extents of buds recorded with the poison marker (R79, R82). -/
def Engine.poisonExtents (tiles : List Nat) (e : Engine) : Engine := { e with cut := { e.cut with missing := e.cut.missing ++ tiles } }

/-- Covered buds whose acknowledgement of FREEZE has not come. -/
def Engine.unfrozen (run : Running) (e : Engine) : List Nat := run.tiles.filter fun x => !e.stem.frozen.contains x

/-- FREEZE_ACK_TIMEOUT (R79). -/
def execFreezeAckTimeout (s : State) : Out :=
  s.eff fun k r e => e.onRun fun run e =>
    if (e.cut.phase == .pause || e.cut.phase == .drain) && (List.range k.regions).any fun g => e.frozenShort k run g then
      ((e.poisonExtents (e.unfrozen run)).raise k r 0x0A (some run.tenant)).endCut k r 0x21
    else e

/-! ### Broadcasts at a bud -/

/-- An acknowledgement put on its way up; for BEAT it carries the beat and the counters as they stand (R45). -/
def Bud.ack (code : BitVec 4) (poisoned : Bool) (b : Bud) : Bud :=
  { b with acks := b.acks ++ [{ code := code, poisoned := poisoned, beat := b.beat, counts := b.counts }] }

/-- The next broadcast on its way to a bud reaches it, when it is of this code (R50): with bad parity the bud acts on none of
it and answers with a poisoned acknowledgement (R396). An ABSENT bud hears nothing (R376). -/
def Engine.hear (code : BitVec 4) (tile : Nat) (parityOk : Bool) (act : BitVec 64 → Bud → Bud) (e : Engine) : Engine :=
  let b := e.bud tile
  match e.stem.issued[b.seen]? with
  | none => e
  | some x =>
    if b.state = .absent ∨ x.code ≠ code then e
    else
      let b := { b with seen := b.seen + 1 }
      e.setBud tile (if parityOk then act x.arg b else b.ack code true)

/-- The tenant that a broadcast names. -/
def argTenant (arg : BitVec 64) : TenantNo := arg.setWidth 4

/-- A bud's captured lines discarded. -/
def Bud.discard (b : Bud) : Bud := { b with latch := [], buffer := [], up := [], earlyHeld := false }

/-- BUD_ARM (R81). -/
def execBudArm (tile : Nat) (parityOk : Bool) (s : State) : Out :=
  s.needs (s.kit.hasTile tile) fun s => s.eff fun _ _ e => e.hear bcArm tile parityOk fun arg b =>
    if b.state = .idle ∧ b.tenant = argTenant arg then { b with state := .armed, drained := 0 } else b

/-- The context latch taken from the tile's context lines. -/
def ctxLines (ctx : BitVec 2048) : List UpLine :=
  (List.range 4).map fun i => { kind := .context, line := i, data := ctx.extractLsb' (512 * i) 512 }

/-- BUD_FREEZE (R81, R394, R396). -/
def execBudFreeze (tile : Nat) (ctx : BitVec 2048) (parityOk : Bool) (s : State) : Out :=
  s.needs (s.kit.hasTile tile) fun s => s.eff fun _ _ e => e.hear bcFreeze tile parityOk fun arg b =>
    if b.state = .armed ∧ b.tenant = argTenant arg then
      { b with state := .frozen, latch := ctxLines ctx, buffer := [], up := [], resumed := false, earlyHeld := false }.ack bcFreeze false
    else b

/-- RESUME has reached every covered bud, with good parity or not: SYS_RESUME has pulsed, and the pause has ended (R77). -/
def Engine.endPause (e : Engine) : Engine :=
  e.onRun fun run e =>
    let out (x : Nat) : Bool := let b := e.bud x; b.state == .absent || decide (run.resumeAt ≤ b.seen)
    if e.cut.phase = .pause ∧ run.tiles.all out then { e with cut := { e.cut with phase := .drain } } else e

/-- BUD_RESUME (R77, R80). -/
def execBudResume (tile : Nat) (parityOk : Bool) (s : State) : Out :=
  s.needs (s.kit.hasTile tile) fun s => s.eff fun _ _ e => (e.hear bcResume tile parityOk fun arg b =>
    if b.tenant = argTenant arg then { b with resumed := true } else b).endPause

/-- BUD_DISARM (R81). -/
def execBudDisarm (tile : Nat) (parityOk : Bool) (s : State) : Out :=
  s.needs (s.kit.hasTile tile) fun s => s.eff fun _ _ e => e.hear bcDisarm tile parityOk fun arg b =>
    if b.tenant = argTenant arg then { b.discard with state := .idle } else b

/-- BUD_RELEASE (R81). -/
def execBudRelease (tile : Nat) (parityOk : Bool) (s : State) : Out :=
  s.needs (s.kit.hasTile tile) fun s => s.eff fun _ _ e => e.hear bcRelease tile parityOk fun arg b =>
    if b.state = .drained ∧ b.tenant = argTenant arg then { b with state := .idle } else b

/-- BUD_SCRUB (R81, R332). -/
def execBudScrub (tile : Nat) (parityOk : Bool) (s : State) : Out :=
  s.needs (s.kit.hasTile tile) fun s => s.eff fun _ _ e => e.hear bcScrub tile parityOk fun arg b =>
    let b := b.ack bcScrub false
    if b.tenant = argTenant arg then { b.discard with state := .idle, drained := 0 } else b

/-- BUD_BEAT (R45, R48, R50): the bud's beat begins, and its counters as latched go up. -/
def execBudBeat (tile : Nat) (parityOk : Bool) (s : State) : Out :=
  s.needs (s.kit.hasTile tile) fun s => s.eff fun _ _ e => e.hear bcBeat tile parityOk fun arg b =>
    { b with beat := arg.setWidth 52, cycle := 0 }.ack bcBeat false

/-! ### Tile accesses and drain reads -/

/-- A line of a tile's scratchpad is undrained at its bud. -/
def Bud.holds (k : Kit) (tile line : Nat) (b : Bud) : Bool := decide (line < k.linesOf tile) && !b.drained.getLsbD line

/-- A line marked drained. -/
def Bud.mark (line : Nat) (b : Bud) : Bud := { b with drained := b.drained ||| (1 <<< line) }

/-- The bud's cycle inside its beat at an event that it stamps (R48). -/
def Engine.budCycle (b : Bud) (e : Engine) : BitVec 12 := satCycle b.cycle e.freeWord

/-- A stamp of a bud (R48): BEAT_NUM as the bud knows it, and its cycle. -/
def Engine.budStamp (b : Bud) (e : Engine) : Dword := (b.beat ++ e.budCycle b : BitVec 64)

/-- A write that reaches a FROZEN bud before RESUME (R80): counted and raised once, with the bud's stamp, when it reaches the bud. `held` says
that it has to wait for the buffer; one that has waited has been counted. -/
def Engine.earlyWrite (k : Kit) (r : Regs) (tile : Nat) (held : Bool) (e : Engine) : Engine :=
  let b := e.bud tile
  if b.earlyHeld then e.setBud tile { b with earlyHeld := held }
  else if b.state = .frozen ∧ !b.resumed then
    let st := e.budStamp b
    ((e.setBud tile { b with counts := { b.counts with early := b.counts.early + 1 }, cycle := e.budCycle b, earlyHeld := held }).drawn).raiseAt k r
      0x0B (some b.tenant) st
  else e

/-- TILE_WRITE (R80, R86, R88, R103). `held` is what the line holds. A write that waits for a free slot is presented again. -/
def execTileWrite (tile : Nat) (line : BitVec 10) (held : LineData) (s : State) : Out :=
  s.needs (s.kit.hasTile tile) fun s => s.eff fun k r e =>
    let b := e.bud tile
    if b.state = .frozen ∧ b.holds k tile line.toNat then
      if b.buffer.length < 4 then
        let b' := { b.mark line.toNat with
          buffer := b.buffer ++ [{ kind := .cbw, line := line.toNat, data := held }]
          counts := { b.counts with cbw := b.counts.cbw + 1 } }
        ((e.setBud tile b').emit (.tileWait tile)).earlyWrite k r tile false
      else
        ((e.setBud tile { b with counts := { b.counts with stall := b.counts.stall + 1 } }).emit (.tileWait tile)).earlyWrite k r tile true
    else e.earlyWrite k r tile false

/-- The bud has room to read a further line: two lines wait for the stem at most (log 25). -/
def Bud.mayRead (b : Bud) : Bool := b.state == .frozen && decide (b.up.length < 2)

/-- The next context or scratchpad line read by the bud (R84, R87). -/
def Bud.drainNext (k : Kit) (tile : Nat) (held : LineData) (b : Bud) : Bud :=
  match b.latch with
  | c :: rest => { b with latch := rest, up := b.up ++ [c] }
  | [] =>
    match lowestFrom (fun l => b.holds k tile l) 0 1024 with
    | some l => { b.mark l with up := b.up ++ [{ kind := .drain, line := l, data := held }] }
    | .none => b

/-- The bud has a line left to read. -/
def Bud.linesLeft (k : Kit) (tile : Nat) (b : Bud) : Bool :=
  !b.latch.isEmpty || (lowestFrom (fun l => b.holds k tile l) 0 1024).isSome

/-- BUD_DRAIN_READ (R84, R85, R87). -/
def execBudDrainRead (tile : Nat) (held : LineData) (s : State) : Out :=
  s.needs (s.kit.hasTile tile) fun s => s.eff fun k _ e =>
    let b := e.bud tile
    if b.mayRead && b.linesLeft k tile then e.setBud tile (b.drainNext k tile held) else e

/-- BUD_FORCED_DRAIN (R84): the tile's access waits one cc, which counts. -/
def execBudForcedDrain (tile : Nat) (held : LineData) (s : State) : Out :=
  s.needs (s.kit.hasTile tile) fun s => s.eff fun k _ e =>
    let b := e.bud tile
    if b.mayRead && b.linesLeft k tile then
      let b := b.drainNext k tile held
      (e.setBud tile { b with counts := { b.counts with stall := b.counts.stall + 1 } }).emit (.tileWait tile)
    else e

/-- BUD_CFG_DONE (R81, R376). `passed` says how many of the issued broadcasts have already gone past the bud. -/
def execBudCfgDone (tile : Nat) (tenant : TenantNo) (passed : Nat) (s : State) : Out :=
  s.needs (s.kit.hasTile tile) fun s => s.eff fun _ _ e =>
    if (e.bud tile).state = .absent then
      e.setBud tile { Bud.none with state := .idle, tenant := tenant, seen := min passed e.stem.issued.length }
    else e

/-- TILE_CONFIG_RELOAD (R75, R81, R82). -/
def execTileConfigReload (tile : Nat) (s : State) : Out :=
  s.needs (s.kit.hasTile tile) fun s => s.eff fun k r e =>
    let b := e.bud tile
    if b.state = .absent then e
    else
      let e := e.setBud tile Bud.none
      e.onRun fun run e =>
        if e.cut.phase = .armed then e.endCut k r 0x1A
        else if b.state = .frozen ∧ run.tiles.contains tile then (e.poisonExtents [tile]).endCut k r 0x21
        else e.endPause

/-! ### The stem roots -/

/-- The line that the stem takes next from a bud: copy-before-write lines first (R89). -/
def Bud.nextUp (b : Bud) : Option UpLine :=
  match b.buffer with
  | x :: _ => some x
  | [] => b.up.head?

/-- The bud without that line. -/
def Bud.accepted (b : Bud) : Bud :=
  match b.buffer with
  | _ :: rest => { b with buffer := rest }
  | [] => { b with up := b.up.tail }

/-- Every line of the bud has been accepted (R81). -/
def Bud.settle (k : Kit) (tile : Nat) (b : Bud) : Bud :=
  if b.state = .frozen ∧ b.buffer.isEmpty ∧ b.up.isEmpty ∧ !b.linesLeft k tile then { b with state := .drained } else b

/-- The region root has room for the line (R89, R102, R112). -/
def Engine.upRoom (k : Kit) (r : Regs) (tile : Nat) (x : UpLine) (e : Engine) : Bool :=
  if x.kind = .cbw then e.front.dispRoom k r.dispFloor (k.regionOf tile)
  else e.front.room .cut (1 + (e.guard.reading.map fun y => y.left).sum)

/-- A line of a covered bud enters the front and its source (R89, R123, R397). -/
def Engine.cutLineIn (k : Kit) (r : Regs) (tile : Nat) (x : UpLine) (run : Running) (e : Engine) : Engine :=
  let ctx := x.kind == .context
  let key := FrontKey.grid tile ctx x.line
  let part := if x.kind = .cbw then Part.disp else Part.cut
  let l := { Line.ofData x.data run.tenant (if ctx then 2 else 1) false with epoch := run.slot }
  let e := e.onFront (Front.put (FrontLine.made part key l false (k.regionOf tile)))
  (e.takeLine r (.tile tile ctx) x.line (if x.kind = .cbw then 2 else 3) key { data := x.data, poison := false }).cutPump k r

/-- STEM_LINE_ACCEPT (R89, R102, R112, R123, R331, R397). A line that belongs to no running cut is accepted and discarded. -/
def execStemLineAccept (tile : Nat) (parityBad : Bool) (faults : List CoreFault) (s : State) : Out :=
  s.needs (s.kit.hasTile tile) fun s => s.eff fun k r e =>
    let b := e.bud tile
    match b.nextUp with
    | none => e
    | some x =>
      if !e.upRoom k r tile x then e
      else
        let e := (e.setBud tile (b.accepted.settle k tile)).when parityBad fun e => e.raise k r (0x80 + k.regionOf tile) (some b.tenant)
        e.onRun fun run e =>
          if !run.tiles.contains tile || e.cut.phase == .armed then e
          else if parityBad then e.endCut k r 0x21
          else
            let e := e.coreFaults k r (some run.tenant) faults
            if coreFatal faults then e.endCut k r 0x45 else e.onRun fun run e => e.cutLineIn k r tile x run

/-- The counters of a bud added to the set of their beat (R45). -/
def CounterSet.add (b : BudCounts) (c : CounterSet) : CounterSet :=
  let put (off : Nat) (v : Dword) (t : Tab Dword) : Tab Dword := tabPut (fun _ => 0) off (tabGet (fun _ => 0) off t + v) t
  { c with vals := put Ctr.earlyWrites b.early (put Ctr.budStall b.stall (put Ctr.cbwLines b.cbw c.vals)) }

/-- STEM_ACK (R45, R79, R332, R397): a counter acknowledgement is added to the set of the edge that it was latched for. -/
def execStemAck (tile : Nat) (parityBad : Bool) (s : State) : Out :=
  s.needs (s.kit.hasTile tile) fun s => s.eff fun k r e =>
    let b := e.bud tile
    match b.acks with
    | [] => e
    | a :: rest =>
      let e := e.setBud tile { b with acks := rest }
      let g := k.regionOf tile
      if a.poisoned || parityBad then e.raise k r (0x80 + g) (some b.tenant)
      else if a.code = bcFreeze then { e with stem := { e.stem with frozen := e.stem.frozen ++ [tile] } }
      else if a.code = bcScrub then { e with stem := { e.stem with scrubbed := e.stem.scrubbed + 1 } }
      else
        { e with count := { e.count with latched := updFirst (fun c => c.beat.setWidth 52 == a.beat) (CounterSet.add a.counts) e.count.latched } }

/-! ### The guard -/

/-- HOLD_CAP (R97). -/
def Engine.holdCap (k : Kit) (e : Engine) : Nat := min (2 * k.guardClients) (shareLines e.beat.cc 128 / ceilDiv 64 k.memChannels)

/-- Request-ready of a client (R97, R392). -/
def Engine.grdReady (k : Kit) (client : Nat) (e : Engine) : Bool :=
  decide ((e.guard.holds.filter fun h => h.client == client).length < 2) && decide ((e.guard.grans.filter fun x => x.hot).length < 256) &&
    decide (e.guard.holds.length < e.holdCap k)

/-- A HOLD (R95): the granule enters the hot-granule table, the chunk the held-chunk queue unless its read has been issued. A
hold on a chunk that is already in the front is released at once. -/
def Engine.hold (k : Kit) (client : Nat) (htag : BitVec 4) (n granule chunk : Nat) (e : Engine) : Engine :=
  let there := match e.guard.gran n granule with | some x => x.chunks.contains chunk | none => false
  let e := e.onGuard fun g =>
    let queued := g.queue.contains (n, granule, chunk) || g.chunkKnown n granule chunk
    let g := g.onGran n granule fun x => { x.first chunk with hot := true }
    { g with holds := g.holds ++ [{ client := client, htag := htag, range := n, granule := granule, chunk := chunk }]
             queue := if queued then g.queue else g.queue ++ [(n, granule, chunk)] }
  let e := e.bump Ctr.holds 1
  if there then e.releaseHolds fun h => h.range == n && h.granule == granule && h.chunk == chunk
  else e.guardPump k

/-- The verdict on a line address (R94): the held chunk, or none for PASS. -/
def Guard.judge (addr : Nat) (g : Guard) : Option (Nat × Nat × Nat) :=
  match g.undrainedAt addr with
  | none => none
  | some (n, granule) =>
    let chunk := addr / 4096 % 256
    match g.gran n granule with
    | some x => if x.hot && x.chunks.contains chunk then none else some (n, granule, chunk)
    | none => some (n, granule, chunk)

/-- GRD_CHECK (R93 to R97, R391, R392): a check that request-ready holds back is not accepted, and the cycle counts (log 9). -/
def execGrdCheck (client : Nat) (addr : BitVec 58) (htag : BitVec 4) (s : State) : Out :=
  s.needs (s.kit.hasClient client) fun s => s.eff fun k _ e =>
    if !e.grdReady k client then e.bump Ctr.grdBpCc 1
    else match e.guard.judge (64 * addr.toNat) with
      | none => e.emit (.verdict client htag false 4)
      | some (n, granule, chunk) => (e.emit (.verdict client htag true 4)).hold k client htag n granule chunk

/-! ### The pre-emption plan -/

/-- The plan arms its own cut (R105): with no template, or with a condition that applies, it arms nothing and says so. -/
def Engine.planArm (k : Kit) (r : Regs) (e : Engine) : Engine :=
  let t := e.cut.planTenant
  match tabFind t.toNat e.cut.template with
  | none => e.raise k r 0x0C (some t)
  | some p =>
    match judge (e.cutConds k r t p) with
    | some c => (e.raise k r 0x0C (some t)).planCompletion r c []
    | none => e.armCut t p none true

/-- The plan's cut against what is armed or running (R106). -/
def Engine.planCut (k : Kit) (r : Regs) (e : Engine) : Engine :=
  match e.cut.run with
  | none => e.planArm k r
  | some run =>
    if run.tenant = e.cut.planTenant then e.setRun { run with plan := true, anyStep := run.anyStep || e.cut.phase == .armed }
    else if e.cut.phase = .armed then (e.endCut k r 0x63).planArm k r
    else { e with cut := { e.cut with planWaits := true } }

/-- A pre-emption notice (R105): with ENABLE set and no plan running, ACTIVE, REMAINING, the URGENT class, and a cut. -/
def Engine.notice (k : Kit) (r : Regs) (source : BitVec 2) (e : Engine) : Engine :=
  if r.planEnable && !e.cut.planActive then
    ({ e with cut := { e.cut with planActive := true, planTenant := r.planTenant, planSource := source, planLeft := r.planDeadline } }).planCut k r
  else e

/-- SYS_PREEMPT_N_FALL (R105, R369, R405): it also wakes the engine. -/
def execSysPreemptNFall (s : State) : Out :=
  s.eff fun k r e => e.wake.notice k r 1

/-- PLAN_CUT_ARM (R106): when another tenant's cut has ended. -/
def execPlanCutArm (s : State) : Out :=
  s.eff fun k r e =>
    if e.cut.planActive && e.cut.planWaits && e.cut.run.isNone then
      ({ e with cut := { e.cut with planWaits := false } }).planArm k r
    else e

end Sys2Proof.Machine
end

