-- ==== Sys2Proof/Machine/SessionOps.lean ====
section
/-!
DEFINITION. Sessions of Pollen (09_pollen): their setup, their end, and what the loss of a port or of a peer ends.
-/

namespace Sys2Proof.Machine

/-! ### Setup -/

/-- A frame of a setup sent on a port (R207): it carries no sequence state. -/
def Engine.sendSetup (r : Regs) (t i p : Nat) (type : BitVec 8) (body : BitVec 320) (id : Word) (key : BitVec 256) (e : Engine) : Engine :=
  if e.canSend r then
    let f := { Frame.bare type body with srcPeer := BitVec.ofNat 16 r.self, dstPeer := BitVec.ofNat 16 (r.peerId t i), sessionId := id }
    (e.emit (.frame p (f.close key))).bump Ctr.framesTx 1
  else e

/-- SLOT_PAGES that this engine reports to a peer: of the enabled window for it (R219). -/
def Regs.reported (r : Regs) (t i : Nat) : Nat :=
  match r.windowOf t (r.peerId t i) with
  | some w => r.winPages w
  | none => 0

/-- The initiator starts a setup (R207): NONCE_I and SESSION_ID drawn, OPEN sent on the lowest live port of the mask. -/
def Engine.startSetup (r : Regs) (t i : Nat) (e : Engine) : Engine :=
  match (e.tenant t).pollenKey, lowestPort (e.upMask (r.peerMask t i)) with
  | some kp, some p =>
    if !e.mayDraw then e
    else
      let nonce := e.noise256
      let e := e.drawn
      let id := (Config.noise e.draws).setWidth 32
      let e := e.drawn
      let s := e.sess t i
      let s := { s with
        state := if s.state = .keyed then .keyed else .opening
        initiator := true, newId := id, newNonceI := nonce, newNonceR := 0, newKey := 0, newSetup := true, openBeats := 0,
        drawWait := none }
      (e.setSess t i s).sendSetup r t i p ftOpen (bodyOf nonce (e.tenant t).keyId) id kp
  | _, _ => e

/-- The responder answers an OPEN that waits for the draw of its NONCE_R, once it may be drawn (R207, R330): the key, and ACCEPT. -/
def Engine.answerOpen (r : Regs) (t i : Nat) (e : Engine) : Engine :=
  let s := e.sess t i
  match (e.tenant t).pollenKey, s.drawWait with
  | some kp, some p =>
    if !e.mayDraw then e
    else
      let nonceR := e.noise256
      let key := sessionKey kp s.newNonceI nonceR (r.peerId t i) r.self s.newId
      let s := { s with newNonceR := nonceR, newKey := key, drawWait := none }
      (e.drawn.setSess t i s).sendSetup r t i p ftAccept (bodyOf nonceR (BitVec.ofNat 32 (r.reported t i))) s.newId key
  | _, _ => e

/-- Every OPEN that waits for a draw is answered (R330). -/
def Engine.answerOpens (r : Regs) (e : Engine) : Engine :=
  e.forEach (e.pollen.sess.filter fun x => x.2.drawWait.isSome) fun x e => e.answerOpen r (x.1 / 16) (x.1 % 16)

/-- The session that a finished setup installs (R207). -/
def Session.install (live : BitVec 48) (pages : Nat) (s : Session) : Session :=
  { state := .keyed, initiator := s.initiator, id := s.newId, nonceI := s.newNonceI, nonceR := s.newNonceR, key := s.newKey, pages := pages,
    live := live, ports := [], sinceRx := 0, openBeats := 0, rekey := false, newId := 0, newNonceI := 0, newNonceR := 0, newKey := 0,
    newSetup := false, drawWait := Option.none }

/-! ### What a loss ends -/

/-- The running or armed cut has something at peer slot `i` of tenant `t` that is not acknowledged (R224). -/
def Engine.cutAt (r : Regs) (t i : Nat) (e : Engine) : Bool :=
  match e.cut.run with
  | none => false
  | some run =>
    run.tenant.toNat == t && run.params.dest == 0 &&
      (if e.cut.phase = .armed then (cutDests r t run.params).contains (.peer i)
       else run.dests.any fun d => d.dest == .peer i && decide (d.stage < 5))

/-- Vault commands of a session that are in flight at this engine on the queues that `p` picks end without a RESP (R225, R293). -/
def Engine.endLinkCmds (k : Kit) (r : Regs) (t i : Nat) (p : Nat → Bool) (code : Code) (e : Engine) : Engine :=
  e.forEach (e.vault.queues.filter fun x => !isHost x.1 && p (x.1 - 16)) fun x e =>
    (e.setVq x.1 { e.vq x.1 with held := (e.vq x.1).held.filter fun y => y.session != 16 * t + i }).abortCmds k r x.1 (fun c => c.session == some (16 * t + i)) (fun _ => false) code

/-- ADMIN_SEND jobs of a session end. -/
def Engine.endAdminJobs (k : Kit) (r : Regs) (t i : Nat) (code : Code) (e : Engine) : Engine :=
  e.forEach e.rings.jobs fun j e =>
    match j.kind with
    | .adminSend u n _ _ => if u = t ∧ n = i then e.refuse k r j.id code else e
    | _ => e

/-- Everything that used a session or the last way to a peer ends (R208, R210, R224, R225): a cut that is not acknowledged there, and
the vault commands and ADMIN_SEND jobs with it. `lost` says that the peer is out of reach, which is raised where it strikes no running
cut (R225). -/
def Engine.endUses (k : Kit) (r : Regs) (t i : Nat) (code : Code) (lost : Bool) (e : Engine) : Engine :=
  let struck := e.cutAt r t i
  let e := if struck then e.endCut k r code else e.when lost fun e => e.raise k r 0x2A (some (BitVec.ofNat 4 t))
  ((e.endLinkCmds k r t i (fun _ => true) code).endAdminJobs k r t i code).pumpWindows k r

/-- A session removed, with what used it. -/
def Engine.removeSess (k : Kit) (r : Regs) (t i : Nat) (code : Code) (lost : Bool) (e : Engine) : Engine :=
  let e := e.endUses k r t i code lost
  (e.dropXchgs k r fun x => x.tenant == t && x.slot == i).setSess t i Session.none

/-- CLOSE sent on the lowest live port of a KEYED session (R210). -/
def Engine.sendClose (r : Regs) (t i : Nat) (e : Engine) : Engine :=
  let s := e.sess t i
  match lowestPort s.live with
  | some p => if s.state = .keyed then e.sendControl r t i p ftClose 0 else e
  | none => e

/-- Every session of a tenant is closed and removed (R210). -/
def Engine.closeSessions (k : Kit) (r : Regs) (t : Nat) (code : Code) (e : Engine) : Engine :=
  e.forEach (List.range 16) fun i e => if (e.sess t i).state = .none then e else (e.sendClose r t i).removeSess k r t i code false

/-! ### A port that fails -/

/-- An operation whose exchange has ended waits to be issued again (R223). -/
def Engine.reissue (x : Xchg) (e : Engine) : Engine :=
  e.onRun fun run e =>
    match x.use with
    | .cut op => e.setRun (run.onDest (.peer x.slot) fun d => { d with todo := op :: d.todo })
    | _ => e

/-- ADMIN_SEND jobs whose frame was not acknowledged on a port send it again on another live port (R223). -/
def Engine.moveAdmin (r : Regs) (t i p q : Nat) (e : Engine) : Engine :=
  e.forEach e.rings.jobs fun j e =>
    match j.kind with
    | .adminSend u n o _ =>
      if u = t ∧ n = i ∧ o = p then
        let seq := ((e.sess t i).port q).seqAhead
        let jobs : List Job := updFirst (fun y => y == j) (fun y => { y with kind := .adminSend t i q seq }) e.rings.jobs
        ({ e with rings := { e.rings with jobs := jobs } }).sendSeq r t i q (Frame.bare ftAdmin 1)
      else e
    | _ => e

/-- The port's sequence state once it has failed: nothing waits on it any more (log 31). -/
def PortSess.fail (ps : PortSess) : PortSess :=
  { ps with unacked := [], queue := [], owed := 0, nakFor := .none, used := ps.used - BitVec.ofNat 32 ((ps.unacked.map fun x => x.frame.lines.toNat).sum) }

/-- Port `p` fails for a peer (R223): its exchanges are issued again on other live ports; with none left, what used the peer ends with
`code` (R224, R225). -/
def Engine.failPort (k : Kit) (r : Regs) (t i p : Nat) (code : Code) (e : Engine) : Engine :=
  let s := e.sess t i
  if !s.live.getLsbD p then e
  else
    let live := s.live &&& ~~~(1#48 <<< p)
    let e := ((e.setSess t i { s with live := live }).onPort t i p PortSess.fail).bump Ctr.portFails 1
    let e := e.raise k r (0x40 + p) (some (BitVec.ofNat 4 t))
    let e := e.endLinkCmds k r t i (fun q => q == p) code
    let mine (x : Xchg) : Bool := x.tenant == t && x.slot == i && x.port == p
    let gone := e.pollen.xchgs.filter mine
    let e := e.dropXchgs k r mine
    match lowestPort live with
    | none => e.endUses k r t i code true
    | some q => ((e.forEach gone.reverse Engine.reissue).moveAdmin r t i p q).cutPump k r

/-- Frames of a port sent as far as they may be, then packets of vault commands whose frames would leave at once. -/
def Engine.pumpLink (k : Kit) (r : Regs) (t i p : Nat) (e : Engine) : Engine := (e.pump r t i p).pumpOut k r (16 + p)

/-- Frames of a port sent as far as they may be, and what waits on it: a frame resent too often fails the port (R213). -/
def Engine.servePort (k : Kit) (r : Regs) (t i p : Nat) (e : Engine) : Engine :=
  if ((e.sess t i).port p).exhausted r.retryLimit then e.failPort k r t i p 0x32 else (e.pumpLink k r t i p).cutPump k r

/-- The session with a peer is served anew after it has become KEYED. -/
def Engine.serveSess (k : Kit) (r : Regs) (t i : Nat) (e : Engine) : Engine :=
  (e.forEach (List.range 48) fun p e => if (e.sess t i).live.getLsbD p then e.pumpLink k r t i p else e).cutPump k r

/-- A session has no vault exchange and no vault command outstanding (R209). -/
def Engine.sessIdle (t i : Nat) (e : Engine) : Bool :=
  (e.xchgsWith t i).isEmpty && !(e.vault.queues.any fun x => x.2.cmds.any fun c => c.session == some (16 * t + i)) &&
    (e.sess t i).ports.all fun p => p.2.unacked.isEmpty && p.2.queue.isEmpty

end Sys2Proof.Machine
end

