-- ==== Sys2Proof/Machine/Beat.lean ====
section
/-!
DEFINITION. The beat (02_beat): edges, what the engine does at each of them, lock and free run, and the fall of the throttle level.
-/

namespace Sys2Proof.Machine

/-! ### When an edge occurs -/

/-- A gap lies in the window of R35 around BEAT_CC. -/
def inWindow (beatCc gap : Nat) : Bool := decide (beatCc - 64 ≤ gap) && decide (gap ≤ beatCc + 63)

/-- An unclamped edge may come `cc` after the last one (R35, R36, R371). -/
def Engine.edgeAt (cc : Nat) (e : Engine) : Bool :=
  if e.power.state = 2 then true
  else match e.beat.mode with
    | .locked => inWindow e.beat.cc cc
    | _ => cc == e.beat.cc

/-- A clamped edge may come `cc` after the last one (R35). -/
def Engine.clampAt (early : Bool) (cc : Nat) (e : Engine) : Bool :=
  e.power.state != 2 && e.beat.mode == .locked && cc == (if early then e.beat.cc - 64 else e.beat.cc + 63)

/-! ### Number and time -/

/-- Beat number of SYS_TIME (R37). -/
def beatOf (sysTime : Dword) : Dword := BitVec.ofNat 64 (sysTime.toNat / 2000)

/-- Beat state at an edge (R35, R37, R38, R417): the first LOCKED edge after ACQUIRE takes its number from SYS_TIME. -/
def Beat.edge (r : Regs) (i : EdgeInput) (clamped : Bool) (b : Beat) : Beat :=
  let first := b.firstEdgeDue
  let num := if first then beatOf i.sysTime else b.num + 1
  { b with
    num := num
    offset := if first then 0 else if clamped then b.offset else num - beatOf i.sysTime
    slip := if clamped ∧ b.slip ≠ BitVec.allOnes 32 then b.slip + 1 else b.slip
    lastCc := BitVec.ofNat 12 i.cc
    clampRun := if !clamped then 0 else if b.clampRun = 255 then 255 else b.clampRun + 1
    timeNow := i.sysTime
    cc := r.beatCc
    sealed := r.sealedMode
    firstLock := b.firstLock || first
    firstEdgeDue := false
    cycle := 0
    sinceWindow := b.sinceWindow + 1
    sinceCal := b.sinceCal + 1 }

/-- Beat state at an edge in P2 (R371): the number, the offset and the time alone. -/
def Beat.edgeP2 (i : EdgeInput) (b : Beat) : Beat :=
  { b with num := b.num + 1, offset := b.num + 1 - beatOf i.sysTime, timeNow := i.sysTime, cycle := 0, sinceWindow := b.sinceWindow + 1 }

/-! ### Counters -/

/-- The counters as latched at an edge (R45): the live ones, and BANK_WRITES of every bank. -/
def Engine.latchVals (e : Engine) : Tab Dword :=
  e.body.banks.foldl (fun t p => tabPut (fun _ => 0) (0x61000 + 8 * p.1) p.2.writes t) e.count.live

/-- The telemetry sample (R362). -/
def Engine.sampleOf (i : EdgeInput) (e : Engine) : Word :=
  BitVec.ofNat 32 (2 ^ 28 * e.referee.missNorth + 2 ^ 24 * e.referee.missSouth + 2 ^ 16 * i.temp.toNat + i.vdd.toNat)

/-- The set of this edge latched, and the set of three edges ago published with its sample (R45, R362). -/
def Engine.latchEdge (i : EdgeInput) (e : Engine) : Engine :=
  let new : CounterSet := { beat := e.beat.num, vals := e.latchVals, sample := e.sampleOf i }
  let sets := new :: e.count.latched
  match sets[3]? with
  | none => { e with count := { e.count with latched := sets } }
  | some x =>
    { e with count := { e.count with latched := sets.take 3, shadow := x.vals, shadowBeat := x.beat }
             power := { e.power with sample := x.sample } }

/-! ### Throttle, supply and regulators -/

/-- The target level of a sample (R366). -/
def throttleTarget (temp : BitVec 8) (vdd : Nat) : Nat :=
  let t := temp.toInt
  let byTemp := if t < 95 then 0 else if t < 100 then 1 else if t < 105 then 2 else 3
  let byVdd := if 730 ≤ vdd then 0 else if 720 ≤ vdd then 2 else 3
  max byTemp byVdd

/-- LEVEL and its sources at an edge (R366): it rises at once, and edges below it are counted. -/
def Engine.throttleEdge (k : Kit) (r : Regs) (i : EdgeInput) (e : Engine) : Engine :=
  let target := throttleTarget i.temp i.vdd.toNat
  let level := e.power.level
  let e := { e with power := { e.power with
    level := max level target, cooler := if target < level then e.power.cooler + 1 else 0 } }
  e.when (level == 0 && decide (0 < target)) fun e => e.raise k r 0x30 none

/-- A regulator's step moved towards where it should be; the Bool says that it needs a step beyond its range (R364). -/
def trimmed (up down : Bool) (step : BitVec 5) : BitVec 5 × Bool :=
  if up then (if step = 31 then (step, true) else (step + 1, false))
  else if down then (if step = 0 then (step, true) else (step - 1, false))
  else (step, false)

/-- The trims at an edge (R364). -/
def Engine.trimEdge (k : Kit) (r : Regs) (i : EdgeInput) (e : Engine) : Engine :=
  let a := trimmed i.vaonLow i.vaonHigh e.power.vaonStep
  let here : Int := e.power.vwbStep.toNat
  let b := trimmed (decide (here < e.bulb.vwbGoal)) (decide (e.bulb.vwbGoal < here)) e.power.vwbStep
  let e := { e with power := { e.power with vaonStep := a.1, vwbStep := b.1 } }
  e.when (a.2 || b.2) fun e => e.raise k r 0x31 none

/-- SUPPLY_RANGE (R343, R366): the sample lies outside 0.72 to 0.80 V. -/
def Engine.supplyEdge (k : Kit) (r : Regs) (i : EdgeInput) (e : Engine) : Engine :=
  e.when (decide (i.vdd.toNat < 720) || decide (800 < i.vdd.toNat)) fun e => e.raise k r 0x32 none

/-! ### Budgets -/

/-- A table with what `f` gives for each of the first `n` units and each tenant, by 16 × unit + tenant; zeros are not listed. -/
def grantTab (n : Nat) (f : Nat → Nat → Nat) : Tab Nat :=
  (List.range n).flatMap fun c => (List.range 16).filterMap fun t => if f c t = 0 then none else some (16 * c + t, f c t)

/-- A table with one grant for each of the first `n` units. -/
def grantEach (n g : Nat) : Tab Nat := if g = 0 then [] else (List.range n).map fun c => (c, g)

/-- The grants of a beat (R29, R40, R43, R44, R98, R216, R220, R237, R277, R336, R340): in sealed mode each tenant has its MEM share, in
shared mode one pool stands under tenant 0. -/
def Engine.grants (k : Kit) (r : Regs) (e : Engine) : Budget :=
  let lines (s : Nat) : Nat := throttled e.power.level (shareLines e.beat.cc s)
  let stream := grantTab k.memChannels fun _ t =>
    if e.beat.sealed then lines (r.tshareMem t) else if t = 0 then lines r.streamShare else 0
  { entries := e.beat.cc / 16, bulb := 3 * e.beat.cc / 100, streamRead := stream, streamWrite := stream,
    hold := grantEach k.memChannels (lines 128), buddy := grantEach k.memChannels (lines r.buddyShare),
    link := grantTab k.linkPorts fun _ t => lines (r.linkShare t)
    memRead := grantEach k.memChannels (lines 1024), memWrite := grantEach k.memChannels (lines 1024) }

/-- BURST granted to every active ring (R277). -/
def Engine.grantBursts (r : Regs) (e : Engine) : Engine :=
  e.forEach ((List.range 256).filter fun n => r.ringActive n) fun n e => e.setRing n { e.ring n with burst := r.ringBurst n }

/-! ### Patrols and remap copy -/

/-- Cycles that a body read and a body write occupy a bank (05_bulb): 4 ns and 16 ns, at BEAT_CC cycles in 2 µs. -/
def readCc (beatCc : Nat) : Nat := ceilDiv (4 * beatCc) 2000
def writeCc (beatCc : Nat) : Nat := ceilDiv (16 * beatCc) 2000

/-- The patrol position after `n`, skipping RETIRED banks (R136); `fuel` banks at most. -/
def Body.nextPatrol (b : Body) : Nat → Nat → Nat
  | 0, n => n
  | fuel + 1, n =>
    let n := n % (272 * bankLines)
    if (b.bank (n / bankLines)).state = .retired then Body.nextPatrol b fuel ((n / bankLines + 1) * bankLines) else n

/-- `n` Bulb cycles taken from the background budget (R41, R44). -/
def Engine.spendBulb (n : Nat) (e : Engine) : Engine := { e with budget := { e.budget with bulb := e.budget.bulb - n } }

/-- The body patrol of a beat (R119, R120, R135, R136), every SCRUB_INTERVAL beats. Takes its cycles from the background budget. -/
def Engine.bodyPatrol (k : Kit) (r : Regs) (e : Engine) : Engine :=
  if e.bulb.patrolWait + 1 < r.scrubInterval then { e with bulb := { e.bulb with patrolWait := e.bulb.patrolWait + 1 } }
  else
    let at_ := e.body.nextPatrol 272 e.bulb.patrol
    let wrote := !(e.body.upset at_).flips.isEmpty
    let e := (e.readBody k r at_ true).2.2
    ({ e with bulb := { e.bulb with patrol := e.body.nextPatrol 272 (at_ + 1), patrolWait := 0 } }).spendBulb
      (readCc e.beat.cc + (if wrote then writeCc e.beat.cc else 0))

/-- The front line of a number that holds a line (R111). -/
def Front.at (n : Nat) (f : Front) : Option FrontLine := f.lines.find? fun l => l.part.first + l.place == n

/-- The front patrol of a beat (R119, R120, R135, R136): the front lines in turn. -/
def Engine.frontPatrol (k : Kit) (r : Regs) (e : Engine) : Engine :=
  let here := e.front.at e.front.patrol
  let e := e.onFront fun f => { f with patrol := (f.patrol + 1) % 1048576 }
  match here with
  | none => e.spendBulb 1
  | some l => (e.readFront k r l).2.2.spendBulb (if l.flips.isEmpty then 1 else 2)

/-- The outcome of one bank's test lines (R137): the pulse step, and a failure at the widest pulse. -/
def Engine.calibrated (k : Kit) (r : Regs) (p : Nat) (outcomes : List CalOutcome) (e : Engine) : Engine :=
  match outcomes.find? fun o => o.bank == p with
  | none => e
  | some o =>
    let e := { e with body := e.body.setBank p { e.body.bank p with step := o.step } }
    e.when o.failed fun e => (e.countWriteFail p).raise k r 0x18 none

/-- Accesses to the test lines of one bank: four writes and four reads, one on each even beat (R135, R137). -/
def calAccesses : Nat := 8

/-- Calibration in a beat (R129, R135, R137): on an even beat, one test write or one test read of a running pass, for w Bulb cycles; writes
and reads alternate. After the last access to a bank its outcome is taken, and after the last bank the pass is over. -/
def Engine.calBeat (k : Kit) (r : Regs) (e : Engine) : Engine :=
  match e.bulb.cal with
  | none => e
  | some c =>
    if e.beat.num.getLsbD 0 ∨ e.budget.bulb < writeCc e.beat.cc then e
    else
      let p := c.pos / calAccesses
      let next : Option Calibration := if c.pos + 1 < 272 * calAccesses then some { c with pos := c.pos + 1 } else none
      let e := { e with body := if c.pos % 2 = 0 then e.body.countWrite p else e.body, bulb := { e.bulb with cal := next } }
      (e.when (c.pos % calAccesses + 1 == calAccesses) (Engine.calibrated k r p c.outcomes)).spendBulb (writeCc e.beat.cc)

/-- The remap copy of a beat (R132, R135): the line pair of an odd beat and every background cycle that is left. -/
def Engine.remapBeat (k : Kit) (r : Regs) (e : Engine) : Engine :=
  let n := e.budget.bulb / (readCc e.beat.cc + writeCc e.beat.cc)
  if e.bulb.remap.isNone then e
  else (e.copyRemap k r n).spendBulb (n * (readCc e.beat.cc + writeCc e.beat.cc))

/-! ### Pollen, the vault, tenants, the plan -/

/-- A session's times at an edge (R207, R211, R222). -/
def Session.edge (rto cc : Nat) (s : Session) : Session :=
  let age (p : PortSess) : PortSess :=
    if p.nakFor.isNone then p
    else if rto ≤ p.nakAge + cc then { p with nakFor := Option.none, nakAge := 0 }
    else { p with nakAge := p.nakAge + cc }
  { s with
    sinceRx := if s.state = .keyed then s.sinceRx + 1 else s.sinceRx
    openBeats := if s.newSetup then s.openBeats + 1 else s.openBeats
    ports := s.ports.map fun (p : Nat × PortSess) => (p.1, age p.2) }

/-- Pollen at an edge: times, and the drops of strangers counted afresh (R205). -/
def Engine.pollenEdge (r : Regs) (cc : Nat) (e : Engine) : Engine :=
  let sess : Tab Session := e.pollen.sess.map fun (x : Nat × Session) => (x.1, x.2.edge r.rto cc)
  { e with pollen := { e.pollen with sess := sess, strangers := [] } }

/-- Ages of the exchanges of link queues (R293). -/
def Engine.ageCmds (e : Engine) : Engine :=
  let older (c : VCmd) : VCmd := if c.session.isSome then { c with age := c.age + 1 } else c
  let queues : Tab VQueue := e.vault.queues.map fun (x : Nat × VQueue) => (x.1, { x.2 with cmds := x.2.cmds.map older })
  { e with vault := { e.vault with queues := queues } }

/-- REMAINING counts down (R107). -/
def Engine.planEdge (e : Engine) : Engine :=
  if e.cut.planActive then { e with cut := { e.cut with planLeft := e.cut.planLeft - 1 } } else e

/-- A running RELEASE at an edge, before its latch (R332): at edge e the live counters of the tenant become zero. -/
def Engine.releaseBefore (cc t : Nat) (e : Engine) : Engine :=
  let x := e.tenant t
  match x.releasing with
  | none => e
  | some g =>
    match g.after with
    | some n => e.setTenant t { x with releasing := some { g with after := some (n + 1) } }
    | none =>
      if g.wait < cc then
        let e := { e with count := { e.count with live := (tenantCounters t).foldl (fun c o => tabErase o c) e.count.live } }
        e.setTenant t { x with releasing := some { g with wait := 0, after := some 0 } }
      else e.setTenant t { x with releasing := some { g with wait := g.wait - cc } }

/-- A running RELEASE at an edge, after the publication (R317, R332): at edge e + 3 the slot is FREE and its job completes. What the
RESULT counts is a free value (log 9). -/
def Engine.releaseAfter (k : Kit) (r : Regs) (t : Nat) (e : Engine) : Engine :=
  match (e.tenant t).releasing with
  | none => e
  | some g =>
    if g.after = some 3 then
      let e := e.setTenant t Tenant.none
      match g.job with
      | some id => (e.drawn).complete k r id 0 (natLE 4 e.freeWord.toNat)
      | none => e
    else e

/-! ### The edge -/

/-- What the edge counts for the beat just ended: beats in P1 and throttled beats (R340, R371). -/
def Engine.countBeat (e : Engine) : Engine :=
  let e := e.when (e.power.state == 1) fun e => e.bump Ctr.p1Beats 1
  e.when (decide (0 < e.power.level)) fun e => e.bump Ctr.throttledBeats 1

/-- The front is clear 32,768 cc after a reset (R372, R374). -/
def Engine.clearEdge (cc : Nat) (e : Engine) : Engine :=
  if e.power.frontClear then e
  else
    let n := e.front.clearedCc + cc
    { e with front := { e.front with clearedCc := n }, power := { e.power with frontClear := decide (32768 ≤ n) } }

/-- What waited for the grants of the new beat goes on (R42). -/
def Engine.resumeBeat (k : Kit) (r : Regs) (e : Engine) : Engine :=
  let e := (e.cutPump k r).guardPump k
  let e := e.forEach e.pollen.sess fun x e => if x.2.state = .keyed then e.serveSess k r (x.1 / 16) (x.1 % 16) else e
  e.pumpWindows k r

/-- A beat edge outside P2 (R35 to R45). Raises follow the source numbers (R348). -/
def Engine.edge (k : Kit) (r : Regs) (i : EdgeInput) (clamped : Bool) (e : Engine) : Engine :=
  let e := (e.countBeat.clearEdge i.cc).forEach (List.range 16) (Engine.releaseBefore i.cc)
  let e := { e with beat := e.beat.edge r i clamped }
  let e := ((e.countMiss .north).countMiss .south).latchEdge i
  let e := (e.broadcast bcBeat (e.beat.num.setWidth 64) 0).forEach (List.range 16) (Engine.releaseAfter k r)
  let e := ((e.enterRecovery k r).onReferee Referee.tick).settleClaims k r
  let e := e.when (!i.mirrorOk && e.referee.standbyReady) fun e => e.raise k r 0x04 none
  let e := (e.when clamped fun e => e.raise k r 0x09 none).throttleEdge k r i
  let e := (e.trimEdge k r i).supplyEdge k r i
  let e := ({ e with budget := e.grants k r }).grantBursts r
  let e := e.strike i.upsets
  let e := (((e.bodyPatrol k r).frontPatrol k r).calBeat k r).remapBeat k r
  ((e.planEdge.pollenEdge r i.cc).ageCmds.mirrorEdge).resumeBeat k r

/-- A beat edge in P2 (R371): counters stand still, but the beats are counted for the exit. -/
def Engine.edgeP2 (i : EdgeInput) (e : Engine) : Engine :=
  { e with beat := e.beat.edgeP2 i, power := { e.power with p2Beats := e.power.p2Beats + 1 } }

/-- BEAT_EDGE (R35 to R45, R119, R351, R362, R364, R366, R371). -/
def execBeatEdge (input : EdgeInput) (s : State) : Out :=
  s.eff fun k r e =>
    if !e.edgeAt input.cc then e
    else if e.power.state = 2 then e.edgeP2 input
    else e.edge k r input false

/-- BEAT_EDGE_CLAMPED (R35). -/
def execBeatEdgeClamped (early : Bool) (input : EdgeInput) (s : State) : Out :=
  s.eff fun k r e => if e.clampAt early input.cc then e.edge k r input true else e

/-! ### Modes -/

/-- BEAT_LOCK (R36): 16 consecutive crossings, each in the window after the one before. -/
def execBeatLock (gaps : List Nat) (s : State) : Out :=
  s.needs (gaps.length == 16) fun s => s.eff fun _ _ e =>
    if e.beat.mode ≠ .locked ∧ e.power.state ≠ 2 ∧ gaps.all (inWindow e.beat.cc) then
      { e with beat := { e.beat with mode := .locked, firstEdgeDue := e.beat.mode == .acquire } }
    else e

/-- BEAT_FREE_RUN (R36): 64 consecutive clamped edges. -/
def execBeatFreeRun (s : State) : Out :=
  s.eff fun k r e =>
    if e.beat.mode = .locked ∧ 64 ≤ e.beat.clampRun.toNat then
      ({ e with beat := { e.beat with mode := .freeRun } }).raise k r 0x08 none
    else e

/-- THROTTLE_FALL (R366): 500 consecutive edges whose target lay below LEVEL. -/
def execThrottleFall (s : State) : Out :=
  s.eff fun _ _ e =>
    if 500 ≤ e.power.cooler ∧ 0 < e.power.level then
      { e with power := { e.power with level := e.power.level - 1, cooler := 0 } }
    else e

end Sys2Proof.Machine
end

