-- ==== Sys2Proof/Machine/Bulb.lean ====
section
/-!
DEFINITION. The commands of the Bulb (05_bulb): the end of a body line write, retirement, rotation, the switch of a remap, the error
window, calibration.
-/

namespace Sys2Proof.Machine

/-! ### Body writes -/

/-- The oldest body write taken from the list. -/
def Engine.popWrite (e : Engine) : Engine := { e with bulb := { e.bulb with writes := e.bulb.writes.tail } }

/-- One write attempt counted for the bank that the line goes to (R129). -/
def Engine.countAttempt (u : BodyFor) (e : Engine) : Engine := { e with body := e.body.countWrite (e.writeBank u) }

/-- A body write has verified (R118): its line is stored and durable. The COMMIT_STATE write commits the cut (R188). -/
def Engine.bodyDone (k : Kit) (r : Regs) (w : BodyWrite) (e : Engine) : Engine :=
  let e := e.popWrite
  match w.use with
  | .vault n ver => (e.storeLine (e.bodyKey n) w.line).settleLine k r (.body n) ver 0
  | .copy n =>
    let e := (e.storeLine (e.bodyKey n) w.line).unfail (.body n)
    (e.settleLine k r (.body n) (e.verOf (.body n)) 0).copyNext r
  | .commitState t =>
    (e.countAttempt w.use).onRun fun run e =>
      ((e.setKept t ((e.kept t).committed run.slot run.epoch run.params.step)).commitCut k r run).pumpWindows k r

/-- A line of a body copy has failed for good: it stays dirty in the front (R118), the copy goes on with the rest (R117), and the
slot's COMPLETE bit stays clear (R127; log 27). -/
def Engine.copyFailed (r : Regs) (n : Nat) (l : Line) (e : Engine) : Engine :=
  let e := (e.onFront (Front.put (FrontLine.made .vault (.body n) l true noQueue))).markFailed (.body n) 0x26
  let copies : List BodyCopy := e.bulb.copies.modifyHead fun c => { c with failed := true }
  ({ e with bulb := { e.bulb with copies := copies } }).copyNext r

/-- A body write has failed for good (R118): its attempt and its failure counted, and what it was for told. -/
def Engine.bodyFailed (k : Kit) (r : Regs) (w : BodyWrite) (e : Engine) : Engine :=
  let bank := e.writeBank w.use
  let e := ((e.popWrite.countAttempt w.use).countWriteFail bank).raise k r 0x14 (some w.line.tenant)
  match w.use with
  | .vault n ver => e.settleLine k r (.body n) ver 0x26
  | .copy n => e.copyFailed r n w.line
  | .commitState _ => (e.endCut k r 0x26).pumpWindows k r

/-- The front can keep the line of a body write that fails for good: a vault line stands there already, a line of a body copy needs a
line of VAULT (R111, R112). -/
def Engine.mayFail (u : BodyFor) (e : Engine) : Bool :=
  match u with
  | .copy n => (e.front.find (.body n)).isSome || e.front.room .vault 1
  | _ => true

/-- BODY_WRITE_COMPLETE (R118, R127, R129, R188): the oldest body write and its read-back end; up to three retries. A line of a body copy
that VAULT has no room to keep is tried on (R112; log 75). -/
def execBodyWriteComplete (verified : Bool) (s : State) : Out :=
  s.eff fun k r e =>
    match e.bulb.writes with
    | [] => e
    | w :: rest =>
      if verified then e.bodyDone k r w
      else if w.attempts < 3 ∨ !e.mayFail w.use then
        let again : List BodyWrite := { w with attempts := w.attempts + 1 } :: rest
        (({ e with bulb := { e.bulb with writes := again } }).countAttempt w.use).bump Ctr.writeRetries 1
      else e.bodyFailed k r w

/-! ### Remaps -/

/-- BANK_RETIRE (R130, R133, R134). -/
def execBankRetire (bank : Nat) (s : State) : Out :=
  s.needs (decide (bank < 272)) fun s => s.eff fun _ r e =>
    if (e.body.bank bank).state = .inUse ∧ e.retireDue r bank then e.startRetire bank else e

/-- WEAR_ROTATE (R131). -/
def execWearRotate (s : State) : Out :=
  s.eff fun _ r e =>
    match e.bulb.remap, e.body.mostWritten (e.body.banksIn .inUse), e.body.leastWritten (e.body.banksIn .free) with
    | none, some p, some q =>
      if r.rotateGap * 2 ^ 32 < (e.body.bank p).writes.toNat - (e.body.bank q).writes.toNat then
        match e.body.logicalOf p with
        | some l =>
          let m : Remap := { logical := l, source := p, target := q, pointer := 0, retire := false }
          { e with bulb := { e.bulb with remap := some m } }
        | none => e
      else e
    | _, _, _ => e

/-- The failed vault lines of a logical bank are written again, to the new physical bank (R118). -/
def Engine.rewriteBank (k : Kit) (r : Regs) (l : Nat) (e : Engine) : Engine :=
  e.forEach e.vault.failed fun x e =>
    match x.1 with
    | .body n => if n / bankLines = l then e.rewrite k r x.1 else e
    | _ => e

/-- The retirement that waited longest starts, else that of a WORN bank (R133, R134). -/
def Engine.nextRetire (e : Engine) : Engine :=
  match e.bulb.due with
  | p :: rest => ({ e with bulb := { e.bulb with due := rest } }).startRetire p
  | [] =>
    match e.body.banksIn .worn, e.body.banksIn .free with
    | p :: _, _ :: _ => e.startRetire p
    | _, _ => e

/-- REMAP_SWITCH (R118, R132 to R134): the map entry switches to the target at the edge after the last line. -/
def execRemapSwitch (s : State) : Out :=
  s.eff fun k r e =>
    match e.bulb.remap with
    | none => e
    | some m =>
      if m.pointer < bankLines then e
      else
        let before := e.body.freeBanks
        let old : BankState := if m.retire then .retired else .free
        let b := { e.body with remap := tabPut (fun i => i) m.logical m.target e.body.remap }
        let b := b.setBank m.target { b.bank m.target with state := .inUse }
        let b := b.setBank m.source { b.bank m.source with state := old }
        let e := { e with body := b, bulb := { e.bulb with remap := none } }
        let e := e.when m.retire fun e =>
          (({ e with units := { e.units with spareBusy := false } }).bump Ctr.sparesUsed 1).raise k r 0x15 none
        let e := e.raiseSpares k r before
        ((if m.retire then e.rewriteBank k r m.logical else e)).nextRetire

/-! ### Window and calibration -/

/-- ERROR_WINDOW_END (R129): 43,200,000,000 beats after its start. -/
def execErrorWindowEnd (s : State) : Out :=
  s.eff fun _ _ e =>
    if 43200000000 ≤ e.beat.sinceWindow then
      { e with bulb := { e.bulb with errors := [] }, beat := { e.beat with sinceWindow := 0 } }
    else e

/-- CALIBRATION_PASS (R137, R364): every 500,000 beats the die temperature is read, the regulator's trim is set for it, and a pass over
the test lines of every bank starts, which the even beats carry out (`Engine.calBeat`). -/
def execCalibrationPass (temp : BitVec 8) (outcomes : List CalOutcome) (s : State) : Out :=
  s.eff fun _ _ e =>
    if 500000 ≤ e.beat.sinceCal then
      { e with bulb := { e.bulb with vwbGoal := Config.vwbTarget temp, cal := some { outcomes := outcomes, pos := 0 } }
               beat := { e.beat with sinceCal := 0 } }
    else e

end Sys2Proof.Machine
end

