-- ==== Sys2Proof/Machine/StreamOps.lean ====
section
/-!
DEFINITION. The refill streamer (10_restore_streams): descriptors, chunks, requests, arbitration, what a chunk becomes, halts and
endings. Source lines count from 0: element lines, then scale lines, on the uncoded side; coded form, then scale lines, on the
coded side. Destination lines count likewise; those of a SPILL are the lines of its run's extents, one after another (R230).
-/

namespace Sys2Proof.Machine

/-! ### Descriptors -/

/-- The descriptor that 128 bytes spell (R228). -/
def descrOf (bs : List Byte) : Descr :=
  let rf := leAt 80 1 bs
  { base := leAt 0 8 bs, codedBase := leAt 8 8 bs, counts := (List.range 6).map fun i => leAt (16 + 4 * i) 4 bs,
    strides := (List.range 5).map fun i => toSigned 64 (leAt (40 + 8 * i) 8 bs), rank := rf % 8, fence := bitOf 3 rf,
    format := leAt 81 1 bs, layer := leAt 82 2 bs, pace := leAt 84 2 bs, readSlots := leAt 86 1 bs, due0 := leAt 88 8 bs,
    recipe := leAt 96 4 bs % 1024, spillId := leAt 100 4 bs, xtsEpoch := leAt 104 4 bs, scaleBase := leAt 108 8 bs }

/-- A reserved bit of a descriptor is set. -/
def descrRsv (bs : List Byte) : Bool := leAt 80 1 bs / 16 != 0 || !zeroAt 87 1 bs || !zeroAt 116 12 bs

/-- Element lines of the sequence (R229). -/
def Descr.lines (d : Descr) : Nat := d.counts.foldl (fun a b => a * b) 1

/-- What the dimensions above 0 add to the address of a line (R229). -/
def strideSum : List Nat → List Int → Nat → Int
  | c :: cs, x :: xs, r => ((r % c : Nat) : Int) * x + strideSum cs xs (r / c)
  | _, _, _ => 0

/-- Address of element line `n`, before any wrap (R229). -/
def Descr.addrInt (n : Nat) (d : Descr) : Int :=
  let c0 := (d.counts.headD 1)
  (d.base : Int) + 64 * ((n % c0 : Nat) : Int) + strideSum ((d.counts.drop 1).take (d.rank - 1)) d.strides (n / c0)

/-- Address of element line `n`. -/
def Descr.addr (n : Nat) (d : Descr) : Nat := (d.addrInt n).toNat

/-- The first and the last byte address of the element lines lie at the corners of the sequence (R229): lowest address and end. -/
def Descr.span (d : Descr) : Int × Int :=
  let steps := ((d.counts.drop 1).take (d.rank - 1)).zip d.strides
  let low := (steps.map fun p => if p.2 < 0 then ((p.1 - 1 : Nat) : Int) * p.2 else 0).foldl (fun a b => a + b) 0
  let high := (steps.map fun p => if 0 < p.2 then ((p.1 - 1 : Nat) : Int) * p.2 else 0).foldl (fun a b => a + b) 0
  ((d.base : Int) + low, (d.base : Int) + high + 64 * ((d.counts.headD 1 : Nat) : Int))

/-! ### The sides of a stream -/

/-- Bytes of a block's elements. -/
def Stream.blockBytes (s : Stream) : Nat := 4 * s.fmt.width

/-- Chunks of a stream (R231). -/
def Stream.chunks (s : Stream) : Nat := ceilDiv s.elemLines 64

/-- Lines of the uncoded side. -/
def Stream.plainLines (s : Stream) : Nat := s.elemLines + s.scaleLines

/-- Lines of the coded side of a REFILL before its scale lines (R230). -/
def Stream.codedElem (s : Stream) : Nat :=
  match rateGeom s.rate with
  | some g => codedBytes g s.elemLines / 64
  | none => s.elemLines

/-- Element lines of chunk `c`. -/
def Stream.chunkElems (c : Nat) (s : Stream) : Nat := min 64 (s.elemLines - 64 * c)

/-- The first chunk that needs scale line `j` (R231). -/
def Stream.scaleFirst (j : Nat) (s : Stream) : Nat := j * s.blockBytes / 64

/-- The last chunk that needs scale line `j`. -/
def Stream.scaleLast (j : Nat) (s : Stream) : Nat := min (s.chunks - 1) (((64 * j + 64) * s.blockBytes - 1) / 4096)

/-- Scale lines that are fetched and written with chunk `c`. -/
def Stream.chunkScales (c : Nat) (s : Stream) : List Nat := (List.range s.scaleLines).filter fun j => s.scaleFirst j == c

/-- Lines of chunk `c` on the uncoded side: element lines, then scale lines behind the last element line. -/
def Stream.plainChunk (c : Nat) (s : Stream) : List Nat :=
  ((List.range (s.chunkElems c)).map fun i => 64 * c + i) ++ (s.chunkScales c).map fun j => s.elemLines + j

/-- Coded lines of chunk `c`, without the table line. -/
def Stream.codedLines (c : Nat) (s : Stream) : List Nat :=
  match rateGeom s.rate with
  | some g => (List.range (chunkCodedLines g (s.chunkElems c))).map fun i => 1 + c * g.chunkLines + i
  | none => (List.range (s.chunkElems c)).map fun i => 64 * c + i

/-- Lines of chunk `c` on the coded side of a REFILL; the table line goes with chunk 0. -/
def Stream.codedChunk (c : Nat) (s : Stream) : List Nat :=
  (if c = 0 ∧ (rateGeom s.rate).isSome then [0] else []) ++ s.codedLines c ++ (s.chunkScales c).map fun j => s.codedElem + j

/-- Source lines of chunk `c`. -/
def Stream.srcChunk (c : Nat) (s : Stream) : List Nat := if s.spill then s.plainChunk c else s.codedChunk c

/-- Chunk that line `n` of the uncoded side belongs to. -/
def Stream.plainChunkOf (n : Nat) (s : Stream) : Nat := if n < s.elemLines then n / 64 else s.scaleFirst (n - s.elemLines)

/-- Chunk that line `n` of the coded side of a REFILL belongs to. -/
def Stream.codedChunkOf (n : Nat) (s : Stream) : Nat :=
  if s.codedElem ≤ n then s.scaleFirst (n - s.codedElem)
  else match rateGeom s.rate with
    | some g => (n - 1) / g.chunkLines
    | none => n / 64

/-- Chunk that source line `n` is read with. -/
def Stream.srcChunkOf (n : Nat) (s : Stream) : Nat := if s.spill then s.plainChunkOf n else s.codedChunkOf n

/-- Last chunk that needs source line `n`: a staged line is kept until that chunk is written (R231). -/
def Stream.lastChunkOf (n : Nat) (s : Stream) : Nat :=
  let plain := if s.spill then s.elemLines else s.codedElem
  if plain ≤ n then s.scaleLast (n - plain)
  else if !s.spill && (rateGeom s.rate).isSome && n == 0 then s.chunks - 1
  else s.srcChunkOf n

/-- Host address of line `n` of the uncoded side. -/
def Stream.plainAddr (n : Nat) (s : Stream) : Nat :=
  if n < s.elemLines then s.descr.addr n else s.descr.scaleBase + 64 * (n - s.elemLines)

/-- Host address of line `n` of the coded side. -/
def Stream.codedAddr (n : Nat) (s : Stream) : Nat := s.descr.codedBase + 64 * n

def Stream.srcAddr (n : Nat) (s : Stream) : Nat := if s.spill then s.plainAddr n else s.codedAddr n
def Stream.dstAddr (n : Nat) (s : Stream) : Nat := if s.spill then s.codedAddr n else s.plainAddr n

/-! ### The run of a SPILL -/

/-- The shape of a SPILL's recipe. -/
def Stream.shape (s : Stream) : Shape := shapeOf s.steps

/-- Units that the run of a SPILL gathers from the region (R165, R230). -/
def Stream.units (s : Stream) : Nat := s.shape.units s.plainLines

/-- The chunk with which the last source line of unit `u` is read. -/
def Stream.unitDep (u : Nat) (s : Stream) : Nat :=
  let sh := s.shape
  if sh.lineWise then s.plainChunkOf (sh.elemOff + u)
  else max (s.plainChunkOf (sh.elemOff + (u * s.blockBytes + s.blockBytes - 1) / 64)) (s.plainChunkOf (sh.scaleOff + u / 64))

/-- The chunk that line `l` of the element plane waits for, before coding. -/
def Stream.planeDep (l : Nat) (s : Stream) : Nat :=
  if s.shape.lineWise then s.unitDep l
  else s.unitDep (min (s.units - 1) ((64 * l + 63) / (4 * s.shape.outFmt.width)))

/-- The chunk that line `i` of the element plane as stored waits for: a coded line waits for its whole chunk and for the sample of the
table, so that every coded chunk is made at once (R143, R155). -/
def Stream.mainDep (i : Nat) (s : Stream) : Nat :=
  match s.shape.code.bind rateGeom with
  | none => s.planeDep i
  | some g =>
    let p := s.shape.planeLines s.units
    let head := s.planeDep (min 63 (p - 1))
    if i = 0 then head else max head (s.planeDep (min (64 * ((i - 1) / g.chunkLines) + 63) (p - 1)))

/-- The chunk that destination line `i` of a SPILL is made with: the last whose source lines it needs; the lines of the escape extent,
which follow every other, with the last chunk (log 26). -/
def Stream.spillDep (i : Nat) (s : Stream) : Nat :=
  let sh := s.shape
  let n := s.units
  let plane := sh.planeBytes n / 64
  let main := sh.mainLen n / 64
  if i < plane then s.mainDep i
  else if i < main then s.unitDep (min (n - 1) (64 * (i - plane) + 63))
  else if i < main + sh.resLen n / 64 then
    (match sh.narrow with
     | some (src, wt, _, _) => s.unitDep (min (n - 1) ((64 * (i - main) + 63) / resSize src.width wt.width))
     | none => s.chunks - 1)
  else s.chunks - 1

/-- Chunk that destination line `n` is written with. -/
def Stream.dstChunkOf (n : Nat) (s : Stream) : Nat := if s.spill then s.spillDep n else s.plainChunkOf n

/-- Chunk `c` is written and acknowledged. -/
def Stream.done (c : Nat) (s : Stream) : Bool := s.made.contains c && !(s.out.any fun p => s.dstChunkOf p.1 == c)

/-- The oldest chunk whose destination writes are not all acknowledged (R235). -/
def Stream.oldest (s : Stream) : Nat := (lowestFrom (fun c => !s.done c) 0 s.chunks).getD s.chunks

/-- Chunks that are done. -/
def Stream.doneCount (s : Stream) : Nat := ((List.range s.chunks).filter fun c => s.done c).length

/-- Source lines that chunk `c` needs: every line up to it for the run of a SPILL, its own for a REFILL. -/
def Stream.needs (c : Nat) (s : Stream) : List Nat :=
  if s.spill then (List.range s.plainLines).filter fun n => decide (s.plainChunkOf n ≤ c) else s.codedChunk c

/-! ### Requests -/

/-- Lines that follow one at address `a` without a gap, in the same page and chunk, at most `room` (R234, R385). -/
def runAfter (addr chunk : Nat → Nat) (c : Nat) : Nat → Nat → List Nat → List Nat
  | _, _, [] => []
  | 0, _, _ => []
  | room + 1, a, n :: rest =>
    if addr n = a + 64 ∧ addr n % 4096 ≠ 0 ∧ chunk n = c then n :: runAfter addr chunk c room (a + 64) rest else []

/-- The lines of the next request of a list. -/
def firstRun (addr chunk : Nat → Nat) : List Nat → List Nat
  | [] => []
  | n :: rest => n :: runAfter addr chunk (chunk n) 63 (addr n) rest

/-- The lines of the stream's next read: only below the fetch window (R235). -/
def Stream.nextRead (s : Stream) : List Nat :=
  match s.toRead with
  | [] => []
  | n :: _ =>
    if s.srcChunkOf n < s.oldest + 8 then firstRun (fun i => s.srcAddr i) (fun i => s.srcChunkOf i) s.toRead else []

/-- The lines of the stream's next write. -/
def Stream.nextWrite (s : Stream) : List Nat := firstRun (fun i => s.dstAddr i) (fun i => s.dstChunkOf i) s.toWrite

/-- A request of uncoded lines covers more than one run of dimension 0 (R234). -/
def Stream.merged (lines : List Nat) (s : Stream) : Bool :=
  lines.tail.any fun n => decide (n < s.elemLines) && n % s.descr.counts.headD 1 == 0

/-! ### Shares -/

/-- Lines left of the stream share of tenant `t` on channel `c` (R43, R237): its own in sealed mode, the pool in shared mode. -/
def Engine.shareLeft (write : Bool) (c t : Nat) (e : Engine) : Nat :=
  if e.beat.sealed then e.tenantMem write c t else e.streamPool write c

/-- A stream of tenant `t` may move `n` lines on a channel (R29, R237): within the stream share, and a SPILL only in what refill streams
and the cut have left of the channel, the hold share kept back (R98). -/
def Engine.streamCovers (write spill : Bool) (c t n : Nat) (e : Engine) : Bool :=
  decide (n ≤ e.shareLeft write c t) && decide (n + (if spill && !write then e.holdLeft c else 0) ≤ e.memLeft write c)

/-- `n` lines taken from the shares of a list of tenants in order. -/
def takeShare (c : Nat) : List Nat → Nat → Tab Nat → Tab Nat
  | [], _, tab => tab
  | t :: ts, n, tab =>
    let d := min n (tabGet (fun _ => 0) (16 * c + t) tab)
    takeShare c ts (n - d) (tabPut (fun _ => 0) (16 * c + t) (tabGet (fun _ => 0) (16 * c + t) tab - d) tab)

/-- Tenant `t` first, then every other. -/
def tenantFirst (t : Nat) : List Nat := t :: (List.range 16).filter fun u => u != t

/-- `n` lines of stream traffic charged (R41). -/
def Engine.chargeStream (write : Bool) (c t n : Nat) (e : Engine) : Engine :=
  let e := e.spendMem write c n
  let b := e.budget
  { e with budget :=
    if write then { b with streamWrite := takeShare c (tenantFirst t) n b.streamWrite }
    else { b with streamRead := takeShare c (tenantFirst t) n b.streamRead } }

/-! ### Streams in the engine -/

/-- Stream `n`, if it is held by a SPILL or REFILL. -/
def Engine.stream (n : Nat) (e : Engine) : Option Stream := tabFind n e.streams.held

/-- Stream `n` replaced. -/
def Engine.setStream (n : Nat) (s : Stream) (e : Engine) : Engine :=
  { e with streams := { e.streams with held := tabSet n s e.streams.held } }

/-- The running entry that a stream number of a restore carries. -/
def Engine.restoreOn (n : Nat) (e : Engine) : Option (Restore × RestoreEntry) :=
  e.streams.restores.findSome? fun x => (x.entries.find? fun y => y.state == .running && y.stream == n).map fun y => (x, y)

/-- A restore changed. -/
def Engine.onRestore (id : JobId) (f : Restore → Restore) (e : Engine) : Engine :=
  { e with streams := { e.streams with restores := updFirst (fun x => x.job == id) f e.streams.restores } }

/-- An entry of a restore changed. -/
def Restore.onEntry (stream : Nat) (f : RestoreEntry → RestoreEntry) (x : Restore) : Restore :=
  { x with entries := updFirst (fun y => y.state == .running && y.stream == stream) f x.entries }

/-- Streams held (R227). -/
def Engine.streamCount (e : Engine) : Nat :=
  e.streams.held.length + (e.streams.restores.map fun x => x.numbers.length).sum

/-- Streams of a tenant. -/
def Engine.streamsOf (t : TenantNo) (e : Engine) : Nat :=
  (e.streams.held.filter fun p => p.2.tenant == t).length +
    ((e.streams.restores.filter fun x => x.tenant == t).map fun x => x.numbers.length).sum

/-- Read trackers reserved by streams that satisfy `p` and restores that satisfy `q` (R233, R244). -/
def Engine.readReserved (p : Stream → Bool) (q : Restore → Bool) (e : Engine) : Nat :=
  ((e.streams.held.filter fun x => p x.2).map fun x => x.2.descr.readSlots).sum +
    ((e.streams.restores.filter q).map fun x => 16 * x.numbers.length).sum

/-- The limits on streams and read trackers for a job that adds `n` streams and `reads` trackers (R227, R233, R337). -/
def Engine.streamLimits (r : Regs) (t : TenantNo) (n reads : Nat) (e : Engine) : List (Bool × Code) :=
  let tn := t.toNat
  [(decide (2048 < e.readReserved (fun _ => true) (fun _ => true) + reads) ||
      (e.beat.sealed && decide (r.quotaReads tn < e.readReserved (fun x => x.tenant == t) (fun x => x.tenant == t) + reads)), 0x53),
   (decide (512 < e.streamCount + n) || (e.beat.sealed && decide (r.quotaStreams tn < e.streamsOf t + n)), 0x54)]

/-- The number is in use. -/
def Engine.numberUsed (n : Nat) (e : Engine) : Bool :=
  (tabFind n e.streams.held).isSome || e.streams.restores.any fun x => x.numbers.contains n

/-- The lowest `k` free stream numbers (log 29). -/
def Engine.freeNumbers (k : Nat) (e : Engine) : List Nat := ((List.range 512).filter fun n => !e.numberUsed n).take k

/-- A stream that a stream with layer `layer` and order `order` waits for under its fence (R238): one of the same tenant, accepted before
it, with another LAYER. The streams of a RESTORE have LAYER 0 (log 58). -/
def Engine.fenceHolds (t : TenantNo) (layer order : Nat) (e : Engine) : Bool :=
  (e.streams.held.any fun p => p.2.tenant == t && decide (p.2.order < order) && p.2.descr.layer != layer) ||
    e.streams.restores.any fun x => x.tenant == t && decide (x.order < order) && layer != 0

/-- A request holds one of the streamer's write trackers until it is answered (R233, R234): a write of a stream or of a restore, one of
them whose job has ended among them. -/
def Engine.tracked (q : MemReq) (e : Engine) : Bool :=
  match q.use with
  | .streamWrite _ _ => true
  | .restoreWrite _ _ => true
  | .closing (some id) _ _ _ =>
    e.rings.jobs.any fun j => j.id == id && (match j.kind with | .stream _ => true | .restore => true | _ => false)
  | .dropped tracker => tracker
  | _ => false

/-- A write tracker is free (R233). -/
def Engine.writeTracker (e : Engine) : Bool := decide ((e.mem.reqs.filter fun q => e.tracked q).length < 1024)

/-- A front line is one that stream `n` stages. -/
def FrontLine.ofStream (n : Nat) (l : FrontLine) : Bool :=
  match l.key with
  | .stream m _ => m == n
  | _ => false

/-- STREAM lines that a tenant's streams hold: staged ones, and those whose reads are under way. -/
def Engine.stagedOf (t : TenantNo) (e : Engine) : Nat :=
  (e.front.lines.filter fun l => l.part == .stream && l.line.tenant == t).length +
    ((e.streams.held.filter fun p => p.2.tenant == t).map fun p => p.2.reading).sum +
    ((e.streams.restores.filter fun x => x.tenant == t).map fun x => (x.entries.map fun y => y.reading).sum).sum

/-- The STREAM partition can take `n` more lines of a tenant (R111, R112, R337). -/
def Engine.streamRoom (r : Regs) (t : TenantNo) (n : Nat) (e : Engine) : Bool :=
  let all := ((List.range 16).map fun u => r.tshareBulb u).sum
  e.front.room .stream n &&
    (!e.beat.sealed || decide (e.stagedOf t + n ≤ Part.size .stream * r.tshareBulb t.toNat / all))

/-- Lines whose reads are under way counted in the STREAM partition. -/
def Engine.awaitLines (n : Nat) (e : Engine) : Engine := e.onFront fun f => { f with streamLines := f.streamLines + n }

/-- The same, no longer. -/
def Engine.releaseAwaited (n : Nat) (e : Engine) : Engine := e.onFront fun f => { f with streamLines := f.streamLines - n }

/-- A source line reaches the front for stream `n` of tenant `t` (R20, R108, R111). -/
def Engine.stageLine (t : TenantNo) (n i cls : Nat) (sealed coded : Bool) (b : MemBeat) (e : Engine) : Engine :=
  let l := { Line.ofData b.data t (BitVec.ofNat 4 cls) b.poison with sealed := sealed, coded := coded }
  e.onFront (Front.put (FrontLine.made .stream (.stream n i) l false 0))

/-- Staged lines of stream `n` read by the pipeline (R20, R119, R120): what they hold, the code of the worst of them, and the engine
after it. -/
def Engine.readStaged (k : Kit) (r : Regs) (n : Nat) (lines : List Nat) (e : Engine) : Tab MemBeat × Code × Engine :=
  let x := e.pipeRead k r (e.front.lines.filter fun l => match l.key with | .stream m i => m == n && lines.contains i | _ => false)
  (lines.filterMap fun i => (x.2.front.find (.stream n i)).map fun f => (i, { data := f.line.data, poison := f.line.poison }), x.1, x.2)

/-- Line `i` of stream `n` is staged. -/
def Engine.isStaged (n i : Nat) (e : Engine) : Bool := (e.front.find (.stream n i)).isSome

/-- Every source line that chunk `c` of a stream needs has been read or is staged. -/
def Engine.chunkStaged (n c : Nat) (s : Stream) (e : Engine) : Bool :=
  (s.needs c).all fun i => (tabFind i s.got).isSome || e.isStaged n i

/-! ### Restores -/

/-- A location holds a shard (check 5 of R246). -/
def SrcLoc.holdsShard (s : ShardEntry) (l : SrcLoc) : Bool := l.kind != 2 || s.buddies.contains l.peer

/-- A location holds extent `i` of the shard that stands at place `si` of the manifest (R189, R246). -/
def SrcLoc.holds (s : ShardEntry) (si i : Nat) (l : SrcLoc) : Bool :=
  l.holdsShard s && (l.kind != 0 || decide (si < l.absent.1) || (si == l.absent.1 && decide (i < l.absent.2)))

/-- The locations of a group that hold an extent, in ascending order. -/
def SrcGroup.holders (s : ShardIn) (x : ExtentIn) (g : SrcGroup) : List SrcLoc :=
  let si := (g.listed.findIdx? fun y => y == s.entry).getD 0
  g.locs.filter fun l => l.holds s.entry si x.idx

/-- The extent that a piece of an entry reads, with its group and shard. -/
def Restore.extentOf (p : SrcPiece) (x : Restore) : Option (SrcGroup × ShardIn × ExtentIn) :=
  (x.groups[p.group]?).bind fun g => (g.shards[p.shard]?).bind fun s => (s.extents[p.extent]?).map fun y => (g, s, y)

/-- The piece that source line `n` of an entry belongs to. -/
def RestoreEntry.pieceOf (n : Nat) (y : RestoreEntry) : Option SrcPiece :=
  y.pieces.find? fun p => decide (p.first ≤ n) && decide (n < p.first + p.lines)

/-- Where source line `n` of an entry is read: its piece, the location, and its byte offset in the location's slot. -/
def Restore.lineAt (y : RestoreEntry) (n : Nat) (x : Restore) : Option (SrcPiece × SrcLoc × Nat) :=
  (y.pieceOf n).bind fun p => (x.extentOf p).bind fun z =>
    ((z.1.holders z.2.1 z.2.2)[p.holder]?).map fun l => (p, l, z.2.1.entry.off + z.2.2.off + 64 * (n - p.first))

/-- Host address of a source line that a location in host memory holds. -/
def Restore.lineAddr (y : RestoreEntry) (n : Nat) (x : Restore) : Nat :=
  match x.lineAt y n with
  | some z => z.2.1.base + z.2.2
  | none => 0

/-- The lines of an entry's next read (R234, R252): those of one MEM request, or one line of the body or of a peer. -/
def Restore.nextRead (y : RestoreEntry) (x : Restore) : List Nat :=
  match y.toRead with
  | [] => []
  | n :: _ =>
    match x.lineAt y n with
    | some (_, l, _) =>
      if l.kind = 1 then
        firstRun (fun i => x.lineAddr y i)
          (fun i => match x.lineAt y i with | some z => if z.2.1.kind = 1 then 1 + i / 64 + 2 ^ 40 * z.1.first else 0 | none => 0) y.toRead
      else [n]
    | none => [n]

/-! ### What holds a request -/

/-- A write of `n` lines at `addr` for tenant `t` may go, or the highest-ranked cause that it may not (R239). `guarded` says that
R101 holds it at an undrained granule. -/
def Engine.writeCause (k : Kit) (t : TenantNo) (spill : Bool) (addr n : Nat) (e : Engine) : Nat :=
  if !spill && (e.guard.undrainedAt addr).isSome then 3
  else if !e.writeTracker then 6
  else if !e.streamCovers true spill (channelOf k addr) t.toNat n then 7
  else 0

/-- The same for a stream's next write. -/
def Engine.streamWriteCause (k : Kit) (s : Stream) (e : Engine) : Option Nat :=
  match s.nextWrite with
  | [] => none
  | n :: rest => some (e.writeCause k s.tenant s.spill (s.dstAddr n) (1 + rest.length))

/-- The same for a stream's next read. -/
def Engine.streamReadCause (k : Kit) (r : Regs) (s : Stream) (e : Engine) : Option Nat :=
  match s.nextRead with
  | [] => none
  | n :: rest =>
    some (if !e.streamRoom r s.tenant (1 + rest.length) then 4
      else if s.descr.readSlots ≤ s.reads then 5
      else if !e.streamCovers false s.spill (channelOf k (s.srcAddr n)) s.tenant.toNat (1 + rest.length) then 7
      else 0)

/-- Lines that a write of a restore touches. -/
def RestoreWrite.lines (w : RestoreWrite) : Nat := writeLines w.addr w.bytes.length

/-- The source of a body or peer line of tenant `t` cannot give it now (R239): a write of its bank is under way, or the peer is not
reached. -/
def Engine.sourceBusy (r : Regs) (t : TenantNo) (l : SrcLoc) (off : Nat) (e : Engine) : Bool :=
  if l.kind = 0 then
    let line := r.partLine t.toNat (b2n l.slot * r.slotLines t.toNat + off / 64)
    e.bulb.writes.any fun w => e.writeBank w.use == e.bodyKey line / bankLines
  else if l.kind = 2 then
    match (List.range 16).find? fun i => r.peerEnable t.toNat i && r.peerId t.toNat i == l.peer with
    | some i => (e.sess t.toNat i).state != .keyed || (e.sess t.toNat i).live == 0
    | none => true
  else false

/-- An entry's next read may go, or the cause that it may not (R233, R235, R239, R252). -/
def Engine.entryReadCause (k : Kit) (r : Regs) (x : Restore) (y : RestoreEntry) (e : Engine) : Option Nat :=
  match x.nextRead y with
  | [] => none
  | n :: rest =>
    some (if !e.streamRoom r x.tenant (1 + rest.length) then 4
      else match x.lineAt y n with
        | some (_, l, off) =>
          if l.kind = 1 then
            (if 16 ≤ y.reads then 5
             else if !e.streamCovers false false (channelOf k (l.base + off)) x.tenant.toNat (1 + rest.length) then 7 else 0)
          else if e.sourceBusy r x.tenant l off then 9 else 0
        | none => 0)

/-- A restore entry's next request may go, or the cause that it may not: its reads come before its writes. -/
def Engine.entryCause (k : Kit) (r : Regs) (x : Restore) (y : RestoreEntry) (e : Engine) : Option Nat :=
  if y.halted.isSome then none
  else match y.writes with
    | [] => e.entryReadCause k r x y
    | w :: _ => some (e.writeCause k x.tenant false w.addr w.lines)

/-! ### Deadline arbitration -/

/-- Stream number `n` is able to issue. -/
def Engine.able (k : Kit) (r : Regs) (n : Nat) (e : Engine) : Bool :=
  match e.stream n with
  | some s => s.state == .running && (e.streamWriteCause k s == some 0 || e.streamReadCause k r s == some 0)
  | none =>
    match e.restoreOn n with
    | some (x, y) => e.entryCause k r x y == some 0
    | none => false

/-- The beat at whose end chunk `c` is due (R236); none without a deadline. -/
def Descr.dueOf (c : Nat) (d : Descr) : Option Nat := if d.due0 = 2 ^ 64 - 1 then none else some (d.due0 + c * d.pace / 256)

/-- The beat at whose end the stream's next unissued chunk is due. -/
def Engine.dueOf (n : Nat) (e : Engine) : Option Nat :=
  (e.stream n).bind fun s =>
    s.descr.dueOf (match s.toWrite, s.toRead with
      | w :: _, _ => s.dstChunkOf w
      | [], q :: _ => s.srcChunkOf q
      | [], [] => 0)

/-- The stream that deadline arbitration grants among those that satisfy `p` (R237): the smallest due beat, a tie to the lower number;
without deadlines, the next in stream order after the one granted last. -/
def arbitrate (p : Nat → Bool) (due : Nat → Option Nat) (turn : Nat) : Option Nat :=
  let able := (List.range 512).filter p
  let dated := able.filterMap fun n => (due n).map fun d => (d, n)
  match dated.foldl (fun best x =>
      match best with
      | none => some x
      | some y => if x.1 < y.1 then some x else some y) (none : Option (Nat × Nat)) with
  | some x => some x.2
  | none => (able.find? fun n => decide (turn < n)).orElse fun _ => able.head?

/-- The stream that is granted the MEM request and the STREAM line. -/
def Engine.winner (k : Kit) (r : Regs) (e : Engine) : Option Nat :=
  arbitrate (fun n => e.able k r n) (fun n => e.dueOf n) e.streams.turn

/-! ### Issuing -/

/-- The stream's next write issued (R234, R388, R389). -/
def Engine.issueWrite (k : Kit) (n : Nat) (s : Stream) (e : Engine) : Engine :=
  let lines := s.nextWrite
  let addr := s.dstAddr (lines.headD 0)
  let beats := lines.map fun i => (tabFind i s.out).getD { data := 0, poison := false }
  let marks := if beats.any fun b => b.poison then beats.map fun b => b.poison else []
  let e := (e.setStream n { s with toWrite := s.toWrite.drop lines.length, writes := s.writes + 1 }).chargeStream true (channelOf k addr)
    s.tenant.toNat lines.length
  (e.memWrite k addr (bytesOfLines (beats.map fun b => b.data)) marks 2 (.streamWrite n lines)).bump Ctr.mergedReqs
    (b2n (!s.spill && s.merged lines))

/-- The stream's next read issued. -/
def Engine.issueRead (k : Kit) (n : Nat) (s : Stream) (e : Engine) : Engine :=
  let lines := s.nextRead
  let addr := s.srcAddr (lines.headD 0)
  let e := e.setStream n { s with toRead := s.toRead.drop lines.length, reads := s.reads + 1, reading := s.reading + lines.length }
  let e := (e.chargeStream false (channelOf k addr) s.tenant.toNat lines.length).awaitLines lines.length
  (e.memRead k addr lines.length 2 (.streamRead n lines)).bump Ctr.mergedReqs (b2n (s.spill && s.merged lines))

/-- A restore entry's next write issued (R252). -/
def Engine.issueEntryWrite (k : Kit) (x : Restore) (y : RestoreEntry) (e : Engine) : Engine :=
  match y.writes with
  | [] => e
  | w :: rest =>
    let e := e.onRestore x.job (Restore.onEntry y.stream fun y => { y with writes := rest, sent := y.sent ++ [w], cause := 0 })
    (e.chargeStream true (channelOf k w.addr) x.tenant.toNat w.lines).memWrite k w.addr w.bytes (if w.poison.any id then w.poison else []) 2
      (.restoreWrite x.job y.stream)

/-- A stream that cannot issue counts one cycle of its cause (R239; log 9). -/
def Engine.stall (n cause : Nat) (e : Engine) : Engine :=
  if cause = 0 then e
  else
    let e := e.bump (Ctr.stallCc cause) 1
    match e.stream n with
    | some s => e.setStream n { s with cause := cause }
    | none =>
      match e.restoreOn n with
      | some (x, _) => e.onRestore x.job (Restore.onEntry n fun y => { y with cause := cause })
      | none => e

/-- The granule that the stream's write waits at moves to priority 1 (R101). -/
def Engine.holdWrite (addr : Nat) (e : Engine) : Engine :=
  match e.guard.undrainedAt addr with
  | some (g, x) => e.waitGuard g x (addr / 4096 % 256)
  | none => e

/-! ### What a chunk becomes -/

/-- A line as it is written to the coded side (R22, R326). -/
def Stream.seal (key : BitVec 512) (n : Nat) (b : MemBeat) (s : Stream) : MemBeat :=
  if b.poison then b else { b with data := xtsEncrypt key (tweak n s.xtsEpoch s.descr.spillId) b.data }

/-- A line read from the coded side. -/
def Stream.unseal (key : BitVec 512) (n : Nat) (b : MemBeat) (s : Stream) : MemBeat :=
  if s.sealed && !b.poison then { b with data := xtsDecrypt key (tweak n s.xtsEpoch s.descr.spillId) b.data } else b

/-- A source line as the pipeline has read it; one that it has not read yet stands for zeros. -/
def Stream.line (n : Nat) (s : Stream) : MemBeat := (tabFind n s.got).getD { data := 0, poison := false }

/-- The source of a SPILL's run. -/
def Stream.source (s : Stream) : List MemBeat := (List.range s.plainLines).map fun n => s.line n

/-- The extents of a SPILL's run over what has been read of its source (R159 to R161). -/
def Stream.runExtents (s : Stream) : List Extent :=
  let sh := s.shape
  if sh.lineWise then [mainExtent sh 8 s.units 0 ((s.source.drop sh.elemOff).take s.units)]
  else runNumeric s.steps 8 (s.seed.getD 0) s.source

/-- The lines of those extents one after another, each with whether its stream is sealed. -/
def Stream.runLines (s : Stream) : List (Bool × MemBeat) := s.runExtents.flatMap fun x => x.lines.map fun b => (bitOf 3 x.flags, b)

/-- Entries of a list whose place satisfies `p`. -/
def pick {α : Type} (p : Nat → Bool) (xs : List α) : List α := (xs.zipIdx.filter fun x => p x.2).map fun x => x.1

/-- The output of chunk `c` of a SPILL: the destination lines that wait for it (R140 to R149, R230). -/
def Stream.spillChunk (key : BitVec 512) (c : Nat) (s : Stream) : List (Nat × MemBeat) :=
  ((s.runLines.mapIdx fun i p => (i, p)).filter fun p => s.spillDep p.1 == c).map fun p =>
    (p.1, if p.2.1 then s.seal key p.1 p.2.2 else p.2.2)

/-- The slots that chunk `c` of a SPILL makes. -/
def Stream.spillModes (c : Nat) (s : Stream) : List SlotMode :=
  match s.shape.code.bind rateGeom with
  | some g => pick (fun l => s.mainDep (1 + l / 64 * g.chunkLines + l % 64 / g.group) == c)
      (planeModes s.shape (runPlane s.steps (s.seed.getD 0) s.source))
  | none => []

/-- The units of a SPILL's run that chunk `c` completes, each with its poison mark and what its NARROW recorded. -/
def Stream.chunkRun (c : Nat) (s : Stream) : List UnitRun × List (Option (Block × Narrowed)) :=
  let st := runSteps (s.seed.getD 0) s.fmt s.steps { units := gatherUnits s.shape s.source, narrowed := [] }
  (pick (fun u => s.unitDep u == c) st.units, pick (fun u => s.unitDep u == c) st.narrowed)

/-- Units that chunk `c` of a SPILL completes (07_recipes, RECIPE_UNITS): a poisoned one does not count (R175). -/
def Stream.chunkUnits (c : Nat) (s : Stream) : Nat :=
  if s.shape.lineWise then
    ((List.range s.units).filter fun u => s.unitDep u == c && !(s.line (s.shape.elemOff + u)).poison).length
  else ((s.chunkRun c).1.filter fun u => !u.poison).length

/-- A coded chunk of a SPILL's element plane is made with stream chunk `c`, and needs a lane (R155). -/
def Stream.needsLane (c : Nat) (s : Stream) : Bool :=
  if s.spill then
    match s.shape.code.bind rateGeom with
    | some g => (List.range (1 + ceilDiv (s.shape.planeLines s.units) 64)).any fun j => s.mainDep (if j = 0 then 0 else 1 + (j - 1) * g.chunkLines) == c
    | none => false
  else (rateGeom s.rate).isSome

/-- A line that stands for a slot that failed or is poisoned (R153). -/
def MemBeat.lost : MemBeat := { data := 0, poison := true }

/-- What chunk `c` of a REFILL decodes to, slot by slot (R153); a slot of a poisoned coded line is poisoned. -/
def Stream.slots (key : BitVec 512) (g : RateGeom) (ls : List Nat) (c : Nat) (s : Stream) : List Decoded :=
  let coded := (s.codedLines c).map fun n => s.unseal key n (s.line n)
  (decodeChunk g s.fmt.width ls (coded.map fun b => b.data) (s.chunkElems c)).mapIdx fun j d =>
    if (coded[j / g.group]?).any fun b => b.poison then .poisoned else d

/-- The output of chunk `c` of a REFILL. -/
def Stream.refillChunk (key : BitVec 512) (c : Nat) (s : Stream) : List (Nat × MemBeat) :=
  let elems : List MemBeat := match rateGeom s.rate, s.table with
    | some g, some ls => (s.slots key g ls c).map fun d =>
        match d with
        | .line x => { data := x, poison := false }
        | _ => MemBeat.lost
    | _, _ => (s.codedLines c).map fun n => s.unseal key n (s.line n)
  let scales := (s.chunkScales c).map fun j => s.unseal key (s.codedElem + j) (s.line (s.codedElem + j))
  (s.plainChunk c).zip (elems ++ scales)

/-- The code that chunk `c` gives its job (R120, R123, R153): its first failing slot in order decides, then its first poisoned source
line. -/
def Stream.chunkCode (key : BitVec 512) (c : Nat) (s : Stream) : Code :=
  let decoded : List Code := match s.spill, rateGeom s.rate, s.table with
    | false, some g, some ls => (s.slots key g ls c).map fun d =>
        match d with
        | .line _ => 0
        | .poisoned => 0x21
        | .bad => 0x23
    | _, _, _ => []
  let read : List Code := (s.srcChunk c).map fun n => if (s.line n).poison then 0x21 else 0
  ((decoded ++ read).find? fun x => x != 0).getD 0

/-- What a chunk of a SPILL counts (03_arithmetic, 06_poppy_codec, 07_recipes, 13_security). -/
def Engine.countSpill (c : Nat) (out : List (Nat × MemBeat)) (s : Stream) (e : Engine) : Engine :=
  let t := s.tenant.toNat
  let flags := s.runLines.map fun p => p.1
  let e := (e.countEncoded t (s.spillModes c) s.shape.outFmt.width).bump (Ctr.linesSealed t)
    (out.filter fun p => (flags[p.1]?).getD false && !p.2.poison).length
  let e := e.bump Ctr.recipeUnits (s.chunkUnits c)
  if s.shape.lineWise then e
  else
    let done := (s.chunkRun c).2.filterMap id
    ((e.bump (Ctr.narrowBlocks t) done.length).bump (Ctr.elemSat t) ((done.map fun p => p.2.satCount).sum)).bump (Ctr.expSat t)
      (done.filter fun p => p.2.esc).length

/-- What a chunk of a REFILL counts. -/
def Engine.countRefill (key : BitVec 512) (c : Nat) (s : Stream) (e : Engine) : Engine :=
  let t := s.tenant.toNat
  let e := e.bump (Ctr.linesUnsealed t) (if s.sealed then ((s.srcChunk c).filter fun n => !(s.line n).poison).length else 0)
  match rateGeom s.rate, s.table with
  | some g, some ls =>
    let slots := s.slots key g ls c
    ((e.bump (Ctr.slotsDecoded t) (s.chunkElems c)).bump (Ctr.decodeErrors t)
      (slots.filter fun d => match d with | .bad => true | _ => false).length).bump (Ctr.poisonSlots t)
      (slots.filter fun d => match d with | .poisoned => true | _ => false).length
  | _, _ => e

/-- The lines that a chunk needs taken by the pipeline: the stream with them, the code of the worst of them, the engine after it. -/
def Engine.takeLines (k : Kit) (r : Regs) (n : Nat) (lines : List Nat) (s : Stream) (e : Engine) : Stream × Code × Engine :=
  let x := e.readStaged k r n (lines.filter fun i => (tabFind i s.got).isNone)
  ({ s with got := x.1.foldl (fun t p => tabSet p.1 p.2 t) s.got }, x.2.1, x.2.2)

/-- The seed of a SPILL's run: drawn or taken once, when its first chunk is made (R65). -/
def Engine.seedStream (s : Stream) (e : Engine) : Stream × Engine :=
  if s.seed.isSome || !s.spill then (s, e)
  else
    let x := e.seedOf s.steps
    ({ s with seed := some x.1 }, x.2)

/-- Chunk `c` of stream `n` made: the pipeline reads its lines, its output waits to be written, and its counters rise. The first chunk
that meets a code decides the job's (log 85). -/
def Engine.makeChunk (k : Kit) (r : Regs) (n c : Nat) (e : Engine) : Engine :=
  match e.stream n with
  | none => e
  | some s =>
    let key := e.sealKey s.tenant
    let x := e.takeLines k r n (s.needs c) s
    let y := x.2.2.seedStream x.1
    let s := y.1
    let out := if s.spill then s.spillChunk key c else s.refillChunk key c
    let code := if x.2.1 = 0x20 then 0x20 else s.chunkCode key c
    let s' := { s with
      made := c :: s.made
      out := out.foldl (fun tab p => tabSet p.1 p.2 tab) s.out
      toWrite := s.toWrite ++ out.map fun p => p.1
      escLines := if s.spill && c + 1 == s.chunks then s.runLines.length - (s.shape.mainLen s.units + s.shape.resLen s.units) / 64 else s.escLines
      code := if s.code = 0 then code else s.code }
    let e := y.2.setStream n s'
    if s.spill then e.countSpill c out s else e.countRefill key c s

/-- A chunk may be made: every line that it needs is there, and a draw that it needs may be made. -/
def Engine.chunkDue (n c : Nat) (s : Stream) (e : Engine) : Bool :=
  !s.made.contains c && e.chunkStaged n c s && (s.seed.isSome || !needsDraw s.steps || e.mayDraw)

/-- Output that needs no lane made, within the fetch window. -/
def Engine.makeReady (k : Kit) (r : Regs) (n : Nat) (e : Engine) : Engine :=
  match e.stream n with
  | none => e
  | some s =>
    e.forEach ((List.range (min s.chunks (s.oldest + 8))).drop s.oldest) fun c e =>
      match e.stream n with
      | some s => if s.state != .ending && !s.needsLane c && e.chunkDue n c s then e.makeChunk k r n c else e
      | none => e

/-! ### Lanes -/

/-- The lowest chunk of stream `n` that waits for a lane (R146, R155): the table is ready, and its lines are there. -/
def Engine.laneChunk (n : Nat) (e : Engine) : Option Nat :=
  (e.stream n).bind fun s =>
    if s.table.isNone || s.state != .running then none
    else lowestFrom (fun c => s.needsLane c && e.chunkDue n c s) s.oldest (min (s.chunks - s.oldest) 8)

/-- The entry of a restore on stream `n` has read all of its lines, none of which another location must give. -/
def RestoreEntry.allRead (y : RestoreEntry) : Bool := y.state == .running && !y.made && y.toRead.isEmpty && y.reading == 0

/-- Coded chunks of an extent (R141). -/
def ExtentIn.codedChunks (x : ExtentIn) : Nat :=
  if bitOf 2 x.flags && (rateGeom x.rate).isSome then ceilDiv (ceilDiv (x.units * (4 * ((fmtOf x.fmt).getD .bytes).width)) 64) 64 else 0

/-- Coded chunks of the extents that an entry reads. -/
def Restore.codedChunks (y : RestoreEntry) (x : Restore) : Nat :=
  (y.pieces.map fun p => ((x.extentOf p).map fun z => z.2.2.codedChunks).getD 0).sum

/-- An entry of a restore on stream `n` has a chunk that waits for a lane. -/
def Engine.laneEntry (n : Nat) (e : Engine) : Option Nat :=
  match e.restoreOn n with
  | some (x, y) => if y.halted.isNone && y.allRead && decide (y.coded < x.codedChunks y) then some y.coded else none
  | none => none

/-- Stream number `n` has a chunk that waits for a lane of the kind. -/
def Engine.wantsLane (spill : Bool) (n : Nat) (e : Engine) : Option Nat :=
  match e.stream n with
  | some s => if s.spill == spill then e.laneChunk n else none
  | none => if spill then none else e.laneEntry n

/-- The stream that is granted a lane of the kind (R155, R237): every chunk of the running cut that waits for one goes first (R24). -/
def Engine.laneWinner (spill : Bool) (e : Engine) : Option Nat :=
  if spill && (match e.cut.run with | some run => run.sources.any Source.waitsLane | none => false) then none
  else
    arbitrate (fun n => (e.wantsLane spill n).isSome)
      (fun n => (e.stream n).bind fun s => (e.wantsLane spill n).bind fun c => s.descr.dueOf c)
      (if spill then e.streams.encTurn else e.streams.decTurn)

/-! ### Endings, halts, answers -/

/-- A MEM request of stream `n`. -/
def MemFor.ofStream (n : Nat) (u : MemFor) : Bool :=
  match u with
  | .streamRead m _ => m == n
  | .streamWrite m _ => m == n
  | _ => false

/-- A MEM request of a restore. -/
def MemFor.ofRestore (id : JobId) (u : MemFor) : Bool :=
  match u with
  | .restoreRead j _ _ _ => j == id
  | .restoreWrite j _ => j == id
  | _ => false

/-- A halt notice that has not been written is dropped with its job. -/
def Ring.dropHalts (cmdId : Dword) (index : Nat) (g : Ring) : Ring :=
  { g with waiting := g.waiting.filter fun w => match w with | .halt c i _ _ _ => !(c == cmdId && i == index) | _ => true }

/-- A halt of a job's stream (R240, R241): counted, and a notice that waits for a completion entry. -/
def Engine.noticeHalt (id : JobId) (addr position n : Nat) (e : Engine) : Engine :=
  let w : Waiting := .halt id.cmdId id.index (BitVec.ofNat 64 addr) position n
  (e.bump Ctr.streamHalts 1).setRing id.ring { e.ring id.ring with waiting := (e.ring id.ring).waiting ++ [w] }

/-- RESULT of a stream's job (11_rings). -/
def Stream.result (s : Stream) : List Byte :=
  if s.spill then
    natLE 8 s.xtsEpoch.toNat ++ natLE 8 (s.shape.mainLen s.units + s.shape.resLen s.units + 64 * s.escLines)
  else zeroBytes 8 ++ natLE 8 (s.elemLines + s.scaleLines)

/-- The front lines of stream number `n` leave the STREAM partition. -/
def Engine.dropStaged (n : Nat) (e : Engine) : Engine := e.onFront (Front.dropWhere (FrontLine.ofStream n))

/-- A stream that only waits for its writes to be answered. -/
def Stream.closed (s : Stream) : Stream :=
  { s with state := .ending, cause := 0, toRead := [], reading := 0, got := [], toWrite := [], out := [] }

/-- Stream `n` ends: its lines leave the STREAM partition, and it exists until its job completes, once its writes are answered
(R227, R233, R238, R266). -/
def Engine.endStream (k : Kit) (r : Regs) (n : Nat) (code : Code) (e : Engine) : Engine :=
  match e.stream n with
  | none => e
  | some s =>
    if s.state = .ending then e
    else
      let e := ((e.setStream n s.closed).releaseAwaited s.reading).dropStaged n
      let e := e.setRing s.job.ring ((e.ring s.job.ring).dropHalts s.job.cmdId s.job.index)
      e.endJob k r (fun u => u.ofStream n) (some s.job) code false (if code = 0 then s.result else [])

/-- RESULT of a RESTORE that fails (R266): the target entry that a failure concerns, or none. -/
def restoreFail (entry : Option Nat) : List Byte := zeroBytes 4 ++ natLE 4 (entry.getD 0xFFFFFFFF)

/-- A restore that only waits for its writes to be answered. -/
def Restore.closed (x : Restore) : Restore := { x with entries := [], ending := true }

/-- A restore ends; its streams exist until its job completes. -/
def Engine.endRestore (k : Kit) (r : Regs) (id : JobId) (code : Code) (result : List Byte) (e : Engine) : Engine :=
  match e.streams.restores.find? fun x => x.job == id with
  | none => e
  | some x =>
    if x.ending then e
    else
      let e := (e.onRestore id Restore.closed).releaseAwaited (x.entries.map fun y => y.reading).sum
      let e := e.forEach x.numbers Engine.dropStaged
      let e := e.setRing id.ring ((e.ring id.ring).dropHalts id.cmdId id.index)
      e.endJob k r (fun u => u.ofRestore id) (some id) code false result

/-- Staged lines whose last chunk is written leave the STREAM partition (R28, R231). -/
def Engine.freeStaged (n : Nat) (e : Engine) : Engine :=
  match e.stream n with
  | none => e
  | some s => e.onFront (Front.dropWhere fun l =>
      match l.key with
      | .stream m i => m == n && decide (s.lastChunkOf i < s.oldest)
      | _ => false)

/-- The chunk has ended after its deadline (R236). -/
def Stream.late (now : Nat) (c : Nat) (s : Stream) : Bool :=
  match s.descr.dueOf c with
  | some d => decide (d < now)
  | none => false

/-- Destination lines of stream `n` have been acknowledged: chunks that are now written count, and the last one completes the
job (R227, R231, R236, R242). -/
def Engine.streamAcked (k : Kit) (r : Regs) (n : Nat) (lines : List Nat) (e : Engine) : Engine :=
  match e.stream n with
  | none => e
  | some s =>
    let s' := { s with
      out := lines.foldl (fun t i => tabErase i t) s.out
      toWrite := s.toWrite.filter fun i => !lines.contains i
      writes := s.writes - 1 }
    let now := (List.range s.chunks).filter fun c => s'.done c && !s.done c
    let e := (e.setStream n s').bump Ctr.chunksDone now.length
    let e := e.bump Ctr.lateChunks (now.filter fun c => s.late e.beat.num.toNat c).length
    let e := (e.freeStaged n).makeReady k r n
    match e.stream n with
    | some s => if s.doneCount = s.chunks && s.state != .halted then e.endStream k r n s.code else e
    | none => e

/-- A halt (R240, R241): the saved position, and a notice that waits for a completion entry. A stream that is halted already keeps
its position (log 29). -/
def Engine.haltStream (n addr : Nat) (write : Bool) (lines : List Nat) (e : Engine) : Engine :=
  match e.stream n with
  | none => e
  | some s =>
    let again := lines.filter fun i => (tabFind i s.out).isSome && !s.toWrite.contains i
    let s' := if write then { s with toWrite := again ++ s.toWrite, writes := s.writes - 1 }
      else { s with toRead := lines ++ s.toRead, reads := s.reads - 1, reading := s.reading - lines.length }
    let e := if write then e else e.releaseAwaited lines.length
    if s.state ≠ .running then e.setStream n s'
    else
      (e.setStream n { s' with state := .halted, position := lines.headD 0, haltWrite := write }).noticeHalt s.job addr (lines.headD 0) n

/-- A request of stream `n` failed with `code`: the stream ends, or, when it is halted, once it is resumed (R243). -/
def Engine.failStream (k : Kit) (r : Regs) (n : Nat) (code : Code) (e : Engine) : Engine :=
  match e.stream n with
  | none => e
  | some s => if s.state = .halted then e.setStream n { s with failing := if s.failing = 0 then code else s.failing } else e.endStream k r n code

/-- Lines read for stream `n` (R240, R388). -/
def Engine.streamLines (k : Kit) (r : Regs) (n : Nat) (lines : List Nat) (beats : List MemBeat) (e : Engine) : Engine :=
  match e.stream n with
  | none => e
  | some s =>
    let e := (e.setStream n { s with reads := s.reads - 1, reading := s.reading - lines.length }).releaseAwaited lines.length
    let coded (i : Nat) : Bool := !s.spill && (rateGeom s.rate).isSome && decide (i < s.codedElem)
    (e.forEach (lines.zip beats) fun p e => e.stageLine s.tenant n p.1 8 (!s.spill && s.sealed) (coded p.1) p.2).makeReady k r n

end Sys2Proof.Machine
end

