-- ==== Sys2Proof/Machine/Service.lean ====
section
/-!
DEFINITION. The commands of service (14_faults_service): heartbeats, stewardship, live update, acknowledgement, spares, recovery; the
self-tests (17_registers); the health of the noise source (13_security).
-/

namespace Sys2Proof.Machine

/-! ### Stewardship -/

/-- HEARTBEAT (R351, R373): the named half's first one after a reset says that its full firmware runs. In P2 both halves are halted. -/
def execHeartbeat (half : Half) (s : State) : Out :=
  s.eff fun k r e =>
    if e.power.state = 2 then e
    else
      let e := e.onReferee fun x => (x.setBeat half true).setMiss half 0
      if e.referee.steward = some half then
        let e := { e with referee := { e.referee with resumed := true }, power := { e.power with fwRunning := true, started := true, bodyLoaded := true } }
        e.resumeHost k r
      else e

/-- STEWARD_LOST (R351, R354, R360). -/
def execStewardLost (s : State) : Out :=
  s.eff fun k r e =>
    match e.referee.steward with
    | some h => if r.hbLimit ≤ e.referee.miss h ∧ e.power.state ≠ 2 then e.stewardGone k r true else e
    | none => e

/-- STANDBY_LOST (R351, R354, R355). -/
def execStandbyLost (s : State) : Out :=
  s.eff fun k r e =>
    match e.referee.steward with
    | some h =>
      if e.referee.standbyReady ∧ r.hbLimit ≤ e.referee.miss (halfOther h) ∧ e.power.state ≠ 2 then
        (e.onReferee fun x => x.restart.setMiss (halfOther h) 0).raise k r 0x02 none
      else e
    | none => e

/-- STEWARD_CLAIM (R352): settled at the next edge. -/
def execStewardClaim (half : Half) (epoch : Word) (s : State) : Out :=
  s.eff fun _ _ e =>
    if e.power.state = 2 then e else e.onReferee fun x => { x with claims := x.claims ++ [(half, epoch)] }

/-- A write of HANDOVER (R353). -/
def Engine.handoverWrite (value : Word) (e : Engine) : Engine :=
  let soaking := match e.referee.fw with | .soak _ => true | _ => false
  if value.getLsbD 31 && e.referee.standbyReady && !e.referee.handover && !soaking then e.onReferee fun x => { x with handover := true } else e

/-- HANDOVER (R353). -/
def execHandover (value : Word) (s : State) : Out := s.effCfg fun _ _ e => e.handoverWrite value

/-- HANDOVER_TAKE_EFFECT (R31, R353, R359): at the edge just taken, the first with STANDBY_READY 1, the standby is granted, the former steward is the standby; in an update the new
steward answers FW_COMMIT and the soak begins. -/
def execHandoverTakeEffect (s : State) : Out :=
  s.eff fun k r e =>
    match e.referee.steward with
    | some h =>
      if e.referee.edgeDue && e.referee.handover && e.referee.standbyReady then
        let e := e.grantTo (halfOther h)
        match e.referee.fw with
        | .restarting _ =>
          let e := (e.endUpdate k r 0).onReferee fun x => { x with fw := .soak r.fwSoak }
          { e with body := { e.body with activeSlot := e.body.nextSlot } }
        | _ => e
      else e
    | none => e

/-- CTRL_MEM_UE (R355): the half is restarted; the steward is then gone (log 43). -/
def execCtrlMemUe (half : Half) (s : State) : Out :=
  s.eff fun k r e =>
    let e := e.raise k r 0x07 none
    if e.referee.steward = some half then e.stewardGone k r false else e.onReferee Referee.restart

/-- CTRL_MEM_CE (R343). -/
def execCtrlMemCe (s : State) : Out := s.eff fun k r e => e.raise k r 0x06 none

/-- FOX_PARITY (R343). -/
def execFoxParity (s : State) : Out := s.eff fun k r e => e.raise k r 0x38 none

/-- A restart for a live update runs (R359). -/
def Referee.updating (x : Referee) : Bool := match x.fw with | .restarting _ => true | _ => false

/-- STANDBY_READY (R355, R359): in an update the handover starts. -/
def execStandbyReady (s : State) : Out :=
  s.eff fun _ _ e =>
    let x := e.referee
    match x.steward with
    | some h =>
      if !x.standbyReady && (x.resync.isSome || x.updating) then
        e.onReferee fun x => { x.setMiss (halfOther h) 0 with standbyReady := true, resync := none, handover := x.handover || x.updating }
      else e
    | none => e

/-- STANDBY_RESYNC_TIMEOUT (R355). -/
def execStandbyResyncTimeout (s : State) : Out :=
  s.eff fun k r e =>
    match e.referee.resync with
    | some n => if 250000 ≤ n then (e.onReferee fun x => { x with resync := some 0 }).raise k r 0x02 none else e
    | none => e

/-- FW_ACTIVATE_TIMEOUT (R360). -/
def execFwActivateTimeout (s : State) : Out :=
  s.eff fun k r e =>
    match e.referee.fw with
    | .restarting n =>
      if 250000 ≤ n ∧ !e.referee.standbyReady then
        let e := { e with body := { e.body with nextSlot := e.body.activeSlot } }
        let e := (e.onReferee fun x => { x with fw := .none, resync := some 0 }).raise k r 0x05 none
        e.endUpdate k r 0x14
      else e
    | _ => e

/-- FW_SOAK_END (R359): MIN_SVN rises, the standby restarts on the new slot. -/
def execFwSoakEnd (s : State) : Out :=
  s.eff fun _ _ e =>
    match e.referee.fw with
    | .soak 0 =>
      let svn := if e.body.minSvn.toNat < e.referee.fwSvn.toNat then e.referee.fwSvn else e.body.minSvn
      ({ e with body := { e.body with minSvn := svn } }).onReferee fun x => { x with fw := .none }.restart
    | _ => e

/-! ### Recovery, acknowledgement, spares -/

/-- ENTER_RECOVERY (R350): at the edge after a FATAL raise. -/
def execEnterRecovery (s : State) : Out := s.eff fun k r e => e.enterRecovery k r

/-- A write of FOX_ACK (R346). -/
def Engine.foxAckWrite (value : Word) (e : Engine) : Engine :=
  let srcs := if value.getLsbD 31 then [] else tabErase (value.toNat % 256) e.fox.srcs
  { e with fox := { e.fox with srcs := srcs } }

/-- FOX_ACK (R346). -/
def execFoxAck (value : Word) (s : State) : Out := s.effCfg fun _ _ e => e.foxAckWrite value

/-- The pipeline unit that a KIND of SPARE_CTRL names. -/
def spareKind : Nat → Option UnitKind
  | 2 => some .enc
  | 3 => some .dec
  | 4 => some .cipher
  | 5 => some .hash
  | _ => none

/-- SPARE_STATUS.LAST_CODE. -/
def Engine.spareCode (c : Code) (e : Engine) : Engine := { e with units := { e.units with spareCode := c } }

/-- A pipeline unit runs its procedure as if it had faulted (R157, R331, R357). -/
def Engine.spareUnit (k : Kit) (r : Regs) (x : UnitKind) (l : Nat) (e : Engine) : Engine :=
  match x with
  | .cipher => e.coreFault k r none { line := 0, hash := false, core := l }
  | .hash => e.coreFault k r none { line := 0, hash := true, core := l }
  | _ => ((e.raise k r 0x1C none).bump Ctr.laneFaults 1).takeOut k r x l

/-- A body bank is retired (R132, R357). -/
def Engine.spareBank (l : Nat) (e : Engine) : Engine :=
  let running := match e.bulb.remap with | some m => m.retire | none => false
  if running then e.spareCode 0x58
  else if e.body.freeBanks = 0 then e.spareCode 0x57
  else
    let e := (e.startRetire (e.body.map l)).spareCode 0
    { e with units := { e.units with spareBusy := true } }

/-- A write of SPARE_CTRL (R357). -/
def Engine.spareWrite (k : Kit) (r : Regs) (value : Word) (e : Engine) : Engine :=
  let v := value.toNat
  let l := bits 8 0 v
  if !value.getLsbD 31 then e
  else if bits 27 24 v = 1 then (if l < 256 then e.spareBank l else e.spareCode 0x11)
  else match spareKind (bits 27 24 v) with
    | none => e.spareCode 0x11
    | some x =>
      if x.logical ≤ l then e.spareCode 0x11
      else if (freeSpares x e.units e.body).isEmpty then e.spareCode 0x57
      else (e.spareUnit k r x l).spareCode 0

/-- SPARE_CTRL (R357). -/
def execSpareCtrl (value : Word) (s : State) : Out := s.effCfg fun k r e => e.spareWrite k r value

/-! ### Idleness and self-test -/

/-- A ring has an announced entry that is not fetched, or one that has not started (R368). -/
def Engine.ringWaits (n : Nat) (e : Engine) : Bool :=
  let g := e.ring n
  g.fetch != g.tail || !g.chain.isEmpty || !g.ready.isEmpty || g.failing.isSome

/-- A vault queue has a command in flight, or a packet in its IN window (R368). -/
def VQueue.busy (v : VQueue) : Bool := !v.cmds.isEmpty || !v.packets.isEmpty || v.inFetch != v.inTail || v.phaseWait.isSome

/-- The engine is idle (R368). -/
def Engine.idle (r : Regs) (e : Engine) : Bool :=
  e.rings.jobs.isEmpty && e.cut.run.isNone && !((List.range 256).any fun n => r.ringActive n && e.ringWaits n) && e.streams.held.isEmpty &&
    e.streams.restores.isEmpty && !(e.vault.queues.any fun x => x.2.busy) && !e.front.anyDirty && e.bulb.remap.isNone

/-- A write of SELF_TEST_CTRL (R432): TEST is kept; with GO a test starts unless it is refused, which changes nothing. -/
def Engine.selfTestWrite (r : Regs) (value : Word) (e : Engine) : Engine :=
  let test : BitVec 4 := value.setWidth 4
  let e := { e with selfTest := { e.selfTest with ctrl := test } }
  let conds : List (Bool × Code) :=
    [(test.toNat < 1 || decide (3 < test.toNat), 0x11), (e.selfTest.running, 0x58), (!e.allFree || !e.idle r, 0x14)]
  if !value.getLsbD 31 || (judge conds).isSome then e
  else { e with selfTest := { e.selfTest with running := true, last := test, code := 0 } }

/-- The write is of this TEST, or of an undefined one (R432). -/
def selfTestOf (test : Nat) (value : Word) : Bool :=
  let n := value.toNat % 16
  n == test || decide (n < 1) || decide (3 < n)

/-- FRONT_MARCH (R432). -/
def execFrontMarch (value : Word) (s : State) : Out :=
  if selfTestOf 1 value then s.effCfg fun _ r e => e.selfTestWrite r value else .next s

/-- PIPELINE_KAT (R432). -/
def execPipelineKat (value : Word) (s : State) : Out :=
  if selfTestOf 2 value then s.effCfg fun _ r e => e.selfTestWrite r value else .next s

/-- STEM_LOOP (R432). -/
def execStemLoop (value : Word) (s : State) : Out :=
  if selfTestOf 3 value then s.effCfg fun _ r e => e.selfTestWrite r value else .next s

/-- The codes that a test may leave (R432). -/
def selfTestCodes (test : Nat) : List Code :=
  if test = 1 then [0, 0x20] else if test = 2 then [0, 0x23, 0x45] else [0, 0x21]

/-- SELF_TEST_END (R432). -/
def execSelfTestEnd (code : Code) (s : State) : Out :=
  s.eff fun _ _ e =>
    if e.selfTest.running && (selfTestCodes e.selfTest.last.toNat).contains code then
      { e with selfTest := { e.selfTest with running := false, code := code } }
    else e

/-! ### The noise source -/

/-- The draws that waited are made (R330): nonces of accepted OPENs, runs of a cut and whole runs of streams. -/
def Engine.releaseDraws (k : Kit) (r : Regs) (e : Engine) : Engine :=
  ((e.answerOpens r).forEach e.streams.held fun x e => e.makeReady k r x.1).cutPump k r

/-- NOISE_STARTUP_DONE (R330, R374). -/
def execNoiseStartupDone (s : State) : Out :=
  s.eff fun k r e =>
    if e.power.noiseOk then e
    else ({ e with units := { e.units with noise := .healthy }, power := { e.power with noiseOk := true } }).releaseDraws k r

/-- NOISE_TEST_FAIL (R330). -/
def execNoiseTestFail (s : State) : Out :=
  s.eff fun k r e =>
    (({ e with units := { e.units with noise := .failed } }).bump Ctr.noiseFails 1).raise k r 0x24 none

/-- NOISE_HEALTHY (R330): after the start-up test has passed, a test that failed passes again. -/
def execNoiseHealthy (s : State) : Out :=
  s.eff fun k r e =>
    if e.units.noise = .failed ∧ e.power.noiseOk then
      ({ e with units := { e.units with noise := .healthy } }).releaseDraws k r
    else e

end Sys2Proof.Machine
end

