-- ==== Sys2Proof/Machine/TenantOps.lean ====
section
/-!
DEFINITION. Tenants (13_security): how the jobs of a tenant end, the tenant switch, the SPDM responder of a slot, key and policy
messages.
-/

namespace Sys2Proof.Machine

/-! ### The end of a tenant's jobs -/

/-- A job ended with `code` (R107, R256). -/
def Engine.endOne (k : Kit) (r : Regs) (j : Job) (code : Code) (e : Engine) : Engine :=
  match j.kind with
  | .cut => e.onRun fun run e => if run.job = some j.id then e.endCut k r code else e
  | .drain => ({ e with vault := { e.vault with drains := e.vault.drains.filter fun d => d.job != j.id } }).refuse k r j.id code
  | .restore => e.endRestore k r j.id code (restoreFail none)
  | .stream n => e.endStream k r n code
  | .adminSend _ _ _ _ => e.refuse k r j.id code
  | .release _ => e
  | .wait _ => e.endJob k r (fun u => u == MemFor.job j.id) (some j.id) code false []

/-- Every job of tenant `t` in flight, and the cut that a plan armed for it, ended with `code` (R107, R174, R243, R256). -/
def Engine.endTenantJobs (k : Kit) (r : Regs) (t : TenantNo) (code : Code) (e : Engine) : Engine :=
  let e := e.onRun fun run e => if run.tenant = t then e.endCut k r code else e
  (e.forEach (e.rings.jobs.filter fun j => j.tenant == some t) fun j e => e.endOne k r j code).pumpWindows k r

/-! ### Tenant switch -/

/-- Offsets of the tenant registers of `t` that a RELEASE resets (R332): peer table, buddy lists, windows naming t, PREEMPT_PLAN if its
TENANT is t. -/
def releasedWords (r : Regs) (t : TenantNo) : List Nat :=
  let tn := t.toNat
  ((List.range 16).flatMap fun i => [peerOff tn i, peerOff tn i + 4, peerOff tn i + 8]) ++
    [0xE200 + 0x10 * tn, 0xE204 + 0x10 * tn, 0xE208 + 0x10 * tn, 0xE20C + 0x10 * tn] ++
    (((List.range 64).filter fun w => r.winTenant w == tn).flatMap fun w =>
      [0xE400 + 0x10 * w, 0xE404 + 0x10 * w, 0xE408 + 0x10 * w, 0xE40C + 0x10 * w]) ++
    (if r.planTenant = t then [0x4020] else [])

/-- A front line belongs to tenant `t`: the front sweep writes it as zero (R332). -/
def FrontLine.ofTenant (t : TenantNo) (l : FrontLine) : Bool := l.line.tenant == t

/-- Write-backs of the tenant's front lines discarded (R317): body writes under way, and window writes whose answer no longer counts. -/
def Engine.dropBacks (r : Regs) (t : TenantNo) (e : Engine) : Engine :=
  let tn := t.toNat
  let back (w : BodyWrite) : Bool := match w.use with
    | .vault n _ => r.inPart tn n
    | .copy n => r.inPart tn n
    | .commitState u => u == tn
  let mine (u : MemFor) : Bool := match u with
    | .windowLine w _ _ => r.winTenant w == tn
    | _ => false
  let ofKey (key : FrontKey) : Bool := match key with
    | .body n => r.inPart tn n
    | .window w _ => r.winTenant w == tn
    | _ => false
  { e with
    bulb := { e.bulb with writes := e.bulb.writes.filter fun w => !back w
                          copies := e.bulb.copies.filter fun c => c.tenant != tn }
    mem := { e.mem with reqs := e.mem.reqs.map fun q => if mine q.use then { q with use := .dropped false } else q }
    vault := { e.vault with failed := e.vault.failed.filter fun x => !ofKey x.1
                            owed := e.vault.owed.filter fun x => !ofKey x.1 } }

/-- Vault commands of a tenant ended (R310): on link queues with RESP, before its sessions close. -/
def Engine.endTenantCmds (k : Kit) (r : Regs) (t : TenantNo) (code : Code) (e : Engine) : Engine :=
  e.forEach e.vault.queues fun x e => e.abortCmds k r x.1 (fun c => c.tenant == t) (fun c => c.session.isSome) code

/-- The SPDM session of a slot, or its exchange, ends, and its keys with it (R320, R325). -/
def Tenant.endSession (x : Tenant) : Tenant := { x with exchanging := false, session := false, sessionKeys := Option.none }

/-- Keys of a slot zeroised (R325). -/
def Tenant.zeroise (x : Tenant) : Tenant := { x.endSession with sealKey := Option.none, pollenKey := Option.none, keyId := 0 }

/-- What of the tenant stands outside its slot and its registers is removed (R174, R332): recipes, binding sets, guard ranges,
features and logs, the template of its cuts, a plan for it. -/
def Engine.forgetTenant (t : TenantNo) (e : Engine) : Engine :=
  let cut := { e.cut with template := tabErase t.toNat e.cut.template }
  { e with
    recipes := { held := e.recipes.held.filter fun (p : Nat × Recipe) => p.2.tenant != t
                 sets := e.recipes.sets.filter fun (p : Nat × BindSet) => p.2.tenant != t }
    guard := e.guard.forget fun n => match e.range n with | some w => w.owner == t | none => false
    vault := { e.vault with tenants := tabPut (fun _ => VTenant.fresh) t.toNat VTenant.fresh e.vault.tenants }
    cut := if cut.planTenant = t then cut.endPlan else cut }

/-- An accepted RELEASE of slot `t` (R317, R318, R332), but the registers. -/
def Engine.releaseSlot (k : Kit) (r : Regs) (t : TenantNo) (job : JobId) (e : Engine) : Engine :=
  let lead := e.freeWord.toNat % max 1 e.beat.cc
  let x := e.tenant t.toNat
  let e := e.drawn.setTenant t.toNat { x with releasing := some { wait := 32784 + lead, after := none, job := some job } }
  let e := ((e.endTenantJobs k r t 0x62).endTenantCmds k r t 0x62).closeSessions k r t.toNat 0x62
  let e := ({ e with stem := { e.stem with scrubbed := 0 } }).broadcastTenant bcScrub t 16
  let e := e.setTenant t.toNat { (e.tenant t.toNat).zeroise with policy := 0 }
  ((e.dropBacks r t).onFront (Front.dropWhere (FrontLine.ofTenant t))).forgetTenant t

/-! ### Readmission -/

/-- Stored values of a slot given to another owner (R315). -/
def Kept.newOwner (uid : BitVec 128) (x : Kept) : Kept :=
  { x with aComplete := false, bComplete := false, valid := false, glxValid := false, kcv := 0, xtsNext := 0, owner := uid }

/-! ### Key and policy messages -/

/-- The key bytes of a SEAL key, in order. -/
def keyBytes (key : BitVec 512) : List Byte := natLE 64 key.toNat

/-- The seal-key check value (R324). -/
def sealCheck (key : BitVec 512) : BitVec 64 := (kmac256 (keyBytes key) [] "RHL KCV").setWidth 64

/-- A job of the tenant uses its seal key (R323): a cut in the shard format, a sealed stream, a restore. -/
def Engine.sealInUse (t : TenantNo) (e : Engine) : Bool :=
  (match e.cut.run with | some run => run.tenant == t && run.params.dest != 2 | none => false) ||
    (e.streams.held.any fun p => p.2.tenant == t && p.2.sealed) || e.streams.restores.any fun x => x.tenant == t

/-- What a key and policy message is refused for (R323). -/
def Engine.vendorConds (r : Regs) (t : TenantNo) (p : VendorPayload) (e : Engine) : List (Bool × Code) :=
  let vop := p.vop.toNat
  let kind := p.kind.toNat
  let keyed := vop == 1 || vop == 2
  let sealKind := keyed && kind == 1
  [(decide (vop < 1) || decide (4 < vop), 0x10),
   (p.rsv != 0, 0x11),
   (if keyed then kind != 1 && kind != 2 else kind != 0, 0x11),
   (p.arg != 0 && !(vop == 1 && kind == 2) && vop != 3, 0x11),
   (vop == 3 && decide (16 ≤ p.arg.toNat), 0x11),
   (vop != 1 && p.key != 0, 0x11),
   (vop == 1 && kind == 2 && p.key.extractLsb' 256 256 != 0, 0x11),
   (vop == 1 && kind == 1 && p.key.extractLsb' 256 256 == p.key.extractLsb' 0 256, 0x11),
   (vop == 3 && bitOf 3 p.arg.toNat && !r.sealedMode, 0x14),
   (sealKind && e.sealInUse t, 0x58)]

/-- SET_KEY SEAL (R324): the key bound, the check value compared; XTS_NEXT restarts under a new key. -/
def Engine.bindSeal (t : TenantNo) (key : BitVec 512) (e : Engine) : Engine :=
  let x := e.kept t.toNat
  let e := e.setTenant t.toNat { e.tenant t.toNat with sealKey := some key }
  if sealCheck key = x.kcv then e else e.setKept t.toNat { x with kcv := sealCheck key, xtsNext := 0 }

/-- The Pollen key of a tenant bound or unbound (R210, R324): its sessions close. -/
def Engine.bindPollen (k : Kit) (r : Regs) (t : TenantNo) (key : Option (BitVec 256)) (id : Word) (e : Engine) : Engine :=
  let e := e.closeSessions k r t.toNat 0x62
  e.setTenant t.toNat { e.tenant t.toNat with pollenKey := key, keyId := id }

/-- An accepted message carried out (R322, R324). -/
def Engine.vendorEffect (k : Kit) (r : Regs) (t : TenantNo) (p : VendorPayload) (e : Engine) : Engine :=
  let vop := p.vop.toNat
  let kind := p.kind.toNat
  if vop = 1 then (if kind = 1 then e.bindSeal t p.key else e.bindPollen k r t (some (p.key.setWidth 256)) p.arg)
  else if vop = 2 then
    (if kind = 1 then e.setTenant t.toNat { e.tenant t.toNat with sealKey := none } else e.bindPollen k r t none 0)
  else if vop = 3 then e.setTenant t.toNat { e.tenant t.toNat with policy := p.arg.setWidth 4 }
  else e

/-- A slot becomes ATTESTED with the first message that completes with 0x00 (R323). -/
def Tenant.attest (x : Tenant) : Tenant := { x with state := .attested }

/-- The 16 bytes of a key and policy response (R322). -/
def Engine.vendorAnswer (t : TenantNo) (vop : Byte) (code : Code) (matched : Bool) (e : Engine) : List Byte :=
  [vop, code, BitVec.ofNat 8 (b2n matched), 0] ++ natLE 4 (e.tenant t.toNat).policy.toNat ++ natLE 4 (e.kept t.toNat).xtsNext.toNat ++
    zeroBytes 4

/-- A key and policy message inside a session (R322 to R324): the response, and the engine after it. A refused one changes nothing. -/
def Engine.vendorMessage (k : Kit) (r : Regs) (t : TenantNo) (p : VendorPayload) (e : Engine) : List Byte × Engine :=
  match judge (e.vendorConds r t p) with
  | some c => (e.vendorAnswer t p.vop c false, e)
  | none =>
    let matched := p.vop.toNat == 1 && p.kind.toNat == 1 && sealCheck p.key == (e.kept t.toNat).kcv
    let e := e.vendorEffect k r t p
    let e := e.setTenant t.toNat (e.tenant t.toNat).attest
    (e.vendorAnswer t p.vop 0 matched, e)

/-! ### The SPDM responder -/

/-- The firmware slot that the standby half runs (R321, R359): the new image while it restarts for an update, the old one during the
soak, the steward's otherwise. -/
def Engine.standbySlot (e : Engine) : Bool :=
  match e.referee.fw with
  | .restarting _ => e.body.nextSlot
  | .soak _ => !e.body.activeSlot
  | .none => e.body.activeSlot

/-- The values of MODE as read (R253). -/
def Mode.code : Mode → Nat
  | .normal => 0
  | .startUp => 1
  | .selfTest => 2
  | .recovery => 3

/-- What the configuration digest covers (R321, block 4). -/
def Kit.digestOver (k : Kit) : List Nat :=
  [engineId, k.buds, k.regions, k.linkPorts, k.memChannels, k.guardClients, k.stemDepth]

/-- A measurement block (R321). -/
def Engine.measurementBlock (k : Kit) (r : Regs) (t : TenantNo) (index : Nat) (e : Engine) : List Byte :=
  let x := e.tenant t.toNat
  if index = 1 then natLE 48 Config.bootRomDigest.toNat
  else if index = 2 then e.body.measurement e.body.activeSlot
  else if index = 3 then e.body.measurement e.standbySlot
  else if index = 4 then natLE 48 (sha3_384 (Config.configBytes k.digestOver)).toNat
  else if index = 5 then natLE 4 (r.word 0x100C) ++ natLE 4 r.crcLive.toNat
  else if index = 6 then
    natLE 8 (e.mode.code + 4 * b2n r.sealedMode + 8 * b2n e.dbg.testMode + 16 * e.power.level)
  else natLE 8 (x.policy.toNat + 2 ^ 32 * (b2n x.debugAccessed + 2 * b2n x.sealKey.isSome + 4 * b2n x.pollenKey.isSome))

/-- DMTF's type of a measurement block; bit 7 says that the value is raw and no digest (R321; log 90). -/
def blockType (index : Nat) : Nat :=
  if index = 1 then 0x00
  else if index = 2 ∨ index = 3 then 0x01
  else if index = 4 then 0x02
  else if index = 5 then 0x83
  else if index = 6 then 0x85
  else 0x89

/-- The blocks that a request names: all that may be returned for 0xFF (R321), the count of them for 0. A block is its index, DMTF's
measurement specification, its size, its type, and the size and bytes of its value (log 90). -/
def Engine.measured (k : Kit) (r : Regs) (t : TenantNo) (index : Nat) (secured : Bool) (e : Engine) : List Byte :=
  let n := if secured then 7 else 6
  let block (i : Nat) : List Byte :=
    let v := e.measurementBlock k r t i
    natLE 1 i ++ natLE 1 1 ++ natLE 2 (3 + v.length) ++ natLE 1 (blockType i) ++ natLE 2 v.length ++ v
  if index = 0 then natLE 1 n
  else if index = 255 then (List.range n).flatMap fun i => block (i + 1)
  else block index

/-- The capability flags of R319 by DMTF's bit: CERT, CHAL, MEAS with signature, MEAS_FRESH, ENCRYPT, MAC, MUT_AUTH, KEY_EX, KEY_UPD
(log 90). -/
def spdmCapabilities : List Nat := [1, 2, 4, 5, 6, 7, 8, 9, 14]

/-- What CAPABILITIES carries (R319): the flags, DataTransferSize and MaxSPDMmsgSize. -/
def capabilityBytes : List Byte := natLE 4 (spdmCapabilities.map fun b => 2 ^ b).sum ++ natLE 4 4096 ++ natLE 4 4096

/-- What ALGORITHMS carries (R319): measurement hash SHA3-384, signatures ECDSA P-384 on both sides, hash SHA3-384, key exchange secp384r1,
AEAD AES-256-GCM, each as DMTF's selection word (log 90). -/
def algorithmBytes : List Byte := natLE 4 0x20 ++ natLE 4 0x80 ++ natLE 4 0x10 ++ natLE 2 0x10 ++ natLE 2 0x02 ++ natLE 2 0x80

/-- The response draws from the noise source (R319, R330). -/
def Engine.spdmDraws : SpdmReq → Bool
  | .challenge _ => true
  | .getMeasurements _ _ signed => signed
  | .keyExchange _ => true
  | _ => false

/-- A response that the identity key signs (R325, R329): verified before it is released, made again once, and none after two failures. -/
def Engine.signedReply (k : Kit) (r : Regs) (t : TenantNo) (kind : SpdmRsp) (bs : List Byte) (go : Engine → Engine) (e : Engine) :
    SpdmRsp × List Byte × Engine :=
  match e.signDigest (Config.spdmTranscript e.draws) with
  | (some s, e) => (kind, bs ++ natLE 48 s.1.toNat ++ natLE 48 s.2.toNat, go e)
  | (none, e) => (.signFailed, [], e.raise k r 0x23 (some t))

/-- The identity certificate chain as bytes (R325). -/
def Keys.chainBytes (x : Keys) : List Byte := x.chain.flatMap fun w => natLE 4 w.toNat

/-- The response of the responder of slot `t` (R319 to R324): its kind, what it carries, and the engine after it. -/
def Engine.respond (k : Kit) (r : Regs) (t : TenantNo) (q : SpdmReq) (e : Engine) : SpdmRsp × List Byte × Engine :=
  let x := e.tenant t.toNat
  match q with
  | .getVersion => (.version, [0x13], e)
  | .getCapabilities => (.capabilities, capabilityBytes, e)
  | .negotiateAlgorithms => (.algorithms, algorithmBytes, e)
  | .getDigests => (.digests, natLE 48 (sha3_384 e.keys.chainBytes).toNat, e)
  | .getCertificate slot offset length =>
    if slot = 0 then (.certificate, slice offset length e.keys.chainBytes, e) else (.otherError, [], e)
  | .challenge nonce => e.signedReply k r t .challengeAuth (natLE 32 nonce.toNat) id
  | .getMeasurements index inSession signed =>
    let secured := inSession && x.session
    if index ≤ 6 ∨ index = 255 ∨ (index = 7 ∧ secured) then
      let bs := e.measured k r t index secured
      if signed then e.signedReply k r t .measurements bs id else (.measurements, bs, e)
    else (.otherError, [], e)
  | .keyExchange mutualAuth =>
    if mutualAuth then
      e.signedReply k r t .keyExchange [] fun d =>
        d.setTenant t.toNat { x with exchanging := true, session := false, sessionKeys := some (Config.spdmKeys e.draws) }
    else (.otherError, [], e)
  | .finish leafKey authentic =>
    if !x.exchanging then (.unexpected, [], e)
    else if authentic && (sha3_384 (natLE 96 leafKey.toNat)).setWidth 128 == x.uid then
      (.finish, [], e.setTenant t.toNat { x with exchanging := false, session := true })
    else (.otherError, [], e.setTenant t.toNat x.endSession)
  | .keyUpdate =>
    if x.session then (.keyUpdate, [], e.setTenant t.toNat { x with sessionKeys := x.sessionKeys.map Config.spdmNextKeys })
    else (.unexpected, [], e)
  | .endSession => if x.session then (.endSession, [], e.setTenant t.toNat x.endSession) else (.unexpected, [], e)
  | .vendorDefined inSession p =>
    if inSession && x.session then
      let a := e.vendorMessage k r t p
      (.vendor, a.1, a.2)
    else (.unexpected, [], e)
  | .unsupported => (.unsupported, [], e)

/-- The number under which a kind of response stands in `Config.spdmBytes`. -/
def SpdmRsp.no : SpdmRsp → Nat
  | .version => 0
  | .capabilities => 1
  | .algorithms => 2
  | .digests => 3
  | .certificate => 4
  | .challengeAuth => 5
  | .measurements => 6
  | .keyExchange => 7
  | .finish => 8
  | .keyUpdate => 9
  | .endSession => 10
  | .vendor => 11
  | .unexpected => 12
  | .unsupported => 13
  | .otherError => 14
  | .signFailed => 15

/-- A response that must draw waits while the noise source is not healthy (R330). -/
def Engine.mayRespond (q : SpdmReq) (e : Engine) : Bool := !Engine.spdmDraws q || e.mayDraw

/-- A request relayed to the responder of a slot (R319): a FREE or releasing slot has none. -/
def Engine.relay (k : Kit) (r : Regs) (t : TenantNo) (q : SpdmReq) (e : Engine) : Engine :=
  let x := e.tenant t.toNat
  if x.state = .free ∨ x.releasing.isSome ∨ !e.mayRespond q then e
  else
    let a := e.respond k r t q
    a.2.2.when (a.1 != .signFailed) fun e => e.emit (.spdm t a.1 a.2.1)

end Sys2Proof.Machine
end

