-- ==== Sys2Proof/Machine/Flags.lean ====
section
/-!
DEFINITION. Levels and flags computed from the state: the dual-rail fault pairs, the interrupt lines, and the status words whose bits
are levels (R424).
-/

namespace Sys2Proof.Machine

/-! ### Fault pairs and interrupt lines -/

/-- A source is PENDING at this effective severity (R345). -/
def Fox.at (sev : Nat) (f : Fox) : Bool := f.srcs.any fun p => p.2.pending && p.2.sev.toNat == sev

/-- A dual-rail pair as driven (R374, R375): 0b10 asserted, 0b01 not, 0b00 while SYS_READY is low. -/
def Engine.fltPair (on : Bool) (e : Engine) : Nat := if !e.power.sysReady then 0 else if on then 2 else 1

/-- FLT_DEF, FLT_URG and FLT_FAT (R345, R350). -/
def Engine.fltDef (e : Engine) : Nat := e.fltPair (e.fox.at 2)
def Engine.fltUrg (e : Engine) : Nat := e.fltPair (e.fox.at 3)
def Engine.fltFat (e : Engine) : Nat := e.fltPair (e.fox.at 4 || e.fox.fatHeld)

/-- Ring `n` drives its INT line (R270): an unreleased completion of a job with IRQ, or an unreleased halt notice. -/
def Engine.ringIrq (r : Regs) (n : Nat) (e : Engine) : Bool := r.ringActive n && (e.ring n).cq.any fun c => c.irq && c.written

/-- Host queue `q` drives its INT line (R288). -/
def Engine.vqIrq (r : Regs) (q : Nat) (e : Engine) : Bool := r.vqActive q && decide (0 < e.outUnreleased r q)

/-- Foxglove drives its INT line (R345). -/
def Engine.foxIrq (r : Regs) (e : Engine) : Bool :=
  r.irqEn && e.fox.srcs.any fun p => p.2.pending && decide (r.irqMin ≤ p.2.sev.toNat)

/-- INT[v] (R30, R270, R288, R345, R375): a ring, a host queue or Foxglove of that vector asks for it. -/
def Engine.intLine (r : Regs) (v : Nat) (e : Engine) : Bool :=
  e.power.sysReady && e.drives &&
    (((List.range 256).any fun n => r.ringVec n == v && e.ringIrq r n) || ((List.range 16).any fun q => r.vqVec q == v && e.vqIrq r q) ||
      (r.irqVec == v && e.foxIrq r))

/-! ### Status words -/

/-- READY_STATUS (15_power_reset). -/
def Engine.readyStatus (e : Engine) : Nat := 2 ^ 31 * b2n e.power.sysReady + e.readyBits

/-- PWR_STATUS. -/
def Engine.pwrStatus (e : Engine) : Nat :=
  2 ^ 8 * e.power.lastReset.toNat + 2 ^ 4 * b2n e.power.entering + 2 ^ 2 * e.power.req.toNat + e.power.state.toNat

/-- MODE of BEAT_STATUS. -/
def BeatMode.code : BeatMode → Nat
  | .acquire => 0
  | .locked => 1
  | .freeRun => 2

/-- BEAT_STATUS (02_beat). -/
def Beat.status (b : Beat) : Nat := 2 ^ 16 * b.lastCc.toNat + 2 ^ 8 * b.clampRun.toNat + b.mode.code

/-- PHASE of CUT_STATUS. -/
def CutPhase.code : CutPhase → Nat
  | .none => 0
  | .armed => 1
  | .pause => 2
  | .drain => 3
  | .commit => 4

/-- CUT_STATUS (04_cut). -/
def Cut.status (c : Cut) : Nat := 2 ^ 24 * c.lastCode.toNat + 2 ^ 16 * c.phase.code + c.lastTenant.toNat

/-- PREEMPT_STATUS (04_cut). -/
def Cut.planStatus (c : Cut) : Nat := 2 ^ 31 * b2n c.planActive + 2 ^ 16 * c.planSource.toNat + c.planLeft

/-- COMMIT_STATE (08_shard_format). -/
def Kept.commitState (x : Kept) : Nat :=
  2 ^ 31 * b2n x.valid + 2 ^ 30 * b2n x.lastSlot + 2 ^ 29 * b2n x.glxValid + 2 ^ 28 * b2n x.glxLast

/-- BULB_STATUS (05_bulb). -/
def Engine.bulbStatus (e : Engine) : Nat :=
  let free := e.body.freeBanks
  let gone := (e.body.banksIn .retired).length
  2 ^ 24 * free + 2 ^ 16 * gone +
    match e.bulb.remap with
    | some m => 2 ^ 15 + 2 ^ 14 * b2n m.retire + m.logical
    | none => 0

/-- State of a bank in PBANK_STATE. -/
def BankState.code : BankState → Nat
  | .inUse => 0
  | .free => 1
  | .retired => 2
  | .worn => 3

/-- PBANK_STATE of a physical bank (05_bulb). -/
def Bank.status (b : Bank) : Nat := 2 ^ 8 * b.step.toNat + b.state.code

/-- BODY_STATE of tenant `t` (05_bulb). -/
def Engine.bodyState (t : Nat) (e : Engine) : Nat :=
  let x := e.kept t
  2 ^ 31 * b2n x.aComplete + 2 ^ 30 * b2n x.bComplete +
    match e.bulb.copies.find? fun c => c.tenant == t with
    | some c => 2 ^ 29 + 2 ^ 28 * b2n c.slot
    | none => 0

/-- STREAM_STATUS (10_restore_streams). -/
def Engine.streamStatus (e : Engine) : Nat :=
  2 ^ 30 * e.mode.code + 2 ^ 12 * e.streamCount + e.readReserved (fun _ => true) (fun _ => true)

/-- State of a stream in STREAM_STATE; a stream that has failed and waits for its answers reads RUNNING (log 29). -/
def StreamState.code : StreamState → Nat
  | .fenced => 1
  | .running => 2
  | .halted => 3
  | .ending => 2

/-- STREAM_STATE of stream `n` (10_restore_streams). -/
def Engine.streamState (n : Nat) (e : Engine) : Nat :=
  match e.stream n with
  | some s => 2 ^ 30 * s.state.code + 2 ^ 26 * s.tenant.toNat + 2 ^ 22 * s.cause + s.descr.layer
  | none =>
    match e.streams.restores.find? fun x => x.numbers.contains n with
    | none => 0
    | some x =>
      let y := x.entries.find? fun y => y.stream == n && y.state == .running
      let halted := y.any fun y => y.halted.isSome
      2 ^ 30 * (if halted then 3 else 2) + 2 ^ 26 * x.tenant.toNat + 2 ^ 22 * ((y.map fun y => y.cause).getD 0)

/-- POPPY_STATUS and DEC_LIVE (06_poppy_codec). -/
def Engine.poppyStatus (e : Engine) : Nat :=
  2 ^ 16 * e.units.live .enc + 2 ^ 12 * (freeSpares .enc e.units e.body).length + (freeSpares .dec e.units e.body).length

/-- A word of a lane or core map: the physical unit, and whether the logical unit is withdrawn. -/
def UnitMap.word (m : UnitMap) : Nat := 2 ^ 31 * b2n m.withdrawn + m.phys

/-- RECIPE_STATUS (07_recipes). -/
def Recipes.status (x : Recipes) : Nat := 2 ^ 16 * x.sets.length + x.held.length

/-- NOISE of LARK_STATUS. -/
def Noise.code : Noise → Nat
  | .startup => 0
  | .healthy => 1
  | .failed => 2

/-- LARK_STATUS (13_security). -/
def Engine.larkStatus (e : Engine) : Nat :=
  2 ^ 26 * e.units.live .cipher + 2 ^ 23 * (freeSpares .cipher e.units e.body).length + 2 ^ 18 * e.units.live .hash +
    2 ^ 16 * (freeSpares .hash e.units e.body).length + e.units.noise.code

/-- State of a session in PEER_STATUS. -/
def SessState.code : SessState → Nat
  | .none => 0
  | .opening => 1
  | .keyed => 2

/-- PEER_STATUS of a session (09_pollen). -/
def Session.status (s : Session) : Nat := 2 ^ 30 * s.state.code + s.pages

/-- RING_HEADS and RING_STATUS of ring `n` (11_rings). -/
def Engine.ringHeads (r : Regs) (n : Nat) (e : Engine) : Nat :=
  2 ^ 16 * (e.ring n).cqTailNow (r.cqSize n) + (e.ring n).sqHeadNow (r.sqSize n)
def Engine.ringStatus (n : Nat) (e : Engine) : Nat :=
  2 ^ 16 * (e.jobsOf n).length + 2 * b2n (!(e.ring n).waiting.isEmpty) + b2n (e.ring n).phaseWait.isSome

/-- VQ_PTRS and VQ_STATUS of host queue `q` (12_vault). -/
def Engine.vqPtrs (r : Regs) (q : Nat) (e : Engine) : Nat := 2 ^ 16 * (e.vq q).outTail + e.inHead r q
def Engine.vqStatus (r : Regs) (q : Nat) (e : Engine) : Nat :=
  let v := e.vq q
  2 ^ 20 * v.cmds.length + 8 * b2n (!(e.vtenant (r.vqTenant q).toNat).deferred.isEmpty) + 4 * b2n v.resetting + 2 * b2n v.outWait +
    b2n v.phaseWait.isSome

/-- VQ_LINK_STATUS of link queue 16 + `p` (12_vault). -/
def Engine.vqLinkStatus (p : Nat) (e : Engine) : Nat := 2 ^ 20 * (e.vq (16 + p)).cmds.length + 4 * b2n (e.vq (16 + p)).resetting

/-- State of a slot in TENANT_STATE. -/
def SlotState.code : SlotState → Nat
  | .free => 0
  | .admitted => 1
  | .attested => 2

/-- TENANT_STATE of a slot (13_security). -/
def Tenant.status (x : Tenant) : Nat :=
  2 ^ 30 * x.state.code + 2 ^ 29 * b2n x.sealKey.isSome + 2 ^ 28 * b2n x.pollenKey.isSome + 2 ^ 27 * b2n x.session +
    2 ^ 26 * b2n x.debugAccessed + 2 ^ 25 * b2n x.releasing.isSome + x.policy.toNat

/-- FOX_STATUS (14_faults_service). -/
def Engine.foxStatus (e : Engine) : Nat :=
  2 ^ 31 * b2n e.fox.recovery + 2 ^ 16 * (e.fox.srcs.filter fun p => p.2.pending).length + 2 ^ 4 * e.fltFat + 2 ^ 2 * e.fltUrg + e.fltDef

/-- STEWARD of REFEREE. -/
def stewardCode : Option Half → Nat
  | none => 0
  | some .north => 1
  | some .south => 2

/-- REFEREE (14_faults_service). -/
def Referee.status (x : Referee) : Nat :=
  let soaking := match x.fw with | .soak _ => true | _ => false
  2 ^ 30 * stewardCode x.steward + 2 ^ 29 * b2n x.standbyReady + 2 ^ 28 * b2n soaking + 2 ^ 4 * x.missNorth + x.missSouth

/-- The four words of a log record (R344). -/
def FoxRec.word (j : Nat) (x : FoxRec) : Nat :=
  if j = 0 then x.seq.toNat
  else if j = 1 then
    x.source.toNat + 2 ^ 8 * (x.sev.toNat + 8 * b2n x.escalated) +
      2 ^ 16 * (match x.tenant with | some t => t.toNat | none => 16)
  else if j = 2 then x.stamp.toNat % 2 ^ 32
  else x.stamp.toNat / 2 ^ 32

/-- PENDING and EFF_SEV as they stand in FOX_SRC_CFG: EFF_SEV reads 0 while the source is not PENDING. -/
def FoxSrc.word (x : FoxSrc) : Nat := if x.pending then 2 ^ 31 + 2 ^ 28 * x.sev.toNat else 0

/-- SELF_TEST_STATUS (R432). -/
def SelfTest.status (x : SelfTest) : Nat := 2 ^ 31 * b2n x.running + 2 ^ 8 * x.last.toNat + x.code.toNat

end Sys2Proof.Machine
end

