-- ==== Sys2Proof/Machine/Rings.lean ====
section
/-!
DEFINITION. The commands of the rings (11_rings): doorbells, re-reads and re-writes, notices, and the jobs that this chapter
defines: DRAIN, SCRUB, TELEMETRY, GUARD_ADD, GUARD_REMOVE, RING_CREATE, ADMIN_SEND. Guard ranges follow 04_cut.
-/

namespace Sys2Proof.Machine

/-! ### Ring service -/

/-- A doorbell write of ring `n` that is ignored (R261, R267). -/
def Engine.ignoreDoorbell (k : Kit) (r : Regs) (n : Nat) (e : Engine) : Engine :=
  (e.bump Ctr.badDoorbells 1).raise k r 0x2C (r.ringConcerned n)

/-- A write of the SQ_TAIL_DB of ring `n` (R261, R369). While a line waits on its PHASE nothing more is read at the doorbell (R263). -/
def Engine.sqTail (k : Kit) (r : Regs) (n : Nat) (value : Word) (lines : List LineRead) (e : Engine) : Engine :=
  let g := e.ring n
  let size := r.sqSize n
  let t := value.toNat
  let h := g.sqHeadNow size
  if !r.ringActive n || decide (size ≤ t) || decide ((t + size - h) % size < (g.tail + size - h) % size) then e.ignoreDoorbell k r n
  else
    let e := (e.setRing n { g with tail := t }).wake
    if g.phaseWait.isSome then e else e.frameLines k r n lines

/-- SQ_TAIL_DB (R261 to R265, R369). The lines are what the reads from the fetch position return. -/
def execSqTailDb (ring : BitVec 8) (value : Word) (lines : List LineRead) (s : State) : Out :=
  s.effCfg fun k r e => e.sqTail k r ring.toNat value lines

/-- A write of the CQ_HEAD_DB of ring `n` (R267). -/
def Engine.cqHead (k : Kit) (r : Regs) (n : Nat) (value : Word) (e : Engine) : Engine :=
  let g := e.ring n
  let size := r.cqSize n
  let t := value.toNat
  let freed := (t + size - g.cqHead) % size
  if !r.ringActive n || decide (size ≤ t) || decide ((g.cq.filter fun c => c.written).length < freed) then e.ignoreDoorbell k r n
  else e.setRing n { g with cqHead := t, cq := g.cq.drop freed }

/-- CQ_HEAD_DB (R267). -/
def execCqHeadDb (ring : BitVec 8) (value : Word) (s : State) : Out := s.effCfg fun k r e => e.cqHead k r ring.toNat value

/-- The line at the fetch position has another PHASE than the one expected (R263). -/
def Engine.phaseBad (r : Regs) (n : Nat) (x : LineRead) (e : Engine) : Bool :=
  let g := e.ring n
  match x with
  | .ok d => (r.ringChained n || g.chain.isEmpty) && (headerOf d).phase != g.phase
  | _ => false

/-- The re-reads are used up: the line fails the entry (R265). -/
def Engine.failPhase (k : Kit) (r : Regs) (n : Nat) (d : LineData) (e : Engine) : Engine :=
  let g := e.ring n
  let size := r.sqSize n
  let moved := e.setRing n (g.advance size)
  if g.chain.isEmpty then moved.failFrame k r n 0x12 (headerOf d).cmdId g.fetch 1 (headerOf d).irq
  else
    let taken := g.chain.length + 1
    moved.failChain k r n 0x12 taken (min 8 (headerOf (g.chain.headD 0)).lines - taken) false

/-- The lines of ring `n` read again (R263, R265): one read at each beat edge while a line waits on its PHASE. A ring that does not wait
on PHASE frames what it had no entry or completion left for (R267, R277). -/
def Engine.phaseRing (k : Kit) (r : Regs) (n : Nat) (lines : List LineRead) (e : Engine) : Engine :=
  let g := e.ring n
  match lines with
  | [] => e
  | x :: _ =>
    match g.phaseWait with
    | none => if r.ringActive n then e.frameLines k r n lines else e
    | some m =>
      if g.phaseBeat = e.beat.num then e
      else
        let e := (e.bump Ctr.phaseRetries 1).setRing n { g with phaseWait := some (m + 1), phaseBeat := e.beat.num }
        match x with
        | .ok d =>
          if !e.phaseBad r n x then (e.setRing n { e.ring n with phaseWait := none }).frameLines k r n lines
          else if m + 1 < 16 then e
          else e.failPhase k r n d
        | _ => (e.setRing n { e.ring n with phaseWait := none }).frameLines k r n lines

/-- PHASE_RETRY (R263, R286): of a ring or of a host queue. -/
def execPhaseRetry (src : PhaseSrc) (lines : List LineRead) (s : State) : Out :=
  s.eff fun k r e =>
    match src with
    | .ring n => e.phaseRing k r n.toNat lines
    | .queue q => e.phaseQueue k r q.toNat lines

/-- COMPLETION_RETRY (R269). -/
def execCompletionRetry (ring : BitVec 8) (s : State) : Out :=
  s.eff fun k _ e =>
    let n := ring.toNat
    let g := e.ring n
    match g.cqOut with
    | none => e
    | some (addr, bytes) =>
      if g.cqFailed then (e.setRing n { g with cqFailed := false }).memWrite k addr bytes [] 1 (.completion n) else e

def Waiting.isHalt : Waiting → Bool
  | .halt _ _ _ _ _ => true
  | .plan _ _ => false

/-- A waiting completion taken from its list and written when an entry is free (R268). -/
def Engine.writeWaiting (k : Kit) (r : Regs) (n : Nat) (halt : Bool) (e : Engine) : Engine :=
  let g := e.ring n
  match g.waiting.find? fun w => w.isHalt == halt with
  | none => e
  | some w =>
    if !r.ringActive n || !e.cqFree r n then e
    else
      let e := e.setRing n { g with waiting := g.waiting.erase w }
      match w with
      | .halt cmdId index addr position stream =>
        e.pushCq k r n cmdId 0x28 true false index none true (natLE 8 addr.toNat ++ natLE 6 position ++ natLE 2 stream)
      | .plan code result => e.pushCq k r n (BitVec.allOnes 64) code false true 0xFFFF none false result

/-- HALT_NOTICE (R268). -/
def execHaltNotice (ring : BitVec 8) (s : State) : Out := s.eff fun k r e => e.writeWaiting k r ring.toNat true

/-- PLAN_COMPLETION (R106, R268). -/
def execPlanCompletion (ring : BitVec 8) (s : State) : Out := s.eff fun k r e => e.writeWaiting k r ring.toNat false

/-- JOB_FENCE_RELEASE (R278): the ring's oldest entry no longer waits on its fence. -/
def execJobFenceRelease (ring : BitVec 8) (s : State) : Out :=
  s.eff fun _ _ e =>
    let n := ring.toNat
    let g := e.ring n
    match g.ready with
    | [] => e
    | x :: rest => if x.fence && e.fenceMet n then e.setRing n { g with ready := { x with fence := false } :: rest } else e

/-! ### DRAIN and SCRUB -/

/-- DRAIN (R116, R117, R276): a flush of the tenant's dirty front lines. A line that failed before is not written again by it (R118, R302):
its code counts at once. -/
def execDrain (ring : BitVec 8) (s : State) : Out :=
  s.eff fun k r e => e.startJob r ring.toNat (fun x => x.opcode == 2) fun x e =>
    let t := r.ringTenant ring.toNat
    e.judged k r ring.toNat x (e.tenantConds t) fun e =>
      let id := x.jobId ring.toNat
      let mine (key : FrontKey) : Bool := match e.front.find key with | some l => l.line.tenant == t | none => false
      let keys := e.flushKeys mine
      let failed := keys.filterMap fun key => (e.backFailed key).map fun c => (key.offset, c)
      let e := e.addJob { id := id, tenant := some t, kind := .drain }
      let d : Drain := { job := id, waits := e.withVers (keys.filter fun key => (e.backFailed key).isNone), failures := failed }
      (({ e with vault := { e.vault with drains := e.vault.drains ++ [d] } }).pumpWindows k r).endDrains k r

/-- The front copy of a body line that a zero line has been written over: gone, or, where the body could not take it, zero and dirty (R115,
R118). -/
def Engine.scrubFront (n : Nat) (l : Line) (bad : Bool) (e : Engine) : Engine :=
  match e.front.find (.body n) with
  | none => e
  | some f =>
    if bad then e.onFront (Front.put { f with line := l, dirty := true, region := noQueue, flips := [] }) else e.onFront (Front.drop f.key)

/-- A zero line written over line `off` of the tenant's partition (R118, R122, R129, R273). `fails` says that its write fails four times. A
line of another tenant is left alone (R114; log 79). -/
def Engine.scrubLine (k : Kit) (r : Regs) (t : TenantNo) (off : Nat) (fails : Bool) (e : Engine) : Engine :=
  if e.notOurs r t.toNat off then e
  else
    let n := r.partLine t.toNat off
    let key := e.bodyKey n
    let l := Line.ofData 0 t 0 false
    let u := e.body.upset key
    let e := { e with body := e.body.setUpset key { u with fails := if fails then max u.fails 4 else u.fails } }
    (e.scrubFront n l (fails || decide (4 ≤ u.fails))).rewriteLine k r key l

/-- The slots of a tenant's partition scrubbed (R273): lines, COMPLETE bits, VALID. Body writes of those lines that were waiting
are merged into it (R115). -/
def Engine.scrubSlots (k : Kit) (r : Regs) (t : TenantNo) (slots : List Bool) (failed : List Nat) (e : Engine) : Engine :=
  let tn := t.toNat
  let size := r.slotLines tn
  let inSlot (n : Nat) : Bool := r.inPart tn n && slots.any fun b => (n - r.partLine tn 0) / size == b2n b
  let merged (w : BodyWrite) : Bool := match w.use with
    | .vault n _ => inSlot n
    | _ => false
  let e := { e with bulb := { e.bulb with writes := e.bulb.writes.filter fun w => !merged w } }
  e.forEach slots fun b e =>
    let e := e.forEach (List.range size) fun i e => e.scrubLine k r t (b2n b * size + i) (failed.contains (b2n b * size + i))
    let x := (e.kept tn).setComplete b false
    e.setKept tn (if x.valid && x.lastSlot == b then { x with valid := false } else x)

/-- What waited for the durability of lines that are no longer dirty goes on. -/
def Engine.settleClean (k : Kit) (r : Regs) (e : Engine) : Engine :=
  let gone : List (FrontKey × Nat) :=
    ((e.vault.queues.flatMap fun x => x.2.cmds.flatMap fun c => c.waits) ++ e.vault.drains.flatMap fun d => d.waits).filter
      fun x => (e.front.find x.1).isNone
  e.forEach gone fun x e => e.settleLine k r x.1 x.2 0

/-- Slots that SLOT_SEL names. -/
def slotsNamed (sel : Nat) : List Bool := (if bitOf 0 sel then [false] else []) ++ (if bitOf 1 sel then [true] else [])

/-- SCRUB (R273). `failed` names the lines whose fourth write attempt fails. -/
def execScrub (ring : BitVec 8) (failed : List Nat) (s : State) : Out :=
  s.eff fun k r e => e.startJob r ring.toNat (fun x => x.opcode == 8) fun x e =>
    let t := r.ringTenant ring.toNat
    let tn := t.toNat
    let sel := leAt 0 1 x.params
    let slots := slotsNamed sel
    let bad := failed.filter fun n => slots.any fun b => n / r.slotLines tn == b2n b
    let busy := (match e.cut.run with | some run => run.tenant == t | none => false) || (e.bulb.copies.any fun c => c.tenant == tn) || e.bodyRead t false || e.bodyRead t true
    let foreign := slots.any fun b => e.foreign r t (64 * (b2n b * r.slotLines tn)) (64 * r.slotLines tn)
    e.judged k r ring.toNat x (e.tenantConds t ++
      [(foreign, 0x40), (decide (sel % 4 = 0) || decide (4 ≤ sel) || !zeroAt 1 15 x.params, 0x11), (r.bodyBanks tn == 0, 0x14), (busy, 0x58)]) fun e =>
      let e := (e.scrubSlots k r t slots bad).settleClean k r
      e.refuse k r (x.jobId ring.toNat) (if bad.isEmpty then 0 else 0x26)

/-! ### TELEMETRY -/

/-- The offsets of the shadow pairs that a span of bytes touches, up to the end of the shadows. -/
def spanOffsets (first len : Nat) : List Nat :=
  (List.range (ceilDiv (min (first + len) 0x80000 - (first - first % 8)) 8)).map fun i => first - first % 8 + 8 * i

/-- The value of a published shadow pair (R45). -/
def Engine.shadowAt (off : Nat) (e : Engine) : Dword :=
  if off = 0x60000 then e.count.shadowBeat else tabGet (fun _ => 0) off e.count.shadow

/-- A counter that every ring may read (R335). -/
def openCounter (off : Nat) : Bool := off == 0x60000 || off == Ctr.throttledBeats

/-- What a TELEMETRY span is refused for by who may read it (R274, R335). -/
def Engine.spanConds (n : Nat) (t : TenantNo) (offs : List Nat) (e : Engine) : List (Bool × Code) :=
  let others := (offs.filterMap counterTenant).filter fun u => u != t.toNat
  if n = 0 then [(others.any fun u => !bitOf 2 (e.tenant u).policy.toNat, 0x43)]
  else [(!others.isEmpty || (offs.any fun o => (counterTenant o).isNone && shadowImplemented o && !openCounter o), 0x40)]

/-- A job's bytes written to host memory, one request a page (R385). -/
def Engine.writeJob (k : Kit) (id : JobId) (addr : Nat) (bs : List Byte) (e : Engine) : Engine :=
  e.forEach (pageWrites addr bs) fun p e => e.memWrite k p.1 p.2 [] 2 (.job id)

/-- What a TELEMETRY is refused for (R257, R274, R335). -/
def Engine.telemetryConds (r : Regs) (n : Nat) (bs : List Byte) (e : Engine) : List (Bool × Code) :=
  let t := r.ringTenant n
  let dest := leAt 0 8 bs
  let first := leAt 8 4 bs
  let len := leAt 12 4 bs
  let offs := spanOffsets first len
  e.tenantConds t ++ e.spanConds n t offs ++
    [(!(decide (8 ≤ len) && decide (len ≤ 4096) && len % 8 == 0) || !zeroAt 16 16 bs, 0x11), (dest % 64 != 0 || first % 8 != 0, 0x13),
     (decide (first < 0x60000) || decide (0x80000 < first + len) || (offs.any fun o => !shadowImplemented o), 0x13),
     (!r.inRegions t.toNat dest (8 + len), 0x13)]

/-- TELEMETRY (R274, R335). -/
def execTelemetry (ring : BitVec 8) (s : State) : Out :=
  s.eff fun k r e => e.startJob r ring.toNat (fun x => x.opcode == 9) fun x e =>
    let n := ring.toNat
    e.judged k r n x (e.telemetryConds r n x.params) fun e =>
      let id := x.jobId n
      let beat := natLE 8 e.count.shadowBeat.toNat
      (e.addJob { id := id, tenant := some (r.ringTenant n), kind := .wait beat, spans := [(leAt 0 8 x.params, 8 + leAt 12 4 x.params)] }).writeJob k id
        (leAt 0 8 x.params) (beat ++ (spanOffsets (leAt 8 4 x.params) (leAt 12 4 x.params)).flatMap fun o => natLE 8 (e.shadowAt o).toNat)

/-! ### Guard ranges -/

/-- Granule spans of two ranges share a granule. -/
def granulesMeet (base n : Nat) (g : Range) : Bool := spansMeet (base, n) (g.base, g.granules)

/-- A tensor list that GUARD_ADD refuses (R193, R272). -/
def tlistBad (count : Nat) (bs : List Byte) : Bool :=
  let cs := (List.range count).map fun i => coordOf (slice (192 * i) 192 bs)
  decide (bs.length < 192 * count) || (cs.any fun c => !c.rankOk || !c.layoutOk || !c.sliceOk) || !coordsApart cs

/-- GUARD_ADD (R90, R91, R257, R272, R337, R350). -/
def execGuardAdd (ring : BitVec 8) (tlist : HostRead) (s : State) : Out :=
  s.eff fun k r e => e.startJob r ring.toNat (fun x => x.opcode == 0x0A) fun x e =>
    let n := ring.toNat
    let t := r.ringTenant n
    let base := leAt 0 8 x.params
    let granules := leAt 8 4 x.params
    let cls := leAt 12 1 x.params
    let addr := leAt 16 8 x.params
    let count := leAt 24 4 x.params
    let mine := (e.guard.ranges.filter fun p => p.2.owner == t).length
    e.judgedData k r n x (e.tenantConds t ++
      [(decide (granules < 1) || decide (262144 < granules) || !(cls == 0 || (decide (3 ≤ cls) && decide (cls ≤ 7))) || decide (count < 1) ||
          decide (4096 < count) || !zeroAt 13 3 x.params || !zeroAt 28 20 x.params, 0x11),
       (e.guard.ranges.any fun p => granulesMeet (base / 2 ^ 20) granules p.2, 0x11),
       (base % 2 ^ 20 != 0 || addr % 64 != 0, 0x13),
       (!r.inRegions t.toNat base (granules * 2 ^ 20) || !r.inRegions t.toNat addr (192 * count), 0x13),
       (e.mode == .recovery, 0x14),
       (decide (64 ≤ e.guard.ranges.length) || (e.beat.sealed && decide (r.quotaRanges t.toNat ≤ mine)), 0x51)])
      tlist (fun bs => [(tlistBad count bs, 0x12)]) fun bs e =>
        match lowestFrom (fun i => (e.range i).isNone) 0 64 with
        | none => e
        | some g =>
          let range : Range := { base := base / 2 ^ 20, granules := granules, owner := t, cls := cls,
                                 coords := (List.range count).map fun i => coordOf (slice (192 * i) 192 bs),
                                 armed := false, parity := e.guard.parities.getLsbD g, flag := e.guard.parities.getLsbD g,
                                 flipped := [] }
          ({ e with guard := { e.guard with ranges := tabSet g range e.guard.ranges } }).complete k r (x.jobId n) 0 (natLE 1 g)

/-- A cut that is armed or running names the range. -/
def Engine.rangeBusy (n : Nat) (e : Engine) : Bool :=
  match e.cut.run with
  | some run => (rangesOf run.params.ranges).contains n
  | none => false

/-- GUARD_REMOVE (R90, R272). -/
def execGuardRemove (ring : BitVec 8) (s : State) : Out :=
  s.eff fun k r e => e.startJob r ring.toNat (fun x => x.opcode == 0x0B) fun x e =>
    let n := ring.toNat
    let t := r.ringTenant n
    let g := leAt 0 1 x.params
    let other := match e.range g with | some w => w.owner != t | none => false
    e.judged k r n x (e.tenantConds t ++
      [(other, 0x40), (decide (64 ≤ g) || (e.range g).isNone || !zeroAt 1 15 x.params, 0x11), (e.rangeBusy g, 0x58)]) fun e =>
      (e.onGuard (Guard.forget fun m => m == g)).refuse k r (x.jobId n) 0

/-! ### RING_CREATE and ADMIN_SEND -/

/-- Parameters of a RING_CREATE. -/
structure RingParams where
  sqBase : Nat
  cqBase : Nat
  sqLog : Nat
  cqLog : Nat
  modeIrq : Nat
  tenant : Nat
  weight : Nat
  burst : Nat
deriving DecidableEq, Repr

def ringParamsOf (bs : List Byte) : RingParams :=
  { sqBase := leAt 0 8 bs, cqBase := leAt 8 8 bs, sqLog := leAt 16 1 bs, cqLog := leAt 17 1 bs, modeIrq := leAt 18 1 bs,
    tenant := leAt 19 1 bs % 16, weight := leAt 20 1 bs, burst := leAt 21 1 bs }

/-- The configuration words of the new ring, active (R275). -/
def Regs.createRing (n : Nat) (p : RingParams) (r : Regs) : Regs :=
  let cfg := 2 ^ 31 + 2 ^ 30 * (p.modeIrq % 2) + 2 ^ 27 * (p.modeIrq / 2 % 8) + 2 ^ 22 * p.cqLog + 2 ^ 17 * p.sqLog + p.tenant
  let o := ringOff n
  [(0, p.sqBase % 2 ^ 32), (4, p.sqBase / 2 ^ 32), (8, p.cqBase % 2 ^ 32), (0xC, p.cqBase / 2 ^ 32), (0x10, cfg),
   (0x14, 256 * p.weight + p.burst)].foldl (fun r x => r.setBoth (o + x.1) x.2) r

/-- Active rings of a tenant. -/
def Regs.ringsOf (t : Nat) (r : Regs) : Nat := ((List.range 256).filter fun n => r.ringActive n && (r.ringTenant n).toNat == t).length

/-- The lowest free ring number from 1 (R255). -/
def Regs.freeRing (r : Regs) : Option Nat := lowestFrom (fun n => !r.ringActive n) 1 255

/-- The ring memories of the active rings (R257). -/
def Regs.ringSpans (r : Regs) : List (Nat × Nat) :=
  ((List.range 256).filter r.ringActive).flatMap fun n => [(r.sqBase n, 64 * r.sqSize n), (r.cqBase n, 32 * r.cqSize n)]

/-- What a RING_CREATE is refused for (R257, R275, R316, R337). R275's "two ring memories that overlap" are taken to be any two:
the new ring's own, or one of them and one of an active ring (DEDUCED, log 13). -/
def Engine.ringConds (r : Regs) (n : Nat) (x : Entry) (e : Engine) : List (Bool × Code) :=
  let p := ringParamsOf x.params
  let u := e.tenant p.tenant
  let sq := 64 * 2 ^ p.sqLog
  let cq := 32 * 2 ^ p.cqLog
  let logOk (v : Nat) : Bool := decide (4 ≤ v) && decide (v ≤ 16)
  [(x.badHeader, 0x11),
   (n != 0 && p.tenant != (r.ringTenant n).toNat, 0x40),
   (u.state == .free || u.releasing.isSome, 0x40),
   (n != 0 && u.state == .admitted, 0x44),
   (!logOk p.sqLog || !logOk p.cqLog || decide (16 ≤ p.modeIrq) || decide (16 ≤ leAt 19 1 x.params) || p.weight == 0 || p.burst == 0 ||
      decide (64 < p.burst) || !zeroAt 22 26 x.params, 0x11),
   (p.sqBase % 4096 != 0 || p.cqBase % 4096 != 0, 0x13),
   (logOk p.sqLog && logOk p.cqLog &&
      (!r.inRegions p.tenant p.sqBase sq || !r.inRegions p.tenant p.cqBase cq || spansMeet (p.sqBase, sq) (p.cqBase, cq) ||
        r.ringSpans.any fun y => spansMeet y (p.sqBase, sq) || spansMeet y (p.cqBase, cq)), 0x13),
   (r.freeRing.isNone || (e.beat.sealed && decide (r.quotaRings p.tenant ≤ r.ringsOf p.tenant)), 0x55)]

/-- RING_CREATE (R255, R275). -/
def execRingCreate (ring : BitVec 8) (s : State) : Out :=
  s.effRegs fun k r e =>
    let n := ring.toNat
    match (e.ring n).ready with
    | [] => (r, e)
    | x :: _ =>
      if !e.mayStart r n || x.opcode != 0x0C then (r, e)
      else
        let e := e.takeEntry r n
        match judge (e.ringConds r n x), r.freeRing with
        | none, some m => (r.createRing m (ringParamsOf x.params), (e.setRing m Ring.fresh).complete k r (x.jobId n) 0 (natLE 1 m))
        | some c, _ => (r, e.refuse k r (x.jobId n) c)
        | none, none => (r, e.refuse k r (x.jobId n) 0x55)

/-- The peer slot of a tenant that is enabled for a peer number. -/
def peerSlot (r : Regs) (t peer : Nat) : Option Nat := (List.range 16).find? fun i => r.peerEnable t i && r.peerId t i == peer

/-- ADMIN_SEND (R224, R226, R276): over the lowest live port; with none, the session's last port is down. -/
def execAdminSend (ring : BitVec 8) (s : State) : Out :=
  s.eff fun k r e => e.startJob r ring.toNat (fun x => x.opcode == 0x0D) fun x e =>
    let n := ring.toNat
    let t := r.ringTenant n
    let tn := t.toNat
    let slot := peerSlot r tn (leAt 2 2 x.params)
    let keyed := match slot with | some i => (e.sess tn i).state == .keyed | none => true
    e.judged k r n x (e.tenantConds t ++
      [(leAt 0 1 x.params != 1 || !zeroAt 1 1 x.params || !zeroAt 4 12 x.params || slot.isNone, 0x11), (!keyed, 0x33)]) fun e =>
      let id := x.jobId n
      match slot with
      | none => e
      | some i =>
        match lowestPort (e.sess tn i).live with
        | none => e.refuse k r id 0x31
        | some p =>
          let seq := ((e.sess tn i).port p).seqAhead
          (e.addJob { id := id, tenant := some t, kind := .adminSend tn i p seq }).sendSeq r tn i p (Frame.bare ftAdmin 1)

end Sys2Proof.Machine
end

