-- ==== Sys2Proof/Machine/RegRead.lean ====
section
/-!
DEFINITION. What a read of each register returns (17_registers, R413, R424, R433; the field maps of every chapter). `none` is a location
that is reserved or unimplemented (R382).
-/

namespace Sys2Proof.Machine

/-- Word `j` of a number, 32 bits each. -/
def wordOf (j n : Nat) : Nat := n / 2 ^ (32 * j) % 2 ^ 32

/-- Identity, self-test, power and commit words (R431, R432, 15_power_reset). -/
def globalWord (k : Kit) (r : Regs) (e : Engine) (off : Nat) : Option Nat :=
  match instanceOf 0x10 4 4 0 off with
  | some j => some (wordOf j e.keys.uid)
  | none =>
    if off = 0 then some engineId
    else if off = 4 then some (2 ^ 20 * k.regions + k.buds)
    else if off = 8 then some (2 ^ 16 * k.guardClients + 2 ^ 8 * k.memChannels + k.linkPorts)
    else if off = 0xC then some (2 ^ 16 * k.gridRows + k.gridCols)
    else if off = 0x30 then some e.selfTest.ctrl.toNat
    else if off = 0x34 then some e.selfTest.status
    else if off = 0x40 then some e.pwrStatus
    else if off = 0x44 then some e.readyStatus
    else if off = 0x48 then some (2 ^ 8 * e.power.vwbStep.toNat + e.power.vaonStep.toNat)
    else if off = 0x1000 then some 0
    else if off = 0x1010 then some r.crcLive.toNat
    else if off = 0x1014 then some (2 * b2n r.passValid + b2n r.mismatch)
    else none

/-- Beat words (02_beat). -/
def beatWord (e : Engine) (off : Nat) : Option Nat :=
  let b := e.beat
  if off = 0x2004 then some b.status
  else if off = 0x2008 ∨ off = 0x200C then some (wordOf ((off - 0x2008) / 4) b.num.toNat)
  else if off = 0x2010 ∨ off = 0x2014 then some (wordOf ((off - 0x2010) / 4) b.offset.toNat)
  else if off = 0x2018 then some b.slip.toNat
  else if off = 0x2020 ∨ off = 0x2024 then some (wordOf ((off - 0x2020) / 4) b.timeNow.toNat)
  else none

/-- The four words of guard range `n` (04_cut). -/
def grangeWord (e : Engine) (n j : Nat) : Nat :=
  match e.range n with
  | none => if j = 3 then 2 ^ 30 * b2n (e.guard.parity n) else 0
  | some w =>
    if j < 2 then wordOf j (w.base * 2 ^ 20)
    else if j = 2 then w.granules
    else 2 ^ 31 * b2n w.armed + 2 ^ 30 * b2n w.parity + w.owner.toNat

/-- Cut and commit-protocol words (04_cut, 08_shard_format). -/
def cutWord (k : Kit) (e : Engine) (off : Nat) : Option Nat :=
  if off = 0x4000 then some e.cut.status
  else if off = 0x4008 ∨ off = 0x400C then some (wordOf ((off - 0x4008) / 4) e.cut.step.toNat)
  else if off = 0x4010 then some k.stemDepth
  else if off = 0x4014 then some (e.absent k)
  else if off = 0x4024 then some e.cut.planStatus
  else if 0x4400 ≤ off ∧ off < 0x4800 then some (grangeWord e ((off - 0x4400) / 16) ((off - 0x4400) / 4 % 4))
  else if 0x4800 ≤ off ∧ off < 0x4A00 then
    let x := e.kept ((off - 0x4800) / 32)
    let j := (off - 0x4800) / 4 % 8
    if j = 0 then some x.commitState
    else if j = 2 ∨ j = 3 then some (wordOf (j - 2) x.lastEpoch.toNat)
    else if j = 4 ∨ j = 5 then some (wordOf (j - 4) x.lastStep.toNat)
    else if j = 6 ∨ j = 7 then some (wordOf (j - 6) x.nextEpoch.toNat)
    else none
  else none

/-- Bulb, stream, lane, core and recipe words (05_bulb, 06_poppy_codec, 07_recipes, 10_restore_streams, 13_security). -/
def storeWord (e : Engine) (off : Nat) : Option Nat :=
  let mapWord (x : UnitKind) (base : Nat) : Option Nat :=
    (instanceOf base 4 x.logical 0 off).map fun l => (e.units.at x l).word
  if off = 0x8000 then some e.bulbStatus
  else if 0x8140 ≤ off ∧ off < 0x8180 then some (e.bodyState ((off - 0x8140) / 4))
  else if 0x8400 ≤ off ∧ off < 0x8800 then some (e.body.map ((off - 0x8400) / 4))
  else if 0x8800 ≤ off ∧ off < 0x8C40 then some (e.body.bank ((off - 0x8800) / 4)).status
  else if off = 0x9000 then some e.streamStatus
  else if off = 0x9008 then some 0
  else if 0x9800 ≤ off ∧ off < 0xA000 then some (e.streamState ((off - 0x9800) / 4))
  else if off = 0xA000 then some e.poppyStatus
  else if off = 0xA004 then some (e.units.live .dec)
  else if off = 0xA008 then some e.recipes.status
  else if off = 0xB000 then some e.larkStatus
  else (((mapWord .enc 0xA100).or (mapWord .dec 0xA200)).or (mapWord .cipher 0xB100)).or (mapWord .hash 0xB200)

/-- Pollen words (09_pollen). -/
def pollenWord (e : Engine) (off : Nat) : Option Nat :=
  if off = 0xC010 ∨ off = 0xC014 then some (wordOf ((off - 0xC010) / 4) e.pollen.portUp.toNat)
  else if 0xC100 ≤ off ∧ off < 0xE100 then
    let n := (off - 0xC100) / 32
    let x := e.sess (n / 16) (n % 16)
    let j := (off - 0xC100) / 4 % 8
    if j = 4 then some x.status
    else if j = 5 ∨ j = 6 then some (wordOf (j - 5) x.live.toNat)
    else none
  else none

/-- Ring words and doorbells (11_rings). The configuration words of rings 1 to 255 are RO. -/
def ringWord (r : Regs) (e : Engine) (off : Nat) : Option Nat :=
  if 0x10000 ≤ off ∧ off < 0x14000 then
    let n := (off - 0x10000) / 64
    let j := (off - 0x10000) / 4 % 16
    if j < 5 then some (r.word off)
    else if j = 6 then some (e.ringHeads r n)
    else if j = 7 then some (e.ringStatus n)
    else none
  else if 0x20000 ≤ off ∧ off < 0x20800 then
    let g := e.ring ((off - 0x20000) / 8)
    some (if (off - 0x20000) / 4 % 2 = 0 then g.tail else g.cqHead)
  else none

/-- Vault words and doorbells (12_vault). -/
def vaultWord (k : Kit) (r : Regs) (e : Engine) (off : Nat) : Option Nat :=
  if 0x21000 ≤ off ∧ off < 0x21080 then
    let v := e.vq ((off - 0x21000) / 8)
    some (if (off - 0x21000) / 4 % 2 = 0 then v.inTail else v.outHead)
  else if 0x30000 ≤ off ∧ off < 0x30400 then
    let q := (off - 0x30000) / 64
    let j := (off - 0x30000) / 4 % 16
    if j = 5 then some (e.vqPtrs r q) else if j = 6 then some (e.vqStatus r q) else none
  else if 0x30400 ≤ off ∧ off < 0x30400 + 4 * k.linkPorts then some (e.vqLinkStatus ((off - 0x30400) / 4))
  else if off = 0x30800 then some 0
  else if 0x30900 ≤ off ∧ off < 0x30940 then some (e.vtenant ((off - 0x30900) / 4)).arb.toNat
  else if 0x30940 ≤ off ∧ off < 0x30980 then some (e.vtenant ((off - 0x30940) / 4)).wcache.toNat
  else none

/-- Tenant and security words (13_security). -/
def tenantWord (e : Engine) (off : Nat) : Option Nat :=
  if off = 0x40404 then some e.power.level
  else if 0x40000 ≤ off ∧ off < 0x40400 then
    let t := (off - 0x40000) / 64
    let j := (off - 0x40000) / 4 % 16
    if j = 0 then some (e.tenant t).status
    else if 1 ≤ j ∧ j ≤ 4 then some (wordOf (j - 1) (e.tenant t).uid.toNat)
    else if j = 5 then some (e.kept t).xtsNext.toNat
    else none
  else none

/-- Foxglove, referee and telemetry words (14_faults_service). -/
def foxWord (e : Engine) (off : Nat) : Option Nat :=
  if off = 0x50000 then some e.foxStatus
  else if off = 0x50008 ∨ off = 0x50018 ∨ off = 0x50020 then some 0
  else if off = 0x5000C then some e.fox.seq.toNat
  else if off = 0x50010 then some e.referee.status
  else if off = 0x50014 then some e.referee.epoch.toNat
  else if off = 0x50024 then some (2 ^ 31 * b2n e.units.spareBusy + e.units.spareCode.toNat)
  else if off = 0x50030 then some e.power.sample.toNat
  else if 0x50400 ≤ off ∧ off < 0x50800 then some 0
  else if 0x51000 ≤ off ∧ off < 0x51400 then
    match tabFind ((off - 0x51000) / 16) e.fox.log with
    | some x => some (x.word ((off - 0x51000) / 4 % 4))
    | none => some 0
  else none

/-- Counter shadows (R45, R47). -/
def shadowRead (e : Engine) (off : Nat) : Option Nat :=
  if shadowImplemented (off - off % 8) then some (wordOf (off % 8 / 4) (e.shadowAt (off - off % 8)).toNat) else none

/-- Some word is changed (R414). -/
def changedAt (k : Kit) (r : Regs) (off : Nat) : Bool :=
  match rwWord k off with
  | none => false
  | some i => (r.word off ^^^ r.shadowWord off) &&& (i.rw ||| i.rsv) != 0

/-- The changed words: only a word that is listed live or in the shadow can differ from its reset value. -/
def Regs.changedWords (k : Kit) (r : Regs) : List Nat :=
  let listed := r.shadow.map fun (p : Nat × Word) => p.1
  let rest := (r.live.map fun (p : Nat × Word) => p.1).filter fun o => !listed.contains o
  (listed ++ rest).filter (changedAt k r)

/-- CMT_STATUS: a commit ends with its command, so BUSY reads 0 (log 9). -/
def cmtStatus (k : Kit) (r : Regs) : Nat :=
  2 ^ 30 * b2n (!(r.changedWords k).isEmpty) + 2 ^ 28 * r.cmtSource.toNat + 2 ^ 20 * r.cmtCode.toNat + r.cmtOffset.toNat

/-- A word without an RW field. -/
def plainRead (k : Kit) (r : Regs) (e : Engine) (off : Nat) : Option Nat :=
  if off = 0x1004 then some (cmtStatus k r)
  else if off < 0x2000 then globalWord k r e off
  else if off < 0x4000 then beatWord e off
  else if off < 0x8000 then cutWord k e off
  else if off < 0xC000 then storeWord e off
  else if off < 0x10000 then pollenWord e off
  else if off < 0x21000 then ringWord r e off
  else if off < 0x40000 then vaultWord k r e off
  else if off < 0x50000 then tenantWord e off
  else if off < 0x60000 then foxWord e off
  else shadowRead e off

/-- The RO bits of a word with an RW field. -/
def mixedBits (e : Engine) (off : Nat) : Nat :=
  match instanceOf 0x50400 4 256 0 off with
  | some s => (e.fox.src s).word
  | none => 0

/-- A read of the word at an aligned offset below 0x8_0000. -/
def wordRead (k : Kit) (r : Regs) (e : Engine) (off : Nat) : Option Nat :=
  if (rwWord k off).isSome then some (r.word off + mixedBits e off) else plainRead k r e off

/-- Offset and bit of an alias (R426). -/
def aliasOf (off : Nat) : Nat × Nat := (4 * ((off - 0x80000) / 128), (off - 0x80000) % 128 / 4)

/-- A read access (R382, R413, R427): none is a bus error. -/
def cfgRead (k : Kit) (r : Regs) (e : Engine) (off : Nat) : Option Word :=
  if off % 4 ≠ 0 then none
  else if off < 0x80000 then (wordRead k r e off).map (BitVec.ofNat 32)
  else
    let a := aliasOf off
    (wordRead k r e a.1).map fun n => BitVec.ofNat 32 (b2n (bitOf a.2 n))

end Sys2Proof.Machine
end

