-- ==== Sys2Proof/Machine/RestoreOps.lean ====
section
/-!
DEFINITION. Planning and content of a RESTORE (08_shard_format, 10_restore_streams): the plan, the slots that it names, the checks of
R190, R193 and R246, how an extent is undone, and the bytes that each target entry writes.
-/

namespace Sys2Proof.Machine

/-! ### The plan -/

/-- A source entry (R244). -/
structure PlanSource where
  kind : Nat
  sel : Nat
  group : Nat
  peer : Nat
  base : Nat
  pages : Nat
  key : BitVec 768
  rsv : Bool
deriving DecidableEq, Repr

def planSourceOf (bs : List Byte) : PlanSource :=
  let b0 := leAt 0 1 bs
  let b1 := leAt 1 1 bs
  { kind := b0 % 4, sel := b1 % 4, group := leAt 2 1 bs, peer := leAt 4 2 bs, base := leAt 8 8 bs, pages := leAt 16 4 bs,
    key := BitVec.ofNat 768 (leAt 32 96 bs)
    rsv := decide (3 < b0) || b0 % 4 == 3 || decide (3 < b1) || b1 % 4 == 3 || decide (63 < leAt 2 1 bs) || !zeroAt 3 1 bs ||
      !zeroAt 6 2 bs || !zeroAt 20 12 bs }

def planEntryOf (bs : List Byte) : PlanEntry :=
  let kind := leAt 8 1 bs
  let re := leAt 9 1 bs
  let layout := leAt 10 3 bs
  let arr (off : Nat) : List Nat := (List.range 6).map fun i => leAt (off + 8 * i) 8 bs
  let grid := kind % 4 == 1
  let common := decide (1 < kind) || !zeroAt 14 2 bs || !zeroAt 176 16 bs
  { tensorId := BitVec.ofNat 64 (leAt 0 8 bs), grid := grid, rank := re % 8, exact_ := bitOf 3 re, layout := layout % 2 ^ 18,
    fmt := leAt 13 1 bs % 16, dst0 := leAt 16 8 bs, dst1 := leAt 24 8 bs, gshape := arr 32, sstart := arr 80, slen := arr 128
    rsv := common ||
      (if grid then leAt 0 8 bs != 0 || leAt 9 5 bs != 0 || !zeroAt 32 144 bs
       else decide (15 < re) || decide (2 ^ 18 ≤ layout) || decide (15 < leAt 13 1 bs) || (leAt 13 1 bs == 0 && leAt 24 8 bs != 0)) }

/-- A plan as its bytes spell it: the entries that its length holds whole. -/
structure Plan where
  sources : List PlanSource
  entries : List PlanEntry
  step : Nat
deriving DecidableEq, Repr

def planOf (bs : List Byte) : Plan :=
  let ns := leAt 4 2 bs
  let ne := leAt 6 2 bs
  { sources := (List.range (min ns ((bs.length - 64) / 128))).map fun i => planSourceOf (slice (64 + 128 * i) 128 bs)
    entries := (List.range (min ne ((bs.length - 64 - 128 * ns) / 256))).map fun i => planEntryOf (slice (64 + 128 * ns + 256 * i) 256 bs)
    step := leAt 8 8 bs }

/-- What the plan's CRC covers (R244). -/
def planCrcBytes (bs : List Byte) : List Byte :=
  let ns := leAt 4 2 bs
  let ne := leAt 6 2 bs
  bs.take 60 ++ slice 64 (128 * ns) bs ++ (List.range ne).flatMap fun i => slice (64 + 128 * ns + 256 * i) 192 bs

/-- A target slice as a coordinate record of the whole of it. -/
def PlanEntry.coord (x : PlanEntry) : Coord :=
  { tensorId := x.tensorId, unitStart := 0, unitCount := 0, rank := x.rank, layout := x.layout, rotPhase := 0, gshape := x.gshape,
    sstart := x.sstart, slen := x.slen }

/-- Blocks of a TENSOR target. -/
def PlanEntry.blocks (x : PlanEntry) : Nat := ceilDiv x.coord.elements 32

/-- Width of the target elements. -/
def PlanEntry.width (x : PlanEntry) : Nat := ((fmtOf x.fmt).map Fmt.width).getD 0

/-- Destination spans of a TENSOR entry: element plane and scale plane; a BYTES target's length is that of its slice in whole lines. -/
def PlanEntry.spans (x : PlanEntry) : List (Nat × Nat) :=
  if x.grid then []
  else if x.fmt = 0 then [(x.dst0, 64 * ceilDiv x.coord.elements 64)]
  else [(x.dst0, 4 * x.width * x.blocks), (x.dst1, x.blocks)]

/-- The conditions that the plan's bytes are refused for in phase 1 (R245). -/
def planConds (r : Regs) (t : TenantNo) (len : Nat) (bs : List Byte) : List (Bool × Code) :=
  let ns := leAt 4 2 bs
  let ne := leAt 6 2 bs
  let p := planOf bs
  let keysDiffer := p.sources.any fun a => p.sources.any fun b => a.group == b.group && a.key != b.key
  let counts := decide (1 ≤ ns) && decide (ns ≤ 64) && decide (1 ≤ ne) && decide (ne ≤ 4096)
  [(leAt 0 4 bs != 0x4E414C50 || !counts || len != 64 + 128 * ns + 256 * ne || leAt 60 4 bs != (crc32c (planCrcBytes bs)).toNat, 0x12),
   (!zeroAt 16 44 bs || (p.sources.any fun x => x.rsv) || p.entries.any fun x => x.rsv, 0x11),
   (p.entries.any fun x => !x.grid && (decide (x.rank < 1) || decide (6 < x.rank) || (fmtOf x.fmt).isNone), 0x11),
   (keysDiffer, 0x11),
   (p.step == 0 && !(p.sources.any fun x => x.group == 0), 0x11),
   ((p.sources.any fun x => x.kind == 1 && x.base % 4096 != 0) ||
      p.entries.any fun x => x.dst0 % 64 != 0 || x.dst1 % (if x.grid then 4096 else 64) != 0, 0x13),
   ((p.sources.any fun x => x.kind == 1 && !r.inRegions t.toNat x.base (2 * (4096 * x.pages))) ||
      p.entries.any fun x => x.spans.any fun y => !r.inRegions t.toNat y.1 y.2, 0x13)]

/-! ### Slots -/

/-- One slot as a reader of it finds it: its size, and its lines: each has its data, or the code that its read fails with (R246). -/
structure SlotView where
  size : Nat
  line : Nat → LineData
  bad : Nat → Code

/-- A read of a slot (R190): past its end it fails with 0x12; a bad line fails the location. -/
def SlotView.read (off len : Nat) (v : SlotView) : Except Code (List Byte) :=
  if v.size < off + len then .error 0x12
  else
    let first := off / 64
    let n := if len = 0 then 0 else (off + len - 1) / 64 + 1 - first
    let ls := (List.range n).map fun i => first + i
    match (ls.map v.bad).find? fun c => c != 0 with
    | some c => .error c
    | none => .ok (slice (off % 64) len (bytesOfLines (ls.map v.line)))

/-- A location: its source entry, its slots A and B, and what an operand says of them. -/
structure Location where
  src : PlanSource
  slot : Bool → SlotView
  held : Bool → SlotData

/-- The code of a location's read that fails (R246): 0x21 for the poison marker, else a MEM error. -/
def locationCode (c : Code) : Code := if c = 0 ∨ c = 0x21 then c else 0x27

/-- A slot as an operand gives it: host memory or a peer's window. -/
def slotView (size : Nat) (d : SlotData) : SlotView :=
  { size := size, line := fun n => lineOfBytes (d.bytes.drop (64 * n)), bad := fun n => locationCode (tabGet (fun _ => 0) n d.bad) }

/-- A line as a read of it finds it, and its code: 0x40 for a line of another tenant (R114), 0x21 with the marker or uncorrectable
(R119, R120, R123). -/
def foundLine (draws : Nat) (flips : List Nat) (t : Nat) (l : Line) : LineData × Code :=
  if l.tenant.toNat ≠ t then (0, 0x40)
  else match eccRead draws flips l with
    | .good x => (x.data, if x.poison then 0x21 else 0)
    | .corrected x _ => (x.data, if x.poison then 0x21 else 0)
    | .bad => (0, 0x21)

/-- Line `n` of a tenant's body partition as planning reads it: the front copy first (R115); a line that holds no data reads as zeros. -/
def Engine.planLine (r : Regs) (t n : Nat) (e : Engine) : LineData × Code :=
  match e.front.find (.body (r.partLine t n)) with
  | some f => foundLine e.draws f.flips t f.line
  | none => match e.partLine r t n with
    | some l => foundLine e.draws (e.body.upset (e.partKey r t n)).flips t l
    | none => (0, 0)

/-- A slot of the tenant's body partition. -/
def Engine.bodySlot (r : Regs) (t : Nat) (slot : Bool) (e : Engine) : SlotView :=
  let at_ (n : Nat) : LineData × Code := e.planLine r t (b2n slot * r.slotLines t + n)
  { size := 64 * r.slotLines t, line := fun n => (at_ n).1, bad := fun n => (at_ n).2 }

/-- The peer slot of a tenant with this peer number. -/
def Regs.peerSlotOf (r : Regs) (t peer : Nat) : Option Nat := (List.range 16).find? fun i => r.peerEnable t i && r.peerId t i == peer

/-- The location that a source entry names; `d` is what is found at it when it is not the body. -/
def Engine.location (r : Regs) (t : TenantNo) (x : PlanSource) (d : LocationData) (e : Engine) : Location :=
  let pages := if x.kind = 1 then x.pages
    else match r.peerSlotOf t.toNat x.peer with
      | some i => (e.sess t.toNat i).pages
      | none => 0
  { src := x
    slot := fun s =>
      if x.kind = 0 then e.bodySlot r t.toNat s else slotView (4096 * pages) (if s then d.slotB else d.slotA)
    held := fun s => if s then d.slotB else d.slotA }

/-- Check 1 of R246 on a location, its three conditions in their order; a peer number that the tenant's peer table does not enable
has no port that is up (DEDUCED, log 15). What the far end answers is one of the three codes of the check. -/
def Engine.reachCode (r : Regs) (t : TenantNo) (x : PlanSource) (d : LocationData) (e : Engine) : Code :=
  if x.kind ≠ 2 then 0
  else match r.peerSlotOf t.toNat x.peer with
    | none => 0x31
    | some i =>
      if e.upMask (r.peerMask t.toNat i) = 0 then 0x31
      else if (e.sess t.toNat i).state ≠ .keyed then 0x33
      else if (e.sess t.toNat i).pages = 0 then 0x35
      else if d.reach = 0 ∨ d.reach = 0x31 ∨ d.reach = 0x33 then d.reach else 0x35

/-! ### A valid slot -/

/-- What a commit record and its manifest say (R185, R186). -/
structure Checkpoint where
  step : Nat
  epoch : Nat
  uid : Nat
  manifest : List Byte
  stride : Nat
  count : Nat

/-- R190: the checkpoint that a slot holds, or the first failure. -/
def validSlot (key : BitVec 768) (v : SlotView) : Except Code Checkpoint := do
  let cr ← v.read 0 256
  if leAt 0 4 cr ≠ 0x4346534B ∨ leAt 248 4 cr ≠ 0x4546534B ∨ !crcOkAt 252 cr then throw 0x25
  if leAt 4 1 cr ≠ 1 then throw 0x16
  if !ecdsaVerify key (sha3_384 (cr.take 96)) (BitVec.ofNat 384 (leAt 96 48 cr)) (BitVec.ofNat 384 (leAt 144 48 cr)) then
    throw 0x24
  let len := leAt 32 8 cr
  if len < 256 ∨ 0x4000 < len then throw 0x12
  let m ← v.read 0x1000 len
  if (parallelHash m).toNat ≠ leAt 40 32 cr then throw 0x22
  if leAt 0 4 m ≠ 0x4D46534B ∨ !crcOkAt 252 (m.take 256) then throw 0x22
  if leAt 4 1 m ≠ 1 ∨ leAt 36 4 m ≠ 0 then throw 0x16
  if leAt 6 2 m ≠ 4 ∨ leAt 30 2 m < 64 ∨ len ≠ 256 + leAt 30 2 m * leAt 32 4 m then throw 0x12
  if leAt 16 8 m ≠ leAt 16 8 cr ∨ leAt 8 8 m ≠ leAt 8 8 cr then throw 0x22
  return { step := leAt 8 8 cr, epoch := leAt 16 8 cr, uid := leAt 72 16 cr, manifest := m, stride := leAt 30 2 m, count := leAt 32 4 m }

def Checkpoint.shards (c : Checkpoint) : List ShardEntry :=
  (List.range c.count).map fun i =>
    let b := slice (256 + c.stride * i) 64 c.manifest
    { no := leAt 0 4 b, len := leAt 8 8 b, off := leAt 16 8 b, digest := leAt 24 32 b, buddies := (List.range 3).map fun j => leAt (56 + 2 * j) 2 b }

/-- What a location's slots hold: the results of R190 for A and B. -/
structure Judged where
  loc : Location
  a : Except Code Checkpoint
  b : Except Code Checkpoint

def Judged.of (l : Location) : Judged :=
  { loc := l, a := validSlot l.src.key (l.slot false), b := validSlot l.src.key (l.slot true) }

def Judged.get (s : Bool) (j : Judged) : Except Code Checkpoint := if s then j.b else j.a

/-- Valid slots that SLOT_SEL admits, with their checkpoints. -/
def Judged.valid (j : Judged) : List (Bool × Checkpoint) :=
  (if j.loc.src.sel = 1 then [false] else if j.loc.src.sel = 2 then [true] else [false, true]).filterMap fun s =>
    match j.get s with
    | .ok c => some (s, c)
    | .error _ => none

/-- The valid slot with the higher EPOCH (R191). -/
def newest (xs : List (Bool × Checkpoint)) : Option (Bool × Checkpoint) :=
  xs.foldl (fun best x =>
    match best with
    | none => some x
    | some y => if y.2.epoch < x.2.epoch then some x else some y) none

/-- The code of a location without a valid slot (R190, R191): slot A's for the newest, else the named slot's. -/
def Judged.code (j : Judged) : Code :=
  match j.get (j.loc.src.sel == 2) with
  | .error c => c
  | .ok _ => 0

/-- A group with its chosen slots: its locations in order, each with the slot that is valid at the chosen step. -/
structure Group where
  no : Nat
  judged : List Judged
  chosen : List (Location × Bool × Checkpoint)

/-- The group's locations at a step (check 2 of R246). -/
def groupAt (no step : Nat) (js : List Judged) : Group :=
  { no := no, judged := js
    chosen := js.filterMap fun j => (newest (j.valid.filter fun x => x.2.step == step)).map fun x => (j.loc, x.1, x.2) }

/-- The group's checkpoint: from its lowest-numbered location with a valid slot (R246). -/
def Group.cp (g : Group) : Option Checkpoint := g.chosen.head?.map fun x => x.2.2

/-- Check 2 fails: no valid slot at all gives the last location's code, none at the step 0x25. -/
def Group.code (g : Group) : Code :=
  if !g.chosen.isEmpty then 0
  else if g.judged.all fun j => j.valid.isEmpty then ((g.judged.getLast?).map Judged.code).getD 0x25
  else 0x25

/-! ### Shards -/

/-- The TLV area from byte `off` up to `stop` (R180, R193): 0x00, 0x12 when a record runs past it or no end record stands in it,
0x16 for a critical record, in the order in which they are met; `fuel` records at most. -/
def tlvCode (bs : List Byte) (stop : Nat) : Nat → Nat → Code × Code
  | 0, _ => (0, 0x12)
  | fuel + 1, off =>
    if stop < off + 4 then (0, 0x12)
    else
      let h := leAt off 4 bs
      let type := h % 2 ^ 15
      let len := h / 2 ^ 16
      if type = 0 ∧ len = 0 then (0, 0)
      else if stop < off + 4 + len then (if bitOf 15 h then 0x16 else 0, 0x12)
      else
        let p := tlvCode bs stop fuel (roundUp 8 (off + 4 + len))
        (if bitOf 15 h then 0x16 else p.1, p.2)

/-- A value of an extent entry or a coordinate record is unknown (R193): RATE 0b00 is no rate of a coded extent (R140). An unknown format
code of a KSF extent is refused with the 0x16 of R193, not the 0x11 of R52 (DEDUCED, log 86). -/
def ExtentIn.unknown (x : ExtentIn) : Bool :=
  !(decide (x.cls ≤ 0xD)) || (fmtOf x.fmt).isNone || (fmtOf x.srcFmt).isNone || (rndOf x.rnd).isNone || bitOf 7 x.flags ||
    (bitOf 2 x.flags && (rateGeom x.rate).isNone) || x.coords.any fun c => !c.rankOk

/-- A coordinate record of an extent is refused (R193). Those of residual and escape extents are judged with their narrowed extent
(R181). -/
def ExtentIn.coordBad (x : ExtentIn) : Bool :=
  !bitOf 5 x.flags && !bitOf 6 x.flags &&
    ((x.coords.any fun c => !c.layoutOk || !c.sliceOk || decide (x.units < c.unitStart.toNat + c.unitCount.toNat)) || !coordsApart x.coords)

/-- Extent `i` of a shard whose bytes are `bs`. -/
def extentIn (bs : List Byte) (extOff stride coordOff coordStride i : Nat) : ExtentIn :=
  let b := slice (extOff + stride * i) 128 bs
  let p := leAt 3 1 b
  let first := leAt 48 4 b
  { idx := i, cls := leAt 0 1 b % 16, fmt := leAt 1 1 b % 16, srcFmt := leAt 1 1 b / 16, flags := leAt 2 1 b, runExt := p % 16,
    rnd := p / 16 % 4, rate := p / 64, src := leAt 8 4 b, link := leAt 12 4 b, off := leAt 16 8 b, len := leAt 24 8 b,
    scaleOff := leAt 32 8 b, units := leAt 40 8 b, digest := leAt 56 32 b
    coords := (List.range (leAt 52 4 b)).map fun j => coordOf (slice (coordOff + coordStride * (first + j)) 192 bs) }

/-- Bytes that the first `count` entries of a table take, of which `size` bytes each are read (R193). -/
def tableEnd (off stride size count : Nat) : Nat := if count = 0 then off else off + stride * (count - 1) + size

/-- The end of the last coordinate record that an extent entry of a table names. -/
def coordEnd (bs : List Byte) (extOff stride coordOff coordStride count : Nat) : Nat :=
  ((List.range count).map fun i =>
    let b := slice (extOff + stride * i) 128 bs
    if leAt 52 4 b = 0 then 0 else tableEnd coordOff coordStride 192 (leAt 48 4 b + leAt 52 4 b)).foldl max 0

/-- A read of planning that fails: its code, and whether it fails only its location, so that another one may serve (R246). -/
structure ReadFail where
  code : Code
  location : Bool

/-- A read of a slot in planning: a MEM error, the poison marker and a place past the slot's end fail the location (R190, R246); a line of
another tenant fails the check (R114). -/
def SlotView.plan (off len : Nat) (v : SlotView) : Except ReadFail (List Byte) :=
  match v.read off len with
  | .ok bs => .ok bs
  | .error c => .error { code := c, location := c != 0x40 }

/-- A rule of R190 or R193 that a shard breaks. -/
def breaks {α : Type} (c : Code) : Except ReadFail α := .error { code := c, location := false }

/-- The shard checks of R190 and R193 in their order, over a slot. HDR_LINES 4 leaves a TLV area without bytes, which holds no record
and needs none (R180; log 33). -/
def readShard (v : SlotView) (s : ShardEntry) : Except ReadFail ShardIn := do
  let h ← v.plan s.off 256
  if leAt 0 4 h ≠ 0x5346534B ∨ !crcOkAt 252 h then breaks 0x22
  let dataOff := leAt 64 8 h
  let shardLen := leAt 72 8 h
  if shardLen < dataOff ∨ v.size < s.off + s.len ∨ v.size < s.off + shardLen then throw { code := 0x12, location := true }
  let bs ← v.plan s.off dataOff
  if (parallelHash bs).toNat ≠ s.digest then breaks 0x22
  let hdrLines := leAt 6 2 h
  let es := leAt 34 2 h
  let cs := leAt 36 2 h
  let ne := leAt 40 4 h
  let nc := leAt 44 4 h
  let eo := leAt 48 8 h
  let co := leAt 56 8 h
  if leAt 4 1 h ≠ 1 then breaks 0x16
  if leAt 104 4 h ≠ 0 then breaks 0x16
  let tlvs ← v.plan s.off (if hdrLines ≤ 4 then 0 else 64 * hdrLines)
  let tlv := if hdrLines ≤ 4 then (0, 0) else tlvCode tlvs (64 * hdrLines) (8 * hdrLines + 1) 256
  if tlv.1 ≠ 0 then breaks 0x16
  let table ← v.plan s.off (tableEnd eo es 128 ne)
  let full ← v.plan s.off (max (tableEnd eo es 128 ne) (coordEnd table eo es co cs ne))
  let xs := (List.range ne).map (extentIn full eo es co cs)
  if xs.any ExtentIn.unknown then breaks 0x16
  if es < 128 ∨ cs < 192 then breaks 0x12
  if xs.any ExtentIn.coordBad then breaks 0x12
  let outside := xs.any fun x => x.off % 64 != 0 || x.scaleOff % 64 != 0 || decide (x.off < dataOff) || decide (shardLen < x.off + x.len)
  if hdrLines < 4 ∨ tlv.2 ≠ 0 ∨ eo < 64 * hdrLines ∨ co < eo + ne * es ∨ dataOff < co + nc * cs ∨ eo % 64 ≠ 0 ∨ co % 64 ≠ 0 ∨
      dataOff % 64 ≠ 0 ∨ s.off % 64 ≠ 0 ∨ outside then breaks 0x12
  return { entry := s, xtsEpoch := BitVec.ofNat 32 (leAt 24 4 h), extents := xs }

/-- The first location whose read gives a result, or the failure of the last one that was read: only the failure of a location lets the
next one be read (R246). -/
def firstRead {α : Type} (miss : Code) : List (Except ReadFail α) → Except Code α
  | [] => .error miss
  | x :: xs =>
    match x with
    | .ok v => .ok v
    | .error f => if f.location then firstRead f.code xs else .error f.code

/-- First shard and extent that a body tail record of this EPOCH names as absent (R189). -/
def absentFrom (v : SlotView) (epoch : Nat) : Nat × Nat :=
  match v.read 0x100 64 with
  | .ok b =>
    if leAt 0 4 b = 0x4246534B ∧ crcOkAt 60 b ∧ leAt 8 8 b = epoch then (leAt 16 4 b, leAt 20 4 b) else (0xFFFFFFFF, 0xFFFFFFFF)
  | .error _ => (0xFFFFFFFF, 0xFFFFFFFF)

/-- A location whose slot is chosen, as the restore keeps it. -/
def Location.chosen (slot : Bool) (c : Checkpoint) (l : Location) : SrcLoc :=
  { kind := l.src.kind, peer := l.src.peer, slot := slot, base := l.src.base + b2n slot * (4096 * l.src.pages), size := (l.slot slot).size,
    absent := if l.src.kind = 0 then absentFrom (l.slot slot) c.epoch else (0xFFFFFFFF, 0xFFFFFFFF)
    held := if l.src.kind = 2 then l.held slot else { bytes := [], bad := [] } }

/-- The group's locations as the restore keeps them. -/
def Group.locs (g : Group) : List SrcLoc := g.chosen.map fun x => x.1.chosen x.2.1 x.2.2

/-- Shards that the group's manifest lists. -/
def Group.listed (g : Group) : List ShardEntry := (g.cp.map Checkpoint.shards).getD []

/-- Shard `s` of a group: from the lowest-numbered location that holds it. -/
def Group.shard (s : ShardEntry) (g : Group) : Except Code ShardIn :=
  firstRead 0x12 ((g.chosen.filter fun x => (x.1.chosen x.2.1 x.2.2).holdsShard s).map fun x => readShard (x.1.slot x.2.1) s)

/-- Shards of a group that some location holds. -/
def Group.held (g : Group) : List ShardEntry := g.listed.filter fun s => g.locs.any fun l => l.holdsShard s

/-- A group after planning: its shards that have been read without failure, in ascending SHARD_NO. -/
def Group.data (g : Group) : SrcGroup :=
  let m := (g.cp.map fun c => c.manifest).getD []
  { no := g.no, gridCols := leAt 76 2 m, gridRows := leAt 78 2 m, listed := g.listed
    shards := g.held.filterMap fun s => match g.shard s with | .ok x => some x | .error _ => none
    locs := g.locs }

/-! ### Extents of a restore -/

/-- An extent with its place: its group, shard and index among those of the restore. -/
structure ExtentAt where
  gi : Nat
  si : Nat
  group : SrcGroup
  shard : ShardIn
  extent : ExtentIn
deriving DecidableEq, Repr

/-- Two extents stand at the same place. -/
def ExtentAt.same (a b : ExtentAt) : Bool := a.gi == b.gi && a.si == b.si && a.extent.idx == b.extent.idx

/-- Extents without those that stand where an earlier one does. -/
def distinctExtents : List ExtentAt → List ExtentAt
  | [] => []
  | x :: xs => x :: (distinctExtents xs).filter fun y => !y.same x

/-- Every extent of the groups, in ascending group, SHARD_NO and extent order (R248). -/
def allExtents (gs : List SrcGroup) : List ExtentAt :=
  (gs.mapIdx fun i g => (g.shards.mapIdx fun j s => s.extents.map fun x =>
    ({ gi := i, si := j, group := g, shard := s, extent := x } : ExtentAt)).flatten).flatten

/-- The extent that another one links to: the residual extent of a narrowed extent, the escape extent of that (R181). -/
def ExtentAt.linked (x : ExtentAt) : Option ExtentAt :=
  (x.shard.extents.find? fun y => y.idx == x.extent.link).map fun y => { x with extent := y }

/-- No location of its group holds the extent. -/
def ExtentAt.gone (x : ExtentAt) : Bool := (x.group.holders x.shard x.extent).isEmpty

/-- What the source lines of each extent were read as, and the code of the location that failed last when none gave them all (R246): by
group, shard and extent. -/
abbrev Fetched := Nat → Nat → Nat → List MemBeat × Code

/-! ### Undoing an extent -/

/-- One stored line unsealed; a line that carries the marker passes through (R123, R327). -/
def unsealLine (key : BitVec 512) (s : ShardIn) (x : ExtentIn) (i : Nat) (b : MemBeat) : MemBeat :=
  if bitOf 3 x.flags && !b.poison then
    { b with data := xtsDecrypt key (tweak (x.off / 64 + i) s.xtsEpoch s.entry.no) b.data }
  else b

/-- What an extent's data gives: its stored lines once unsealed, and the first code that its reading and its digest meet
(R190, R248, R252). -/
def openExtent (key : BitVec 512) (fetched : Fetched) (x : ExtentAt) : List MemBeat × Code :=
  let z := fetched x.gi x.si x.extent.idx
  let lines := z.1.mapIdx fun i b => unsealLine key x.shard x.extent i b
  if z.2 ≠ 0 then (lines, z.2)
  else if z.1.any fun b => b.poison then (lines, 0x21)
  else
    let bs := (bytesOfLines (z.1.map fun b => b.data)).take x.extent.len
    (lines, if bitOf 4 x.extent.flags && (parallelHash bs).toNat != x.extent.digest then 0x22 else 0)

/-- Lines unsealed in an extent that was opened (R327). -/
def unsealedIn (x : ExtentIn) (ls : List MemBeat) : Nat := if bitOf 3 x.flags then (ls.filter fun b => !b.poison).length else 0

/-- What decoding found: the lines, the first code, slots decoded, slots or tables that failed, POISONED slots (R145, R153). -/
structure Plane where
  lines : List MemBeat
  code : Code
  slots : Nat
  errors : Nat
  poisoned : Nat
  /-- the table failed: nothing of the extent is written (R145) -/
  dead : Bool

/-- The element plane of an extent before coding (R140 to R153). A table line that carries the marker gives 0x21 and lines with the
marker, and counts as a table that failed (log 87). -/
def decodePlane (x : ExtentIn) (stored : List MemBeat) : Plane :=
  let fmt := (fmtOf x.fmt).getD .bytes
  match (if bitOf 2 x.flags then rateGeom x.rate else none) with
  | none => { lines := stored, code := 0, slots := 0, errors := 0, poisoned := 0, dead := false }
  | some g =>
    let n := ceilDiv (x.units * (4 * fmt.width)) 64
    let lost := stored.head?.any fun b => b.poison
    match stored.head?.bind fun b => if b.poison then none else readTable fmt x.rate b.data with
    | none => { lines := List.replicate n MemBeat.lost, code := if lost then 0x21 else 0x23, slots := 0, errors := 1, poisoned := 0,
                dead := !lost }
    | some ls =>
      let slots := (List.range (ceilDiv n 64)).flatMap fun c =>
        let m := min 64 (n - 64 * c)
        let coded := (stored.drop (1 + c * g.chunkLines)).take (chunkCodedLines g m)
        (decodeChunk g fmt.width ls (coded.map fun b => b.data) m).mapIdx fun j d =>
          if (coded[j / g.group]?).any fun b => b.poison then .poisoned else d
      let codes : List Code := slots.map fun d => match d with | .line _ => 0 | .poisoned => 0x21 | .bad => 0x23
      { lines := slots.map fun d => match d with | .line y => { data := y, poison := false } | _ => MemBeat.lost
        code := (codes.find? fun c => c != 0).getD 0, slots := n, errors := (codes.filter fun c => c == 0x23).length,
        poisoned := (codes.filter fun c => c == 0x21).length, dead := false }

/-- An extent undone: its units, the first code that its own data meet, and what to count. -/
structure Undone where
  units : List UnitRun
  code : Code
  slots : Nat
  errors : Nat
  poisoned : Nat
  unsealed : Nat
  /-- units whose record fails a check of R70 -/
  failed : List Nat
  dead : Bool

/-- First of two codes in order. -/
def firstCode (a b : Code) : Code := if a = 0 then b else a

/-- The units of a numeric extent as stored (R248). -/
def storedUnits (key : BitVec 512) (fetched : Fetched) (y : ExtentAt) : Undone :=
  let x := y.extent
  let o := openExtent key fetched y
  let fmt := (fmtOf x.fmt).getD .bytes
  let p := decodePlane x (o.1.take (x.scaleOff / 64))
  let scaleLines := o.1.drop (x.scaleOff / 64)
  let elems := bytesOfLines (p.lines.map fun b => b.data)
  let scales := bytesOfLines (scaleLines.map fun b => b.data)
  let bw := 4 * fmt.width
  let unit (j : Nat) : UnitRun :=
    let first := j * bw / 64
    let last := (j * bw + bw - 1) / 64
    let lost := ((p.lines.drop first).take (last + 1 - first)).any (fun b => b.poison) || (scaleLines[j / 64]?).any fun b => b.poison
    if lost then { block := Block.zero, poison := true }
    else { block := blockOf fmt.width (slice (j * bw) bw elems) (byteAt j scales), poison := false }
  { units := (List.range x.units).map unit, code := firstCode o.2 p.code, slots := p.slots, errors := p.errors, poisoned := p.poisoned,
    unsealed := unsealedIn x o.1, failed := [], dead := p.dead }

/-- A line that holds any of `len` bytes from `off` carries the marker. -/
def linesLost (off len : Nat) (ls : List MemBeat) : Bool :=
  ((ls.drop (off / 64)).take ((off + len - 1) / 64 + 1 - off / 64)).any fun b => b.poison

/-- The width to which the narrowing of an extent took a block of it (R166, R181). Where WIDEN followed NARROW (the residual extent has
the extent's own SRC_FMT), FMT gives the width after it, and no field gives the one before: it is a width whose records fill the
residual extent and into which the block fits (DEDUCED, log 94). -/
def narrowedTo (x res : ExtentIn) (b : Block) : Nat :=
  let ws := ((fmtOf res.srcFmt).map Fmt.width).getD 0
  let stored := ((fmtOf x.fmt).map Fmt.width).getD 0
  if bitOf 1 x.flags && res.srcFmt == x.srcFmt then
    (([8, 16] : List Nat).find? fun w =>
      decide (w < ws) && decide (w < stored) && roundUp 64 (x.units * resSize ws w) == roundUp 64 res.len && b.q.all (fits w)).getD 8
  else stored

/-- The units of an extent as a target takes them (R166, R248): exact where EXACT is set and the extent was narrowed (R70), else as stored,
which widening does not change in value (R66). A WIDEN is undone before a NARROW that came before it, with the values as they are. -/
def undoExtent (key : BitVec 512) (exact_ : Bool) (fetched : Fetched) (y : ExtentAt) : Undone :=
  let x := y.extent
  let u := storedUnits key fetched y
  if !exact_ || !bitOf 0 x.flags then u
  else match y.linked with
    | none => u
    | some res =>
      let ro := openExtent key fetched res
      let esc := res.linked.map fun z => openExtent key fetched z
      let src := (fmtOf res.extent.srcFmt).getD .bytes
      let recs := bytesOfLines (ro.1.map fun b => b.data)
      let escLines : List MemBeat := (esc.map fun z => z.1).getD []
      let escSize := 8 + 4 * src.width
      let escBytes := (bytesOfLines (escLines.map fun b => b.data)).take (escSize * (res.linked.map fun z => z.extent.units).getD 0)
      let undone (j : Nat) (b : UnitRun) : UnitRun × Bool :=
        let wt := narrowedTo x res.extent b.block
        let size := resSize src.width wt
        let rec_ := slice (j * size) size recs
        let escaped := bitOf 8 (leAt 0 8 rec_) && linesLost (leAt 4 4 rec_ * escSize) escSize escLines
        if b.poison || linesLost (j * size) size ro.1 || escaped then ({ block := Block.zero, poison := true }, false)
        else match exactBlock src wt b.block rec_ escBytes with
          | some z => ({ block := z, poison := false }, false)
          | none => ({ block := Block.zero, poison := true }, true)
      let blocks := u.units.mapIdx undone
      let unsealedEsc := (res.linked.map fun z => unsealedIn z.extent escLines).getD 0
      { u with
        units := blocks.map fun p => p.1
        code := firstCode (firstCode u.code ro.2) ((esc.map fun z => z.2).getD 0)
        failed := (List.range blocks.length).filter fun j => (blocks[j]?).any fun p => p.2
        unsealed := u.unsealed + unsealedIn res.extent ro.1 + unsealedEsc }

/-! ### Contributions -/

/-- A coordinate record with the extent that holds it. -/
structure Contribution where
  place : ExtentAt
  coord : Coord
deriving DecidableEq, Repr

/-- Every record of a tensor, in the order of R248; residual and escape extents hold none of their own. -/
def contributions (gs : List SrcGroup) (id : Dword) : List Contribution :=
  ((allExtents gs).filter fun y => !bitOf 5 y.extent.flags && !bitOf 6 y.extent.flags && y.extent.cls != 1 && y.extent.cls != 2).flatMap fun y =>
    (y.extent.coords.filter fun c => c.tensorId == id).map fun c => { place := y, coord := c }

/-- Index of dimension `d` of element `m` of a slice, counted from the slice's start (R183). -/
def Coord.index (c : Coord) (m d : Nat) : Nat :=
  let before := (List.range c.rank).takeWhile fun j => c.dim j != d
  let stride := (before.map fun j => (c.slen[c.dim j]?).getD 1).foldl (fun a b => a * b) 1
  m / stride % ((c.slen[d]?).getD 1)

/-- Position in its slice of the element at an index vector, if the record holds it. -/
def Coord.place (c : Coord) (at_ : Nat → Nat) : Option Nat :=
  let inside := (List.range c.rank).all fun d =>
    decide ((c.sstart[d]?).getD 0 ≤ at_ d) && decide (at_ d < (c.sstart[d]?).getD 0 + (c.slen[d]?).getD 0)
  if !inside then none
  else
    let p := (List.range c.rank).foldl (fun (acc : Nat × Nat) j =>
      let d := c.dim j
      (acc.1 + acc.2 * (at_ d - (c.sstart[d]?).getD 0), acc.2 * (c.slen[d]?).getD 1)) (0, 1)
    some p.1

/-- Index vector of element `m` of a target. -/
def PlanEntry.at (x : PlanEntry) (m d : Nat) : Nat := (x.sstart[d]?).getD 0 + x.coord.index m d

/-- The first record that holds element `m` of a target, with the element's place in that record's slice. -/
def sourceOfElem (cs : List Contribution) (x : PlanEntry) (m : Nat) : Option (Contribution × Nat) :=
  cs.findSome? fun c => (c.coord.place (x.at m)).map fun p => (c, p)

/-- The same slice: TENSOR_ID, RANK, LAYOUT, GLOBAL_SHAPE, SLICE_START and SLICE_LEN equal (R253, R436). -/
def sameShape (x : PlanEntry) (c : Coord) : Bool :=
  c.tensorId == x.tensorId && c.rank == x.rank && c.layout == x.layout && c.gshape == x.gshape && c.sstart == x.sstart && c.slen == x.slen

/-- Records that give a target some element. -/
def contributing (cs : List Contribution) (x : PlanEntry) : List Contribution :=
  cs.filter fun c => (List.range x.coord.elements).any fun m =>
    match sourceOfElem cs x m with
    | some y => y.1.coord == c.coord && y.1.place.same c.place
    | none => false

/-- The record that a BYTES target takes (R436). -/
def bytesSource (gs : List SrcGroup) (x : PlanEntry) : Option Contribution :=
  (contributions gs x.tensorId).find? fun c => sameShape x c.coord && c.place.extent.fmt == 0 && c.place.extent.srcFmt == 0

/-! ### Grid state -/

/-- Context (class 2) or scratchpad (class 1) extent of a tile of the first group. -/
def tileExtent (gs : List SrcGroup) (tile cls : Nat) : Option ExtentAt :=
  (allExtents (gs.take 1)).find? fun y => y.extent.cls == cls && y.extent.src == tile

/-- Tiles that a checkpoint covers (R250). -/
def coveredTiles (gs : List SrcGroup) : List Nat :=
  (((allExtents (gs.take 1)).filter fun y => y.extent.cls == 1 || y.extent.cls == 2).map fun y => y.extent.src).eraseDups

/-- Lines of the scratchpad extent of a tile. -/
def padLines (gs : List SrcGroup) (tile : Nat) : Nat := ((tileExtent gs tile 1).map fun y => y.extent.units).getD 0

/-- Bytes of the longest scratchpad extent. -/
def longestPad (gs : List SrcGroup) : Nat := (coveredTiles gs).foldl (fun m t => max m (64 * padLines gs t)) 0

/-- Span of a tile image (R250). -/
def imageSpan (x : PlanEntry) (gs : List SrcGroup) (tile : Nat) : Nat × Nat := (x.dst0 + tile * x.dst1, 256 + 64 * padLines gs tile)

/-! ### What an entry reads -/

/-- The extents that a target entry reads, each once: tile extents; the extent of its record for BYTES; the contributing extents, with
residual and escape extents for an exact restore (R70, R248, R250, R436). -/
def neededExtents (gs : List SrcGroup) (x : PlanEntry) : List ExtentAt :=
  let tied (y : ExtentAt) : List ExtentAt :=
    if x.exact_ && bitOf 0 y.extent.flags then y.linked.toList ++ ((y.linked.bind ExtentAt.linked).toList) else []
  if x.grid then (coveredTiles gs).flatMap fun t => (tileExtent gs t 2).toList ++ (tileExtent gs t 1).toList
  else if x.fmt = 0 then ((bytesSource gs x).map fun c => c.place).toList
  else distinctExtents ((contributing (contributions gs x.tensorId) x).flatMap fun c => c.place :: tied c.place)

/-- The first location of an extent, from number `h` upward, whose slot holds all of it (R190). -/
def ExtentAt.holderFrom (h : Nat) (y : ExtentAt) : Option Nat :=
  let ls := y.group.holders y.shard y.extent
  lowestFrom (fun i => (ls[i]?).any fun l => decide (y.shard.entry.off + y.extent.off + y.extent.len ≤ l.size)) h (ls.length - h)

/-- The pieces of an entry: its extents one after another, each from its first location; one that no location's slot holds has 0x12. -/
def piecesOf : Nat → List ExtentAt → List SrcPiece
  | _, [] => []
  | first, y :: ys =>
    let n := ceilDiv y.extent.len 64
    { group := y.gi, shard := y.si, extent := y.extent.idx, holder := (y.holderFrom 0).getD (y.group.locs.length), first := first, lines := n,
      code := if (y.holderFrom 0).isSome then 0 else 0x12 } :: piecesOf (first + n) ys

/-- The numbers of a piece's lines. -/
def SrcPiece.numbers (p : SrcPiece) : List Nat := (List.range p.lines).map fun i => p.first + i

/-- What an entry has read of each extent. -/
def RestoreEntry.fetched (y : RestoreEntry) : Fetched := fun g s i =>
  match y.pieces.find? fun p => p.group == g && p.shard == s && p.extent == i with
  | some p => (p.numbers.map fun n => (tabFind n y.got).getD MemBeat.lost, p.code)
  | none => ([], 0)

/-! ### Phase 2 -/

/-- Checks 6 to 10 of R246 on a target entry, in their order: each gives a code or 0x00. `limited` is a mode of R253. -/
def entryChecks (k : Kit) (r : Regs) (t : TenantNo) (limited : Bool) (gs : List SrcGroup) (x : PlanEntry) : List Code :=
  let cs := contributions gs x.tensorId
  let used := contributing cs x
  let bytesRec (c : Contribution) : Bool := c.place.extent.fmt == 0 && c.place.extent.srcFmt == 0
  if x.grid then
    match gs with
    | [] => [0, 0]
    | g :: _ =>
      let tiles := coveredTiles gs
      [0,
       if g.gridCols ≠ k.gridCols ∨ g.gridRows ≠ k.gridRows then 0x17
       else if tiles.any (fun y => (tileExtent gs y 1).isNone || (tileExtent gs y 2).isNone) then 0x12
       else if x.dst1 < 256 + longestPad gs then 0x11
       else if tiles.any (fun y => !r.inRegions t.toNat (imageSpan x gs y).1 (imageSpan x gs y).2) then 0x13
       else 0]
  else
    let same := cs.filter fun c => sameShape x c.coord
    [if limited && !(same.any fun c => c.place.extent.srcFmt == x.fmt) then 0x17 else 0,
     0,
     if cs.isEmpty || (cs.any fun c => c.coord.rank != x.rank || c.coord.gshape != x.gshape) ||
         (x.exact_ && used.any fun c => bitOf 0 c.place.extent.flags && c.place.linked.isNone) ||
         (cs.any fun c => bytesRec c != (x.fmt == 0)) then 0x11 else 0,
     if ((List.range x.coord.elements).any fun m => (sourceOfElem cs x m).isNone) ||
         (used.any fun a => used.any fun b => a.coord.rotPhase != b.coord.rotPhase) then 0x12 else 0,
     if x.fmt = 0 ∧ !(same.any bytesRec) then 0x17 else 0]

/-- A shard of the group that no location of it holds, and whose SHARD_NO satisfies `p`. -/
def SrcGroup.lacks (p : Nat → Bool) (g : SrcGroup) : Bool :=
  g.listed.any fun s => p s.no && !(g.locs.any fun l => l.holdsShard s)

/-- Check 5 of R246 on a target entry: an extent that it needs has no location in its group. A shard that no location holds cannot be
read, so it may be needed wherever what has been read does not give the whole target (DEDUCED, log 88). -/
def placeCheck (gs : List SrcGroup) (x : PlanEntry) : Code :=
  let cs := contributions gs x.tensorId
  let unplaced :=
    if x.grid then (gs.take 1).any fun g => g.lacks fun n => decide (n < 128)
    else (gs.any fun g => g.lacks fun _ => true) &&
      (cs.isEmpty || (List.range x.coord.elements).any fun m => (sourceOfElem cs x m).isNone)
  if unplaced || (neededExtents gs x).any ExtentAt.gone then 0x12 else 0

/-- First failure of a list of codes with the index of each. -/
def firstFail (cs : List (Option Nat × Code)) : Option (Option Nat × Code) := cs.find? fun p => p.2 != 0

/-- The checks of phase 2 in the order of R246, groups and then entries ascending in each check: the first failure, with the target
entry that it concerns. -/
def phase2 (k : Kit) (r : Regs) (t : TenantNo) (limited : Bool) (reach : List Code) (p : Plan) (gs : List Group) : Option (Option Nat × Code) :=
  let perGroup (f : Group → Code) : List (Option Nat × Code) := gs.map fun g => (none, f g)
  let perEntry (f : PlanEntry → Code) : List (Option Nat × Code) := p.entries.mapIdx fun i x => (some i, f x)
  let uidOk (g : Group) : Code :=
    match g.chosen with
    | [] => 0
    | (l, _, c) :: _ => if (sha3_384 (natLE 96 l.src.key.toNat)).toNat % 2 ^ 128 = c.uid then 0 else 0x24
  let shardsOk (g : Group) : Code :=
    (g.held.findSome? fun s => match g.shard s with | .error c => some c | .ok _ => none).getD 0
  let ds := gs.map Group.data
  let entry (n : Nat) : List (Option Nat × Code) := perEntry fun x => ((entryChecks k r t limited ds x)[n]?).getD 0
  firstFail (reach.map (fun c => (none, c)) ++ perGroup Group.code ++ perGroup uidOk ++ perGroup shardsOk ++ perEntry (placeCheck ds) ++
    entry 0 ++ entry 1 ++ entry 2 ++ entry 3 ++ entry 4)

/-- The groups of a plan at its step (R246): with STEP 0, the newest valid checkpoint of group 0 sets it. -/
def groupsOf (p : Plan) (ls : List Location) : List Group :=
  let nos := (List.range 64).filter fun n => p.sources.any fun x => x.group == n
  let judged (n : Nat) : List Judged := (ls.filter fun l => l.src.group == n).map Judged.of
  let step :=
    if p.step ≠ 0 then p.step
    else match newest ((judged 0).flatMap Judged.valid) with
      | some x => x.2.step
      | none => 0
  nos.map fun n => groupAt n step (judged n)

/-- Lines of a chosen body slot that planning reads: commit record, tail record, manifest, and the headers and tables of its shards. -/
def plannedLines (l : Location) (slot : Bool) (c : Checkpoint) : List Nat :=
  let v := l.slot slot
  let span (off len : Nat) : List Nat := (List.range (ceilDiv len 64)).map fun i => off / 64 + i
  span 0 320 ++ span 0x1000 c.manifest.length ++ c.shards.flatMap fun s =>
    match v.read s.off 256 with
    | .ok h => span s.off (leAt 64 8 h)
    | .error _ => span s.off 256

/-- The lines of the tenant's body partition that the planning of an accepted restore has read. -/
def Group.bodyLines (slotLines : Nat) (g : Group) : List Nat :=
  (g.chosen.filter fun x => x.1.src.kind == 0).flatMap fun x => (plannedLines x.1 x.2.1 x.2.2).map fun n => b2n x.2.1 * slotLines + n

/-- A line of the body that planning has read is corrected, counted and written back as any other read of it does (R119, R120). -/
def Engine.planRead (k : Kit) (r : Regs) (t n : Nat) (e : Engine) : Engine :=
  match e.front.find (.body (r.partLine t n)) with
  | some f => if f.flips.isEmpty then e else (e.readFront k r f).2.2
  | none => if (e.body.upset (e.partKey r t n)).flips.isEmpty then e else (e.readBody k r (e.partKey r t n) false).2.2

/-! ### What an entry writes -/

/-- Bytes with their addresses and poison marks, gathered into writes within one page and one 4 KiB chunk from `base` each (R234). -/
def gatherWrites (base : Nat) : List (Nat × Byte × Bool) → List RestoreWrite
  | [] => []
  | (a, b, p) :: rest =>
    match gatherWrites base rest with
    | w :: ws =>
      if w.addr = a + 1 ∧ w.addr % 4096 ≠ 0 ∧ (w.addr - base) % 4096 ≠ 0 then
        { w with addr := a, bytes := b :: w.bytes,
                 poison := if w.addr % 64 = 0 then p :: w.poison else (match w.poison with | q :: qs => (p || q) :: qs | [] => [p]) } :: ws
      else { addr := a, bytes := [b], poison := [p], line := 0 } :: w :: ws
    | [] => [{ addr := a, bytes := [b], poison := [p], line := 0 }]

/-- Writes with the numbers of their first lines, from line `n`. -/
def numberWrites : Nat → List RestoreWrite → List RestoreWrite
  | _, [] => []
  | n, w :: ws => { w with line := n } :: numberWrites (n + w.lines) ws

/-- A run of bytes from an address with one poison mark. -/
def markedBytes (addr : Nat) (bs : List Byte) (poison : Bool) : List (Nat × Byte × Bool) := bs.mapIdx fun i b => (addr + i, b, poison)

/-- The extents that give a target its elements, undone once each. -/
abbrev UndoneTable := List (ExtentAt × Undone)

def undoneOf (tab : UndoneTable) (c : Contribution) : Option Undone := (tab.find? fun p => p.1.same c.place).map fun p => p.2

def undoAll (key : BitVec 512) (exact_ : Bool) (fetched : Fetched) (cs : List Contribution) : UndoneTable :=
  (distinctExtents (cs.map fun c => c.place)).map fun y => (y, undoExtent key exact_ fetched y)

/-- Element `m` of a target: its value and scale, absent outside the slice; `lost` says that its unit is poisoned, `dead` that its
extent's table failed, `failed` which unit failed a check of R70. -/
structure Elem where
  value : Option (Int × Int)
  lost : Bool
  dead : Bool
  failed : Option (Nat × Nat × Nat × Nat)
deriving DecidableEq, Repr

def elemOf (tab : UndoneTable) (cs : List Contribution) (x : PlanEntry) (m : Nat) : Elem :=
  if x.coord.elements ≤ m then { value := none, lost := false, dead := false, failed := none }
  else match sourceOfElem cs x m with
    | none => { value := none, lost := true, dead := false, failed := none }
    | some (c, p) =>
      match undoneOf tab c with
      | none => { value := none, lost := true, dead := false, failed := none }
      | some u =>
        match u.units[c.coord.unitStart.toNat + p / 32]? with
        | none => { value := none, lost := true, dead := u.dead, failed := none }
        | some b =>
          let n := c.coord.unitStart.toNat + p / 32
          { value := some ((b.block.q[p % 32]?).getD 0, b.block.e), lost := b.poison, dead := u.dead
            failed := if u.failed.contains n then some (c.place.gi, c.place.si, c.place.extent.idx, n) else none }

/-- What a target entry comes to: its writes, its code, blocks rounded, units written, rotation phase, and what to count. -/
structure EntryWork where
  writes : List RestoreWrite
  code : Code
  rounded : Nat
  units : Nat
  rotPhase : Word
  slots : Nat
  errors : Nat
  poisoned : Nat
  unsealed : Nat
  resPoison : Nat

/-- An entry without work. -/
def EntryWork.none : EntryWork :=
  { writes := [], code := 0, rounded := 0, units := 0, rotPhase := 0, slots := 0, errors := 0, poisoned := 0, unsealed := 0, resPoison := 0 }

/-- A numeric TENSOR entry (R248, R249): a block with a poisoned source unit is written as zeros with the marker, and one of an extent
whose table failed is not written (R145). A unit counts as poisoned by the exact restore where this entry restores it (R70; log 14). -/
def tensorWork (key : BitVec 512) (fetched : Fetched) (gs : List SrcGroup) (x : PlanEntry) : EntryWork :=
  let cs := contributions gs x.tensorId
  let used := contributing cs x
  let tab := undoAll key x.exact_ fetched used
  let us := tab.map fun p => p.2
  let w := x.width
  let rows : List (Nat × List Elem) := (List.range x.blocks).map fun j => (j, (List.range 32).map fun i => elemOf tab cs x (32 * j + i))
  let blocks := rows.map fun (row : Nat × List Elem) =>
    let j := row.1
    let es := row.2
    let lost := es.any fun y => y.lost
    (j, lost, es.any (fun y => y.dead), if lost then (Block.zero, false) else resliceBlock w (es.map fun y => y.value))
  let kept := blocks.filter fun b => !b.2.2.1
  { writes := numberWrites 0 (gatherWrites x.dst0 (kept.flatMap fun b => markedBytes (x.dst0 + 4 * w * b.1) (blockBytes w b.2.2.2.1) b.2.1) ++
      gatherWrites x.dst1 (kept.flatMap fun b => markedBytes (x.dst1 + b.1) [scaleByte b.2.2.2.1] b.2.1))
    code := firstCode (us.foldl (fun c u => firstCode c u.code) 0) (if blocks.any fun b => b.2.1 then 0x21 else 0)
    rounded := (blocks.filter fun b => b.2.2.2.2).length, units := kept.length
    rotPhase := (used.head?.map fun c => c.coord.rotPhase).getD 0
    slots := (us.map fun u => u.slots).sum, errors := (us.map fun u => u.errors).sum, poisoned := (us.map fun u => u.poisoned).sum,
    unsealed := (us.map fun u => u.unsealed).sum,
    resPoison := (rows.flatMap fun row => row.2.filterMap fun y => y.failed).eraseDups.length }

/-- A BYTES entry (R436): the record's lines, unchanged. -/
def bytesWork (key : BitVec 512) (fetched : Fetched) (gs : List SrcGroup) (x : PlanEntry) : EntryWork :=
  match bytesSource gs x with
  | none => EntryWork.none
  | some c =>
    let o := openExtent key fetched c.place
    let lines := (o.1.drop c.coord.unitStart.toNat).take c.coord.unitCount.toNat
    { EntryWork.none with
      writes := numberWrites 0 (gatherWrites x.dst0 (lines.mapIdx fun i b => markedBytes (x.dst0 + 64 * i) (lineBytes b.data) b.poison).flatten)
      code := o.2, units := lines.length, rotPhase := c.coord.rotPhase, unsealed := unsealedIn c.place.extent o.1 }

/-- A GRID entry (R250): one image for each tile that the checkpoint covers. -/
def gridWork (key : BitVec 512) (fetched : Fetched) (gs : List SrcGroup) (x : PlanEntry) : EntryWork :=
  let get (tile cls n : Nat) : List MemBeat × Code × Nat :=
    match tileExtent gs tile cls with
    | some y =>
      let o := openExtent key fetched y
      (o.1.take n, o.2, unsealedIn y.extent o.1)
    | none => ([], 0, 0)
  let one (tile : Nat) : List MemBeat × Code × Nat :=
    let ctx := get tile 2 4
    let pad := get tile 1 (padLines gs tile)
    (ctx.1 ++ pad.1, firstCode ctx.2.1 pad.2.1, ctx.2.2 + pad.2.2)
  let tiles := (coveredTiles gs).map fun t => (t, one t)
  { EntryWork.none with
    writes := numberWrites 0 (tiles.flatMap fun p =>
      let base := x.dst0 + p.1 * x.dst1
      gatherWrites base (p.2.1.mapIdx fun i b => markedBytes (base + 64 * i) (lineBytes b.data) b.poison).flatten)
    code := tiles.foldl (fun c p => firstCode c p.2.2.1) 0, units := tiles.length, unsealed := (tiles.map fun p => p.2.2.2).sum }

/-- The work of a target entry once its sources have been read. -/
def entryWork (key : BitVec 512) (fetched : Fetched) (gs : List SrcGroup) (x : PlanEntry) : EntryWork :=
  if x.grid then gridWork key fetched gs x else if x.fmt = 0 then bytesWork key fetched gs x else tensorWork key fetched gs x

/-- Bytes 192 to 255 of a target entry at its end (R244). -/
def RestoreEntry.report (y : RestoreEntry) : List Byte :=
  [y.result] ++ zeroBytes 3 ++ natLE 4 y.rotPhase.toNat ++ natLE 8 y.doneUnits ++ natLE 8 y.rounded ++ zeroBytes 40

/-- What the completion of a restore sets (R191, R254): for each group that this engine itself wrote, its slot, EPOCH and STEP, and the
largest EPOCH of the valid slots of its pair. -/
def restoreCommits (uid : Nat) (gs : List Group) : List RestoreCommit :=
  gs.filterMap fun g =>
    match g.chosen with
    | [] => none
    | (l, slot, c) :: _ =>
      if c.uid ≠ uid then none
      else
        let epochs := [false, true].filterMap fun s =>
          match (Judged.of l).get s with
          | .ok y => some y.epoch
          | .error _ => none
        some { slot := slot, epoch := BitVec.ofNat 64 c.epoch, step := BitVec.ofNat 64 c.step, newest := BitVec.ofNat 64 (epochs.foldl max 0) }

end Sys2Proof.Machine
end

