-- ==== Sys2Proof/Machine/Streams.lean ====
section
/-!
DEFINITION. The commands of the refill streamer (10_restore_streams), the MEM responses (16_ports), and the lanes of a stream
(06_poppy_codec).
-/

namespace Sys2Proof.Machine

/-! ### SPILL and REFILL -/

/-- A signed span of host memory lies in the tenant's regions. -/
def Regs.spanIn (r : Regs) (t : Nat) (low high : Int) : Bool :=
  decide (0 ≤ low) && r.inRegions t low.toNat (high - low).toNat

/-- The most lines that a stream's sequence can have: positions of a halt notice take six bytes (R268). -/
def maxLines : Nat := 2 ^ 48 - 1

/-- The conditions of R228, R232 and R268 that both kinds of stream share; `scales` scale lines and `coded` bytes on the coded side. -/
def descrConds (r : Regs) (t : TenantNo) (bs : List Byte) (d : Descr) (bytes : Bool) (scales coded : Nat) : List (Bool × Code) :=
  let tn := t.toNat
  let rankOk := decide (1 ≤ d.rank) && decide (d.rank ≤ 6)
  [(d.base % 64 != 0 || d.codedBase % 64 != 0 || d.scaleBase % 64 != 0 || d.strides.any fun x => x % 64 != 0, 0x13),
   (!rankOk || (d.counts.any fun c => c == 0) || decide (d.readSlots < 1) || decide (64 < d.readSlots) ||
      (d.pace == 0 && d.due0 != 2 ^ 64 - 1) || decide (maxLines < d.lines), 0x11),
   (descrRsv bs || leAt 96 4 bs / 1024 != 0 || ((d.counts.drop d.rank).any fun c => c != 1) ||
      ((d.strides.drop (d.rank - 1)).any fun x => x != 0) || (bytes && d.scaleBase != 0), 0x11),
   (!r.spanIn tn d.span.1 d.span.2 || !r.inRegions tn d.scaleBase (64 * scales) || !r.inRegions tn d.codedBase coded, 0x13)]

/-- Scale lines of a sequence of `n` element lines (R230). -/
def scaleLinesOf (f : Fmt) (n : Nat) : Nat := if f = .bytes then 0 else ceilDiv (n * 64 / (4 * f.width)) 64

/-- A stream at its acceptance (R227): its lines, its state under its fence (R238). -/
def Engine.newStream (t : TenantNo) (id : JobId) (spill : Bool) (d : Descr) (steps : List StepAt) (f : Fmt) (rate : Nat) (sealed : Bool)
    (epoch : Word) (e : Engine) : Stream :=
  let n := d.lines
  let fenced := d.fence && e.fenceHolds t d.layer e.streams.nextOrder
  let s : Stream :=
    { tenant := t, job := id, spill := spill, descr := d, steps := steps, fmt := f, rate := rate, sealed := sealed, xtsEpoch := epoch,
      seed := none, state := if fenced then .fenced else .running, cause := if fenced then 1 else 0, order := e.streams.nextOrder,
      elemLines := n, scaleLines := scaleLinesOf f n, escLines := 0, toRead := [], reading := 0, got := [], table := none,
      made := [], out := [], toWrite := [], reads := 0, writes := 0, position := 0, haltWrite := false, code := 0, failing := 0 }
  { s with toRead := (List.range s.chunks).flatMap fun c => s.srcChunk c }

/-- Bytes that a SPILL can put on the coded side: every extent of its run, escapes at their most (log 26). -/
def Shape.spillBytes (units : Nat) (sh : Shape) : Nat := sh.mainLen units + sh.resLen units + sh.escMax units

/-- Both sides of a stream (R257). -/
def Stream.hostSpans (s : Stream) : List (Nat × Nat) :=
  let side := s.descr.span
  let coded := if s.spill then (shapeOf s.steps).spillBytes ((shapeOf s.steps).units (s.elemLines + s.scaleLines))
    else 64 * (s.codedElem + s.scaleLines)
  [(side.1.toNat, (side.2 - side.1).toNat), (s.descr.scaleBase, 64 * s.scaleLines), (s.descr.codedBase, coded)]

/-- A stream takes the lowest free number (log 29); what needs nothing read is made at once. -/
def Engine.openStream (t : TenantNo) (id : JobId) (s : Stream) (e : Engine) : Engine :=
  let n := (e.freeNumbers 1).headD 0
  let e := (e.addJob { id := id, tenant := some t, kind := .stream n, spans := s.hostSpans }).setStream n s
  { e with streams := { e.streams with nextOrder := e.streams.nextOrder + 1 } }

/-- What a SPILL's recipe is refused for (R173). -/
def Engine.spillRecipeConds (t : TenantNo) (bs : List Byte) (e : Engine) : List (Bool × Code) :=
  let d := descrOf bs
  let rc := e.recipe d.recipe
  let steps := (rc.map fun c => c.steps).getD []
  let sh := shapeOf steps
  let lines := d.lines + scaleLinesOf sh.fmt d.lines
  let sealed := hasSeal steps
  [(rc.any fun c => c.tenant != t, 0x40), (rc.isNone, 0x11),
   (rc.any fun c => (c.cls != 8 && c.cls != 9) || (bitOf 0 (e.tenant t.toNat).policy.toNat && !sealed), 0x18),
   (rc.isSome && sh.gatherBad lines, 0x13), (sealed && (e.tenant t.toNat).sealKey.isNone, 0x41)]

/-- What a SPILL is refused for (R228, R232, R233, R327, R350). -/
def Engine.spillConds (r : Regs) (t : TenantNo) (bs : List Byte) (e : Engine) : List (Bool × Code) :=
  let d := descrOf bs
  let sh := shapeOf (((e.recipe d.recipe).map fun c => c.steps).getD [])
  let lines := d.lines + scaleLinesOf sh.fmt d.lines
  e.tenantConds t ++ e.spillRecipeConds t bs ++
    descrConds r t bs d (sh.fmt == .bytes) (scaleLinesOf sh.fmt d.lines) (sh.spillBytes (sh.units lines)) ++
    [(d.format != 0 || d.xtsEpoch != 0, 0x11), ((e.kept t.toNat).xtsNext == 0xFFFFFFFF, 0x42), (e.mode == .recovery, 0x14)] ++
    e.streamLimits r t 1 d.readSlots

/-- SPILL (R173, R227 to R233, R327, R350). -/
def execSpill (ring : BitVec 8) (s : State) : Out :=
  s.eff fun k r e => e.startJob r ring.toNat (fun x => x.opcode == 4) fun x e =>
    let t := r.ringTenant ring.toNat
    let tn := t.toNat
    let d := descrOf x.params
    let steps := ((e.recipe d.recipe).map fun c => c.steps).getD []
    let sh := shapeOf steps
    let conds := e.spillConds r t x.params
    (e.countRecipe ((x.badHeader, 0x11) :: conds) (e.spillRecipeConds t x.params)).judged k r ring.toNat x conds fun e =>
      let id := x.jobId ring.toNat
      let epoch := (e.kept tn).xtsNext
      let s := e.newStream t id true d steps sh.fmt (sh.code.getD 0) (hasSeal steps) epoch
      ((e.setKept tn { e.kept tn with xtsNext := epoch + 1 }).openStream t id s).bump Ctr.recipeRuns 1

/-- The element format of a REFILL (R228). -/
def Descr.fmt (d : Descr) : Fmt := (fmtOf (d.format % 16)).getD .bytes

/-- What a REFILL is refused for (R228, R232, R233, R350). -/
def Engine.refillConds (r : Regs) (t : TenantNo) (bs : List Byte) (e : Engine) : List (Bool × Code) :=
  let d := descrOf bs
  let rate := d.format / 16 % 4
  let scales := scaleLinesOf d.fmt d.lines
  let plane := match rateGeom rate with | some g => codedBytes g d.lines | none => 64 * d.lines
  e.tenantConds t ++ descrConds r t bs d (d.fmt == .bytes) scales (plane + 64 * scales) ++
    [(bitOf 7 d.format || (fmtOf (d.format % 16)).isNone || (d.fmt == .bytes && rate != 0) || leAt 96 4 bs != 0, 0x11),
     (bitOf 6 d.format && (e.tenant t.toNat).sealKey.isNone, 0x41), (e.mode == .recovery, 0x14)] ++ e.streamLimits r t 1 d.readSlots

/-- REFILL (R228 to R233, R350). -/
def execRefill (ring : BitVec 8) (s : State) : Out :=
  s.eff fun k r e => e.startJob r ring.toNat (fun x => x.opcode == 5) fun x e =>
    let t := r.ringTenant ring.toNat
    let d := descrOf x.params
    e.judged k r ring.toNat x (e.refillConds r t x.params) fun e =>
      let id := x.jobId ring.toNat
      e.openStream t id (e.newStream t id false d [] d.fmt (d.format / 16 % 4) (bitOf 6 d.format) (BitVec.ofNat 32 d.xtsEpoch))

/-! ### RESTORE -/

/-- A RESTORE refused: RESULT says which target entry the failure concerns (R266). -/
def Engine.refuseRestore (k : Kit) (r : Regs) (id : JobId) (code : Code) (entry : Option Nat) (e : Engine) : Engine :=
  e.complete k r id code (restoreFail entry)

/-- A target entry that waits for its turn. -/
def waitingEntry (addr : Nat) (x : PlanEntry) : RestoreEntry :=
  { state := .waiting, stream := 0, target := x, pieces := [], toRead := [], reading := 0, reads := 0, got := [], coded := 0, made := false,
    writes := [], sent := [], halted := none, cause := 0, closed := false, result := 0, rotPhase := 0, doneUnits := 0, rounded := 0,
    resultAddr := addr }

/-- What a restored entry counts (03_arithmetic, 06_poppy_codec, 10_restore_streams, 13_security). -/
def Engine.countWork (t : Nat) (w : EntryWork) (e : Engine) : Engine :=
  (((((e.bump (Ctr.slotsDecoded t) w.slots).bump (Ctr.decodeErrors t) w.errors).bump (Ctr.poisonSlots t) w.poisoned).bump
    (Ctr.linesUnsealed t) w.unsealed).bump (Ctr.resPoison t) w.resPoison).bump Ctr.resliceRounded w.rounded

/-- Host memory that a plan names (R257). -/
def planSpans (addr len : Nat) (p : Plan) (gs : List SrcGroup) : List (Nat × Nat) :=
  (addr, len) :: ((p.sources.filter fun x => x.kind == 1).map fun x => (x.base, 2 * (4096 * x.pages))) ++
    p.entries.flatMap fun x => if x.grid then (coveredTiles gs).map fun t => imageSpan x gs t else x.spans

/-- An accepted RESTORE: its planning is over, and its entries start one by one (R252). -/
def Engine.beginRestore (k : Kit) (r : Regs) (t : TenantNo) (id : JobId) (addr len n : Nat) (p : Plan) (gs : List Group) (e : Engine) :
    Engine :=
  let base := addr + 64 + 128 * p.sources.length
  let ds := gs.map Group.data
  let x : Restore :=
    { job := id, tenant := t, order := e.streams.nextOrder, numbers := e.freeNumbers n, groups := ds,
      entries := p.entries.mapIdx fun i y => waitingEntry (base + 256 * i + 192) y, commits := restoreCommits e.keys.uid gs, ending := false }
  let read := gs.flatMap fun g => g.bodyLines (r.slotLines t.toNat)
  let e := e.forEach read.eraseDups (Engine.planRead k r t.toNat)
  let e := e.addJob { id := id, tenant := some t, kind := .restore, spans := planSpans addr len p ds }
  { e with streams := { e.streams with restores := e.streams.restores ++ [x], nextOrder := e.streams.nextOrder + 1 } }

/-- The conditions of R245 that depend on the entry and the state. -/
def Engine.restoreConds (r : Regs) (t : TenantNo) (bs : List Byte) (e : Engine) : List (Bool × Code) :=
  let addr := leAt 0 8 bs
  let len := leAt 8 4 bs
  let n := leAt 12 1 bs
  e.tenantConds t ++
    ([((e.tenant t.toNat).sealKey.isNone, 0x41), (decide (n < 1) || decide (64 < n) || !zeroAt 13 19 bs, 0x11),
     (decide (len < 448) || decide (1056832 < len), 0x12), (addr % 64 != 0 || !r.inRegions t.toNat addr len, 0x13),
     (match e.cut.run with | some run => run.tenant == t | none => false, 0x58)] : List (Bool × Code)) ++ e.streamLimits r t n (16 * n)

/-- RESTORE (R244 to R254, R331). `plan` is the read of the plan, `seen` what planning meets outside the engine; the body's own
lines are the engine's. -/
def execRestore (ring : BitVec 8) (plan : HostRead) (seen : PlanReads) (s : State) : Out :=
  s.eff fun k r e => e.startJob r ring.toNat (fun x => x.opcode == 3) fun x e =>
    let t := r.ringTenant ring.toNat
    let id := x.jobId ring.toNat
    let bs := x.params
    match judge ((x.badHeader, 0x11) :: e.restoreConds r t bs) with
    | some c => e.refuseRestore k r id c none
    | none =>
      match plan with
      | .memError => e.refuseRestore k r id 0x27 none
      | .poison => e.refuseRestore k r id 0x21 none
      | .ok d =>
        match judge (planConds r t (leAt 8 4 bs) d) with
        | some c => e.refuseRestore k r id c none
        | none =>
          let p := planOf d
          let at_ (i : Nat) : LocationData := (seen.locs[i]?).getD { reach := 0, slotA := ⟨[], []⟩, slotB := ⟨[], []⟩ }
          let gs := groupsOf p (p.sources.mapIdx fun i y => e.location r t y (at_ i))
          let limited := e.mode != .normal
          let order := (List.range 64).flatMap fun g => (p.sources.mapIdx fun i y => (i, y)).filter fun z => z.2.group == g
          let reach := order.map fun z => e.reachCode r t z.2 (at_ z.1)
          let e := e.coreFaults k r (some t) seen.faults
          if coreFatal seen.faults then e.refuseRestore k r id 0x45 none
          else match phase2 k r t limited reach p gs with
          | some (i, c) => e.refuseRestore k r id c i
          | none => e.beginRestore k r t id (leAt 0 8 bs) (leAt 8 4 bs) (leAt 12 1 bs) p gs

/-- An entry that runs. -/
def RestoreEntry.runs (y : RestoreEntry) : Bool := y.state == .running

/-- An entry starts on a stream number: what it reads, each extent from its first location (R246, R252). -/
def RestoreEntry.start (gs : List SrcGroup) (n : Nat) (y : RestoreEntry) : RestoreEntry :=
  let ps := piecesOf 0 (neededExtents gs y.target)
  { y with state := .running, stream := n, pieces := ps, toRead := (ps.filter fun p => p.code == 0).flatMap SrcPiece.numbers }

/-- The next entry of a restore starts on a free stream number (R252): the number, if one is free. -/
def Restore.freeNumber (x : Restore) : Option Nat := x.numbers.find? fun n => !(x.entries.any fun y => y.runs && y.stream == n)

def Restore.startNext (n : Nat) (x : Restore) : Restore :=
  { x with entries := updFirst (fun y => y.state == .waiting) (RestoreEntry.start x.groups n) x.entries }

/-- Where bytes 192 to 255 of a target entry are written once every other write of it is answered. -/
def RestoreEntry.settle (y : RestoreEntry) : RestoreEntry :=
  if y.state ≠ .running ∨ !y.made ∨ !y.writes.isEmpty ∨ !y.sent.isEmpty ∨ y.halted.isSome then y
  else if y.closed then { y with state := .ended }
  else { y with closed := true, writes := [{ addr := y.resultAddr, bytes := y.report, poison := [], line := 0 }] }

/-- COMMIT_STATE and NEXT_EPOCH at the completion of a restore (R191, R254): NEXT_EPOCH never falls. -/
def Kept.restored (c : RestoreCommit) (x : Kept) : Kept :=
  { x with valid := true, lastSlot := c.slot, lastEpoch := c.epoch, lastStep := c.step,
           nextEpoch := BitVec.ofNat 64 (max x.nextEpoch.toNat c.newest.toNat + 1) }

/-- A restore whose entries have all ended completes with the result of its lowest-numbered failing entry (R252, R254, R266). The lines
of entries that have ended leave the STREAM partition. -/
def Engine.settleRestore (k : Kit) (r : Regs) (id : JobId) (e : Engine) : Engine :=
  let e := e.onRestore id fun x => { x with entries := x.entries.map RestoreEntry.settle }
  match e.streams.restores.find? fun x => x.job == id with
  | none => e
  | some x =>
    let e := e.forEach (x.numbers.filter fun n => !(x.entries.any fun y => y.runs && y.stream == n)) Engine.dropStaged
    if x.ending || !(x.entries.all fun y => y.state == .ended) then e
    else match x.entries.findIdx? fun y => y.result != 0 with
      | some i => e.endRestore k r id (((x.entries[i]?).map fun y => y.result).getD 0) (restoreFail (some i))
      | none =>
        let e := e.forEach x.commits fun c e => e.setKept x.tenant.toNat ((e.kept x.tenant.toNat).restored c)
        e.endRestore k r id 0 (natLE 4 x.entries.length ++ natLE 4 0xFFFFFFFF)

/-- The entry on stream `n` changed. -/
def Engine.onEntry (n : Nat) (f : RestoreEntry → RestoreEntry) (e : Engine) : Engine :=
  match e.restoreOn n with
  | some (x, _) => e.onRestore x.job (Restore.onEntry n f)
  | none => e

/-- The staged lines of stream `n` whose numbers satisfy `p` read by the pipeline for an entry, and the code that they meet. -/
def Engine.entryTake (k : Kit) (r : Regs) (n : Nat) (lines : List Nat) (e : Engine) : Code × Engine :=
  let x := e.readStaged k r n lines
  (x.2.1, x.2.2.onEntry n fun y => { y with got := x.1.foldl (fun t p => tabSet p.1 p.2 t) y.got })

/-- Numbers of the lines that stream `n` stages, in the order of their arrival. -/
def Front.stagedBy (n : Nat) (f : Front) : List Nat :=
  f.lines.filterMap fun l => match l.key with | .stream m i => if m = n then some i else none | _ => none

/-- An entry keeps no more than eight chunks staged: the pipeline has taken what came before (log 58). -/
def Engine.entryWindow (k : Kit) (r : Regs) (n : Nat) (e : Engine) : Engine :=
  let ls := e.front.stagedBy n
  let old := ls.take (ls.length - 512)
  if old.isEmpty then e
  else
    let x := e.entryTake k r n old
    let e := x.2.onEntry n fun y => { y with result := if y.result = 0 ∧ x.1 = 0x20 then 0x20 else y.result }
    e.onFront (Front.dropWhere fun l => match l.key with | .stream m i => m == n && old.contains i | _ => false)

/-- The entry on stream `n`, whose lines have all been read and whose coded chunks have passed a lane, makes its writes (R248 to R250). -/
def Engine.makeEntry (k : Kit) (r : Regs) (n : Nat) (e : Engine) : Engine :=
  let z := e.entryTake k r n (e.front.stagedBy n)
  let e := z.2
  match e.restoreOn n with
  | none => e
  | some (x, y) =>
    let w := entryWork (e.sealKey x.tenant) y.fetched x.groups y.target
    let code := firstCode y.result (if z.1 = 0x20 then 0x20 else w.code)
    let e := e.onRestore x.job (Restore.onEntry n fun y =>
      { y with made := true, got := [], writes := w.writes, result := code, rotPhase := w.rotPhase, doneUnits := w.units, rounded := w.rounded })
    (e.countWork x.tenant.toNat w).settleRestore k r x.job

/-- The entry on stream `n` goes on when everything that it needs is there. -/
def Engine.entryGoesOn (k : Kit) (r : Regs) (n : Nat) (e : Engine) : Engine :=
  match e.restoreOn n with
  | none => e
  | some (x, y) => if y.halted.isNone && y.allRead && decide (x.codedChunks y ≤ y.coded) then e.makeEntry k r n else e

/-- A piece's extent with its place. -/
def Restore.placeOf (p : SrcPiece) (x : Restore) : Option ExtentAt :=
  (x.extentOf p).map fun z => { gi := p.group, si := p.shard, group := z.1, shard := z.2.1, extent := z.2.2 }

/-- Lines of a piece could not be read from its location (R246): the next location that holds the extent is read from its start; with none
left the lines stand as lost, and the piece keeps the code. -/
def Engine.failPiece (n : Nat) (lines : List Nat) (code : Code) (e : Engine) : Engine :=
  match e.restoreOn n with
  | none => e
  | some (x, y) =>
    match lines.head?.bind fun i => y.pieceOf i with
    | none => e
    | some p =>
      let others (i : Nat) : Bool := !p.numbers.contains i
      match if code = 0x40 then none else (x.placeOf p).bind fun z => z.holderFrom (p.holder + 1) with
      | some h =>
        let again (y : RestoreEntry) : RestoreEntry :=
          { y with pieces := updFirst (fun q => q.first == p.first) (fun q => { q with holder := h }) y.pieces
                   got := y.got.filter fun (q : Nat × MemBeat) => others q.1
                   toRead := p.numbers ++ y.toRead.filter others }
        (e.onEntry n again).onFront (Front.dropWhere fun l => match l.key with | .stream m i => m == n && !others i | _ => false)
      | none =>
        e.onEntry n fun y =>
          { y with pieces := updFirst (fun q => q.first == p.first) (fun q => { q with code := code }) y.pieces
                   got := lines.foldl (fun t i => tabSet i MemBeat.lost t) y.got }

/-- A source line of the entry on stream `n`, read from location `holder` of its extent (R114, R123, R246). -/
def Engine.entryLine (n holder i : Nat) (b : MemBeat) (code : Code) (e : Engine) : Engine :=
  match e.restoreOn n with
  | none => e
  | some (x, y) =>
    match y.pieceOf i with
    | none => e
    | some p =>
      if p.holder ≠ holder then e
      else if code ≠ 0 then e.failPiece n [i] code
      else match x.extentOf p with
        | some z => e.stageLine x.tenant n i z.2.2.cls (bitOf 3 z.2.2.flags)
            (bitOf 2 z.2.2.flags && decide (64 * (i - p.first) < z.2.2.scaleOff)) b
        | none => e

/-- What a read of line `i` of an entry finds in the body (R114, R115, R119, R120): its data, its code, and the engine after it. -/
def Engine.bodySource (k : Kit) (r : Regs) (t n : Nat) (e : Engine) : MemBeat × Code × Engine :=
  let beat (x : Line × Code × Engine) : MemBeat × Code × Engine :=
    if x.1.tenant.toNat ≠ t then (MemBeat.lost, 0x40, e) else ({ data := x.1.data, poison := x.1.poison }, x.2.1, x.2.2)
  match e.front.find (.body (r.partLine t n)) with
  | some f => beat (e.readFront k r f)
  | none => if (e.partLine r t n).isNone then ({ data := 0, poison := false }, 0, e) else beat (e.readBody k r (e.partKey r t n) false)

/-- A line of an entry that comes at once, with the mismatches that it meets (R331). -/
def Engine.entryBrings (k : Kit) (r : Regs) (x : Restore) (n holder i : Nat) (b : MemBeat) (code : Code) (faults : List CoreFault)
    (e : Engine) : Engine :=
  let e := e.coreFaults k r (some x.tenant) faults
  if coreFatal faults then e.endRestore k r x.job 0x45 (restoreFail (x.entries.findIdx? fun z => z.state == .running && z.stream == n))
  else ((e.entryLine n holder i b code).entryWindow k r n).entryGoesOn k r n

/-- The next read of an entry (R234, R252): a MEM request, or a line of the body or of a peer's slot, which comes at once (log 58). -/
def Engine.issueEntryRead (k : Kit) (r : Regs) (x : Restore) (y : RestoreEntry) (faults : List CoreFault) (e : Engine) : Engine :=
  let lines := x.nextRead y
  let n := y.stream
  let e := e.onRestore x.job (Restore.onEntry n fun y => { y with toRead := y.toRead.drop lines.length, cause := 0 })
  match lines with
  | [] => e
  | i :: _ =>
    match x.lineAt y i with
    | none => (e.failPiece n [i] 0x12).entryGoesOn k r n
    | some (p, l, off) =>
      if l.kind = 1 then
        let addr := l.base + off
        let e := e.onRestore x.job (Restore.onEntry n fun y => { y with reads := y.reads + 1, reading := y.reading + lines.length })
        ((e.chargeStream false (channelOf k addr) x.tenant.toNat lines.length).awaitLines lines.length).memRead k addr lines.length 2
          (.restoreRead x.job n lines p.holder)
      else if l.kind = 0 then
        let z := e.bodySource k r x.tenant.toNat (b2n l.slot * r.slotLines x.tenant.toNat + off / 64)
        z.2.2.entryBrings k r x n p.holder i z.1 z.2.1 faults
      else
        let b : MemBeat := { data := lineOfBytes (l.held.bytes.drop off), poison := false }
        e.entryBrings k r x n p.holder i b (locationCode (tabGet (fun _ => 0) (off / 64) l.held.bad)) faults

/-- RESTORE_ENTRY_START (R252): `job` counts the restores in flight. -/
def execRestoreEntryStart (job : Nat) (s : State) : Out :=
  s.eff fun k r e =>
    match e.streams.restores[job]? with
    | none => e
    | some x =>
      match x.freeNumber with
      | some n => if e.scheduling && x.entries.any (fun y => y.state == .waiting) then (e.onRestore x.job (Restore.startNext n)).entryGoesOn k r n else e
      | none => e

/-! ### Issue, fences, halts, lanes -/

/-- A cause and one that ranks against it. -/
def topCause : Option Nat → Option Nat → Option Nat
  | some a, some b => some (min a b)
  | some a, none => some a
  | none, b => b

/-- The cause that a stream counts which loses arbitration (R239): what binds the winner is the MEM share of the beat (log 89). -/
def lostCause : Nat := 7

/-- A running SPILL or REFILL at its turn (R233 to R239): the winner of arbitration issues one request, writes before reads. -/
def Engine.serveStream (k : Kit) (r : Regs) (n : Nat) (s : Stream) (e : Engine) : Engine :=
  let w := e.streamWriteCause k s
  let q := e.streamReadCause k r s
  if w = some 0 ∨ q = some 0 then
    if e.winner k r ≠ some n then e.stall n lostCause
    else
      let e := { e with streams := { e.streams with turn := if s.descr.due0 = 2 ^ 64 - 1 then n else e.streams.turn } }
      if w = some 0 then e.issueWrite k n { s with cause := 0 } else e.issueRead k n { s with cause := 0 }
  else
    let waits := (List.range s.chunks).any fun c => !s.made.contains c && e.chunkStaged n c s
    let cause := (topCause (topCause w q) (if waits then some 8 else none)).getD 0
    let e := e.stall n cause
    if cause = 3 then e.holdWrite (s.dstAddr (s.toWrite.headD 0)) else e

/-- A restore's stream at its turn. -/
def Engine.serveEntry (k : Kit) (r : Regs) (n : Nat) (x : Restore) (y : RestoreEntry) (faults : List CoreFault) (e : Engine) : Engine :=
  match e.entryCause k r x y with
  | none => if y.halted.isSome then e.stall n 2 else if (e.laneEntry n).isSome then e.stall n 8 else e
  | some 0 =>
    if e.winner k r ≠ some n then e.stall n lostCause
    else
      let e := { e with streams := { e.streams with turn := n } }
      if y.writes.isEmpty then e.issueEntryRead k r x y faults else e.issueEntryWrite k x y
  | some c =>
    let e := e.stall n c
    if c = 3 then e.holdWrite ((y.writes.head?.map fun w => w.addr).getD 0) else e

/-- STREAM_CHUNK_ISSUE (R233 to R239, R252): a stream at its turn issues one request, or counts why it cannot. -/
def execStreamChunkIssue (turn : StreamTurn) (s : State) : Out :=
  s.eff fun k r e =>
    let n := turn.stream.toNat
    if !e.scheduling then e
    else match e.stream n with
      | some s =>
        match s.state with
        | .fenced => e.stall n 1
        | .halted => e.stall n 2
        | .running => e.serveStream k r n s
        | .ending => e
      | none =>
        match e.restoreOn n with
        | some (x, y) => e.serveEntry k r n x y turn.faults
        | none => e

/-- STREAM_FENCE_RELEASE (R238). -/
def execStreamFenceRelease (stream : BitVec 9) (s : State) : Out :=
  s.eff fun _ _ e =>
    match e.stream stream.toNat with
    | none => e
    | some s =>
      if s.state = .fenced ∧ !e.fenceHolds s.tenant s.descr.layer s.order then
        e.setStream stream.toNat { s with state := .running, cause := 0 }
      else e

/-- A stream goes on from its saved position (R242): after a fault of a write it writes again every line from there that is not
acknowledged. -/
def Stream.resume (s : Stream) : Stream :=
  let again := (s.out.map fun p => p.1).filter fun n => decide (s.position ≤ n) || s.toWrite.contains n
  { s with state := .running, cause := 0, toWrite := if s.haltWrite then again else s.toWrite }

/-- A write of STREAM_CTRL (R242, R243): a stream that is not HALTED stays as it is; one that a request failed for meanwhile ends now. -/
def Engine.streamCtrl (k : Kit) (r : Regs) (value : Word) (e : Engine) : Engine :=
  let n := value.toNat % 512
  if !value.getLsbD 31 then e
  else match e.stream n with
    | some s =>
      if s.state ≠ .halted then e
      else if s.failing ≠ 0 then e.endStream k r n s.failing
      else (e.setStream n s.resume).makeReady k r n
    | none =>
      match e.restoreOn n with
      | some (x, y) =>
        if y.halted.isSome then
          ((e.onRestore x.job (Restore.onEntry n fun y => { y with halted := none, cause := 0 })).entryGoesOn k r n).settleRestore k r x.job
        else e
      | none => e

/-- STREAM_CTRL_RESUME (R242). -/
def execStreamCtrlResume (value : Word) (s : State) : Out :=
  s.effCfg fun k r e => e.streamCtrl k r value

/-- PARTITION_LINE_FREE (R112): the guard's reads of a cut go on when its partition has room; every other held source looks again
when it is served. -/
def execPartitionLineFree (partition : BitVec 2) (s : State) : Out :=
  s.eff fun k _ e => if partition = 1 then e.guardPump k else e

/-- The table of a SPILL's coded plane (R143): made once the source of its sample is there. -/
def Engine.spillTable (k : Kit) (r : Regs) (n : Nat) (s : Stream) (e : Engine) : Engine :=
  let c := s.planeDep (min 63 (s.shape.planeLines s.units - 1))
  if !e.chunkStaged n c s || !(s.seed.isSome || !needsDraw s.steps || e.mayDraw) then e
  else
    let x := e.takeLines k r n (s.needs c) s
    let y := x.2.2.seedStream x.1
    let s := y.1
    let sample := ((runPlane s.steps (s.seed.getD 0) s.source).take 64).map fun b => b.data
    (y.2.setStream n { s with table := some (codeLengths s.shape.outFmt.width sample), code := if s.code = 0 ∧ x.2.1 = 0x20 then 0x20 else s.code }).makeReady
      k r n

/-- The table line of a REFILL read and checked (R145): a line that carries the marker ends the job with 0x21 (log 87). -/
def Engine.refillTable (k : Kit) (r : Regs) (n : Nat) (s : Stream) (e : Engine) : Engine :=
  if !e.isStaged n 0 then e
  else
    let x := e.takeLines k r n [0] s
    let s := x.1
    let e := x.2.2.setStream n s
    let b := s.unseal (e.sealKey s.tenant) 0 (s.line 0)
    if b.poison then e.endStream k r n (if x.2.1 = 0x20 then 0x20 else 0x21)
    else match readTable s.fmt s.rate b.data with
      | some ls => e.setStream n { s with table := some ls }
      | none => (e.bump (Ctr.decodeErrors s.tenant.toNat) 1).endStream k r n 0x23

/-- TABLE_READY (R145, R146): the table of a coded stream, made from the sample of a SPILL, checked in the table line of a REFILL. A
stream that is halted waits for its resumption (R243). -/
def execTableReady (stream : BitVec 9) (s : State) : Out :=
  s.eff fun k r e =>
    let n := stream.toNat
    match e.stream n with
    | none => e
    | some s =>
      if s.table.isSome || (rateGeom s.rate).isNone || s.state != .running then e
      else if s.spill then e.spillTable k r n s
      else e.refillTable k r n s

/-- The lowest idle live lane of a kind (R155): `busy` names the lanes that are at work (log 30). -/
def Units.idleLane (x : UnitKind) (busy : List Nat) (u : Units) : Option Nat :=
  (List.range 64).find? fun l => !(u.at x l).withdrawn && !busy.contains l

/-- A lane that mismatches is taken out of service (R157); the chunk is started again by a later start (log 30). -/
def Engine.laneFault (k : Kit) (r : Regs) (x : UnitKind) (l : Nat) (t : TenantNo) (e : Engine) : Engine :=
  ((e.raise k r 0x1C (some t)).bump Ctr.laneFaults 1).takeOut k r x l

/-- A chunk of a stream or of a restore's entry takes lane `l`. -/
def Engine.laneStream (k : Kit) (r : Regs) (kind : UnitKind) (n chunk l : Nat) (mismatch : Bool) (e : Engine) : Engine :=
  let spill := kind == .enc
  if e.laneWinner spill ≠ some n ∨ e.wantsLane spill n ≠ some chunk then e
  else
    let dated := ((e.stream n).bind fun s => s.descr.dueOf chunk).isSome
    let e := if dated then e
      else { e with streams := if spill then { e.streams with encTurn := n } else { e.streams with decTurn := n } }
    match e.stream n with
    | some s => if mismatch then e.laneFault k r kind l s.tenant else e.makeChunk k r n chunk
    | none =>
      match e.restoreOn n with
      | some (x, _) =>
        if mismatch then e.laneFault k r kind l x.tenant
        else (e.onEntry n fun y => { y with coded := y.coded + 1 }).entryGoesOn k r n
      | none => e

/-- A chunk of source `i` of the running cut takes lane `l` (R24, R155). -/
def Engine.laneCut (k : Kit) (r : Regs) (i chunk l : Nat) (mismatch : Bool) (e : Engine) : Engine :=
  e.onRun fun run e =>
    match run.sources[i]? with
    | none => e
    | some s =>
      if !s.waitsLane || s.coded ≠ chunk then e
      else if mismatch then e.laneFault k r .enc l run.tenant
      else (e.setRun { run with sources := run.sources.set i { s with coded := s.coded + 1 } }).cutPump k r

/-- CODEC_CHUNK_START (R24, R155 to R157, R237): the chunk that arbitration grants the lowest idle live lane passes it; on a mismatch the
lane is taken out of service, and the chunk waits to be started again. -/
def execCodecChunkStart (src : CodecSrc) (chunk : Nat) (lanes : LaneTurn) (s : State) : Out :=
  s.eff fun k r e =>
    match src with
    | .stream n =>
      let kind : UnitKind := match e.stream n.toNat with
        | some s => if s.spill then .enc else .dec
        | none => .dec
      (match e.units.idleLane kind lanes.busy with
       | some l => e.laneStream k r kind n.toNat chunk l lanes.mismatch
       | none => e)
    | .cut i =>
      match e.units.idleLane .enc lanes.busy with
      | some l => e.laneCut k r i chunk l lanes.mismatch
      | none => e

/-! ### MEM responses -/

/-- The request of a response is over. -/
def Engine.dropReq (q : MemReq) (e : Engine) : Engine := { e with mem := e.mem.remove q }

/-- The lines of a chunk that a read of the guard brings (R92, R95, R331, R435). -/
def Engine.chunkRead (k : Kit) (r : Regs) (n granule chunk first : Nat) (code : Code) (beats : List MemBeat) (faults : List CoreFault)
    (e : Engine) : Engine :=
  e.onRun fun run e =>
    if code ≠ 0 then e.endCut k r code
    else
      let e := e.coreFaults k r (some run.tenant) faults
      if coreFatal faults then e.endCut k r 0x45
      else ((e.forEach (beats.mapIdx fun i b => (i, b)) fun p e => e.chunkLine k r n granule chunk (first + p.1) p.2).cutPump k r).guardPump k

/-- A read of stream `n` that failed is over. -/
def Engine.dropAwaited (n : Nat) (lines : List Nat) (e : Engine) : Engine :=
  match e.stream n with
  | some s => (e.setStream n { s with reads := s.reads - 1, reading := s.reading - lines.length }).releaseAwaited lines.length
  | none => e

/-- A read of the entry on stream `n` answered (R240, R246, R252, R331). -/
def Engine.entryRead (k : Kit) (r : Regs) (id : JobId) (n : Nat) (lines : List Nat) (holder addr : Nat) (code : Code) (beats : List MemBeat)
    (faults : List CoreFault) (e : Engine) : Engine :=
  match e.restoreOn n with
  | none => e
  | some (x, y) =>
    if x.job ≠ id then e
    else
      let e := (e.onEntry n fun y => { y with reads := y.reads - 1, reading := y.reading - lines.length }).releaseAwaited lines.length
      let live := lines.filter fun i => (y.pieceOf i).any fun p => p.holder == holder
      if code = 0x28 then
        let e := e.onEntry n fun y => { y with toRead := live ++ y.toRead, halted := some (y.halted.getD (lines.headD 0)) }
        if y.halted.isSome then e else e.noticeHalt id addr (lines.headD 0) n
      else if code ≠ 0 then (if live.isEmpty then e else e.failPiece n live code).entryGoesOn k r n
      else
        let e := e.coreFaults k r (some x.tenant) faults
        if coreFatal faults then e.endRestore k r id 0x45 (restoreFail (x.entries.findIdx? fun z => z.runs && z.stream == n))
        else
          let e := e.forEach (lines.zip beats) fun p e => e.entryLine n holder p.1 p.2 (if p.2.poison then 0x21 else 0)
          (e.entryWindow k r n).entryGoesOn k r n

/-- MEM_READ_RESPONSE (R240, R387, R388, R435): the beats of one read. -/
def execMemReadResponse (channel : Nat) (tag : BitVec 12) (code : Code) (beats : List MemBeat) (faults : List CoreFault) (s : State) : Out :=
  s.needs (s.kit.hasChannel channel) fun s => s.eff fun k r e =>
    match e.mem.find channel tag false with
    | none => e
    | some q =>
      let code := memCode code
      if code = 0 ∧ beats.length ≠ q.lines then e
      else
        let e := e.dropReq q
        match q.use with
        | .chunk n granule chunk first => (e.chunkRead k r n granule chunk first code beats faults).pumpWindows k r
        | .streamRead n lines =>
          if code = 0x28 then e.haltStream n q.addr false lines
          else if code ≠ 0 then (e.dropAwaited n lines).failStream k r n code
          else
            let e := e.coreFaults k r ((e.stream n).map fun s => s.tenant) faults
            if coreFatal faults then (e.dropAwaited n lines).failStream k r n 0x45 else e.streamLines k r n lines beats
        | .restoreRead id n lines holder => e.entryRead k r id n lines holder q.addr code beats faults
        | _ => e

/-- The completion write of a ring has been answered (R266, R269; log 11). -/
def Engine.completionAnswered (k : Kit) (r : Regs) (n : Nat) (code : Code) (e : Engine) : Engine :=
  let g := e.ring n
  if code = 0 then
    let cq := updFirst (fun x => !x.written) (fun x => { x with written := true }) g.cq
    (e.setRing n { g with cq := cq, cqOut := none, cqFailed := false }).issueCq k r n
  else (e.setRing n { e.ring n with cqFailed := true }).raise k r 0x2D (r.ringConcerned n)

/-- A write of a restore entry has been answered (R240, R252). -/
def Engine.restoreAnswered (k : Kit) (r : Regs) (q : MemReq) (id : JobId) (n : Nat) (code : Code) (e : Engine) : Engine :=
  match e.restoreOn n with
  | none => e
  | some (x, y) =>
    if x.job ≠ id then e
    else
      let hit (w : RestoreWrite) : Bool := w.addr == q.addr
      let line := ((y.sent.find? hit).map fun w => w.line).getD 0
      let take (y : RestoreEntry) : RestoreEntry :=
        let y' := { y with sent := y.sent.filter fun w => !hit w }
        if code = 0 then y'
        else if code = 0x28 then { y' with writes := y.sent.filter hit ++ y.writes, halted := some (y.halted.getD line) }
        else { y' with result := if y.result = 0 then code else y.result }
      let e := e.onRestore id (Restore.onEntry n take)
      if code = 0x28 then (if y.halted.isSome then e else e.noticeHalt id q.addr line n) else e.settleRestore k r id

/-- A destination write of a job that waits for nothing else has been answered. -/
def Engine.waitAnswered (k : Kit) (r : Regs) (id : JobId) (code : Code) (e : Engine) : Engine :=
  if code ≠ 0 then e.endJob k r (fun u => u == MemFor.job id) (some id) code false []
  else if e.mem.reqs.any fun q => q.use == MemFor.job id then e
  else match e.rings.jobs.find? fun j => j.id == id with
    | some j =>
      (match j.kind with
       | .wait result => e.complete k r id 0 result
       | _ => e)
    | none => e

/-- MEM_WRITE_RESPONSE (R116, R197, R240, R266, R269, R297, R302, R387, R435). -/
def execMemWriteResponse (channel : Nat) (tag : BitVec 12) (code : Code) (s : State) : Out :=
  s.needs (s.kit.hasChannel channel) fun s => s.eff fun k r e =>
    match e.mem.find channel tag true with
    | none => e
    | some q =>
      let code := memCode code
      let e := e.dropReq q
      match q.use with
      | .completion n => e.completionAnswered k r n code
      | .streamWrite n lines =>
        if code = 0 then e.streamAcked k r n lines
        else if code = 0x28 then e.haltStream n q.addr true lines
        else e.failStream k r n code
      | .restoreWrite id stream => e.restoreAnswered k r q id stream code
      | .cutWrite _ => (if code = 0 then e.cutWriteAnswered k r else e.endCut k r code).pumpWindows k r
      | .windowLine w n ver => (e.settleLine k r (.window w n) ver code).pumpWindows k r
      | .job id => e.waitAnswered k r id code
      | .closing id c plan result => e.closingAnswered k r id c plan result
      | _ => e

end Sys2Proof.Machine
end

