-- ==== Sys2Proof/Machine/Commit.lean ====
section
/-!
DEFINITION. The commit (17_registers): the rules of every chapter that a shadow must obey, how a commit is judged and applied, DISCARD, and
the configuration CRC.
-/

namespace Sys2Proof.Machine

/-! ### Shadow and live -/

/-- The register file as the commit would leave it: every changed word live, RW bits only (R414, R416). -/
def Regs.proposed (k : Kit) (r : Regs) : Regs :=
  let take (t : Tab Word) (off : Nat) : Tab Word :=
    match rwWord k off with
    | some i => tabPut resetWord off (BitVec.ofNat 32 (r.shadowWord off &&& i.rw)) t
    | none => t
  { r with live := (r.changedWords k).foldl take r.live }

/-- A rule of a commit: it fails, and the words that it reads (R422). -/
abbrev Rule := Bool × List Nat

/-- Pairs of a list, each once. -/
def pairsOf {α : Type} : List α → List (α × α)
  | [] => []
  | a :: l => (l.map fun b => (a, b)) ++ pairsOf l

/-- The cut that is armed or running is of tenant `t`. -/
def Engine.cutOf (t : Nat) (e : Engine) : Bool :=
  match e.cut.run with
  | some run => run.tenant.toNat == t
  | none => false

/-! ### Rules on single words -/

/-- Rules that read one word (R34, R98, R102, R136, 04_cut, 09_pollen, 14_faults_service). `n` is the proposed register file. -/
def wordRules (k : Kit) (n : Regs) : List Rule :=
  [(decide (n.beatCc < 1250) || decide (2500 < n.beatCc), [0x2000]),
   (decide (786432 < k.regions * n.dispFloor), [0x4018]),
   (n.planEnable && n.planDeadline == 0, [0x4020]),
   (n.scrubInterval == 0 || decide (1211 < n.scrubInterval), [0x8004]),
   (decide (896 < n.streamShare), [0x9004]),
   (n.probeInterval == 0 || n.retryLimit == 0 || decide (n.rto < 1024), [0xC004]),
   (decide (1024 < n.buddyShare), [0xC008]),
   (decide (49152 < k.linkPorts * n.inboundLines), [0xC00C]),
   (decide (n.hbLimit < 2) || n.fwSoak == 0, [0x5001C])]

/-- SEV of every source (R344). -/
def sevRules (k : Kit) (n : Regs) : List Rule :=
  ((List.range 256).filter (foxImplemented k)).map fun s => (decide (4 < n.foxSev s), [0x50400 + 4 * s])

/-- Sums of shares and quotas over the tenants (R216, R338). -/
def sumRules (n : Regs) : List Rule :=
  let ts := List.range 16
  let sum (f : Nat → Nat) : Nat := (ts.map f).sum
  let at_ (o : Nat) : List Nat := ts.map fun t => tenantOff t + o
  [(decide (1024 < sum n.linkShare), ts.map fun t => 0xC040 + 4 * t),
   (decide (896 < sum n.tshareMem), at_ 0x18), (decide (1024 < sum n.tshareCrypto), at_ 0x1C), (decide (1024 < sum n.tshareBulb), at_ 0x20),
   (decide (512 < sum n.quotaStreams), at_ 0x24), (decide (2048 < sum n.quotaReads), at_ 0x24),
   (decide (1024 < sum n.quotaRecipes), at_ 0x28), (decide (256 < sum n.quotaRings), at_ 0x28), (decide (64 < sum n.quotaRanges), at_ 0x28)]

/-- SEALED_MODE is not cleared under a tenant with REQUIRE_SEALED (R338). -/
def Engine.sealedRule (r n : Regs) (e : Engine) : Rule :=
  (r.sealedMode && !n.sealedMode && e.tenants.any fun p => p.2.state != .free && bitOf 3 p.2.policy.toNat, [0x40400])

/-! ### Body partitions -/

/-- The partition of tenant `t` holds an extent (R124; log 50). -/
def Engine.holdsExtent (t : Nat) (e : Engine) : Bool :=
  let x := e.kept t
  let extent (l : Line) : Bool := l.tenant.toNat == t && (if l.cls = 0 then l.data != 0 else l.cls != 0xD)
  x.aComplete || x.bComplete || (e.bulb.copies.any fun c => c.tenant == t) || e.body.lines.any fun p => extent p.2 && (e.lineAt p.1).isSome

/-- Rules of BODY_PART (R124). -/
def Engine.bodyRules (n : Regs) (changed : List Nat) (e : Engine) : List Rule :=
  let off (t : Nat) : Nat := 0x8100 + 4 * t
  let one (t : Nat) : Rule :=
    (n.bodyBanks t % 2 == 1 || decide (256 < n.bodyBase t + n.bodyBanks t) || n.bodyMode t == 3 ||
      (changed.contains (off t) && (e.holdsExtent t || e.cutOf t)), [off t])
  let held := (List.range 16).filter fun t => n.bodyBanks t != 0
  (List.range 16).map one ++
    (pairsOf held).map fun p =>
      (spansMeet (n.bodyBase p.1, n.bodyBanks p.1) (n.bodyBase p.2, n.bodyBanks p.2), [off p.1, off p.2])

/-! ### Peers, buddy lists, windows -/

/-- The words of a peer slot. -/
def peerWords (t i : Nat) : List Nat := [peerOff t i, peerOff t i + 4, peerOff t i + 8]

/-- Rules of one tenant's peer table (R206). -/
def Engine.peerRules (k : Kit) (n : Regs) (changed : List Nat) (t : Nat) (e : Engine) : List Rule :=
  let live := (List.range 16).filter fun i => n.peerEnable t i
  (live.map fun i => (n.peerId t i == 0xFFFF || n.peerId t i == n.self, [peerOff t i, 0xC000])) ++
    ((pairsOf live).map fun p => (n.peerId t p.1 == n.peerId t p.2, [peerOff t p.1, peerOff t p.2])) ++
    ((List.range 16).map fun i => (decide (2 ^ k.linkPorts ≤ n.peerMask t i), [peerOff t i + 4, peerOff t i + 8])) ++
    if e.cutOf t then (List.range 16).map fun i => ((peerWords t i).any changed.contains, peerWords t i) else []

/-- Rules of one tenant's buddy lists (R217). -/
def buddyRules (n : Regs) (t : Nat) : List Rule :=
  let count (l : Nat) : Nat := n.fld (0xE20C + 0x10 * t) (4 * l + 3) (4 * l)
  let off (l : Nat) : Nat := 0xE200 + 0x10 * t + 4 * l
  let cnt := 0xE20C + 0x10 * t
  ((List.range 3).map fun l => (decide (8 < count l), [cnt])) ++
    ((List.range 3).flatMap fun l => (n.buddyList t l).map fun i => (!n.peerEnable t i, [off l, cnt, peerOff t i])) ++
    (pairsOf (List.range 3)).map fun p =>
      ((n.buddyList t p.1).any (n.buddyList t p.2).contains, [off p.1, off p.2, cnt])

/-- The words of a buddy window. -/
def windowWords (w : Nat) : List Nat := [0xE400 + 0x10 * w, 0xE404 + 0x10 * w, 0xE408 + 0x10 * w, 0xE40C + 0x10 * w]

/-- The peer of window `w` is writing into it (R219): a WRITE of its session is in flight, or lines that it wrote are not yet in host
memory (log 51). -/
def Engine.windowBusy (r : Regs) (w : Nat) (e : Engine) : Bool :=
  let writes (c : VCmd) : Bool := c.opcode == opWrite && spaceOf r c.tenant c.session == .window w
  let mine (l : FrontLine) : Bool := match l.key with | .window v _ => v == w && l.dirty | _ => false
  (e.vault.queues.any fun x => x.2.cmds.any writes) || e.front.lines.any mine

/-- Rules of the buddy windows (R219). -/
def Engine.windowRules (r n : Regs) (changed : List Nat) (e : Engine) : List Rule :=
  let live := (List.range 64).filter n.winEnable
  let span (w : Nat) : Nat × Nat := (n.winBase w, 2 * (4096 * n.winPages w))
  ((pairsOf live).map fun p => (spansMeet (span p.1) (span p.2), windowWords p.1 ++ windowWords p.2)) ++
    ((pairsOf live).map fun p =>
      (n.winTenant p.1 == n.winTenant p.2 && n.winPeer p.1 == n.winPeer p.2, [0xE40C + 0x10 * p.1, 0xE40C + 0x10 * p.2])) ++
    ((List.range 64).filter fun w => (windowWords w).any changed.contains).map fun w => (e.windowBusy r w, windowWords w)

/-! ### Rings, regions, host queues -/

/-- The configuration words of ring 0. -/
def ring0Words : List Nat := [0x10000, 0x10004, 0x10008, 0x1000C, 0x10010]

/-- Rules of ring 0 and of RING_WRR (R255, 11_rings). A size out of range matters once the ring is active, or when it is set. -/
def ringRules (r n : Regs) (changed : List Nat) : List Rule :=
  let cfg := 0x10010
  let bad (hi lo : Nat) : Bool :=
    (decide (n.fld cfg hi lo < 4) || decide (16 < n.fld cfg hi lo)) && (n.ringActive 0 || n.fld cfg hi lo != r.fld cfg hi lo)
  [(r.ringActive 0 && ring0Words.any changed.contains, ring0Words), (bad 26 22 || bad 21 17, [cfg])] ++
    (((List.range 256).map fun i => ringOff i + 0x14).filter changed.contains).map fun o =>
      (n.fld o 15 8 == 0 || n.fld o 7 0 == 0 || decide (64 < n.fld o 7 0), [o])

/-- Host memory that active rings hold, or that a job in flight or a plan's own cut names (R257; log 52). -/
def Engine.busySpans (r : Regs) (e : Engine) : List (Nat × Nat) :=
  let rings := ((List.range 256).filter r.ringActive).flatMap fun n =>
    [(r.sqBase n, 64 * r.sqSize n), (r.cqBase n, 32 * r.cqSize n)]
  let cut := match e.cut.run with
    | none => []
    | some run => e.cutSpans run.params
  let request (q : MemReq) : Option (Nat × Nat) := match q.use with | .closing none _ _ _ => some (q.addr, 64 * q.lines) | _ => none
  rings ++ cut ++ (e.rings.jobs.flatMap fun j => j.spans) ++ e.mem.reqs.filterMap request

/-- The words of a host region. -/
def regionWords (g : Nat) : List Nat := [0x18000 + 0x10 * g, 0x18004 + 0x10 * g, 0x18008 + 0x10 * g, 0x1800C + 0x10 * g]

/-- Rules of the host regions (R257). -/
def Engine.regionRules (r n : Regs) (changed : List Nat) (e : Engine) : List Rule :=
  let span (x : Regs) (g : Nat) : Nat × Nat := (x.regBase g, 4096 * x.regPages g)
  let live := (List.range 128).filter n.regEnable
  let moved := (List.range 128).filter fun g => r.regEnable g && (regionWords g).any changed.contains
  let busy := if moved.isEmpty then [] else e.busySpans r
  ((pairsOf live).map fun p => (spansMeet (span n p.1) (span n p.2), regionWords p.1 ++ regionWords p.2)) ++
    moved.map fun g => (busy.any (spansMeet (span r g)), regionWords g)

/-- The words of a host queue. -/
def vqWords (q : Nat) : List Nat := [vqOff q, vqOff q + 4, vqOff q + 8, vqOff q + 0xC, vqOff q + 0x10]

/-- Rules of one host queue (R286, R311). -/
def queueRules (r n : Regs) (changed : List Nat) (q : Nat) : List Rule :=
  let cfg := vqOff q + 0x10
  let bad (hi lo : Nat) : Bool :=
    (decide (n.fld cfg hi lo < 7) || decide (16 < n.fld cfg hi lo)) && (n.vqActive q || n.fld cfg hi lo != r.fld cfg hi lo)
  let other := ((vqWords q).take 4).any changed.contains || n.fld cfg 31 30 != r.fld cfg 31 30 || n.fld cfg 26 0 != r.fld cfg 26 0
  let t := (n.vqTenant q).toNat
  [(r.vqActive q && other, vqWords q), (bad 26 22 || bad 21 17, [cfg]),
   (!r.vqActive q && n.vqActive q && (!n.inRegions t (n.inBase q) (64 * n.inSize q) || !n.inRegions t (n.outBase q) (64 * n.outSize q)),
     vqWords q ++ (List.range 128).flatMap regionWords)]

/-! ### Judging and applying -/

/-- Every rule of a commit (R416, R418). -/
def Engine.commitRules (k : Kit) (r n : Regs) (changed : List Nat) (e : Engine) : List Rule :=
  wordRules k n ++ sevRules k n ++ sumRules n ++ [e.sealedRule r n] ++ e.bodyRules n changed ++
    ((List.range 16).flatMap fun t => e.peerRules k n changed t) ++ ((List.range 16).flatMap fun t => buddyRules n t) ++
    e.windowRules r n changed ++ ringRules r n changed ++ e.regionRules r n changed ++
    (List.range 16).flatMap fun q => queueRules r n changed q

/-- The lowest of some offsets; 0 of none. -/
def lowestOf (l : List Nat) : Nat := (l.foldl (fun (best : Option Nat) o => some (match best with | none => o | some b => min b o)) none).getD 0

/-- A reserved bit of a shadow word is 1. -/
def reservedSet (k : Kit) (r : Regs) (off : Nat) : Bool :=
  match rwWord k off with
  | some i => r.shadowWord off &&& i.rsv != 0
  | none => false

/-- The outcome of a commit: code and offset (R422); one that changes no word succeeds (R423). -/
def Engine.judgeCommit (k : Kit) (r : Regs) (e : Engine) : Code × Nat :=
  let changed := r.changedWords k
  let rsv := changed.filter (reservedSet k r)
  if changed.isEmpty then (0, 0)
  else if !rsv.isEmpty then (0x11, lowestOf rsv)
  else
    let failing := (e.commitRules k r (r.proposed k) changed).filter fun x => x.1
    if failing.isEmpty then (0, 0)
    else (0x15, lowestOf ((failing.flatMap fun x => x.2).filter changed.contains))

/-- The word is covered by the configuration CRC (R428). -/
def crcCovers (k : Kit) (off : Nat) : Bool :=
  (rwWord k off).isSome && off != 0x1008 && off != 0x100C && decide (off < 0x60000)

/-- The register file after a commit that obeyed every rule (R416, R429). -/
def Regs.applied (k : Kit) (r : Regs) : Regs :=
  let n := r.proposed k
  { n with passValid := n.passValid && !((r.changedWords k).any (crcCovers k))
           mismatch := n.mismatch && n.crcCheck }

/-- What a commit starts in the engine: ring 0 and host queues that become active (R255, R275, R286). -/
def Engine.activated (r n : Regs) (e : Engine) : Engine :=
  let e := e.when (!r.ringActive 0 && n.ringActive 0) fun e => e.setRing 0 Ring.fresh
  e.forEach ((List.range 16).filter fun q => !r.vqActive q && n.vqActive q) fun q e =>
    e.setVq q { VQueue.fresh with resetting := (e.vq q).resetting }

/-- The status of a commit. -/
def Regs.outcome (source : BitVec 2) (code : Code) (off : Nat) (r : Regs) : Regs :=
  { r with cmtSource := source, cmtCode := code, cmtOffset := BitVec.ofNat 20 off }

/-- A commit (R416 to R423). -/
def Engine.commit (k : Kit) (source : BitVec 2) (r : Regs) (e : Engine) : Regs × Engine :=
  let j := e.judgeCommit k r
  if j.1 = 0 then
    let n := r.applied k
    (n.outcome source 0 0, (e.activated r n).bump Ctr.commitsApplied 1)
  else (r.outcome source j.1 j.2, e.bump Ctr.commitsRefused 1)

/-- DISCARD (R419). -/
def Regs.discard (r : Regs) : Regs := { r with shadow := r.live }

/-- The shadow of a word written (R414). -/
def Regs.setShadow (off : Nat) (v : Word) (r : Regs) : Regs := { r with shadow := tabPut resetWord off v r.shadow }

/-! ### The configuration CRC -/

/-- The bytes that the running configuration CRC covers (R428). -/
def crcInput (k : Kit) (r : Regs) : List Byte :=
  ((rwOffsets k).filter (crcCovers k)).flatMap fun off =>
    match rwWord k off with
    | some i => natLE 4 (r.word off &&& i.rw)
    | none => []

/-- The end of a CRC pass (R429). -/
def Engine.crcPass (k : Kit) (r : Regs) (e : Engine) : Regs × Engine :=
  let v := crc32c (crcInput k r)
  let differs := r.crcCheck && v.toNat != r.word 0x100C
  let e := e.bump Ctr.crcPasses 1
  ({ r with crcLive := v, passValid := true, mismatch := differs },
   e.when differs fun e => (e.bump Ctr.crcMismatches 1).raise k r 0x2E none)

end Sys2Proof.Machine
end

