-- ==== Sys2Proof/Machine/Registers.lean ====
section
/-!
DEFINITION. The commands of the register window (17_registers): write accesses to words and to bit aliases, commits, DISCARD, strobes, and
the end of a CRC pass.
-/

namespace Sys2Proof.Machine

/-- What a write access does: the register file and the engine after it, and whether it is answered with a bus error (R382). -/
structure WriteDone where
  regs : Regs
  eng : Engine
  error : Bool

/-- A write that is answered with a bus error and has no effect (R382). -/
def badWrite (r : Regs) (e : Engine) : WriteDone := { regs := r, eng := e, error := true }

/-- A write that acts on the engine only. -/
def liveWrite (r : Regs) (e : Engine) : WriteDone := { regs := r, eng := e, error := false }

/-! ### CMT_CTRL -/

/-- SOURCE of a commit that CMT_CTRL starts: with a strobe in the same CFG cycle, both (R403). -/
def cmtSourceOf (strobe : Bool) : BitVec 2 := if strobe then 3 else 1

/-- A write of CMT_CTRL (R403, R416, R419). A strobe beside a write that is turned away is a commit of its own. -/
def Engine.cmtWrite (k : Kit) (r : Regs) (value : Word) (strobe : Bool) (e : Engine) : WriteDone :=
  let commit := value.getLsbD 31
  let out := value.getLsbD 30
  let discard := value.getLsbD 29
  if (commit && discard) || (out && !commit) || value.toNat % 2 ^ 29 != 0 then
    let x := if strobe then e.commit k 2 r else (r, e)
    { regs := x.1, eng := x.2, error := true }
  else if commit then
    let e := e.when (out && e.power.sysReady) fun e => e.emitHost .sysCommitOut
    let x := e.commit k (cmtSourceOf strobe) r
    { regs := x.1, eng := x.2, error := false }
  else if discard then { regs := r.discard, eng := e, error := false }
  else liveWrite r e

/-! ### Words -/

/-- A write of an RWL word (R413, R415), none for any other word. -/
def Engine.rwlWrite (k : Kit) (r : Regs) (off : Nat) (value : Word) (e : Engine) : Option WriteDone :=
  if off = 0x30 then some (liveWrite r (e.selfTestWrite r value))
  else if off = 0x9008 then some (liveWrite r (e.streamCtrl k r value))
  else if 0x20000 ≤ off ∧ off < 0x20800 then
    let n := (off - 0x20000) / 8
    some (liveWrite r (if (off - 0x20000) / 4 % 2 = 0 then e.sqTail k r n value [] else e.cqHead k r n value))
  else if 0x21000 ≤ off ∧ off < 0x21080 then
    let q := (off - 0x21000) / 8
    some (liveWrite r (if (off - 0x21000) / 4 % 2 = 0 then e.vqIn k r q value [] else e.vqOut k r q value))
  else if off = 0x30800 then
    let x := e.vqResetWrite k r value
    some { regs := x.1, eng := x.2, error := false }
  else if off = 0x50008 then some (liveWrite r (e.foxAckWrite value))
  else if off = 0x50018 then some (liveWrite r (e.handoverWrite value))
  else if off = 0x50020 then some (liveWrite r (e.spareWrite k r value))
  else none

/-- A write of the word at an aligned offset below 0x8_0000 (R413 to R415, R433). -/
def Engine.wordWrite (k : Kit) (r : Regs) (off : Nat) (value : Word) (e : Engine) : WriteDone :=
  if off = 0x1000 then e.cmtWrite k r value false
  else if (rwWord k off).isSome then { regs := r.setShadow off value, eng := e, error := false }
  else match e.rwlWrite k r off value with
    | some x => x
    | none => if (plainRead k r e off).isSome then liveWrite r e else badWrite r e

/-! ### Bit aliases -/

/-- Bit `b` of a number set to `v`. -/
def withBit (b : Nat) (v : Bool) (n : Nat) : Nat := if bitOf b n then (if v then n else n - 2 ^ b) else if v then n + 2 ^ b else n

/-- A write of WDATA[0] to the alias of bit `b` of the word at `off` (R427). In the aliased range CMT_CTRL alone has WO bits and
SELF_TEST_CTRL alone has RWL bits. -/
def Engine.bitWrite (k : Kit) (r : Regs) (off b : Nat) (v : Bool) (e : Engine) : WriteDone :=
  match rwWord k off with
  | some i =>
    if bitOf b (i.rw ||| i.rsv) then
      { regs := r.setShadow off (BitVec.ofNat 32 (withBit b v (r.shadowWord off))), eng := e, error := false }
    else liveWrite r e
  | none =>
    if off = 0x1000 then (if 29 ≤ b then e.cmtWrite k r (BitVec.ofNat 32 (withBit b v 0)) false else liveWrite r e)
    else if off = 0x30 then
      (if b < 4 ∨ b = 31 then liveWrite r (e.selfTestWrite r (BitVec.ofNat 32 (withBit b v e.selfTest.ctrl.toNat))) else liveWrite r e)
    else if (plainRead k r e off).isSome then liveWrite r e
    else badWrite r e

/-- A write access of the CFG target path (R382, R413, R427). -/
def Engine.cfgWrite (k : Kit) (r : Regs) (addr : Nat) (value : Word) (e : Engine) : WriteDone :=
  if addr % 4 ≠ 0 then badWrite r e
  else if addr < 0x80000 then e.wordWrite k r addr value
  else if 2 ≤ value.toNat then badWrite r e
  else e.bitWrite k r (aliasOf addr).1 (aliasOf addr).2 (value.getLsbD 0)

/-- The response of a write on the CFG port (R381, R382). -/
def WriteDone.respond (x : WriteDone) : Regs × Engine := (x.regs, x.eng.emit (if x.error then .busError else .cfgDone))

/-- A write access on the CFG port; until the port opens it has not been accepted (R383; log 1). -/
def State.cfgPort (addr : Nat) (value : Word) (s : State) : Out :=
  s.effRegs fun k r e => if e.cfgOpen then (e.cfgWrite k r addr value).respond else (r, e)

/-! ### Commands -/

/-- COMMIT (R416, R403): a write of CMT_CTRL with COMMIT set; `withStrobe` says that an edge of SYS_COMMIT_IN falls in its cycle. -/
def execCommit (value : Word) (withStrobe : Bool) (s : State) : Out :=
  s.effRegs fun k r e =>
    if e.cfgOpen && value.getLsbD 31 then (e.cmtWrite k r value withStrobe).respond
    else if withStrobe then e.commit k 2 r
    else (r, e)

/-- DISCARD (R419): a write of CMT_CTRL with DISCARD set. -/
def execDiscard (value : Word) (s : State) : Out :=
  if value.getLsbD 29 then s.cfgPort 0x1000 value else .next s

/-- SYS_COMMIT_IN (R403): a commit, or a strobe held while a commit is being checked. -/
def execSysCommitIn (duringCheck : Bool) (s : State) : Out :=
  s.effRegs fun k r e => if duringCheck then ({ r with strobeHeld := true }, e) else e.commit k 2 r

/-- HELD_STROBE_COMMIT (R403): the held strobe is applied. -/
def execHeldStrobeCommit (s : State) : Out :=
  s.effRegs fun k r e => if r.strobeHeld then e.commit k 2 { r with strobeHeld := false } else (r, e)

/-- REGISTER_WRITE (R382, R413 to R415). -/
def execRegisterWrite (addr : BitVec 20) (value : Word) (s : State) : Out := s.cfgPort addr.toNat value

/-- BIT_ALIAS_WRITE (R426, R427): a write at 0x8_0000 or above. -/
def execBitAliasWrite (addr : BitVec 20) (value : Word) (s : State) : Out :=
  if 0x80000 ≤ addr.toNat then s.cfgPort addr.toNat value else .next s

/-- CFG_CRC_PASS_END (R429). No pass runs in P2, where CORE stops. -/
def execCfgCrcPassEnd (s : State) : Out :=
  s.effRegs fun k r e => if e.power.state = 2 then (r, e) else e.crcPass k r

end Sys2Proof.Machine
end

