-- ==== Sys2Proof/Machine/KeyDbg.lean ====
section
/-!
DEFINITION. The KEY port and the DBG port (16_ports, R333, R334, R409 to R412).
-/

namespace Sys2Proof.Machine

/-! ### KEY -/

/-- KEY_RSP_STATUS. -/
def keyDone : BitVec 2 := 0
def keyRefused : BitVec 2 := 1

/-- A KEY command: accepted once a steward is granted (R409); refused without effect where a condition of R410 holds, else carried out and
answered DONE with the word that `f` gives. -/
def Engine.keyCommand (refused : Bool) (f : Engine → Engine × Nat) (e : Engine) : Engine :=
  if !e.cfgOpen then e
  else if refused then e.emit (.keyRsp keyRefused 0)
  else
    let x := f e
    x.1.emit (.keyRsp keyDone (BitVec.ofNat 32 x.2))

/-- A change of the KEY domain's state. -/
def Engine.onKeys (f : Keys → Keys) (e : Engine) : Engine := { e with keys := f e.keys }

/-- GEN_IDENTITY (R325, R330, R365, R409, R410): it waits for the noise source. -/
def execGenIdentity (keyEn : Bool) (_wdata : Word) (s : State) : Out :=
  s.eff fun _ _ e =>
    let refused := !keyEn || !e.allFree || e.keys.identity.isSome
    if !refused && !e.mayDraw then e
    else e.keyCommand refused fun e => ((e.onKeys fun x => { x with identity := some (Config.noise e.draws) }).drawn, 0)

/-- READ_PUBLIC (R325, R409, R410). -/
def execReadPublic (_keyEn : Bool) (wdata : Word) (s : State) : Out :=
  s.eff fun _ _ e =>
    e.keyCommand (e.keys.identity.isNone || decide (23 < wdata.toNat)) fun e => (e, leAt (4 * wdata.toNat) 4 e.keys.publicBytes)

/-- CERT_WORD (R409, R410). -/
def execCertWord (keyEn : Bool) (wdata : Word) (s : State) : Out :=
  s.eff fun _ _ e =>
    e.keyCommand (!keyEn || e.keys.chainLocked || decide (1024 ≤ e.keys.chain.length)) fun e =>
      (e.onKeys fun x => { x with chain := x.chain ++ [wdata] }, e.keys.chain.length + 1)

/-- LOCK_CERT (R365, R409, R410). -/
def execLockCert (keyEn : Bool) (_wdata : Word) (s : State) : Out :=
  s.eff fun _ _ e =>
    e.keyCommand (!keyEn || !e.allFree || e.keys.chainLocked) fun e => (e.onKeys fun x => { x with chainLocked := true }, 0)

/-- FW_KEY_WORD (R409, R410). -/
def execFwKeyWord (keyEn : Bool) (wdata : Word) (s : State) : Out :=
  s.eff fun _ _ e =>
    e.keyCommand (!keyEn || decide (12 ≤ e.keys.fwWords.length) || e.keys.fwDigest.isSome) fun e =>
      (e.onKeys fun x => { x with fwWords := x.fwWords ++ [wdata] }, e.keys.fwWords.length + 1)

/-- The digest that the buffered words spell, the first word least significant (R9). -/
def digestOfWords (ws : List Word) : BitVec 384 := BitVec.ofNat 384 (leNat (ws.flatMap fun w => natLE 4 w.toNat))

/-- FUSE_FW_KEY (R365, R409, R410). -/
def execFuseFwKey (keyEn : Bool) (_wdata : Word) (s : State) : Out :=
  s.eff fun _ _ e =>
    e.keyCommand (!keyEn || !e.allFree || e.keys.fwDigest.isSome || decide (e.keys.fwWords.length < 12)) fun e =>
      (e.onKeys fun x => { x with fwDigest := some (digestOfWords x.fwWords) }, 0)

/-- The word that STATUS answers (R409). -/
def Engine.keyStatus (e : Engine) : Nat :=
  b2n e.keys.identity.isSome + 2 * b2n e.keys.chainLocked + 4 * b2n e.keys.fwDigest.isSome + 8 * e.keys.chain.length + 2 ^ 14 * b2n e.allFree

/-- STATUS (R409, R410). -/
def execStatus (_keyEn : Bool) (_wdata : Word) (s : State) : Out := s.eff fun _ _ e => e.keyCommand false fun e => (e, e.keyStatus)

/-! ### Whose value a register holds -/

/-- The tenant whose value the words of cut, guard ranges, streams, peers, windows, rings, regions, queues and tenants hold (R333;
log 53). -/
def wordTenant (r : Regs) (e : Engine) (off : Nat) : Option Nat :=
  if off = 0x4000 ∨ off = 0x4008 ∨ off = 0x400C then e.cut.run.map fun run => run.tenant.toNat
  else if off = 0x4020 then (if r.planEnable then some r.planTenant.toNat else none)
  else if off = 0x4024 then (if e.cut.planActive then some e.cut.planTenant.toNat else none)
  else if 0x4400 ≤ off ∧ off < 0x4800 then (e.range ((off - 0x4400) / 16)).map fun w => w.owner.toNat
  else if 0x4800 ≤ off ∧ off < 0x4A00 then some ((off - 0x4800) / 32)
  else if 0x8100 ≤ off ∧ off < 0x8180 then some ((off - 0x8100) / 4 % 16)
  else if 0x9800 ≤ off ∧ off < 0xA000 then
    let n := (off - 0x9800) / 4
    match e.stream n with
    | some s => some s.tenant.toNat
    | none => (e.streams.restores.find? fun x => x.numbers.contains n).map fun x => x.tenant.toNat
  else if 0xC040 ≤ off ∧ off < 0xC080 then some ((off - 0xC040) / 4)
  else if 0xC100 ≤ off ∧ off < 0xE100 then some ((off - 0xC100) / 0x200)
  else if 0xE200 ≤ off ∧ off < 0xE300 then some ((off - 0xE200) / 16)
  else if 0xE400 ≤ off ∧ off < 0xE800 then
    let w := (off - 0xE400) / 16
    if r.winEnable w then some (r.winTenant w) else none
  else if 0x10000 ≤ off ∧ off < 0x14000 then
    let n := (off - 0x10000) / 64
    if r.ringActive n then some (r.ringTenant n).toNat else none
  else if 0x18000 ≤ off ∧ off < 0x18800 then
    let g := (off - 0x18000) / 16
    if r.regEnable g then some (r.regOwner g) else none
  else if 0x20000 ≤ off ∧ off < 0x20800 then
    let n := (off - 0x20000) / 8
    if r.ringActive n then some (r.ringTenant n).toNat else none
  else if 0x21000 ≤ off ∧ off < 0x21080 then
    let q := (off - 0x21000) / 8
    if r.vqActive q then some (r.vqTenant q).toNat else none
  else if 0x30000 ≤ off ∧ off < 0x30400 then
    let q := (off - 0x30000) / 64
    if r.vqActive q then some (r.vqTenant q).toNat else none
  else if 0x30900 ≤ off ∧ off < 0x30980 then some ((off - 0x30900) / 4 % 16)
  else if 0x40000 ≤ off ∧ off < 0x40400 then some ((off - 0x40000) / 64)
  else counterTenant off

/-! ### DBG -/

/-- The data register of CFG_ACCESS (R411): WRITE, ADDR, DATA, STATUS, a reserved bit. -/
def dbgWord (write : Bool) (addr : BitVec 20) (data : Word) (status : BitVec 2) : BitVec 56 :=
  (((BitVec.ofBool write ++ addr : BitVec 21) ++ data : BitVec 53) ++ status : BitVec 55) ++ (0 : BitVec 1)

/-- The result of an access, as the next Capture-DR loads it (R412). -/
def Engine.dbgResult (write : Bool) (addr : BitVec 20) (data : Word) (status : BitVec 2) (e : Engine) : Engine :=
  let dr := dbgWord write addr data status
  { e with dbg := { e.dbg with dr := dr }, out := e.out ++ [.dbgOut dr] }

/-- A DBG read (R333, R382, R412): of a tenant's value only under DEBUG_CONSENT, counted either way. -/
def Engine.dbgRead (k : Kit) (r : Regs) (addr : BitVec 20) (e : Engine) : Engine :=
  let a := addr.toNat
  match cfgRead k r e a with
  | none => e.dbgResult false addr 0 1
  | some v =>
    match wordTenant r e (if a < 0x80000 then a else (aliasOf a).1) with
    | none => e.dbgResult false addr v 0
    | some t =>
      let x := e.tenant t
      if bitOf 1 x.policy.toNat then ((e.setTenant t { x with debugAccessed := true }).bump (Ctr.dbgReads t) 1).dbgResult false addr v 0
      else (e.bump Ctr.dbgDenied 1).dbgResult false addr 0 2

/-- A DBG write (R384, R412): the CFG target path, no response on the CFG port. -/
def Engine.dbgWrite (k : Kit) (r : Regs) (addr : BitVec 20) (data : Word) (e : Engine) : Regs × Engine :=
  let x := e.cfgWrite k r addr.toNat data
  (x.regs, x.eng.dbgResult true addr 0 (if x.error then 1 else 0))

/-- CFG_ACCESS (R333, R383, R384, R412). -/
def execCfgAccess (dr : BitVec 56) (s : State) : Out :=
  s.effRegs fun k r e =>
    let addr : BitVec 20 := dr.extractLsb' 35 20
    if !e.cfgOpen then (r, e)
    else if dr.getLsbD 55 then e.dbgWrite k r addr (dr.extractLsb' 3 32)
    else (r, e.dbgRead k r addr)

/-- SCAN_TEST (R334): ignored while any slot is not FREE; key slots and the front are zeroised first. -/
def execScanTest (s : State) : Out :=
  s.eff fun _ _ e =>
    if !e.allFree then e
    else
      let e := e.forEach (List.range 16) fun t e => e.setTenant t (e.tenant t).zeroise
      { e with front := { e.front with lines := [] }, dbg := { e.dbg with testMode := true } }

/-- The kit identity code (R411): bit 0 is 1. -/
def idcodeWord : Word := (Config.idcodeHigh ++ (1 : BitVec 1) : BitVec 32)

/-- IDCODE (R411). -/
def execIdcode (s : State) : Out := s.eff fun _ _ e => e.emit (.idcode idcodeWord)

end Sys2Proof.Machine
end

