-- ==== Sys2Proof/Machine/Pollen.lean ====
section
/-!
DEFINITION. The commands of Pollen (09_pollen): received frames, session setup, retransmission, acknowledgements, credit, probes, loss.
-/

namespace Sys2Proof.Machine

/-! ### Received frames -/

/-- A received frame of type `ty` on a port that exists. -/
def State.frameIn (ty : BitVec 8) (port : Nat) (f : Frame) (act : Kit → Regs → Nat → Nat → Engine → Engine) (s : State) : Out :=
  s.needs (s.kit.hasPort port) fun s => s.eff fun k r e => e.receive k r ty port f (act k r)

/-- OPEN (R207, R330): the responder derives the key and answers ACCEPT, as soon as NONCE_R can be drawn. An engine that would initiate
takes no OPEN from that peer. -/
def execOpen (port : Nat) (frame : Frame) (s : State) : Out :=
  s.frameIn ftOpen port frame fun _ r t i e =>
    if (e.tenant t).pollenKey.isNone ∨ initiates r t i then e
    else
      let s := e.sess t i
      let s := { s with
        state := if s.state = .keyed then .keyed else .opening
        initiator := false, newId := frame.sessionId, newNonceI := frame.bodyLo, newNonceR := 0, newKey := 0, newSetup := true, openBeats := 0,
        drawWait := some port }
      (e.setSess t i s).answerOpen r t i

/-- ACCEPT (R207): the initiator derives the key, sends CONFIRM and is KEYED. -/
def execAccept (port : Nat) (frame : Frame) (s : State) : Out :=
  s.frameIn ftAccept port frame fun k r t i e =>
    let s := e.sess t i
    match (e.tenant t).pollenKey with
    | none => e
    | some kp =>
      if !s.newSetup || !initiates r t i then e
      else
        let key := sessionKey kp s.newNonceI frame.bodyLo r.self (r.peerId t i) s.newId
        let s := { s with newNonceR := frame.bodyLo, newKey := key }
        let e := e.setSess t i (s.install (e.upMask (r.peerMask t i)) (frame.bodyHi.toNat % 2 ^ 28))
        (e.sendSetup r t i port ftConfirm 0 s.newId key).serveSess k r t i

/-- CONFIRM (R207, R208): the responder is KEYED; every job of an older session ends with 0x34. -/
def execConfirm (port : Nat) (frame : Frame) (s : State) : Out :=
  s.frameIn ftConfirm port frame fun k r t i e =>
    let s := e.sess t i
    if !s.newSetup || s.drawWait.isSome || initiates r t i then e
    else
      let e := if s.state = .keyed then e.removeSess k r t i 0x34 false else e
      (e.setSess t i (s.install (e.upMask (r.peerMask t i)) s.pages)).serveSess k r t i

/-- CLOSE (R210). -/
def execClose (port : Nat) (frame : Frame) (s : State) : Out :=
  s.frameIn ftClose port frame fun k r t i e => e.removeSess k r t i 0x34 false

/-- ACK (R212, R213). -/
def execAck (port : Nat) (frame : Frame) (s : State) : Out :=
  s.frameIn ftAck port frame fun k r t i e => e.servePort k r t i port

/-- NAK (R211, R213, R215). -/
def execNak (port : Nat) (frame : Frame) (s : State) : Out :=
  s.frameIn ftNak port frame fun k r t i e => (e.onPort t i port (PortSess.goBack frame.ackSeq)).servePort k r t i port

/-- CREDIT (R214, R215): the header's CREDIT_LIMIT has been taken as every frame's is. -/
def execCredit (port : Nat) (frame : Frame) (s : State) : Out :=
  s.frameIn ftCredit port frame fun k r t i e => e.servePort k r t i port

/-- PROBE (R222). -/
def execProbe (port : Nat) (frame : Frame) (s : State) : Out :=
  s.frameIn ftProbe port frame fun _ r t i e =>
    e.sendControl r t i port ftProbeReply (bodyOf 0 (BitVec.ofNat 32 (r.reported t i)))

/-- PROBE_REPLY (R222, R223): SLOT_PAGES, and the port's return to the live set, where its SEQ goes on from the far end's (log 31). -/
def execProbeReply (port : Nat) (frame : Frame) (s : State) : Out :=
  s.frameIn ftProbeReply port frame fun k r t i e =>
    let s := { e.sess t i with pages := frame.bodyHi.toNat % 2 ^ 28 }
    let e := e.setSess t i s
    if s.live.getLsbD port || !(BitVec.ofNat 48 (r.peerMask t i)).getLsbD port then e.servePort k r t i port
    else
      let e := e.setSess t i { s with live := s.live ||| (1#48 <<< port) }
      (e.onPort t i port fun ps => { ps with nextSeq := frame.ackSeq }).servePort k r t i port

/-- ADMIN (R226): SUBTYPE PREEMPT runs the plan of its tenant; the other values do nothing more. -/
def execAdmin (port : Nat) (frame : Frame) (s : State) : Out :=
  s.frameIn ftAdmin port frame fun k r t _ e =>
    if frame.body.extractLsb' 0 8 = 1 ∧ r.planTenant = BitVec.ofNat 4 t then e.notice k r 2 else e

/-- DROPPED_FRAME (R204, R205, R399): a frame that fails checks 1 to 6, or, with none given, one that breaks framing. -/
def execDroppedFrame (port : Nat) (frame : Option Frame) (s : State) : Out :=
  s.needs (s.kit.hasPort port) fun s => s.eff fun k r e =>
    if !e.listening port then e
    else match frame with
      | none => e.dropFrame k r .crc
      | some f =>
        match e.checkFrame r port f with
        | .inr d => e.dropFrame k r d
        | .inl _ => e

/-! ### Setup, rekey -/

/-- A setup may start here: the slot is enabled, the key bound, and this engine initiates (R207). -/
def Engine.maySetup (r : Regs) (t i : Nat) (e : Engine) : Bool :=
  e.canSend r && r.peerEnable t i && (e.tenant t).pollenKey.isSome && initiates r t i

/-- SESSION_OPEN (R207). -/
def execSessionOpen (tenant : TenantNo) (slot : BitVec 4) (s : State) : Out :=
  s.eff fun _ r e =>
    let t := tenant.toNat
    let i := slot.toNat
    if e.maySetup r t i && (e.sess t i).state == .none then e.startSetup r t i else e

/-- OPEN_RETRY (R207): fresh values after 64 beats without an ACCEPT. -/
def execOpenRetry (tenant : TenantNo) (slot : BitVec 4) (s : State) : Out :=
  s.eff fun _ r e =>
    let t := tenant.toNat
    let i := slot.toNat
    if e.maySetup r t i && (e.sess t i).newSetup && decide (64 ≤ (e.sess t i).openBeats) then e.startSetup r t i else e

/-- A SEQ of the session, this engine's or the far end's, comes near 0x8000_0000 (R209; log 32). -/
def Session.seqHigh (s : Session) : Bool :=
  s.ports.any fun p => decide (0x7FFF0000 ≤ p.2.nextSeq.toNat) || decide (0x7FFF0000 ≤ p.2.expect.toNat)

/-- SESSION_REKEY (R209): no further vault command starts on the session; once nothing is outstanding the initiator sets up a new
one. -/
def execSessionRekey (tenant : TenantNo) (slot : BitVec 4) (s : State) : Out :=
  s.eff fun _ r e =>
    let t := tenant.toNat
    let i := slot.toNat
    let s := e.sess t i
    if s.state ≠ .keyed ∨ !s.seqHigh then e
    else
      let e := e.setSess t i { s with rekey := true }
      if e.sessIdle t i && e.maySetup r t i && !s.newSetup then e.startSetup r t i else e

/-! ### Timers, credit, probes -/

/-- RETRANSMIT (R213, R215): the oldest unacknowledged frame has waited RTO. -/
def execRetransmit (tenant : TenantNo) (slot : BitVec 4) (port : Nat) (s : State) : Out :=
  s.needs (s.kit.hasPort port) fun s => s.eff fun k r e =>
    let t := tenant.toNat
    let i := slot.toNat
    match ((e.sess t i).port port).unacked with
    | [] => e
    | x :: _ => (e.onPort t i port (PortSess.goBack (x.seq.getD 0))).servePort k r t i port

/-- ACK_TIMER (R212). -/
def execAckTimer (tenant : TenantNo) (slot : BitVec 4) (port : Nat) (s : State) : Out :=
  s.needs (s.kit.hasPort port) fun s => s.eff fun _ r e =>
    if 0 < ((e.sess tenant.toNat slot.toNat).port port).owed then e.sendAck r tenant.toNat slot.toNat port else e

/-- Lines granted on a port and not used, over every session (R214). -/
def Engine.granted (p : Nat) (e : Engine) : Nat :=
  (e.pollen.sess.map fun x => ((x.2.port p).limitOut - (x.2.port p).charged).toNat).sum

/-- Lines of VAULT that a further grant may not promise: those that hold a line or a staged one, and those granted already on any port
(R214). -/
def Engine.promised (k : Kit) (e : Engine) : Nat :=
  (e.front.lines.filter fun l => l.part == .vault).length +
    (e.vault.queues.map fun x => (x.2.cmds.map fun c => c.staged.length).sum).sum + ((List.range k.linkPorts).map e.granted).sum

/-- The session has a write under way on the port whose data has not all come: its traffic is pending (R214). -/
def Engine.trafficPending (n p : Nat) (e : Engine) : Bool :=
  (e.sess (n / 16) (n % 16)).live.getLsbD p && (e.vq (16 + p)).cmds.any fun c => c.session == some n && movesIn c.opcode && c.ready && decide (64 * c.staged.length < c.len) && !c.waiting

/-- The session whose turn it is for credit on a port: the next with traffic pending after the one granted last (R214). -/
def Engine.creditNext (p : Nat) (e : Engine) : Option Nat :=
  let last := tabGet (fun _ => 255) p e.pollen.creditTurn
  (lowestFrom (fun i => e.trafficPending ((last + i) % 256) p) 1 256).map fun i => (last + i) % 256

/-- CREDIT_GRANT (R112, R214): a portion of 64 lines that VAULT has free, announced by a CREDIT frame. Sessions with traffic pending take
turns; while none has any, the session named is granted (log 81). -/
def execCreditGrant (tenant : TenantNo) (slot : BitVec 4) (port : Nat) (s : State) : Out :=
  s.needs (s.kit.hasPort port) fun s => s.eff fun k r e =>
    let t := tenant.toNat
    let i := slot.toNat
    let n := 16 * t + i
    let s := e.sess t i
    if s.state = .keyed ∧ s.live.getLsbD port ∧ e.granted port + 64 ≤ r.inboundLines ∧ e.promised k + 64 ≤ Part.size .vault ∧
        (e.creditNext port).getD n = n then
      let e := { e with pollen := { e.pollen with creditTurn := tabPut (fun _ => 255) port n e.pollen.creditTurn } }
      (e.onPort t i port fun ps => { ps with limitOut := ps.limitOut + 64 }).sendControl r t i port ftCredit 0
    else e

/-- PROBE sent on every port of a peer's mask that is up. -/
def Engine.probe (r : Regs) (t i : Nat) (e : Engine) : Engine :=
  e.forEach ((List.range 48).filter fun p => (e.upMask (r.peerMask t i)).getLsbD p) fun p e => e.sendControl r t i p ftProbe 0

/-- PROBE_SEND (R222). -/
def execProbeSend (tenant : TenantNo) (slot : BitVec 4) (s : State) : Out :=
  s.eff fun _ r e =>
    let t := tenant.toNat
    let i := slot.toNat
    if (e.sess t i).state = .keyed ∧ r.probeInterval ≤ (e.sess t i).sinceRx then e.probe r t i else e

/-- PEER_LOST (R222, R224, R225): every session with the peer is removed. -/
def execPeerLost (tenant : TenantNo) (slot : BitVec 4) (s : State) : Out :=
  s.eff fun k r e =>
    let t := tenant.toNat
    let i := slot.toNat
    if (e.sess t i).state ≠ .keyed ∨ (e.sess t i).sinceRx < 4 * r.probeInterval then e
    else
      let peer := r.peerId t i
      e.forEach (e.pollen.sess.filter fun x => r.peerId (x.1 / 16) (x.1 % 16) == peer) fun x e =>
        e.removeSess k r (x.1 / 16) (x.1 % 16) 0x34 true

/-- LNK_UP_FALL (R223): the port fails for every peer. -/
def execLnkUpFall (port : Nat) (s : State) : Out :=
  s.needs (s.kit.hasPort port) fun s => s.eff fun k r e =>
    let e := { e with pollen := { e.pollen with portUp := e.pollen.portUp &&& ~~~(1#48 <<< port) } }
    e.forEach e.pollen.sess fun x e => e.failPort k r (x.1 / 16) (x.1 % 16) port 0x31

/-- LNK_UP_RISE (R223): a PROBE on it for every KEYED session whose mask has the port. -/
def execLnkUpRise (port : Nat) (s : State) : Out :=
  s.needs (s.kit.hasPort port) fun s => s.eff fun _ r e =>
    let e := { e with pollen := { e.pollen with portUp := e.pollen.portUp ||| (1#48 <<< port) } }
    e.forEach (e.pollen.sess.filter fun x => x.2.state == .keyed) fun x e =>
      let t := x.1 / 16
      let i := x.1 % 16
      if (BitVec.ofNat 48 (r.peerMask t i)).getLsbD port then e.sendControl r t i port ftProbe 0 else e

end Sys2Proof.Machine
end

