-- ==== Sys2Proof/Machine/Power.lean ====
section
/-!
DEFINITION. Power states, resets and bring-up (15_power_reset).
-/

namespace Sys2Proof.Machine

/-! ### Power states -/

/-- PWR_REQ as the engine reads it (R367). -/
def pwrReq (req : BitVec 2) : BitVec 2 := if req = 3 then 0 else req

/-- PWR_REQ_CHANGE (R367, R369): a change is a wake event once SYS_READY is high. -/
def execPwrReqChange (req : BitVec 2) (s : State) : Out :=
  s.eff fun _ _ e =>
    let v := pwrReq req
    if e.power.req = v then e
    else
      let e := { e with power := { e.power with req := v } }
      if e.power.sysReady then e.wake else e

/-- POWER_ENTRY (R368): PWR_REQ names P1 or P2 and the engine is idle. On the way to P2 every session is closed. -/
def execPowerEntry (s : State) : Out :=
  s.eff fun k r e =>
    let x := e.power
    if x.sysReady && x.req != 0 && x.req != 3 && x.state == 0 && !x.exiting && !x.entering && e.idle r then
      let e := { e with power := { x with entering := true } }
      e.when (x.req == 2) fun e => e.forEach (List.range 16) fun t e => e.closeSessions k r t 0x62
    else e

/-- POWER_STATE_ENTERED (R367, R368, R371): PWR_ACK shows the state. P2 loses the front, and its shadows wait for the first edge after
the exit. -/
def execPowerStateEntered (s : State) : Out :=
  s.eff fun _ _ e =>
    let x := e.power
    if !x.entering then e
    else
      let e := { e with power := { x with entering := false, state := x.req } }
      if x.req = 2 then
        { e with front := { e.front with lines := [], patrol := 0 }, count := { e.count with latched := [] },
                 power := { e.power with p2Beats := 0 } }
      else e

/-- The engine is back in P0 (R370, R371): the beats of P2 are counted, the front is clear, calibration starts a full pass. -/
def Engine.leaveLow (e : Engine) : Engine :=
  let p2 := e.power.state == 2
  let e := e.when p2 fun e => e.bump Ctr.p2Beats e.power.p2Beats
  let e := { e with power := { e.power with state := 0, exiting := false, entering := false, p2Beats := 0 } }
  e.when p2 fun e => { e with beat := { e.beat with sinceCal := 500000 } }

/-- POWER_EXIT_COMPLETE (R369, R370). -/
def execPowerExitComplete (s : State) : Out := s.eff fun _ _ e => if e.power.exiting then e.leaveLow else e

/-! ### Resets -/

/-- The counters of every bank as shadows (05_bulb): BANK_WRITES is stored. -/
def bankShadows (b : Body) : Tab Dword := b.banks.foldl (fun t p => tabPut (fun _ => 0) (0x61000 + 8 * p.1) p.2.writes t) []

/-- A line write that the loss of supply strikes (R128): the line holds the old value, the new one, or one that R120 finds uncorrectable, as
a free value says (log 84). -/
def Engine.tornWrite (e : Engine) : Engine :=
  match e.bulb.writes with
  | [] => e
  | w :: _ =>
    match e.writeKey w.use with
    | none => e.drawn
    | some key =>
      let n := e.freeWord.toNat % 3
      if n = 0 then e.drawn
      else
        let b := e.body.store key w.line
        { e.drawn with body := if n = 1 then b else b.setUpset key { flips := [0, 1, 2], fails := 0 } }

/-- The engine after RST_COLD_N (R372): everything as after manufacture, but the stored values, the fuses and the chain, the DBG data
register (R408), and the model's own record. Both halves restart on the next-cold-reset slot. -/
def Engine.coldReset (e : Engine) : Engine :=
  let x := Engine.reset
  let e := e.tornWrite.abandonRemap
  { x with
    body := { e.body with activeSlot := e.body.nextSlot }
    units := x.units.remapAll e.body
    keys := { e.keys with fwWords := [] }
    dbg := { e.dbg with testMode := false }
    count := { x.count with shadow := bankShadows e.body }
    out := e.out
    draws := e.draws }

/-- RST_COLD_N (R363, R372). -/
def execRstColdN (s : State) : Out := s.effRegs fun _ _ e => (Regs.reset, e.coldReset)

/-- The register file after RST_FN_N (R372, R421): reset values but BEAT_CTRL. -/
def Regs.fnReset (r : Regs) : Regs :=
  { Regs.reset with live := r.live.filter fun (p : Nat × Word) => p.1 == 0x2000, shadow := r.shadow.filter fun (p : Nat × Word) => p.1 == 0x2000 }

/-- A bud after RST_FN_N (R81, R372): its state discarded, and nothing on its way to it or from it. -/
def Bud.fnReset (issued : Nat) (b : Bud) : Bud :=
  if b.state = .absent then { b with acks := [], seen := issued, earlyHeld := false }
  else
    { b with state := .idle, drained := 0, latch := [], buffer := [], up := [], resumed := false, seen := issued, acks := [], earlyHeld := false }

/-- A tenant slot after RST_FN_N (R317, R372): keys and sessions cleared, every policy word initial, ATTESTED becomes ADMITTED; a slot
whose RELEASE was running is FREE. -/
def Tenant.fnReset (x : Tenant) : Tenant :=
  if x.releasing.isSome ∨ x.state = .free then { Tenant.none with policy := 1 }
  else
    { x.zeroise with state := .admitted, policy := 1 }

/-- Live counters of the slots whose RELEASE was running, set to zero (R317). -/
def Engine.zeroReleased (e : Engine) : Engine :=
  e.forEach e.tenants fun p e =>
    if p.2.releasing.isSome then
      { e with count := { e.count with live := (tenantCounters p.1).foldl (fun c o => tabErase o c) e.count.live } }
    else e

/-- The referee after RST_FN_N (R372, R373): STEWARD and STEWARD_EPOCH kept; the halves restart. An update is abandoned (log 47). -/
def Referee.fnReset (x : Referee) : Referee :=
  { x with resumed := false, standbyReady := false, missNorth := 0, missSouth := 0, beatNorth := false, beatSouth := false, claims := [],
           mirror := none, edgeDue := false, handover := false, resync := if x.steward.isSome then some 0 else none, fw := .none }

/-- The engine after RST_FN_N (R81, R107, R174, R243, R281, R304, R310, R317, R350, R372). -/
def Engine.fnReset (e : Engine) : Engine :=
  let x := Engine.reset
  let e := e.wake.zeroReleased.leaveLow
  let buds : Tab Bud := e.buds.map fun (p : Nat × Bud) => (p.1, p.2.fnReset e.stem.issued.length)
  let tenants := (List.range 16).foldl (fun t i => tabPut (fun _ => Tenant.none) i (e.tenant i).fnReset t) []
  { e with
    budget := x.budget
    stem := { e.stem with frozen := [], scrubbed := 0 }
    buds := buds
    cut := { x.cut with lastCode := if e.cut.run.isSome then 0x61 else e.cut.lastCode, lastTenant := e.cut.lastTenant }
    guard := { x.guard with parities := (e.guard.forget fun _ => true).parities }
    front := x.front
    bulb := { e.bulb with writes := [], copies := [] }
    recipes := x.recipes
    pollen := { x.pollen with portUp := e.pollen.portUp }
    streams := x.streams
    rings := x.rings
    vault := { x.vault with tenants := e.vault.tenants }
    tenants := tenants
    fox := { e.fox with srcs := [], recovery := false, fatHeld := false, fatalDue := false }
    referee := e.referee.fnReset
    power := { e.power with lastReset := 2, frontClear := false, fwRunning := false, sysReady := false }
    selfTest := { e.selfTest with running := false }
    mem := { e.mem with reqs := e.mem.reqs.map fun q => { q with use := .dropped (e.tracked q) } } }

/-- RST_FN_N (R372, R373, R408): a pulse shorter than 2 CORE cycles has no effect. -/
def execRstFnN (cycles : Nat) (s : State) : Out :=
  s.effRegs fun _ r e => if 2 ≤ cycles then (r.fnReset, e.fnReset) else (r, e)

/-! ### Bring-up -/

/-- SYS_READY_RISE (R374). -/
def execSysReadyRise (s : State) : Out :=
  s.eff fun _ _ e =>
    if !e.power.sysReady && e.readyBits == 63 then { e with power := { e.power with sysReady := true } } else e

end Sys2Proof.Machine
end

