-- ==== Sys2Proof/Machine/Recipes.lean ====
section
/-!
DEFINITION. The recipe jobs (07_recipes, 11_rings): LOAD, UNLOAD, BIND, UNBIND.
-/

namespace Sys2Proof.Machine

/-- Parameters of a RECIPE_LOAD entry (11_rings); `rsv` says that a reserved bit is set. -/
structure LoadParams where
  op : Nat
  index : Nat
  addr : Nat
  len : Nat
  rsv : Bool
deriving DecidableEq, Repr

def loadParamsOf (bs : List Byte) : LoadParams :=
  { op := leAt 0 1 bs, index := leAt 2 2 bs % 1024, addr := leAt 8 8 bs, len := leAt 16 4 bs,
    rsv := !zeroAt 1 1 bs || leAt 2 2 bs / 1024 != 0 || !zeroAt 4 4 bs || !zeroAt 20 12 bs }

/-- The entry is a RECIPE_LOAD job with this OP. -/
def isRecipeOp (op : Nat) (x : Entry) : Bool := x.opcode == 6 && leAt 0 1 x.params == op

/-- An armed or running CUT uses the set (R171). -/
def Engine.setBusy (n : Nat) (e : Engine) : Bool :=
  match e.cut.run with
  | some run => run.params.dest != 2 && run.params.recipeSet == n
  | none => false

/-- A set belongs to another tenant (R171). -/
def Engine.setForeign (t : TenantNo) (n : Nat) (e : Engine) : Bool :=
  match tabFind n e.recipes.sets with
  | some b => b.tenant != t
  | none => false

/-- A recipe is named by a set, or a job is running it (R169). -/
def Engine.recipeBusy (n : Nat) (e : Engine) : Bool :=
  (e.recipes.sets.any fun p => p.2.entries.contains (some n)) ||
    e.streams.held.any fun p => p.2.spill && p.2.descr.recipe == n

/-- Recipes and sets replaced. -/
def Engine.setRecipes (v : Recipes) (e : Engine) : Engine := { e with recipes := v }

/-- A recipe job judged by its conditions under R167 to R171, `mine`, which RECIPE_REFUSED counts, and by the others. -/
def Engine.recipeJob (k : Kit) (r : Regs) (n : Nat) (x : Entry) (others mine : List (Bool × Code)) (go : Engine → Engine) (e : Engine) :
    Engine :=
  (e.countRecipe ((x.badHeader, 0x11) :: (others ++ mine)) mine).judged k r n x (others ++ mine) go

/-- The data that a recipe job names, judged (R434). -/
def Engine.recipeData (k : Kit) (r : Regs) (n : Nat) (x : Entry) (d : HostRead) (later : List Byte → List (Bool × Code))
    (go : List Byte → Engine → Engine) (e : Engine) : Engine :=
  let refuse (c : Code) (e : Engine) : Engine := (e.bump Ctr.recipeRefused 1).refuse k r (x.jobId n) c
  match d with
  | .memError => e.refuse k r (x.jobId n) 0x27
  | .poison => e.refuse k r (x.jobId n) 0x21
  | .ok bs =>
    match judge (later bs) with
    | some c => refuse c e
    | none => go bs e

/-- RECIPE_LOAD with OP LOAD (R167, R168, R337), and with an undefined OP. -/
def execRecipeLoad (ring : BitVec 8) (image : HostRead) (s : State) : Out :=
  s.eff fun k r e =>
    e.startJob r ring.toNat (fun x => x.opcode == 6 && !(isRecipeOp 2 x || isRecipeOp 3 x || isRecipeOp 4 x)) fun x e =>
      let n := ring.toNat
      let t := r.ringTenant n
      let p := loadParamsOf x.params
      let free := lowestFrom (fun i => (e.recipe i).isNone) 0 1024
      e.recipeJob k r n x (e.tenantConds t ++
        [(p.op != 1 || p.rsv || p.index != 0, 0x11), (p.addr % 64 != 0 || !r.inRegions t.toNat p.addr p.len, 0x13)])
        [(free.isNone || (e.beat.sealed && decide (r.quotaRecipes t.toNat ≤ e.recipesOf t)), 0x56)] fun e =>
        e.recipeData k r n x image (imageConds p.len) fun bs e =>
          match free with
          | none => e
          | some i => (e.setRecipes { e.recipes with held := tabSet i (recipeOf t bs) e.recipes.held }).complete k r (x.jobId n) 0 (natLE 2 i)

/-- RECIPE_LOAD with OP UNLOAD (R169). -/
def execUnload (ring : BitVec 8) (s : State) : Out :=
  s.eff fun k r e => e.startJob r ring.toNat (isRecipeOp 2) fun x e =>
    let n := ring.toNat
    let t := r.ringTenant n
    let p := loadParamsOf x.params
    let other := match e.recipe p.index with | some rc => rc.tenant != t | none => false
    e.recipeJob k r n x (e.tenantConds t ++ [(p.rsv || p.addr != 0 || p.len != 0, 0x11)])
      [(other, 0x40), ((e.recipe p.index).isNone, 0x11), (e.recipeBusy p.index, 0x58)] fun e =>
      (e.setRecipes { e.recipes with held := tabErase p.index e.recipes.held }).refuse k r (x.jobId n) 0

/-- The conditions of R171 that depend on the binding image. -/
def Engine.bindConds (t : TenantNo) (bs : List Byte) (e : Engine) : List (Bool × Code) :=
  let named := (bindEntries bs).zipIdx.filterMap fun p => p.1.map fun n => (p.2, n)
  [(named.any fun p => match e.recipe p.2 with | some rc => rc.tenant != t | none => false, 0x40),
   (bindBad bs || (named.any fun p => (e.recipe p.2).isNone), 0x11),
   (named.any fun p => match e.recipe p.2 with | some rc => rc.cls != p.1 | none => false, 0x18)]

/-- RECIPE_LOAD with OP BIND (R170, R171). -/
def execBind (ring : BitVec 8) (image : HostRead) (s : State) : Out :=
  s.eff fun k r e => e.startJob r ring.toNat (isRecipeOp 3) fun x e =>
    let n := ring.toNat
    let t := r.ringTenant n
    let p := loadParamsOf x.params
    e.recipeJob k r n x (e.tenantConds t ++ [(p.rsv, 0x11), (p.addr % 64 != 0 || !r.inRegions t.toNat p.addr p.len, 0x13)])
      [(e.setForeign t p.index, 0x40), (p.len != 32, 0x12), (e.setBusy p.index, 0x58)] fun e =>
      e.recipeData k r n x image (fun bs => e.bindConds t bs) fun bs e =>
        let b : BindSet := { tenant := t, entries := bindEntries bs }
        (e.setRecipes { e.recipes with sets := tabSet p.index b e.recipes.sets }).refuse k r (x.jobId n) 0

/-- RECIPE_LOAD with OP UNBIND (R171). -/
def execUnbind (ring : BitVec 8) (s : State) : Out :=
  s.eff fun k r e => e.startJob r ring.toNat (isRecipeOp 4) fun x e =>
    let n := ring.toNat
    let t := r.ringTenant n
    let p := loadParamsOf x.params
    e.recipeJob k r n x (e.tenantConds t ++ [(p.rsv || p.addr != 0 || p.len != 0, 0x11)])
      [(e.setForeign t p.index, 0x40), ((tabFind p.index e.recipes.sets).isNone, 0x11), (e.setBusy p.index, 0x58)] fun e =>
      (e.setRecipes { e.recipes with sets := tabErase p.index e.recipes.sets }).refuse k r (x.jobId n) 0

end Sys2Proof.Machine
end

