-- ==== Sys2Proof/Machine/Tenants.lean ====
section
/-!
DEFINITION. The commands of tenants (13_security): the KEY_BIND jobs, the SPDM messages and the key and policy messages; and the
deadline of a pre-emption plan (04_cut).
-/

namespace Sys2Proof.Machine

/-! ### KEY_BIND -/

/-- The entry is a KEY_BIND job with this OP. -/
def isKeyBind (op : Nat) (x : Entry) : Bool := x.opcode == 7 && leAt 0 1 x.params == op

/-- A slot other than FREE holds this TENANT_UID (R314). -/
def Engine.uidHeld (uid : Nat) (e : Engine) : Bool := (List.range 16).any fun t => (e.tenant t).state != .free && (e.tenant t).uid.toNat == uid

/-- The lowest FREE slot (R314). -/
def Engine.freeSlot (e : Engine) : Option Nat := (List.range 16).find? fun t => (e.tenant t).state == .free

/-- A slot ADMITTED for a TENANT_UID (R314). -/
def Tenant.admitted (uid : BitVec 128) : Tenant := { Tenant.none with state := .admitted, uid := uid, policy := 1 }

/-- A slot given to a TENANT_UID (R314, R315): under another owner its body partition is scrubbed first. `bad` names the lines of it
that could not be written: with one, the slot stays FREE (log 40). -/
def Engine.admitTo (k : Kit) (r : Regs) (id : JobId) (t : Nat) (uid : BitVec 128) (bad : List Nat) (e : Engine) : Engine :=
  if (e.kept t).owner = uid then (e.setTenant t (Tenant.admitted uid)).complete k r id 0 (natLE 1 t)
  else
    let bad := bad.filter fun n => decide (n < r.partLines t)
    let e := e.scrubSlots k r (BitVec.ofNat 4 t) [false, true] bad
    if bad.isEmpty then ((e.setKept t ((e.kept t).newOwner uid)).setTenant t (Tenant.admitted uid)).complete k r id 0 (natLE 1 t)
    else e.refuse k r id 0x26

/-- ADMIT (R313 to R316, R432). `failed` names the lines whose fourth write attempt fails. -/
def execKeyBindAdmit (ring : BitVec 8) (failed : List Nat) (s : State) : Out :=
  s.eff fun k r e => e.startJob r ring.toNat (isKeyBind 1) fun x e =>
    let n := ring.toNat
    let uid := leAt 24 16 x.params
    e.judged k r n x
      [(n != 0, 0x40), (uid == 0 || !zeroAt 1 23 x.params || !zeroAt 40 8 x.params, 0x11), (e.freeSlot.isNone, 0x50),
       (e.uidHeld uid || e.selfTest.running, 0x58)] fun e =>
      match e.freeSlot with
      | some t => e.admitTo k r (x.jobId n) t (BitVec.ofNat 128 uid) failed
      | none => e

/-- RELEASE (R313, R317, R318, R332, R421): the tenant switch. Its completion follows at a beat edge. -/
def execKeyBindRelease (ring : BitVec 8) (s : State) : Out :=
  s.effRegs fun k r e =>
    let n := ring.toNat
    let go (x : Entry) : Bool := isKeyBind 2 x && n == 0
    let slot (x : Entry) : Nat := leAt 1 1 x.params
    let conds (x : Entry) (e : Engine) : List (Bool × Code) :=
      let t := e.tenant (slot x % 16)
      [(n != 0, 0x40), (decide (16 ≤ slot x) || !zeroAt 2 46 x.params, 0x11), (t.state == .free, 0x14), (t.releasing.isSome, 0x58)]
    let e' := e.startJob r n (isKeyBind 2) fun x e =>
      e.judged k r n x (conds x e) fun e =>
        let t := BitVec.ofNat 4 (slot x)
        (e.addJob { id := x.jobId n, tenant := none, kind := .release (slot x) }).releaseSlot k r t (x.jobId n)
    match (e.ring n).ready with
    | x :: _ =>
      if e.mayStart r n && go x && (judge ((x.badHeader, 0x11) :: conds x e)).isNone then
        (r.resetBoth (releasedWords r (BitVec.ofNat 4 (slot x))), e')
      else (r, e')
    | [] => (r, e')

/-- The request that a KEY_BIND SPDM entry carries must wait for the noise source (R330). -/
def SpdmWaits (req : SpdmRead) (e : Engine) : Bool :=
  match req with
  | .ok q => !e.mayRespond q
  | _ => false

/-- What KEY_BIND with OP SPDM, or with an undefined OP, is refused for before its request is read (R313, R316, R434). -/
def Engine.spdmConds (r : Regs) (n : Nat) (x : Entry) (e : Engine) : List (Bool × Code) :=
  let t := r.ringTenant n
  let tn := e.tenant t.toNat
  let len := leAt 2 2 x.params
  let src := leAt 8 8 x.params
  let dst := leAt 16 8 x.params
  [(x.badHeader, 0x11), (tn.state == .free || tn.releasing.isSome, 0x40), (tn.state == .admitted && leAt 0 1 x.params != 3, 0x44),
   (leAt 0 1 x.params != 3 || leAt 1 1 x.params != 0 || decide (len < 1) || decide (4096 < len) || !zeroAt 4 4 x.params ||
      !zeroAt 24 24 x.params, 0x11),
   (src % 64 != 0 || dst % 64 != 0 || !r.inRegions t.toNat src len || !r.inRegions t.toNat dst 4096, 0x13)]

/-- The response to a request that KEY_BIND SPDM read (R319, R329): written to host memory, or code 0x47 where its signature failed twice. -/
def Engine.answerSpdm (k : Kit) (r : Regs) (n : Nat) (x : Entry) (q : SpdmReq) (e : Engine) : Engine :=
  let t := r.ringTenant n
  let id := x.jobId n
  let dst := leAt 16 8 x.params
  let a := e.respond k r t q
  if a.1 = .signFailed then a.2.2.refuse k r id 0x47
  else
    let e := a.2.2.emit (.spdm t a.1 a.2.1)
    let bs := (Config.spdmBytes t.toNat a.1.no a.2.1 e.draws).take 4096
    let e := e.drawn
    if bs.isEmpty then e.complete k r id 0 (natLE 2 0)
    else
      (e.addJob { id := id, tenant := some t, kind := .wait (natLE 2 bs.length),
                  spans := [(leAt 8 8 x.params, leAt 2 2 x.params), (dst, 4096)] }).writeJob k id dst bs

/-- KEY_BIND with OP SPDM (R313, R316, R319, R434), and with an undefined OP: an entry that is not refused before its request is read waits
where the response must draw and the noise source is not healthy. -/
def execKeyBindSpdm (ring : BitVec 8) (req : SpdmRead) (s : State) : Out :=
  s.eff fun k r e =>
    let n := ring.toNat
    let mine (x : Entry) : Bool :=
      x.opcode == 7 && !isKeyBind 1 x && !isKeyBind 2 x && ((judge (e.spdmConds r n x)).isSome || !SpdmWaits req e)
    e.startJob r n mine fun x e =>
      match judge (e.spdmConds r n x) with
      | some c => e.refuse k r (x.jobId n) c
      | none =>
        match req with
        | .memError => e.refuse k r (x.jobId n) 0x27
        | .poison => e.refuse k r (x.jobId n) 0x21
        | .ok q => e.answerSpdm k r n x q

/-! ### SPDM messages at the responder of a slot -/

/-- GET_VERSION (R319). -/
def execGetVersion (slot : TenantNo) (s : State) : Out := s.eff fun k r e => e.relay k r slot .getVersion

/-- GET_CAPABILITIES (R319). -/
def execGetCapabilities (slot : TenantNo) (s : State) : Out := s.eff fun k r e => e.relay k r slot .getCapabilities

/-- NEGOTIATE_ALGORITHMS (R319). -/
def execNegotiateAlgorithms (slot : TenantNo) (s : State) : Out := s.eff fun k r e => e.relay k r slot .negotiateAlgorithms

/-- GET_DIGESTS (R319). -/
def execGetDigests (slot : TenantNo) (s : State) : Out := s.eff fun k r e => e.relay k r slot .getDigests

/-- GET_CERTIFICATE (R319, R325). -/
def execGetCertificate (slot : TenantNo) (certSlot offset length : Nat) (s : State) : Out :=
  s.eff fun k r e => e.relay k r slot (.getCertificate certSlot offset length)

/-- CHALLENGE (R319). -/
def execChallenge (slot : TenantNo) (nonce : BitVec 256) (s : State) : Out := s.eff fun k r e => e.relay k r slot (.challenge nonce)

/-- GET_MEASUREMENTS (R321). -/
def execGetMeasurements (slot : TenantNo) (index : Nat) (inSession signed : Bool) (s : State) : Out :=
  s.eff fun k r e => e.relay k r slot (.getMeasurements index inSession signed)

/-- KEY_EXCHANGE (R320). -/
def execKeyExchange (slot : TenantNo) (mutualAuth : Bool) (s : State) : Out := s.eff fun k r e => e.relay k r slot (.keyExchange mutualAuth)

/-- FINISH (R320). -/
def execFinish (slot : TenantNo) (leafKey : BitVec 768) (authentic : Bool) (s : State) : Out :=
  s.eff fun k r e => e.relay k r slot (.finish leafKey authentic)

/-- KEY_UPDATE (R319). -/
def execKeyUpdate (slot : TenantNo) (s : State) : Out := s.eff fun k r e => e.relay k r slot .keyUpdate

/-- END_SESSION (R325). -/
def execEndSession (slot : TenantNo) (s : State) : Out := s.eff fun k r e => e.relay k r slot .endSession

/-- VENDOR_DEFINED_REQUEST (R322). -/
def execVendorDefinedRequest (slot : TenantNo) (inSession : Bool) (payload : VendorPayload) (s : State) : Out :=
  s.eff fun k r e => e.relay k r slot (.vendorDefined inSession payload)

/-! ### Key and policy messages, inside a session -/

/-- The code of a key kind (R322). -/
def keyKindCode : KeyKind → BitVec 8
  | .seal => 1
  | .pollen => 2

/-- SET_KEY (R322 to R324). -/
def execSetKey (slot : TenantNo) (kind : KeyKind) (keyId : Word) (key : BitVec 512) (s : State) : Out :=
  s.eff fun k r e => e.relay k r slot (.vendorDefined true { vop := 1, kind := keyKindCode kind, rsv := 0, arg := keyId, key := key })

/-- CLEAR_KEY (R322 to R324). -/
def execClearKey (slot : TenantNo) (kind : KeyKind) (s : State) : Out :=
  s.eff fun k r e => e.relay k r slot (.vendorDefined true { vop := 2, kind := keyKindCode kind, rsv := 0, arg := 0, key := 0 })

/-- SET_POLICY (R322, R323). -/
def execSetPolicy (slot : TenantNo) (policy : Word) (s : State) : Out :=
  s.eff fun k r e => e.relay k r slot (.vendorDefined true { vop := 3, kind := 0, rsv := 0, arg := policy, key := 0 })

/-- GET_STATE (R322). -/
def execGetState (slot : TenantNo) (s : State) : Out :=
  s.eff fun k r e => e.relay k r slot (.vendorDefined true { vop := 4, kind := 0, rsv := 0, arg := 0, key := 0 })

/-! ### The deadline of a plan -/

/-- PREEMPT_DEADLINE (R107): REMAINING has reached 0 with the plan still ACTIVE. -/
def execPreemptDeadline (s : State) : Out :=
  s.eff fun k r e =>
    if e.cut.planActive && e.cut.planLeft == 0 then
      let e := e.endTenantJobs k r e.cut.planTenant 0x63
      { e with cut := e.cut.endPlan }
    else e

end Sys2Proof.Machine
end

