-- ==== Sys2Proof/Machine/Dispatch.lean ====
section
/-!
DEFINITION. One arm per constructor of `Instr`: the meaning of each command.
-/

namespace Sys2Proof.Machine

/-- The effect of a command on everything but the queue. -/
def exec (i : Instr) (s : State) : Host.Outcome State Fault Refusal :=
  match i with
  | .cut ring => Sys2Proof.Machine.execCut ring s
  | .drain ring => Sys2Proof.Machine.execDrain ring s
  | .restore ring plan seen => Sys2Proof.Machine.execRestore ring plan seen s
  | .restoreEntryStart job => Sys2Proof.Machine.execRestoreEntryStart job s
  | .spill ring => Sys2Proof.Machine.execSpill ring s
  | .refill ring => Sys2Proof.Machine.execRefill ring s
  | .recipeLoad ring image => Sys2Proof.Machine.execRecipeLoad ring image s
  | .unload ring => Sys2Proof.Machine.execUnload ring s
  | .bind ring image => Sys2Proof.Machine.execBind ring image s
  | .unbind ring => Sys2Proof.Machine.execUnbind ring s
  | .keyBindAdmit ring failed => Sys2Proof.Machine.execKeyBindAdmit ring failed s
  | .keyBindRelease ring => Sys2Proof.Machine.execKeyBindRelease ring s
  | .keyBindSpdm ring req => Sys2Proof.Machine.execKeyBindSpdm ring req s
  | .scrub ring failed => Sys2Proof.Machine.execScrub ring failed s
  | .telemetry ring => Sys2Proof.Machine.execTelemetry ring s
  | .guardAdd ring tlist => Sys2Proof.Machine.execGuardAdd ring tlist s
  | .guardRemove ring => Sys2Proof.Machine.execGuardRemove ring s
  | .ringCreate ring => Sys2Proof.Machine.execRingCreate ring s
  | .adminSend ring => Sys2Proof.Machine.execAdminSend ring s
  | .jobFenceRelease ring => Sys2Proof.Machine.execJobFenceRelease ring s
  | .phaseRetry src lines => Sys2Proof.Machine.execPhaseRetry src lines s
  | .completionRetry ring => Sys2Proof.Machine.execCompletionRetry ring s
  | .haltNotice ring => Sys2Proof.Machine.execHaltNotice ring s
  | .planCompletion ring => Sys2Proof.Machine.execPlanCompletion ring s
  | .sqTailDb ring value lines => Sys2Proof.Machine.execSqTailDb ring value lines s
  | .cqHeadDb ring value => Sys2Proof.Machine.execCqHeadDb ring value s
  | .vqInDb queue value lines => Sys2Proof.Machine.execVqInDb queue value lines s
  | .vqOutDb queue value => Sys2Proof.Machine.execVqOutDb queue value s
  | .write src => Sys2Proof.Machine.execWrite src s
  | .read src window upsets => Sys2Proof.Machine.execRead src window upsets s
  | .flush src => Sys2Proof.Machine.execFlush src s
  | .verify src window faults => Sys2Proof.Machine.execVerify src window faults s
  | .identify src => Sys2Proof.Machine.execIdentify src s
  | .getLog src => Sys2Proof.Machine.execGetLog src s
  | .getFeature src => Sys2Proof.Machine.execGetFeature src s
  | .setFeature src => Sys2Proof.Machine.execSetFeature src s
  | .fwDownload src => Sys2Proof.Machine.execFwDownload src s
  | .store src outcome => Sys2Proof.Machine.execStore src outcome s
  | .storeActivate src outcome => Sys2Proof.Machine.execStoreActivate src outcome s
  | .xferRdySend queue tag => Sys2Proof.Machine.execXferRdySend queue tag s
  | .xferRdy port frame => Sys2Proof.Machine.execXferRdy port frame s
  | .data src => Sys2Proof.Machine.execData src s
  | .resp port frame => Sys2Proof.Machine.execResp port frame s
  | .exchangeTimeout queue tag => Sys2Proof.Machine.execExchangeTimeout queue tag s
  | .vqReset value => Sys2Proof.Machine.execVqReset value s
  | .vqResetDone queue => Sys2Proof.Machine.execVqResetDone queue s
  | .open_ port frame => Sys2Proof.Machine.execOpen port frame s
  | .accept port frame => Sys2Proof.Machine.execAccept port frame s
  | .confirm port frame => Sys2Proof.Machine.execConfirm port frame s
  | .close port frame => Sys2Proof.Machine.execClose port frame s
  | .ack port frame => Sys2Proof.Machine.execAck port frame s
  | .nak port frame => Sys2Proof.Machine.execNak port frame s
  | .credit port frame => Sys2Proof.Machine.execCredit port frame s
  | .probe port frame => Sys2Proof.Machine.execProbe port frame s
  | .probeReply port frame => Sys2Proof.Machine.execProbeReply port frame s
  | .admin port frame => Sys2Proof.Machine.execAdmin port frame s
  | .sessionOpen tenant slot => Sys2Proof.Machine.execSessionOpen tenant slot s
  | .openRetry tenant slot => Sys2Proof.Machine.execOpenRetry tenant slot s
  | .sessionRekey tenant slot => Sys2Proof.Machine.execSessionRekey tenant slot s
  | .retransmit tenant slot port => Sys2Proof.Machine.execRetransmit tenant slot port s
  | .ackTimer tenant slot port => Sys2Proof.Machine.execAckTimer tenant slot port s
  | .creditGrant tenant slot port => Sys2Proof.Machine.execCreditGrant tenant slot port s
  | .probeSend tenant slot => Sys2Proof.Machine.execProbeSend tenant slot s
  | .peerLost tenant slot => Sys2Proof.Machine.execPeerLost tenant slot s
  | .lnkUpFall port => Sys2Proof.Machine.execLnkUpFall port s
  | .lnkUpRise port => Sys2Proof.Machine.execLnkUpRise port s
  | .sysStep num => Sys2Proof.Machine.execSysStep num s
  | .freezeAckTimeout => Sys2Proof.Machine.execFreezeAckTimeout s
  | .budArm tile parityOk => Sys2Proof.Machine.execBudArm tile parityOk s
  | .budFreeze tile ctx parityOk => Sys2Proof.Machine.execBudFreeze tile ctx parityOk s
  | .budResume tile parityOk => Sys2Proof.Machine.execBudResume tile parityOk s
  | .budDisarm tile parityOk => Sys2Proof.Machine.execBudDisarm tile parityOk s
  | .budRelease tile parityOk => Sys2Proof.Machine.execBudRelease tile parityOk s
  | .budScrub tile parityOk => Sys2Proof.Machine.execBudScrub tile parityOk s
  | .budBeat tile parityOk => Sys2Proof.Machine.execBudBeat tile parityOk s
  | .tileWrite tile line held => Sys2Proof.Machine.execTileWrite tile line held s
  | .budDrainRead tile held => Sys2Proof.Machine.execBudDrainRead tile held s
  | .budForcedDrain tile held => Sys2Proof.Machine.execBudForcedDrain tile held s
  | .budCfgDone tile tenant passed => Sys2Proof.Machine.execBudCfgDone tile tenant passed s
  | .tileConfigReload tile => Sys2Proof.Machine.execTileConfigReload tile s
  | .stemLineAccept tile parityBad faults => Sys2Proof.Machine.execStemLineAccept tile parityBad faults s
  | .stemAck tile parityBad => Sys2Proof.Machine.execStemAck tile parityBad s
  | .grdCheck client addr htag => Sys2Proof.Machine.execGrdCheck client addr htag s
  | .memReadResponse channel tag code beats faults => Sys2Proof.Machine.execMemReadResponse channel tag code beats faults s
  | .memWriteResponse channel tag code => Sys2Proof.Machine.execMemWriteResponse channel tag code s
  | .streamChunkIssue turn => Sys2Proof.Machine.execStreamChunkIssue turn s
  | .streamFenceRelease stream => Sys2Proof.Machine.execStreamFenceRelease stream s
  | .streamCtrlResume value => Sys2Proof.Machine.execStreamCtrlResume value s
  | .partitionLineFree partition => Sys2Proof.Machine.execPartitionLineFree partition s
  | .bodyWriteComplete verified => Sys2Proof.Machine.execBodyWriteComplete verified s
  | .bankRetire bank => Sys2Proof.Machine.execBankRetire bank s
  | .wearRotate => Sys2Proof.Machine.execWearRotate s
  | .remapSwitch => Sys2Proof.Machine.execRemapSwitch s
  | .errorWindowEnd => Sys2Proof.Machine.execErrorWindowEnd s
  | .calibrationPass temp outcomes => Sys2Proof.Machine.execCalibrationPass temp outcomes s
  | .tableReady stream => Sys2Proof.Machine.execTableReady stream s
  | .codecChunkStart src chunk lanes => Sys2Proof.Machine.execCodecChunkStart src chunk lanes s
  | .beatEdge input => Sys2Proof.Machine.execBeatEdge input s
  | .beatEdgeClamped early input => Sys2Proof.Machine.execBeatEdgeClamped early input s
  | .beatLock gaps => Sys2Proof.Machine.execBeatLock gaps s
  | .beatFreeRun => Sys2Proof.Machine.execBeatFreeRun s
  | .throttleFall => Sys2Proof.Machine.execThrottleFall s
  | .sysPreemptNFall => Sys2Proof.Machine.execSysPreemptNFall s
  | .planCutArm => Sys2Proof.Machine.execPlanCutArm s
  | .preemptDeadline => Sys2Proof.Machine.execPreemptDeadline s
  | .heartbeat half => Sys2Proof.Machine.execHeartbeat half s
  | .stewardLost => Sys2Proof.Machine.execStewardLost s
  | .standbyLost => Sys2Proof.Machine.execStandbyLost s
  | .stewardClaim half epoch => Sys2Proof.Machine.execStewardClaim half epoch s
  | .handover value => Sys2Proof.Machine.execHandover value s
  | .handoverTakeEffect => Sys2Proof.Machine.execHandoverTakeEffect s
  | .ctrlMemUe half => Sys2Proof.Machine.execCtrlMemUe half s
  | .standbyReady => Sys2Proof.Machine.execStandbyReady s
  | .standbyResyncTimeout => Sys2Proof.Machine.execStandbyResyncTimeout s
  | .fwActivateTimeout => Sys2Proof.Machine.execFwActivateTimeout s
  | .fwSoakEnd => Sys2Proof.Machine.execFwSoakEnd s
  | .enterRecovery => Sys2Proof.Machine.execEnterRecovery s
  | .foxAck value => Sys2Proof.Machine.execFoxAck value s
  | .spareCtrl value => Sys2Proof.Machine.execSpareCtrl value s
  | .frontMarch value => Sys2Proof.Machine.execFrontMarch value s
  | .pipelineKat value => Sys2Proof.Machine.execPipelineKat value s
  | .stemLoop value => Sys2Proof.Machine.execStemLoop value s
  | .selfTestEnd code => Sys2Proof.Machine.execSelfTestEnd code s
  | .commit value withStrobe => Sys2Proof.Machine.execCommit value withStrobe s
  | .discard value => Sys2Proof.Machine.execDiscard value s
  | .sysCommitIn duringCheck => Sys2Proof.Machine.execSysCommitIn duringCheck s
  | .heldStrobeCommit => Sys2Proof.Machine.execHeldStrobeCommit s
  | .registerWrite addr value => Sys2Proof.Machine.execRegisterWrite addr value s
  | .bitAliasWrite addr value => Sys2Proof.Machine.execBitAliasWrite addr value s
  | .cfgCrcPassEnd => Sys2Proof.Machine.execCfgCrcPassEnd s
  | .pwrReqChange req => Sys2Proof.Machine.execPwrReqChange req s
  | .powerEntry => Sys2Proof.Machine.execPowerEntry s
  | .powerStateEntered => Sys2Proof.Machine.execPowerStateEntered s
  | .powerExitComplete => Sys2Proof.Machine.execPowerExitComplete s
  | .rstColdN => Sys2Proof.Machine.execRstColdN s
  | .rstFnN cycles => Sys2Proof.Machine.execRstFnN cycles s
  | .sysReadyRise => Sys2Proof.Machine.execSysReadyRise s
  | .noiseStartupDone => Sys2Proof.Machine.execNoiseStartupDone s
  | .noiseTestFail => Sys2Proof.Machine.execNoiseTestFail s
  | .genIdentity keyEn wdata => Sys2Proof.Machine.execGenIdentity keyEn wdata s
  | .readPublic keyEn wdata => Sys2Proof.Machine.execReadPublic keyEn wdata s
  | .certWord keyEn wdata => Sys2Proof.Machine.execCertWord keyEn wdata s
  | .lockCert keyEn wdata => Sys2Proof.Machine.execLockCert keyEn wdata s
  | .fwKeyWord keyEn wdata => Sys2Proof.Machine.execFwKeyWord keyEn wdata s
  | .fuseFwKey keyEn wdata => Sys2Proof.Machine.execFuseFwKey keyEn wdata s
  | .status keyEn wdata => Sys2Proof.Machine.execStatus keyEn wdata s
  | .cfgAccess dr => Sys2Proof.Machine.execCfgAccess dr s
  | .scanTest => Sys2Proof.Machine.execScanTest s
  | .idcode => Sys2Proof.Machine.execIdcode s
  | .setKey slot kind keyId key => Sys2Proof.Machine.execSetKey slot kind keyId key s
  | .clearKey slot kind => Sys2Proof.Machine.execClearKey slot kind s
  | .setPolicy slot policy => Sys2Proof.Machine.execSetPolicy slot policy s
  | .getState slot => Sys2Proof.Machine.execGetState slot s
  | .getVersion slot => Sys2Proof.Machine.execGetVersion slot s
  | .getCapabilities slot => Sys2Proof.Machine.execGetCapabilities slot s
  | .negotiateAlgorithms slot => Sys2Proof.Machine.execNegotiateAlgorithms slot s
  | .getDigests slot => Sys2Proof.Machine.execGetDigests slot s
  | .getCertificate slot certSlot offset length => Sys2Proof.Machine.execGetCertificate slot certSlot offset length s
  | .challenge slot nonce => Sys2Proof.Machine.execChallenge slot nonce s
  | .getMeasurements slot index inSession signed => Sys2Proof.Machine.execGetMeasurements slot index inSession signed s
  | .keyExchange slot mutualAuth => Sys2Proof.Machine.execKeyExchange slot mutualAuth s
  | .finish slot leafKey authentic => Sys2Proof.Machine.execFinish slot leafKey authentic s
  | .keyUpdate slot => Sys2Proof.Machine.execKeyUpdate slot s
  | .endSession slot => Sys2Proof.Machine.execEndSession slot s
  | .vendorDefinedRequest slot inSession payload => Sys2Proof.Machine.execVendorDefinedRequest slot inSession payload s
  | .droppedFrame port frame => Sys2Proof.Machine.execDroppedFrame port frame s
  | .ctrlMemCe => Sys2Proof.Machine.execCtrlMemCe s
  | .foxParity => Sys2Proof.Machine.execFoxParity s
  | .noiseHealthy => Sys2Proof.Machine.execNoiseHealthy s

end Sys2Proof.Machine
end

