-- ==== Sys2Proof/Safety.lean ====
section
/-!
DEFINITION. What a safe run is, and the words that statements use: which groups of the engine a command leaves as they are, a job that
starts, its completion, a fault raise.
-/

namespace Sys2Proof

open Machine

/-- Every command that waits is well formed for the kit. -/
def queueOk (s : State) : Bool := s.pending.all fun c => c.wf s.kit

/-- The step neither faults nor refuses. -/
def Goes (s : State) : Prop := ∃ t, step s = .next t

/-! ### What stays as it is -/

/-- The groups of the engine, one for each field of `Engine`, and one for a part of the beat. -/
inductive Grp where
  /-- of the beat, the cycle that stamps events alone (R48) -/
  | cycle
  | beat
  | budget
  | count
  | stem
  | buds
  | cut
  | guard
  | front
  | body
  | bulb
  | units
  | recipes
  | pollen
  | streams
  | rings
  | vault
  | tenants
  | fox
  | referee
  | power
  | keys
  | dbg
  | selfTest
  | mem
  | out
  | draws
deriving DecidableEq, Repr

/-- Every group of the engine but those of `gs` is as it was. -/
def Same (gs : List Grp) (a b : Engine) : Prop :=
  (Grp.beat ∈ gs ∨ b.beat = a.beat ∨ (Grp.cycle ∈ gs ∧ b.beat = { a.beat with cycle := b.beat.cycle })) ∧
  (Grp.budget ∈ gs ∨ b.budget = a.budget) ∧
  (Grp.count ∈ gs ∨ b.count = a.count) ∧
  (Grp.stem ∈ gs ∨ b.stem = a.stem) ∧
  (Grp.buds ∈ gs ∨ b.buds = a.buds) ∧
  (Grp.cut ∈ gs ∨ b.cut = a.cut) ∧
  (Grp.guard ∈ gs ∨ b.guard = a.guard) ∧
  (Grp.front ∈ gs ∨ b.front = a.front) ∧
  (Grp.body ∈ gs ∨ b.body = a.body) ∧
  (Grp.bulb ∈ gs ∨ b.bulb = a.bulb) ∧
  (Grp.units ∈ gs ∨ b.units = a.units) ∧
  (Grp.recipes ∈ gs ∨ b.recipes = a.recipes) ∧
  (Grp.pollen ∈ gs ∨ b.pollen = a.pollen) ∧
  (Grp.streams ∈ gs ∨ b.streams = a.streams) ∧
  (Grp.rings ∈ gs ∨ b.rings = a.rings) ∧
  (Grp.vault ∈ gs ∨ b.vault = a.vault) ∧
  (Grp.tenants ∈ gs ∨ b.tenants = a.tenants) ∧
  (Grp.fox ∈ gs ∨ b.fox = a.fox) ∧
  (Grp.referee ∈ gs ∨ b.referee = a.referee) ∧
  (Grp.power ∈ gs ∨ b.power = a.power) ∧
  (Grp.keys ∈ gs ∨ b.keys = a.keys) ∧
  (Grp.dbg ∈ gs ∨ b.dbg = a.dbg) ∧
  (Grp.selfTest ∈ gs ∨ b.selfTest = a.selfTest) ∧
  (Grp.mem ∈ gs ∨ b.mem = a.mem) ∧
  (Grp.out ∈ gs ∨ b.out = a.out) ∧
  (Grp.draws ∈ gs ∨ b.draws = a.draws)

/-- The kit, the register file and the queue are as they were, and so is every group of the engine but those of `gs`. -/
def Only (gs : List Grp) (s t : State) : Prop :=
  t.kit = s.kit ∧ t.regs = s.regs ∧ t.pending = s.pending ∧ Same gs s.eng t.eng

/-- The state with this engine. -/
def withEng (s : State) (e : Engine) : State := { s with eng := e }

/-- The state with one more thing driven on its ports. -/
def driven (s : State) (os : List Output) : State := withEng s { s.eng with out := s.eng.out ++ os }

/-- What a drive towards the host puts out: nothing while no half is granted (R30). -/
def toHost (s : State) (o : Output) : List Output := if s.eng.drives then [o] else []

/-! ### The register file -/

/-- The commands that may change the register file: the writes and commits of the window, the DBG port's register access, the end of a CRC
pass, the resets, and the events that set RW registers (R275, R309, R421). -/
def setsRegs : Instr → Bool
  | .ringCreate _ | .keyBindRelease _ | .vqReset _ | .commit _ _ | .discard _ | .sysCommitIn _ | .heldStrobeCommit
  | .registerWrite _ _ | .bitAliasWrite _ _ | .cfgCrcPassEnd | .rstColdN | .rstFnN _ | .cfgAccess _ => true
  | _ => false

/-- The register file keeps its form: both tables are canonical, and a live word holds RW bits only, so every reserved field reads 0. -/
def Machine.Regs.wf (k : Kit) (r : Regs) : Prop :=
  tabWf resetWord r.live = true ∧ tabWf resetWord r.shadow = true ∧
    ∀ off i, rwWord k off = some i → r.word off &&& i.rw = r.word off

/-- The word at `off` differs from its shadow in an RW or a reserved bit (R414). -/
def Changed (s : State) (off : Nat) : Prop :=
  ∃ i, rwWord s.kit off = some i ∧ (s.regs.word off ^^^ s.regs.shadowWord off) &&& (i.rw ||| i.rsv) ≠ 0

/-- What the commands that start a commit leave, beside the outcome of the commit itself: source 1 is CMT_CTRL, 2 the strobe. -/
inductive CommitCause : State → Instr → BitVec 2 → Prop where
  | write (s : State) (h : s.eng.cfgOpen = true) : CommitCause s (.commit 0x80000000 false) 1
  | writeOut (s : State) (h : s.eng.cfgOpen = true) : CommitCause s (.commit 0xC0000000 false) 1
  | both (s : State) (h : s.eng.cfgOpen = true) : CommitCause s (.commit 0x80000000 true) 3
  | strobe (s : State) : CommitCause s (.sysCommitIn false) 2
  | held (s : State) (h : s.regs.strobeHeld = true) : CommitCause s .heldStrobeCommit 2

/-! ### Jobs -/

/-- The ring of a job that acts for the ring's tenant, and which entries the command takes. -/
def ringJob : Instr → Option (BitVec 8 × (Entry → Bool))
  | .cut r => some (r, fun x => x.opcode == 1)
  | .drain r => some (r, fun x => x.opcode == 2)
  | .restore r _ _ => some (r, fun x => x.opcode == 3)
  | .spill r => some (r, fun x => x.opcode == 4)
  | .refill r => some (r, fun x => x.opcode == 5)
  | .recipeLoad r _ => some (r, fun x => x.opcode == 6 && !(isRecipeOp 2 x || isRecipeOp 3 x || isRecipeOp 4 x))
  | .unload r => some (r, isRecipeOp 2)
  | .bind r _ => some (r, isRecipeOp 3)
  | .unbind r => some (r, isRecipeOp 4)
  | .scrub r _ => some (r, fun x => x.opcode == 8)
  | .telemetry r => some (r, fun x => x.opcode == 9)
  | .guardAdd r _ => some (r, fun x => x.opcode == 0x0A)
  | .guardRemove r => some (r, fun x => x.opcode == 0x0B)
  | .adminSend r => some (r, fun x => x.opcode == 0x0D)
  | _ => none

/-- Ring `n` may start its oldest framed entry `x`, which is of job type `op` and has no bad header (R277). -/
def Starts (s : State) (n op : Nat) (x : Entry) : Prop :=
  (∃ rest, (s.eng.ring n).ready = x :: rest) ∧ s.eng.mayStart s.regs n = true ∧ x.opcode = op ∧ x.badHeader = false

/-- The engine with the oldest framed entry of ring `n` taken: what the job of that entry finds. -/
def taken (s : State) (n : Nat) : Engine := s.eng.takeEntry s.regs n

/-- The tenant of ring `n` is ATTESTED and no RELEASE of it runs (R316, R332). -/
def Attested (s : State) (n : Nat) : Prop :=
  (s.eng.tenant (s.regs.ringTenant n).toNat).state = .attested ∧ (s.eng.tenant (s.regs.ringTenant n).toNat).releasing = none

/-- The entry `x` of ring `n` has its completion, with this code and RESULT (R266): it stands behind what the completion ring held,
and only completions of DRAINs may stand behind it. -/
def Completed (s t : State) (n : Nat) (x : Entry) (code : Code) (result : List Byte) : Prop :=
  ∃ head more, (t.eng.ring n).cq =
    (s.eng.ring n).cq ++
      { bytes := cqBytes x.cmdId code (s.eng.ring n).cqPhase false false x.index head result, irq := x.irq, entry := some x.index, written := false } :: more

/-- The entry has left the front of the ring's framed entries. -/
def Taken (s t : State) (n : Nat) : Prop := (t.eng.ring n).ready = (s.eng.ring n).ready.tail

/-- None of these conditions holds. -/
def NoneHolds (l : List (Bool × Code)) : Prop := ∀ p ∈ l, p.1 = false

/-! ### Buds -/

/-- The bud of an existing tile is not ABSENT, and the next broadcast on its way to it is this one (R50). -/
def Hears (s : State) (tile : Nat) (code : BitVec 4) (arg : BitVec 64) : Prop :=
  s.kit.hasTile tile = true ∧ (s.eng.bud tile).state ≠ .absent ∧
    s.eng.stem.issued[(s.eng.bud tile).seen]? = some { code := code, arg := arg }

/-- The bud of `tile` is now `b`, and no other bud has changed. -/
def BudBecomes (s t : State) (tile : Nat) (b : Bud) : Prop :=
  t.eng.bud tile = b ∧ ∀ n, n ≠ tile → t.eng.bud n = s.eng.bud n

/-- The commands in which a bud hears a broadcast, with the code of each (R50, R396). -/
inductive HearsBy : Instr → Nat → BitVec 4 → Bool → Prop where
  | arm (tile : Nat) (ok : Bool) : HearsBy (.budArm tile ok) tile bcArm ok
  | freeze (tile : Nat) (ctx : BitVec 2048) (ok : Bool) : HearsBy (.budFreeze tile ctx ok) tile bcFreeze ok
  | resume (tile : Nat) (ok : Bool) : HearsBy (.budResume tile ok) tile bcResume ok
  | disarm (tile : Nat) (ok : Bool) : HearsBy (.budDisarm tile ok) tile bcDisarm ok
  | release (tile : Nat) (ok : Bool) : HearsBy (.budRelease tile ok) tile bcRelease ok
  | scrub (tile : Nat) (ok : Bool) : HearsBy (.budScrub tile ok) tile bcScrub ok
  | beat (tile : Nat) (ok : Bool) : HearsBy (.budBeat tile ok) tile bcBeat ok

/-! ### Pollen -/

/-- The command that carries each type of received frame (R200). -/
def frameCommands (port : Nat) (f : Frame) : List (BitVec 8 × Instr) :=
  [(ftOpen, .open_ port f), (ftAccept, .accept port f), (ftConfirm, .confirm port f), (ftClose, .close port f), (ftAck, .ack port f),
   (ftNak, .nak port f), (ftCredit, .credit port f), (ftProbe, .probe port f), (ftProbeReply, .probeReply port f), (ftAdmin, .admin port f)]

/-- What the engine takes from the header of an accepted frame without a SEQ of its own (R208, R213, R214, R222): what ACK_SEQ acknowledges
is released and a later CREDIT_LIMIT is taken, but from a frame of a setup, the peer is alive, and the frame is counted. -/
def Heard (s : State) (t i port : Nat) (f : Frame) (e : Engine) : Prop :=
  let ps := ((s.eng.sess t i).port port).ack f.ackSeq
  (e.sess t i).port port = (if f.ofSetup then (s.eng.sess t i).port port
    else if seqBefore ps.limitIn f.creditLimit then { ps with limitIn := f.creditLimit } else ps) ∧
    (e.sess t i).sinceRx = 0 ∧ (e.sess t i).state = (s.eng.sess t i).state ∧ (e.sess t i).key = (s.eng.sess t i).key ∧
    e.counter Ctr.framesRx = s.eng.counter Ctr.framesRx + 1 ∧ e.tenants = s.eng.tenants ∧ e.draws = s.eng.draws ∧
    Same [.pollen, .count, .rings, .mem, .out, .vault] s.eng e

/-- A frame that this engine may send is sound: its TAG is the one of the key, its CRC the one of its bytes (R201, R202). -/
def Sound (key : BitVec 256) (f : Frame) : Prop := f.tag = f.tagOf key ∧ f.crc = f.crcOf

/-! ### The vault -/

/-- Host queue `q` may take its oldest packet `p`, a CMD with the header `h` (R286, R287): it is active, firmware schedules, and the OUT lines
that the command is owed are free. -/
def Offered (s : State) (q : Nat) (p : Packet) (h : VaultHdr) : Prop :=
  (∃ rest, (s.eng.vq q).packets = p :: rest) ∧ h = vaultHdrOf p.hdr ∧ h.type = ptCmd ∧ s.regs.vqActive q = true ∧ s.eng.scheduling = true ∧
    (if movesIn h.opcode then 2 else 1) ≤ s.eng.outFree s.regs q

/-- The engine with that packet taken. -/
def unpacked (s : State) (q : Nat) : Engine :=
  s.eng.setVq q { s.eng.vq q with packets := (s.eng.vq q).packets.tail, outWait := false }

/-- What the CMD of queue `q` is judged by (R14, R294, R295). -/
def cmdConds (s : State) (q : Nat) (p : Packet) (h : VaultHdr) : List (Bool × Code) :=
  (p.rsv, 0x11) :: fieldConds h p.payload ++ (unpacked s q).stateConds s.regs q (s.regs.vqTenant q) none h

/-- The engine with that packet taken and its command `c` in flight. -/
def inFlight (s : State) (q : Nat) (c : VCmd) : Engine := (unpacked s q).ordered.onCmds q fun cs => cs ++ [c]

/-- The RESP of the command with header `h` is written into the OUT window of queue `q`, alone, and the command is not in flight (R284,
R287). -/
def Responded (s t : State) (q : Nat) (h : VaultHdr) (refused : Bool) (code : Code) (arg : Nat) : Prop :=
  let v := s.eng.vq q
  let a := s.regs.outBase q + 64 * v.outTail
  let resp := (respHdr h.tag h.opcode (h.flags % 4) h.offset arg refused code).word
  (∃ tag, t.eng.out = s.eng.out ++ [.memWrite (channelOf s.kit a) tag a (outHeader v.outPhase 0 resp) [] 1]) ∧
    (t.eng.vq q).outTail = (v.outTail + 1) % s.regs.outSize q ∧ (t.eng.vq q).cmds = v.cmds ∧ (t.eng.vq q).packets = v.packets.tail

/-- The commands of host queue `queue`, by opcode, but FW_COMMIT. -/
def vaultCommands (queue : BitVec 4) : List (Nat × Instr) :=
  [(opWrite, .write (.host queue)), (opRead, .read (.host queue) [] {}), (opFlush, .flush (.host queue)),
   (opVerify, .verify (.host queue) [] []), (opIdentify, .identify (.host queue)), (opGetLog, .getLog (.host queue)),
   (opGetFeature, .getFeature (.host queue)), (opSetFeature, .setFeature (.host queue)), (opFwDownload, .fwDownload (.host queue))]

/-- The commands that frames carry, by opcode, with reads that find nothing. -/
def linkCommands (port : Nat) (f : Frame) : List (Nat × Instr) :=
  [(opWrite, .write (.link port f)), (opRead, .read (.link port f) [] {}), (opFlush, .flush (.link port f)),
   (opVerify, .verify (.link port f) [] []), (opIdentify, .identify (.link port f))]

/-- The way out of host queue `q` is clear for a command of tenant `tn`: nothing waits there, its tenant's weights are not 0, and no class owes
more than one command has lines (R304, R307). -/
def OutClear (s : State) (q : Nat) (tn : TenantNo) : Prop :=
  (∀ c ∈ (s.eng.vq q).cmds, c.answer = none) ∧ (∀ w ∈ (s.eng.vtenant tn.toNat).weights, 0 < w) ∧
    let a := tabGet (fun _ => VArb.fresh) (arbOut q) s.eng.vault.arbs
    a.credit.length = 3 ∧ ∀ x ∈ a.credit, -4096 ≤ x

/-- The MEM writes of the lines `bs` from `addr`: address, bytes and poison marks of each (R385, R388). -/
def lineWrites (addr : Nat) (bs : List MemBeat) : List (Nat × List Byte × List Bool) :=
  (pageWrites addr (bytesOfLines (bs.map fun b => b.data))).map fun p =>
    let mine := (bs.drop ((p.1 - addr) / 64)).take (p.2.length / 64)
    (p.1, p.2, if mine.any fun b => b.poison then mine.map fun b => b.poison else [])

/-- The MEM writes of packets put into the OUT window of queue `q` from line `from_` and phase `phase` on: of each packet the payload lines, then
the header line (R286, R287). -/
def outWrites (r : Regs) (q : Nat) : Nat → Bool → List (BitVec 256 × List MemBeat) → List (Nat × List Byte × List Bool)
  | _, _, [] => []
  | from_, phase, p :: rest =>
    let size := r.outSize q
    let base := r.outBase q
    let stop := from_ + 1 + p.2.length
    ((outPieces base size ((from_ + 1) % size) p.2).flatMap fun x => lineWrites x.1 x.2) ++
      (base + 64 * from_, outHeader phase p.2.length p.1, []) ::
        outWrites r q (stop % size) (if size ≤ stop then !phase else phase) rest

/-- What the engine puts out is these MEM writes, in this order, at priority 1. -/
def Wrote (s t : State) (ws : List (Nat × List Byte × List Bool)) : Prop :=
  ∃ tags : List (BitVec 12), tags.length = ws.length ∧
    t.eng.out = s.eng.out ++ (ws.zip tags).map fun x => .memWrite (channelOf s.kit x.1.1) x.2 x.1.1 x.1.2.1 x.1.2.2 1

/-- The DATA packets of the command with header `h` (R285, R289). -/
def answerData (h : VaultHdr) (payload : List MemBeat) : List (BitVec 256 × List MemBeat) :=
  (dataPacketsOf h.tag h.opcode (h.flags % 4) h.offset payload).map fun p => (p.1.word, p.2)

/-- OUT lines of packets. -/
def outLines (ps : List (BitVec 256 × List MemBeat)) : Nat := (ps.map fun p => 1 + p.2.length).sum

/-- The OUT window of queue `q` has room for the DATA packets of the command and its RESP (R287). -/
def OutFits (s : State) (q : Nat) (h : VaultHdr) (payload : List MemBeat) : Prop :=
  (s.eng.vq q).outHead < s.regs.outSize q ∧ outLines (answerData h payload) + 1 ≤ s.eng.outFree s.regs q

/-- The command with header `h`, taken from queue `q`, has been carried out: its DATA packets and its RESP are written into the OUT window, and it
is not in flight (R284, R287, R289). -/
def Answered (s t : State) (q : Nat) (h : VaultHdr) (payload : List MemBeat) (code : Code) (arg : Nat) : Prop :=
  let v := s.eng.vq q
  let ps := answerData h payload ++ [((respHdr h.tag h.opcode (h.flags % 4) h.offset arg false code).word, [])]
  Wrote s t (outWrites s.regs q v.outTail v.outPhase ps) ∧ (t.eng.vq q).outTail = (v.outTail + outLines ps) % s.regs.outSize q ∧
    (t.eng.vq q).cmds = v.cmds ∧ (t.eng.vq q).packets = v.packets.tail

/-- What an answered command may change, by its code: with another than 0x00 it is logged and stamped (R303). -/
def answerGroups (code : Code) : List Grp := if code = 0 then [.vault, .count, .mem, .out] else [.vault, .count, .mem, .out, .draws, .cycle]

/-- The line `n` of a tenant's partition reads without bit errors (R115, R119). -/
def ReadsClean (s : State) (tn n : Nat) : Prop :=
  match s.eng.front.find (.body (s.regs.partLine tn n)) with
  | some f => f.flips = []
  | none => (s.eng.body.upset (s.eng.partKey s.regs tn n)).flips = []

/-- No command waits for durability, no front line is dirty and no failure of a write-back is owed (R300, R302). -/
def Settled (s : State) : Prop :=
  s.eng.front.anyDirty = false ∧ s.eng.vault.owed = [] ∧ ∀ m, ∀ c ∈ (s.eng.vq m).cmds, c.waiting = true → c.waits ≠ []

/-- A VAULT frame of the session in slot `i` of tenant `t` that passes every check, next in sequence and with credit for its lines (R204, R354). -/
def VaultFrameOf (s : State) (port t i : Nat) (f : Frame) : Prop :=
  s.kit.hasPort port = true ∧ s.eng.listening port = true ∧ s.eng.power.state = 0 ∧ s.eng.power.entering = false ∧ f.type = ftVault ∧
    s.eng.checkFrame s.regs port f = .inl (t, i) ∧
    let ps := (s.eng.sess t i).port port
    f.seq = ps.expect ∧ f.lines.toNat ≤ (ps.limitOut - ps.charged).toNat

/-- What the engine is once that frame has been accepted: E has moved on, and the vault's queues, the exchanges of this engine, the cut and
what a command is judged by are as they were. -/
def VaultHeard (s : State) (port t i : Nat) (f : Frame) (e : Engine) : Prop :=
  ((e.sess t i).port port).expect = f.seq + 1 ∧ e.pollen.xchgs = s.eng.pollen.xchgs ∧ e.vault.queues = s.eng.vault.queues ∧
    Same [.pollen, .count, .rings, .mem, .out, .vault] s.eng e

/-! ### Fault raises -/

/-- What a raise of source `src` for `tenant` leaves of Foxglove (R344, R345, R347), with the severity and the escalation that the source
table gives: FOX_SEQ rises by one, the record of that number is written, the source is PENDING unless the raise is a NOTE. -/
def Raised (s t : State) (src : Nat) (tenant : Option TenantNo) : Prop :=
  let sev := (effectiveSev s.regs src s.eng.fox).1
  t.eng.fox.seq = s.eng.fox.seq + 1 ∧
    tabFind (s.eng.fox.seq.toNat % 64) t.eng.fox.log =
      some { seq := s.eng.fox.seq + 1, source := BitVec.ofNat 8 src, sev := BitVec.ofNat 3 sev,
             escalated := (effectiveSev s.regs src s.eng.fox).2, tenant := tenant, stamp := s.eng.stamp } ∧
    (t.eng.fox.src src).pending = ((s.eng.fox.src src).pending || sev != 0) ∧
    (∀ m, m ≠ src → t.eng.fox.src m = s.eng.fox.src m) ∧
    t.eng.fox.recovery = s.eng.fox.recovery ∧
    t.eng.counter Ctr.faultsRaised = s.eng.counter Ctr.faultsRaised + 1

end Sys2Proof
end

