-- ==== Sys2Proof/Certificates/Slice0/Obligations.lean ====
section
/-!
DEFINITION. The statements for the provers, family by family. Every docstring names the rules of spec/ that a statement rests on.
-/

open Sys2Proof Sys2Proof.Machine

/-! ### Steps and the queue -/

/-- A step takes the command at the front of the queue and carries it out on the state with the queue's rest. -/
def Obligations.StepRunsTheFrontCommand : Prop :=
  ∀ (s : State) (c : Instr) (rest : List Instr), step { s with pending := c :: rest } = exec c { s with pending := rest }

/-- No step changes the kit (R431), and a step takes exactly one command from the queue: what a command does never queues another
one. The queue is the model's.
With no command waiting the block idles. The model's choice: log 12. -/
def Obligations.StepKeepsTheKitAndTakesOneCommand : Prop :=
  (
    ∀ s t : State, step s = .next t → t.kit = s.kit ∧ t.pending = s.pending.tail) ∧
  (
    ∀ s : State, s.pending = [] → step s = .next s)

/-- A command that names existing units always runs; one that names a unit beyond the configured counts (R3) faults, by the model's
choice (log 7). No command is refused. -/
def Obligations.WellFormedCommandsRun : Prop :=
  ∀ (c : Instr) (s : State), (c.wf s.kit = true → ∃ t, exec c s = .next t) ∧ (c.wf s.kit = false → exec c s = .fault .noSuchUnit)

/-- The engine after a cold reset: nothing is granted, every tenant slot is FREE, every RW word holds its reset value, no command
waits. The register file has its form. -/
def Obligations.ResetState : Prop :=
  let s := State.reset
  s.pending = [] ∧ s.eng.beat.mode = .acquire ∧ s.eng.beat.num = 0 ∧ s.eng.referee.steward = none ∧ s.eng.referee.epoch = 0 ∧
    s.eng.power.sysReady = false ∧ s.eng.power.state = 0 ∧ s.eng.fox.seq = 0 ∧ s.eng.cut.phase = .none ∧
    (∀ t, (s.eng.tenant t).state = .free) ∧ (∀ off, s.regs.word off = (resetWord off).toNat ∧ s.regs.shadowWord off = (resetWord off).toNat) ∧
    (∀ n, s.regs.ringActive n = false) ∧ (∀ v, s.eng.intLine s.regs v = false) ∧ s.eng.fltFat = 0 ∧ s.regs.wf s.kit

/-! ### The register file -/

/-- The live and the shadow register file change by no other command than those that `setsRegs` lists. -/
def Obligations.OnlyRegisterCommandsChangeRegisters : Prop :=
  ∀ (c : Instr) (s t : State), setsRegs c = false → exec c s = .next t → t.regs = s.regs

/-- Every step keeps the form of the register file: canonical tables, and live words of RW bits only. -/
def Obligations.StepKeepsTheRegisterFileForm : Prop :=
  ∀ s t : State, s.regs.wf s.kit → step s = .next t → t.regs.wf t.kit

/-- R414: a write to a word with an RW field places every bit in the shadow; no live value and no other shadow changes.
R426, R427: a write to the alias of bit `b` of an RW word sets that bit of its shadow and no other; one that carries a value above 1
is answered with a bus error and changes nothing. -/
def Obligations.RegisterWritesEnterTheShadow : Prop :=
  (
    ∀ (s : State) (addr : BitVec 20) (value : Word) (i : WordInfo),
      s.eng.cfgOpen = true → addr.toNat % 4 = 0 → addr.toNat < 0x80000 → rwWord s.kit addr.toNat = some i →
      ∃ t, exec (.registerWrite addr value) s = .next t ∧ t.regs.shadowWord addr.toNat = value.toNat ∧
        (∀ off, off ≠ addr.toNat → t.regs.shadowWord off = s.regs.shadowWord off) ∧ t.regs.live = s.regs.live ∧
        t.eng = { s.eng with out := s.eng.out ++ [.cfgDone] } ∧ t.kit = s.kit ∧ t.pending = s.pending) ∧
  (
    ∀ (s : State) (off b : Nat) (value : Word) (i : WordInfo),
      s.eng.cfgOpen = true → off % 4 = 0 → off < 0x4000 → b < 32 → rwWord s.kit off = some i → bitOf b i.rw = true →
      let addr := BitVec.ofNat 20 (0x80000 + 32 * off + 4 * b)
      (value.toNat < 2 → ∃ t, exec (.bitAliasWrite addr value) s = .next t ∧
        (∀ j, bitOf j (t.regs.shadowWord off) = if j = b then value.getLsbD 0 else bitOf j (s.regs.shadowWord off)) ∧
        (∀ o, o ≠ off → t.regs.shadowWord o = s.regs.shadowWord o) ∧ t.regs.live = s.regs.live ∧
        t.eng = { s.eng with out := s.eng.out ++ [.cfgDone] } ∧ t.kit = s.kit ∧ t.pending = s.pending) ∧
      (2 ≤ value.toNat → exec (.bitAliasWrite addr value) s = .next (driven s [.busError])))

/-- R416: a commit that obeys every rule makes every RW word live as its shadow has it, whichever way it started, and reports code 0x00
with its source; the shadows stay. -/
def Obligations.CommitAppliesEveryShadow : Prop :=
  ∀ (c : Instr) (source : BitVec 2) (s : State), CommitCause s c source → s.regs.wf s.kit → (s.eng.judgeCommit s.kit s.regs).1 = 0 →
    ∃ t, exec c s = .next t ∧
      (∀ off i, rwWord s.kit off = some i → t.regs.word off = s.regs.shadowWord off &&& i.rw) ∧
      (∀ off, rwWord s.kit off = none → t.regs.word off = s.regs.word off) ∧
      t.regs.shadow = s.regs.shadow ∧ t.regs.cmtSource = source ∧ t.regs.cmtCode = 0 ∧ t.regs.cmtOffset = 0 ∧
      t.eng.counter Ctr.commitsApplied = s.eng.counter Ctr.commitsApplied + 1 ∧
      t.kit = s.kit ∧ t.pending = s.pending ∧ Same [.count, .rings, .vault, .out] s.eng t.eng

/-- R414, R419, R422: while a reserved shadow bit of some word is 1, a commit is refused with 0x11 and the lowest such offset, and leaves
every live value and every shadow as they were. -/
def Obligations.CommitWithAReservedBitIsRefused : Prop :=
  let bad (s : State) (off : Nat) : Prop := ∃ i, rwWord s.kit off = some i ∧ s.regs.shadowWord off &&& i.rsv ≠ 0
  ∀ (c : Instr) (source : BitVec 2) (s : State), CommitCause s c source → s.regs.wf s.kit → (∃ off, bad s off) →
    ∃ t, exec c s = .next t ∧ t.regs.live = s.regs.live ∧ t.regs.shadow = s.regs.shadow ∧ t.regs.cmtCode = 0x11 ∧
      t.regs.cmtSource = source ∧ bad s t.regs.cmtOffset.toNat ∧ (∀ off, bad s off → t.regs.cmtOffset.toNat ≤ off) ∧
      t.kit = s.kit ∧ t.pending = s.pending ∧ Same [.count, .out] s.eng t.eng

/-- R419: a refused commit leaves every live value and every shadow as they were; a CMT_CTRL write with DISCARD set copies every live value
into its shadow, and after it no word is changed. R423: a commit that changes no word succeeds with code 0x00 and applies nothing. -/
def Obligations.RefusalKeepsAndDiscardRestoresShadows : Prop :=
  (
    ∀ (c : Instr) (source : BitVec 2) (s : State), CommitCause s c source → (∀ off, ¬ Changed s off) →
      ∃ t, exec c s = .next t ∧ t.regs.live = s.regs.live ∧ t.regs.shadow = s.regs.shadow ∧ t.regs.cmtCode = 0) ∧
  (
    ∀ (c : Instr) (source : BitVec 2) (s : State), CommitCause s c source → (s.eng.judgeCommit s.kit s.regs).1 ≠ 0 →
      ∃ t, exec c s = .next t ∧ t.regs.live = s.regs.live ∧ t.regs.shadow = s.regs.shadow ∧ t.regs.cmtSource = source ∧
        t.regs.cmtCode = (s.eng.judgeCommit s.kit s.regs).1 ∧ t.kit = s.kit ∧ t.pending = s.pending ∧ Same [.count, .out] s.eng t.eng) ∧
  (
    ∀ s : State, s.eng.cfgOpen = true →
      ∃ t, exec (.discard 0x20000000) s = .next t ∧ (∀ off, t.regs.shadowWord off = s.regs.word off) ∧ t.regs.live = s.regs.live ∧
        (∀ off, ¬ Changed t off) ∧ t.eng = { s.eng with out := s.eng.out ++ [.cfgDone] } ∧ t.kit = s.kit ∧ t.pending = s.pending)

/-- R403: a strobe that falls in the check of a commit is held and changes nothing else. R429: the end of a CRC pass sets PASS_VALID; it
sets MISMATCH, counts it and raises source 0x2E when the check is enabled and the CRC differs from its reference, and clears MISMATCH
otherwise. -/
def Obligations.StrobeIsHeldAndCrcPassEnds : Prop :=
  (∀ s : State, exec (.sysCommitIn true) s = .next { s with regs := { s.regs with strobeHeld := true } }) ∧
  ∀ s : State, s.eng.power.state ≠ 2 → ∃ t, exec .cfgCrcPassEnd s = .next t ∧
    t.regs.passValid = true ∧ t.regs.crcLive = crc32c (crcInput s.kit s.regs) ∧
    t.regs.mismatch = (s.regs.crcCheck && t.regs.crcLive.toNat != s.regs.word 0x100C) ∧
    t.regs.live = s.regs.live ∧ t.regs.shadow = s.regs.shadow ∧
    t.eng.counter Ctr.crcPasses = s.eng.counter Ctr.crcPasses + 1 ∧
    (t.regs.mismatch = true → Raised s t 0x2E none ∧ t.eng.counter Ctr.crcMismatches = s.eng.counter Ctr.crcMismatches + 1) ∧
    (t.regs.mismatch = false → t.eng.fox = s.eng.fox) ∧
    t.kit = s.kit ∧ t.pending = s.pending ∧ Same [.count, .fox, .draws, .cycle] s.eng t.eng

/-! ### Resets and power states -/

/-- R372, the column of RST_COLD_N: the stored values, the identity key, the certificate chain and the firmware key stay; every register
holds its reset value, every slot is FREE, nothing is granted, and both halves restart on the next-cold-reset slot. R128: with no line write
and no remap under way the body is as it was; of a line write that is under way, every other line is.
What the line of that write holds is the model's choice: log 84. -/
def Obligations.ColdResetKeepsWhatIsStored : Prop :=
  ∀ s : State, ∃ t, exec .rstColdN s = .next t ∧
    (s.eng.bulb.remap = none →
      (s.eng.bulb.writes = [] → t.eng.body = { s.eng.body with activeSlot := s.eng.body.nextSlot }) ∧
      (∀ w rest key, s.eng.bulb.writes = w :: rest → s.eng.writeKey w.use = some key →
        (∀ m, m ≠ key → t.eng.body.line m = s.eng.body.line m) ∧
        (t.eng.body.line key = s.eng.body.line key ∨ (w.line ≠ Line.empty → t.eng.body.line key = some w.line)))) ∧
    t.eng.body.kept = s.eng.body.kept ∧ t.eng.body.remap = s.eng.body.remap ∧ t.eng.body.minSvn = s.eng.body.minSvn ∧
    t.eng.body.slot0 = s.eng.body.slot0 ∧ t.eng.body.slot1 = s.eng.body.slot1 ∧ t.eng.body.activeSlot = s.eng.body.nextSlot ∧
    t.eng.body.nextSlot = s.eng.body.nextSlot ∧
    t.eng.keys = { s.eng.keys with fwWords := [] } ∧
    (∀ off, t.regs.word off = (resetWord off).toNat ∧ t.regs.shadowWord off = (resetWord off).toNat) ∧
    (∀ n, (t.eng.tenant n).state = .free ∧ (t.eng.bud n).state = .absent ∧ t.eng.ring n = Ring.fresh) ∧
    t.eng.front.lines = [] ∧ t.eng.guard.ranges = [] ∧ t.eng.recipes.held = [] ∧ t.eng.recipes.sets = [] ∧ t.eng.streams.held = [] ∧
    t.eng.vault.staging = [] ∧ t.eng.referee.steward = none ∧ t.eng.referee.epoch = 0 ∧ t.eng.beat.mode = .acquire ∧
    t.eng.beat.num = 0 ∧ t.eng.beat.offset = 0 ∧ t.eng.fox.seq = 0 ∧ t.eng.power.vwbStep = 16 ∧ t.eng.power.vaonStep = 16 ∧
    t.eng.power.state = 0 ∧ t.eng.power.sysReady = false ∧ t.eng.mode = .startUp ∧ t.kit = s.kit ∧ t.pending = s.pending

/-- R372, the column of RST_FN_N: stored values, the beat and BEAT_CTRL, FOX_LOG and FOX_SEQ, the steward and its epoch, the vault features
and the trims stay; other RW registers hold their reset values, no slot holds a key, an ATTESTED slot is ADMITTED with the initial policy
and a slot whose RELEASE was running is FREE, buds that were not ABSENT are IDLE, and nothing is PENDING. MODE is NORMAL once full firmware
has run since the cold reset (R253). A pulse shorter than two CORE cycles has no effect (R408). -/
def Obligations.FunctionalResetKeepsWhatTheTableKeeps : Prop :=
  ∀ (s : State) (cycles : Nat),
    (cycles < 2 → exec (.rstFnN cycles) s = .next s) ∧
    (2 ≤ cycles → ∃ t, exec (.rstFnN cycles) s = .next t ∧
      t.eng.body = s.eng.body ∧ t.eng.keys = s.eng.keys ∧
      t.eng.beat.num = s.eng.beat.num ∧ t.eng.beat.offset = s.eng.beat.offset ∧ t.eng.beat.mode = s.eng.beat.mode ∧
      t.eng.beat.slip = s.eng.beat.slip ∧ t.eng.count.shadow = s.eng.count.shadow ∧
      t.regs.word 0x2000 = s.regs.word 0x2000 ∧
      (∀ off, off ≠ 0x2000 → t.regs.word off = (resetWord off).toNat ∧ t.regs.shadowWord off = (resetWord off).toNat) ∧
      t.eng.fox.seq = s.eng.fox.seq ∧ t.eng.fox.log = s.eng.fox.log ∧ (∀ n, (t.eng.fox.src n).pending = false) ∧
      t.eng.fox.recovery = false ∧
      t.eng.referee.steward = s.eng.referee.steward ∧ t.eng.referee.epoch = s.eng.referee.epoch ∧
      t.eng.vault.tenants = s.eng.vault.tenants ∧ t.eng.vault.staging = [] ∧ t.eng.vault.queues = [] ∧
      t.eng.power.vwbStep = s.eng.power.vwbStep ∧ t.eng.power.vaonStep = s.eng.power.vaonStep ∧
      t.eng.power.state = 0 ∧ t.eng.power.sysReady = false ∧ (s.eng.power.started = true → t.eng.mode = .normal) ∧
      (∀ n, n < 16 → (t.eng.tenant n).sealKey = none ∧ (t.eng.tenant n).pollenKey = none ∧ (t.eng.tenant n).session = false ∧
        (t.eng.tenant n).sessionKeys = none ∧
        (if (s.eng.tenant n).state = .free ∨ (s.eng.tenant n).releasing.isSome then (t.eng.tenant n).state = .free
         else (t.eng.tenant n).state = .admitted ∧ (t.eng.tenant n).uid = (s.eng.tenant n).uid ∧ (t.eng.tenant n).policy = 1)) ∧
      (∀ n, (t.eng.bud n).state = if (s.eng.bud n).state = .absent then .absent else .idle) ∧
      t.eng.front.lines = [] ∧ t.eng.guard.ranges = [] ∧ t.eng.recipes.held = [] ∧ t.eng.streams.held = [] ∧ t.eng.streams.restores = [] ∧
      t.eng.cut.run = none ∧ (s.eng.cut.run.isSome → t.eng.cut.lastCode = 0x61) ∧ t.eng.rings.jobs = [] ∧ (∀ n, t.eng.ring n = Ring.fresh) ∧
      t.kit = s.kit ∧ t.pending = s.pending)

/-- R367 to R369, R374: SYS_READY rises when every bit of READY_STATUS [5:0] is 1; PWR_REQ is taken as it is driven, 0b11 as P0; an idle
engine enters the state that PWR_REQ names, PWR_ACK shows it, and P2 loses the front; the exit returns to P0. Nothing else of the tenants,
the stored values or the register file changes.
R369: a wake event of an engine in P1 or P2 starts the exit, and one during entry reverses the entry; each is counted. -/
def Obligations.PowerStatesFollowPwrReq : Prop :=
  (
    (∀ s : State, s.eng.power.sysReady = false → s.eng.readyBits = 63 →
      exec .sysReadyRise s = .next (withEng s { s.eng with power := { s.eng.power with sysReady := true } })) ∧
    (∀ (s : State) (req : BitVec 2), s.eng.power.sysReady = true → s.eng.power.state = 0 → s.eng.power.entering = false →
      exec (.pwrReqChange req) s =
        .next (withEng s { s.eng with power := { s.eng.power with req := if req = 3 then 0 else req } })) ∧
    (∀ s : State, s.eng.power.sysReady = true → s.eng.power.req = 1 ∨ (s.eng.power.req = 2 ∧ s.eng.pollen.sess = []) →
      s.eng.power.state = 0 → s.eng.power.exiting = false →
      s.eng.power.entering = false → s.eng.idle s.regs = true →
      exec .powerEntry s = .next (withEng s { s.eng with power := { s.eng.power with entering := true } })) ∧
    (∀ s : State, s.eng.power.entering = true → ∃ t, exec .powerStateEntered s = .next t ∧ t.eng.power.state = s.eng.power.req ∧
      t.eng.power.entering = false ∧ (s.eng.power.req = 2 → t.eng.front.lines = []) ∧ (s.eng.power.req ≠ 2 → t.eng.front = s.eng.front) ∧
      Only [.power, .front, .count] s t) ∧
    (∀ s : State, s.eng.power.exiting = true → ∃ t, exec .powerExitComplete s = .next t ∧ t.eng.power.state = 0 ∧
      t.eng.power.exiting = false ∧ t.eng.power.req = s.eng.power.req ∧ Only [.power, .count, .beat] s t)) ∧
  (
    ∀ (s : State) (req : BitVec 2), s.eng.power.sysReady = true → (if req = 3 then 0 else req) ≠ s.eng.power.req →
      (s.eng.power.entering = true → ∃ t, exec (.pwrReqChange req) s = .next t ∧ t.eng.power.entering = false ∧
        t.eng.power.state = s.eng.power.state ∧
        t.eng.counter Ctr.entryReversals = s.eng.counter Ctr.entryReversals + 1 ∧ Only [.power, .count] s t) ∧
      (s.eng.power.entering = false → s.eng.power.state ≠ 0 → s.eng.power.exiting = false →
        ∃ t, exec (.pwrReqChange req) s = .next t ∧ t.eng.power.exiting = true ∧ t.eng.power.state = s.eng.power.state ∧
          t.eng.counter Ctr.pwrWakes = s.eng.counter Ctr.pwrWakes + 1 ∧ Only [.power, .count] s t))

/-! ### Faults and the referee -/

/-- R343 to R345, R330, R355: a corrected and an uncorrectable fault of the controls memory, a parity fault of Foxglove's store and a noise
test that fails raise their sources; the source is then PENDING unless it is programmed NOTE. -/
def Obligations.FaultEventsRaiseTheirSources : Prop :=
  (∀ s : State, ∃ t, exec .ctrlMemCe s = .next t ∧ Raised s t 0x06 none ∧ Only [.fox, .count, .draws, .cycle] s t) ∧
  (∀ s : State, ∃ t, exec .foxParity s = .next t ∧ Raised s t 0x38 none ∧ Only [.fox, .count, .draws, .cycle] s t) ∧
  (∀ s : State, ∃ t, exec .noiseTestFail s = .next t ∧ Raised s t 0x24 none ∧ t.eng.units = { s.eng.units with noise := .failed } ∧
    t.eng.counter Ctr.noiseFails = s.eng.counter Ctr.noiseFails + 1 ∧ Only [.fox, .count, .draws, .units, .cycle] s t) ∧
  (∀ (s : State) (h : Half), s.eng.referee.steward ≠ some h → ∃ t, exec (.ctrlMemUe h) s = .next t ∧ Raised s t 0x07 none ∧
    t.eng.referee = s.eng.referee.restart ∧ Only [.fox, .count, .draws, .referee, .cycle] s t)

/-- R346: FOX_ACK with ALL clear ends PENDING of the named source alone, with ALL set that of every source.
R350: at the edge after a FATAL raise the engine is in RECOVERY, and MODE reads so; outside the soak of an update nothing else changes; in a
soak the steward is then gone (R360). -/
def Obligations.AcknowledgementAndRecovery : Prop :=
  (
    ∀ (s : State) (value : Word), s.eng.cfgOpen = true → ∃ t, exec (.foxAck value) s = .next t ∧
      (∀ n, (t.eng.fox.src n).pending =
        ((s.eng.fox.src n).pending && !(value.getLsbD 31) && n != value.toNat % 256)) ∧
      (∀ n, n ≠ value.toNat % 256 → value.getLsbD 31 = false → t.eng.fox.src n = s.eng.fox.src n) ∧
      t.eng.fox.seq = s.eng.fox.seq ∧ t.eng.fox.log = s.eng.fox.log ∧ Only [.fox, .out] s t) ∧
  (
    ∀ s : State, s.eng.fox.fatalDue = true →
      ((∀ n, s.eng.referee.fw ≠ .soak n) → ∃ t, exec .enterRecovery s = .next t ∧ t.eng.mode = .recovery ∧
        t.eng.fox = { s.eng.fox with recovery := true, fatalDue := false } ∧ Only [.fox] s t) ∧
      (∀ n, s.eng.referee.fw = .soak n → ∃ e : Engine, e.mode = .recovery ∧ Same [.fox] s.eng e ∧
        exec .enterRecovery s = .next (withEng s (e.stewardGone s.kit s.regs false))))

/-- R347: a raise of a source of which one of its class is PENDING is one step more severe and is recorded as escalated; a source
programmed NOTE never escalates, and URGENT becomes FATAL only where the source permits it. Shown on the source of CTRL_MEM_CE. -/
def Obligations.RaisesOfAPendingClassEscalate : Prop :=
  ∀ s : State, ∃ t, exec .ctrlMemCe s = .next t ∧
    let sev := s.regs.foxSev 0x06
    let recorded := (tabFind (s.eng.fox.seq.toNat % 64) t.eng.fox.log).map fun x => (x.sev, x.escalated)
    (classPending s.regs 0x06 s.eng.fox = false ∨ sev = 0 ∨ sev = 4 → recorded = some (BitVec.ofNat 3 sev, false) ∧
      t.eng.counter Ctr.escalations = s.eng.counter Ctr.escalations) ∧
    (classPending s.regs 0x06 s.eng.fox = true → 1 ≤ sev → sev ≤ 2 → recorded = some (BitVec.ofNat 3 (sev + 1), true) ∧
      t.eng.counter Ctr.escalations = s.eng.counter Ctr.escalations + 1) ∧
    (classPending s.regs 0x06 s.eng.fox = true → sev = 3 →
      recorded = some (if s.regs.fatalOk 0x06 then (4, true) else (3, false)) ∧ t.eng.fox.fatHeld = (s.eng.fox.fatHeld || s.regs.fatalOk 0x06))

/-- R351: a heartbeat of a half zeroes its misses and no other's; the named half's says that its full firmware runs. In P2 no half runs.
R32, R351, R354, R355: when the steward misses HB_LIMIT heartbeats, a ready standby is granted with the next epoch, goes on from its copy of
the scheduler state, and source 0x00 is raised; without one no half is granted and source 0x03 is raised. A ready standby that misses them
restarts and raises source 0x02. -/
def Obligations.LostHalvesAreReplaced : Prop :=
  (
    ∀ (s : State) (h : Half), s.eng.power.state ≠ 2 →
      (s.eng.referee.steward ≠ some h → ∃ t, exec (.heartbeat h) s = .next t ∧ t.eng.referee.miss h = 0 ∧ t.eng.referee.beat h = true ∧
        t.eng.referee.miss (halfOther h) = s.eng.referee.miss (halfOther h) ∧ t.eng.referee.steward = s.eng.referee.steward ∧
        t.eng.referee.epoch = s.eng.referee.epoch ∧ Only [.referee] s t) ∧
      (s.eng.referee.steward = some h → ∃ e : Engine, exec (.heartbeat h) s = .next (withEng s (e.resumeHost s.kit s.regs)) ∧
        e.referee.miss h = 0 ∧ e.referee.beat h = true ∧ e.referee.miss (halfOther h) = s.eng.referee.miss (halfOther h) ∧
        e.referee.steward = some h ∧ e.referee.epoch = s.eng.referee.epoch ∧ e.referee.resumed = true ∧ e.power.fwRunning = true ∧
        e.power.started = true ∧ Same [.referee, .power] s.eng e)) ∧
  (
    (∀ (s : State) (h : Half), s.eng.referee.steward = some h → s.regs.hbLimit ≤ s.eng.referee.miss h → s.eng.power.state ≠ 2 →
      (s.eng.referee.standbyReady = true → ∃ e : Engine, exec .stewardLost s =
          .next (withEng s (((e.resumeHost s.kit s.regs).raise s.kit s.regs 0x00 none).rollback s.kit s.regs)) ∧
        e.referee.steward = some (halfOther h) ∧ e.referee.epoch = s.eng.referee.epoch + 1 ∧ e.referee.standbyReady = false ∧
        e.referee.fw = s.eng.referee.fw ∧ e.vault.staging = [] ∧ e.rings.jobs = s.eng.rings.jobs ∧
        (∀ m, s.eng.referee.mirror = some m → e.rings.turn = m.turn ∧ e.rings.weight = m.weight ∧ e.streams.turn = m.streamTurn ∧
          e.vault.arbs = m.arbs) ∧
        (s.eng.referee.mirror = none → e.rings = s.eng.rings ∧ e.streams = s.eng.streams) ∧
        Same [.referee, .rings, .streams, .pollen, .vault, .count] s.eng e) ∧
      ((∀ n, s.eng.referee.fw ≠ .soak n) → s.eng.referee.standbyReady = false → ∃ t, exec .stewardLost s = .next t ∧
        t.eng.referee.steward = none ∧ t.eng.referee.epoch = s.eng.referee.epoch ∧ Raised s t 0x03 none ∧
        Only [.referee, .fox, .count, .draws, .cycle] s t)) ∧
    (∀ (s : State) (h : Half), s.eng.referee.steward = some h → s.eng.referee.standbyReady = true →
      s.regs.hbLimit ≤ s.eng.referee.miss (halfOther h) → s.eng.power.state ≠ 2 →
      ∃ t, exec .standbyLost s = .next t ∧ t.eng.referee.steward = some h ∧ t.eng.referee.epoch = s.eng.referee.epoch ∧
        t.eng.referee.standbyReady = false ∧ t.eng.referee.miss (halfOther h) = 0 ∧ Raised s t 0x02 none ∧
        Only [.referee, .fox, .count, .draws, .cycle] s t))

/-- R353, R352: a claim waits for the edge; HANDOVER with a ready standby is kept until an edge, at which the standby is granted with the next
epoch and the former steward is the standby.
R355: a standby that resynchronises is ready once it says so; one that has not after 250,000 beats restarts, with source 0x02. -/
def Obligations.HandoverAndResynchronisation : Prop :=
  (
    (∀ (s : State) (h : Half) (epoch : Word), s.eng.power.state ≠ 2 → exec (.stewardClaim h epoch) s =
      .next (withEng s { s.eng with referee := { s.eng.referee with claims := s.eng.referee.claims ++ [(h, epoch)] } })) ∧
    (∀ s : State, s.eng.cfgOpen = true → s.eng.referee.standbyReady = true → (∀ n, s.eng.referee.fw ≠ .soak n) →
      exec (.handover 0x80000000) s =
        .next (withEng s { s.eng with referee := { s.eng.referee with handover := true }, out := s.eng.out ++ [.cfgDone] })) ∧
    (∀ (s : State) (h : Half), s.eng.referee.steward = some h → s.eng.referee.handover = true → s.eng.referee.standbyReady = true →
      s.eng.referee.edgeDue = true → s.eng.referee.fw = .none → ∃ t, exec .handoverTakeEffect s = .next t ∧ t.eng.referee.steward = some (halfOther h) ∧
        t.eng.referee.standbyReady = true ∧ t.eng.referee.handover = false ∧ t.eng.referee.epoch = s.eng.referee.epoch + 1 ∧
        t.eng.vault.staging = [] ∧ Only [.referee, .vault, .count] s t)) ∧
  (
    (∀ (s : State) (h : Half), s.eng.referee.steward = some h → s.eng.referee.standbyReady = false → s.eng.referee.resync.isSome = true →
      s.eng.referee.fw = .none → ∃ t, exec .standbyReady s = .next t ∧ t.eng.referee.standbyReady = true ∧ t.eng.referee.resync = none ∧
        t.eng.referee.steward = some h ∧ t.eng.referee.handover = s.eng.referee.handover ∧ Only [.referee] s t) ∧
    (∀ (s : State) (n : Nat), s.eng.referee.resync = some n → 250000 ≤ n → ∃ t, exec .standbyResyncTimeout s = .next t ∧
      t.eng.referee = { s.eng.referee with resync := some 0 } ∧ Raised s t 0x02 none ∧ Only [.referee, .fox, .count, .draws, .cycle] s t))

/-- R359, R360: when the standby of a live update is ready, the handover starts and its edge runs the new slot in a soak; an update that does
not bring its standby up in 250,000 beats is abandoned, the next-cold-reset slot is the active one and source 0x05 is raised; one whose
soak ends raises MIN_SVN to the image's version and never lowers it. -/
def Obligations.FirmwareUpdateRunsAndEnds : Prop :=
  (∀ (s : State) (h : Half) (n : Nat), s.eng.referee.steward = some h → s.eng.referee.fw = .restarting n →
    s.eng.referee.standbyReady = false → ∃ t, exec .standbyReady s = .next t ∧ t.eng.referee.standbyReady = true ∧
      t.eng.referee.handover = true ∧ t.eng.referee.steward = some h ∧ Only [.referee] s t) ∧
  (∀ (s : State) (h : Half) (n : Nat), s.eng.referee.steward = some h → s.eng.referee.fw = .restarting n →
    s.eng.referee.handover = true → s.eng.referee.standbyReady = true → s.eng.referee.edgeDue = true →
    ∃ t, exec .handoverTakeEffect s = .next t ∧ t.eng.referee.steward = some (halfOther h) ∧ t.eng.referee.fw = .soak s.regs.fwSoak ∧
      t.eng.body = { s.eng.body with activeSlot := s.eng.body.nextSlot } ∧ t.regs = s.regs ∧ t.eng.tenants = s.eng.tenants) ∧
  (∀ (s : State) (n : Nat), s.eng.referee.fw = .restarting n → 250000 ≤ n → s.eng.referee.standbyReady = false →
    ∃ t, exec .fwActivateTimeout s = .next t ∧ t.eng.referee.fw = .none ∧ t.eng.body = { s.eng.body with nextSlot := s.eng.body.activeSlot } ∧
      t.eng.fox.seq = s.eng.fox.seq + 1 ∧ t.regs = s.regs ∧ t.eng.tenants = s.eng.tenants) ∧
  (∀ s : State, s.eng.referee.fw = .soak 0 → ∃ t, exec .fwSoakEnd s = .next t ∧ t.eng.referee.fw = .none ∧
    t.eng.body = { s.eng.body with minSvn := t.eng.body.minSvn } ∧
    t.eng.body.minSvn.toNat = max s.eng.body.minSvn.toNat s.eng.referee.fwSvn.toNat ∧ Only [.referee, .body] s t)

/-! ### The beat -/

/-- R35, R37, R38, R371: BEAT_NUM rises by exactly one at every edge, clamped or not and in P2 too, but at the first LOCKED edge after
ACQUIRE, which sets it to the number of SYS_TIME; the clamped edge alone adds to BEAT_SLIP, and an unclamped one sets BEAT_OFFSET. The
configuration, the fuses and the DBG port stay. -/
def Obligations.BeatNumberRisesAtEveryEdge : Prop :=
  (∀ (s : State) (i : EdgeInput), s.eng.edgeAt i.cc = true → s.eng.power.state ≠ 2 → ∃ t, exec (.beatEdge i) s = .next t ∧
    t.eng.beat.num = (if s.eng.beat.firstEdgeDue then beatOf i.sysTime else s.eng.beat.num + 1) ∧
    t.eng.beat.offset = t.eng.beat.num - beatOf i.sysTime ∧ t.eng.beat.slip = s.eng.beat.slip ∧ t.eng.beat.clampRun = 0 ∧
    t.eng.beat.timeNow = i.sysTime ∧ t.eng.beat.mode = s.eng.beat.mode ∧ t.eng.beat.cc = s.regs.beatCc ∧
    t.eng.beat.sealed = s.regs.sealedMode ∧ t.regs = s.regs ∧ t.eng.keys = s.eng.keys ∧ t.eng.dbg = s.eng.dbg) ∧
  (∀ (s : State) (i : EdgeInput), s.eng.power.state = 2 → ∃ t, exec (.beatEdge i) s = .next t ∧ t.eng.beat.num = s.eng.beat.num + 1 ∧
    t.eng.beat.timeNow = i.sysTime ∧ Only [.beat, .power] s t) ∧
  (∀ (s : State) (early : Bool) (i : EdgeInput), s.eng.clampAt early i.cc = true → ∃ t, exec (.beatEdgeClamped early i) s = .next t ∧
    t.eng.beat.num = (if s.eng.beat.firstEdgeDue then beatOf i.sysTime else s.eng.beat.num + 1) ∧
    (s.eng.beat.firstEdgeDue = false → t.eng.beat.offset = s.eng.beat.offset) ∧
    t.eng.beat.slip.toNat = min (s.eng.beat.slip.toNat + 1) 0xFFFFFFFF ∧
    t.eng.beat.clampRun.toNat = min (s.eng.beat.clampRun.toNat + 1) 255 ∧ t.regs = s.regs ∧ t.eng.keys = s.eng.keys ∧
    t.eng.dbg = s.eng.dbg)

/-- R36, R366: sixteen crossings in the window lock the beat; 64 clamped edges end it with source 0x08; 500 edges below the throttle level
lower it by one. -/
def Obligations.BeatModesAndThrottleFall : Prop :=
  (∀ (s : State) (gaps : List Nat), gaps.length = 16 → s.eng.beat.mode ≠ .locked → s.eng.power.state ≠ 2 →
    (∀ g ∈ gaps, s.eng.beat.cc - 64 ≤ g ∧ g ≤ s.eng.beat.cc + 63) → ∃ t, exec (.beatLock gaps) s = .next t ∧
      t.eng.beat = { s.eng.beat with mode := .locked, firstEdgeDue := s.eng.beat.mode == .acquire } ∧ Only [.beat] s t) ∧
  (∀ s : State, s.eng.beat.mode = .locked → 64 ≤ s.eng.beat.clampRun.toNat → ∃ t, exec .beatFreeRun s = .next t ∧
    t.eng.beat = { s.eng.beat with mode := .freeRun, cycle := s.eng.cycleNow } ∧ Raised s t 0x08 none ∧ Only [.beat, .fox, .count, .draws] s t) ∧
  (∀ s : State, 500 ≤ s.eng.power.cooler → 0 < s.eng.power.level → ∃ t, exec .throttleFall s = .next t ∧
    t.eng.power = { s.eng.power with level := s.eng.power.level - 1, cooler := 0 } ∧ Only [.power] s t)

/-! ### Buds and the stem -/

/-- R81, R396: what ARM, DISARM, RELEASE and SCRUB do to a bud of the tenant that they name. Nothing else changes.
R396: a broadcast with bad parity changes nothing at a bud but that it is answered with a poisoned acknowledgement. -/
def Obligations.BroadcastsMoveTheirTenantsBuds : Prop :=
  (
    ∀ (s : State) (tile : Nat) (arg : BitVec 64), let b := s.eng.bud tile
      b.tenant = arg.setWidth 4 →
      (Hears s tile bcArm arg → b.state = .idle → ∃ t, exec (.budArm tile true) s = .next t ∧
        BudBecomes s t tile { b with seen := b.seen + 1, state := .armed, drained := 0 } ∧ Only [.buds] s t) ∧
      (Hears s tile bcDisarm arg → ∃ t, exec (.budDisarm tile true) s = .next t ∧
        BudBecomes s t tile { b with seen := b.seen + 1, state := .idle, latch := [], buffer := [], up := [], earlyHeld := false } ∧
        Only [.buds] s t) ∧
      (Hears s tile bcRelease arg → b.state = .drained → ∃ t, exec (.budRelease tile true) s = .next t ∧
        BudBecomes s t tile { b with seen := b.seen + 1, state := .idle } ∧ Only [.buds] s t) ∧
      (Hears s tile bcScrub arg → ∃ t, exec (.budScrub tile true) s = .next t ∧
        BudBecomes s t tile
          { b with seen := b.seen + 1, state := .idle, drained := 0, latch := [], buffer := [], up := [], earlyHeld := false,
                   acks := b.acks ++ [{ code := bcScrub, poisoned := false, beat := b.beat, counts := b.counts }] } ∧ Only [.buds] s t)) ∧
  (
    ∀ (s : State) (c : Instr) (tile : Nat) (code : BitVec 4) (arg : BitVec 64), let b := s.eng.bud tile
      HearsBy c tile code false → Hears s tile code arg → s.eng.cut.phase ≠ .pause → ∃ t, exec c s = .next t ∧
        BudBecomes s t tile
          { b with seen := b.seen + 1, acks := b.acks ++ [{ code := code, poisoned := true, beat := b.beat, counts := b.counts }] } ∧
        Only [.buds] s t)

/-- R77, R81, R394, R45: FREEZE makes an ARMED bud of its tenant FROZEN with the tile's four context lines in its latch, and is
acknowledged; RESUME marks it, and the pause ends with the last covered bud that it reaches; BEAT starts the bud's beat, and its acknowledgement
carries the number of that beat and the bud's counters. -/
def Obligations.BudsFreezeResumeAndLatch : Prop :=
  ∀ (s : State) (tile : Nat) (arg : BitVec 64), let b := s.eng.bud tile
    (Hears s tile bcFreeze arg → b.state = .armed → b.tenant = arg.setWidth 4 → ∀ ctx : BitVec 2048,
      ∃ t, exec (.budFreeze tile ctx true) s = .next t ∧ (t.eng.bud tile).state = .frozen ∧
        (∀ i, i < 4 → (t.eng.bud tile).latch[i]? = some { kind := .context, line := i, data := ctx.extractLsb' (512 * i) 512 }) ∧
        (t.eng.bud tile).acks = b.acks ++ [{ code := bcFreeze, poisoned := false, beat := b.beat, counts := b.counts }] ∧
        (t.eng.bud tile).resumed = false ∧ (∀ n, n ≠ tile → t.eng.bud n = s.eng.bud n) ∧ Only [.buds] s t) ∧
    (Hears s tile bcResume arg → b.tenant = arg.setWidth 4 → ∃ t, exec (.budResume tile true) s = .next t ∧
      BudBecomes s t tile { b with seen := b.seen + 1, resumed := true } ∧ Only [.buds, .cut] s t ∧
      (∀ run, s.eng.cut.run = some run → s.eng.cut.phase = .pause → run.tiles = [tile] → run.resumeAt ≤ b.seen + 1 →
        t.eng.cut = { s.eng.cut with phase := .drain })) ∧
    (Hears s tile bcBeat arg → ∃ t, exec (.budBeat tile true) s = .next t ∧
      BudBecomes s t tile
        { b with seen := b.seen + 1, beat := arg.setWidth 52, cycle := 0,
                 acks := b.acks ++ [{ code := bcBeat, poisoned := false, beat := arg.setWidth 52, counts := b.counts }] } ∧
      Only [.buds] s t)

/-- R86, R88: a write to an undrained line of a FROZEN bud first puts the line as it stands into the copy-before-write buffer, where there
is one of the four slots free, and otherwise waits; a write to any other line of a resumed bud is not delayed.
R48, R80: a write that reaches a FROZEN bud before RESUME is counted and raises source 0x0B, with the bud's own stamp. -/
def Obligations.TileWritesCopyBeforeWrite : Prop :=
  ∀ (s : State) (tile : Nat) (line : BitVec 10) (held : LineData), let b := s.eng.bud tile
    s.kit.hasTile tile = true → b.state = .frozen →
    (b.resumed = true →
      (line.toNat < s.kit.linesOf tile → b.drained.getLsbD line.toNat = false → b.buffer.length < 4 →
        ∃ t, exec (.tileWrite tile line held) s = .next t ∧
          (t.eng.bud tile).buffer = b.buffer ++ [{ kind := .cbw, line := line.toNat, data := held }] ∧
          (∀ n, n < 1024 → (t.eng.bud tile).drained.getLsbD n = (b.drained.getLsbD n || n == line.toNat)) ∧
          (t.eng.bud tile).counts.cbw = b.counts.cbw + 1 ∧ (t.eng.bud tile).up = b.up ∧
          (∀ n, n ≠ tile → t.eng.bud n = s.eng.bud n) ∧ t.eng.out = s.eng.out ++ [.tileWait tile] ∧ Only [.buds, .out] s t) ∧
      (line.toNat < s.kit.linesOf tile → b.drained.getLsbD line.toNat = false → 4 ≤ b.buffer.length → b.earlyHeld = false →
        ∃ t, exec (.tileWrite tile line held) s = .next t ∧
          BudBecomes s t tile { b with counts := { b.counts with stall := b.counts.stall + 1 } } ∧
          t.eng.out = s.eng.out ++ [.tileWait tile] ∧ Only [.buds, .out] s t) ∧
      (s.kit.linesOf tile ≤ line.toNat ∨ b.drained.getLsbD line.toNat = true → b.earlyHeld = false →
        exec (.tileWrite tile line held) s = .next s)) ∧
    (b.resumed = false → b.earlyHeld = false → line.toNat < s.kit.linesOf tile → b.drained.getLsbD line.toNat = false →
      b.buffer.length < 4 → ∃ t, exec (.tileWrite tile line held) s = .next t ∧
        (t.eng.bud tile).buffer = b.buffer ++ [{ kind := .cbw, line := line.toNat, data := held }] ∧
        (t.eng.bud tile).counts.early = b.counts.early + 1 ∧ t.eng.fox.seq = s.eng.fox.seq + 1 ∧
        (tabFind (s.eng.fox.seq.toNat % 64) t.eng.fox.log).map (fun x => (x.source, x.tenant, x.stamp)) =
          some (0x0B, some b.tenant, s.eng.budStamp b) ∧
        (∀ n, n ≠ tile → t.eng.bud n = s.eng.bud n) ∧ Only [.buds, .out, .fox, .count, .draws] s t)

/-- R84, R85, R87: a drain read takes the context lines first, then the lowest undrained scratchpad line, which it marks; a forced one makes
the tile's access wait. -/
def Obligations.DrainReadsTakeLinesInOrder : Prop :=
  ∀ (s : State) (tile : Nat) (held : LineData), let b := s.eng.bud tile
    s.kit.hasTile tile = true → b.state = .frozen → b.up.length < 2 →
    (∀ c rest, b.latch = c :: rest →
      (∃ t, exec (.budDrainRead tile held) s = .next t ∧ BudBecomes s t tile { b with latch := rest, up := b.up ++ [c] } ∧
        Only [.buds] s t) ∧
      ∃ t, exec (.budForcedDrain tile held) s = .next t ∧
        BudBecomes s t tile { b with latch := rest, up := b.up ++ [c], counts := { b.counts with stall := b.counts.stall + 1 } } ∧
        t.eng.out = s.eng.out ++ [.tileWait tile] ∧ Only [.buds, .out] s t) ∧
    (∀ n : Nat, b.latch = [] → n < 1024 → n < s.kit.linesOf tile → b.drained.getLsbD n = false →
      (∀ m, m < n → m < s.kit.linesOf tile → b.drained.getLsbD m = true) →
      (∃ t, exec (.budDrainRead tile held) s = .next t ∧ (t.eng.bud tile).up = b.up ++ [{ kind := .drain, line := n, data := held }] ∧
        (∀ m, m < 1024 → (t.eng.bud tile).drained.getLsbD m = (b.drained.getLsbD m || m == n)) ∧
        (∀ m, m ≠ tile → t.eng.bud m = s.eng.bud m) ∧ Only [.buds] s t) ∧
      ∃ t, exec (.budForcedDrain tile held) s = .next t ∧ (t.eng.bud tile).up = b.up ++ [{ kind := .drain, line := n, data := held }] ∧
        (t.eng.bud tile).counts.stall = b.counts.stall + 1 ∧ (∀ m, m ≠ tile → t.eng.bud m = s.eng.bud m) ∧
        t.eng.out = s.eng.out ++ [.tileWait tile] ∧ Only [.buds, .out] s t)

/-- R75, R81, R82, R376: a tile whose configuration has loaded has an IDLE bud of its tenant; a configuration that is loaded again makes the bud
ABSENT, ends an armed cut with 0x1A, and ends a running cut that covers the FROZEN bud with 0x21, its extents recorded as poisoned. -/
def Obligations.TileConfigurationsMakeAndUnmakeBuds : Prop :=
  ∀ (s : State) (tile : Nat), s.kit.hasTile tile = true →
    (∀ (t0 : TenantNo) (passed : Nat), (s.eng.bud tile).state = .absent → passed ≤ s.eng.stem.issued.length →
      ∃ t, exec (.budCfgDone tile t0 passed) s = .next t ∧
        BudBecomes s t tile { Bud.none with state := .idle, tenant := t0, seen := passed } ∧ Only [.buds] s t) ∧
    (s.eng.cut.run = none → ∃ t, exec (.tileConfigReload tile) s = .next t ∧ (t.eng.bud tile).state = .absent ∧
      (∀ n, n ≠ tile → t.eng.bud n = s.eng.bud n) ∧ Only [.buds] s t) ∧
    ((s.eng.bud tile).state ≠ .absent → s.eng.cut.run.isSome = true → s.eng.cut.phase = .armed →
      ∃ t, exec (.tileConfigReload tile) s = .next t ∧ (t.eng.bud tile).state = .absent ∧ t.eng.cut.run = none ∧
        t.eng.cut.phase = .none ∧ t.eng.cut.lastCode = 0x1A ∧ t.regs = s.regs) ∧
    (∀ run, s.eng.cut.run = some run → s.eng.cut.phase ≠ .armed → (s.eng.bud tile).state = .frozen → run.tiles.contains tile = true →
      ∃ t, exec (.tileConfigReload tile) s = .next t ∧ (t.eng.bud tile).state = .absent ∧ t.eng.cut.run = none ∧
        t.eng.cut.lastCode = 0x21 ∧ tile ∈ t.eng.cut.missing ∧ t.regs = s.regs)

/-- R45, R79, R89, R332, R397: the stem takes a bud's copy-before-write lines before its other lines, and its acknowledgements in order: one
of FREEZE is noted for its tile, one of SCRUB for the release, one of BEAT adds the counters that it carries to the set of the beat that it
names; bad parity, or a poisoned acknowledgement, raises the region's source. A line that no cut waits for is accepted and discarded.
R89, R108, R123: a line of a covered tile that the stem takes while a cut runs enters the front as the cut's, with its tenant and the epoch of
the target slot, and its source takes it; then whatever may go on goes on. -/
def Obligations.StemRootsTakeLinesAndAcknowledgements : Prop :=
  (
    ∀ (s : State) (tile : Nat), let b := s.eng.bud tile
      s.kit.hasTile tile = true →
      (∀ x, b.nextUp = some x → s.eng.upRoom s.kit s.regs tile x = true → s.eng.cut.run = none →
        (b.buffer ≠ [] → b.buffer.head? = some x) ∧
        (∃ t, exec (.stemLineAccept tile false []) s = .next t ∧ BudBecomes s t tile (b.accepted.settle s.kit tile) ∧
          (t.eng.bud tile).buffer = b.buffer.tail ∧ (b.buffer ≠ [] → (t.eng.bud tile).up = b.up) ∧
          (b.buffer = [] → (t.eng.bud tile).up = b.up.tail) ∧ Only [.buds] s t)) ∧
      (∀ a rest, b.acks = a :: rest → a.poisoned = false → ∃ t, exec (.stemAck tile false) s = .next t ∧
        BudBecomes s t tile { b with acks := rest } ∧ Only [.buds, .stem, .count] s t ∧
        (a.code = bcFreeze → t.eng.stem = { s.eng.stem with frozen := s.eng.stem.frozen ++ [tile] } ∧ t.eng.count = s.eng.count) ∧
        (a.code = bcScrub → t.eng.stem = { s.eng.stem with scrubbed := s.eng.stem.scrubbed + 1 } ∧ t.eng.count = s.eng.count) ∧
        (a.code = bcBeat → t.eng.stem = s.eng.stem ∧ t.eng.count.live = s.eng.count.live ∧ t.eng.count.shadow = s.eng.count.shadow ∧
          t.eng.count.latched = updFirst (fun c => c.beat.setWidth 52 == a.beat) (CounterSet.add a.counts) s.eng.count.latched)) ∧
      (∀ a rest bad, b.acks = a :: rest → (a.poisoned || bad) = true → foxImplemented s.kit (0x80 + s.kit.regionOf tile) = true →
        ∃ t, exec (.stemAck tile bad) s = .next t ∧ BudBecomes s t tile { b with acks := rest } ∧
          Raised s t (0x80 + s.kit.regionOf tile) (some b.tenant) ∧ Only [.buds, .fox, .count, .draws, .cycle] s t)) ∧
  (
    ∀ (s : State) (tile : Nat) (x : UpLine) (run : Running), s.kit.hasTile tile = true → (s.eng.bud tile).nextUp = some x →
      s.eng.upRoom s.kit s.regs tile x = true → s.eng.cut.run = some run → run.tiles.contains tile = true → s.eng.cut.phase ≠ .armed →
      let key := FrontKey.grid tile (x.kind == .context) x.line
      let e0 := s.eng.setBud tile (((s.eng.bud tile).accepted).settle s.kit tile)
      ∃ e1 : Engine, exec (.stemLineAccept tile false []) s =
          .next (withEng s ((e1.takeLine s.regs (.tile tile (x.kind == .context)) x.line (if x.kind = .cbw then 2 else 3) key
            { data := x.data, poison := false }).cutPump s.kit s.regs)) ∧
        Same [.front] e0 e1 ∧
        (e1.front.find key).map (fun l => (l.line.data, l.line.tenant, l.line.epoch, l.dirty)) = some (x.data, run.tenant, run.slot, false) ∧
        (e1.front.find key).map (fun l => l.part) = some (if x.kind = .cbw then .disp else .cut) ∧
        (∀ k, k ≠ key → e1.front.find k = s.eng.front.find k))

/-! ### The cut and the guard -/

/-- R71 to R73, R105, R327: a CUT to which no condition applies arms: its parameters are kept as the tenant's template, the XTS epoch of the
tenant rises by one, and ARM goes out. Its completion waits. -/
def Obligations.CutJobArms : Prop :=
  ∀ (s : State) (ring : BitVec 8) (x : Entry), let n := ring.toNat
    let e := taken s n
    let tn := s.regs.ringTenant n
    let p := cutParamsOf x.params
    Starts s n 1 x → Attested s n →
    NoneHolds (e.cutConds s.kit s.regs tn p) → cutParamsRsv x.params = false → e.stepPast p = false → e.mode ≠ .recovery → s.eng.cut.run = none →
    let template := tabSet tn.toNat p s.eng.cut.template
    ∃ t run, exec (.cut ring) s = .next t ∧
      t.eng.cut = { s.eng.cut with phase := .armed, run := some run, lastTenant := tn, step := p.step, template := template } ∧
      run.params = p ∧ run.tenant = tn ∧ run.job = some (x.jobId n) ∧ run.plan = false ∧ run.anyStep = false ∧
      run.xtsEpoch = (s.eng.kept tn.toNat).xtsNext ∧
      t.eng.kept tn.toNat = { s.eng.kept tn.toNat with xtsNext := (s.eng.kept tn.toNat).xtsNext + 1 } ∧
      (∀ m, m ≠ tn.toNat → t.eng.kept m = s.eng.kept m) ∧
      t.eng.stem.issued = s.eng.stem.issued ++ [{ code := bcArm, arg := tn.setWidth 64 }] ∧
      t.eng.out = s.eng.out ++ [.broadcast { code := bcArm, arg := tn.setWidth 64 } 0] ∧
      t.eng.rings.jobs = s.eng.rings.jobs ++ [{ id := x.jobId n, tenant := some tn, kind := .cut, spans := s.eng.cutSpans p }] ∧ Taken s t n ∧
      Only [.rings, .budget, .count, .cut, .body, .stem, .out] s t

/-- R75, R77, R78, R185, R187: the pulse of an armed cut takes the next epoch and the slot that the last commit does not hold, sends FREEZE at
cc 2 and RESUME at cc 18, makes every granule of its ranges undrained and pauses; then the body copy, the destinations and the guard begin.
How much of SYS_TIME has passed since the last edge is the model's free value: log 9. -/
def Obligations.PulseOfAnArmedCutFreezes : Prop :=
  ∀ (s : State) (num : Dword) (run : Running), let x := s.eng.kept run.tenant.toNat
    let tiles := s.eng.tilesOf run.tenant
    let bc (code : BitVec 4) : Broadcast := { code := code, arg := run.tenant.setWidth 64 }
    s.eng.power.sysReady = true → s.eng.power.state ≠ 2 → s.eng.cut.phase = .armed → s.eng.cut.run = some run → s.eng.absent s.kit = 0 →
    (run.anyStep = true ∨ num = run.params.step) →
    ∃ (e : Engine) (run' : Running),
      exec (.sysStep num) s = .next (withEng s (((e.beginCopy s.regs run').cutPump s.kit s.regs).guardPump s.kit)) ∧
      e.cut = { s.eng.cut with phase := (if tiles = [] then .drain else .pause), run := some run', step := num, lastStep := some num,
                               missing := [] } ∧
      run'.params = { run.params with step := num } ∧ run'.tenant = run.tenant ∧ run'.job = run.job ∧ run'.plan = run.plan ∧
      run'.tiles = tiles ∧ run'.epoch = x.nextEpoch ∧ run'.prevEpoch = run.prevEpoch ∧ run'.xtsEpoch = run.xtsEpoch ∧
      run'.freezeBeat = s.eng.beat.num ∧ run'.freezeTime = s.eng.freezeTime ∧ run'.slot = targetSlot run.params x ∧
      run'.image = run.image ∧ run'.resumeAt = s.eng.stem.issued.length + 2 ∧
      e.kept run.tenant.toNat = { x with nextEpoch := x.nextEpoch + 1 } ∧ (∀ m, m ≠ run.tenant.toNat → e.kept m = s.eng.kept m) ∧
      e.stem.issued = s.eng.stem.issued ++ [bc bcFreeze, bc bcResume] ∧ e.stem.frozen = [] ∧
      e.out = s.eng.out ++ [.broadcast (bc bcFreeze) 2, .broadcast (bc bcResume) 18] ++ toHost s (.sysResume (18 + s.kit.stemDepth)) ∧
      (∀ n, e.range n = if n ∈ rangesOf run.params.ranges then (s.eng.range n).map Range.arm else s.eng.range n) ∧
      Same [.cut, .stem, .body, .guard, .count, .out, .draws] s.eng e

/-- R74, R75, R371, R375: a pulse with no cut armed, or with a number below S, is answered at cc 8 and changes nothing but the last number; one
past S ends the armed cut with 0x14, and one that finds an ABSENT bud with 0x1A; before SYS_READY it is ignored, and in P2 it is only
answered. Every answer goes out while a half is granted (R30).
R79, R106, R107: a region whose FREEZE acknowledgements are missing raises 0x0A and ends the cut with 0x21, the extents of the tiles that are
missing recorded as poisoned; the deadline of a plan that is still ACTIVE ends the plan; a plan that waited arms its own cut. -/
def Obligations.OtherPulsesAndTimeoutsEndCuts : Prop :=
  (
    ∀ (s : State) (num : Dword),
      let answered := driven s (toHost s (.sysResume 8))
      let passed := driven (withEng s { s.eng with cut := { s.eng.cut with lastStep := some num } }) (toHost s (.sysResume 8))
      (s.eng.power.sysReady = false → exec (.sysStep num) s = .next s) ∧
      (s.eng.power.sysReady = true → s.eng.cut.phase ≠ .pause →
        (s.eng.power.state = 2 → exec (.sysStep num) s = .next answered) ∧
        (s.eng.power.state ≠ 2 → s.eng.cut.run = none → exec (.sysStep num) s = .next passed) ∧
        (s.eng.power.state ≠ 2 → ∀ run, s.eng.cut.run = some run →
          (s.eng.cut.phase ≠ .armed → exec (.sysStep num) s = .next passed) ∧
          (s.eng.cut.phase = .armed → s.eng.absent s.kit = 0 → run.anyStep = false → num.toNat < run.params.step.toNat →
            exec (.sysStep num) s = .next passed) ∧
          (s.eng.cut.phase = .armed → (0 < s.eng.absent s.kit ∨ (run.anyStep = false ∧ run.params.step.toNat < num.toNat)) →
            ∃ t, exec (.sysStep num) s = .next t ∧ t.eng.cut.run = none ∧ t.eng.cut.phase = .none ∧
              t.eng.cut.lastCode = (if 0 < s.eng.absent s.kit then 0x1A else 0x14) ∧ t.eng.cut.lastTenant = run.tenant ∧
              t.eng.cut.lastStep = some num ∧ t.regs = s.regs)))) ∧
  (
    (∀ (s : State) (run : Running) (region : Nat), s.eng.cut.run = some run → s.eng.cut.phase = .pause ∨ s.eng.cut.phase = .drain →
      region < s.kit.regions → s.eng.frozenShort s.kit run region = true →
      ∃ e t, exec .freezeAckTimeout s = .next t ∧ t = withEng s (e.endCut s.kit s.regs 0x21) ∧ Raised s (withEng s e) 0x0A (some run.tenant) ∧
        e.cut = { s.eng.cut with missing := s.eng.cut.missing ++ s.eng.unfrozen run } ∧ Same [.cut, .fox, .count, .draws, .cycle] s.eng e ∧
        t.eng.cut.run = none ∧ t.eng.cut.phase = .none ∧ t.eng.cut.lastCode = 0x21 ∧ t.eng.cut.lastTenant = run.tenant ∧
        t.eng.cut.missing = e.cut.missing) ∧
    (∀ s : State, s.eng.cut.planActive = true → s.eng.cut.planLeft = 0 → ∃ t, exec .preemptDeadline s = .next t ∧
      t.eng.cut.planActive = false ∧ t.eng.cut.planSource = 0 ∧ t.eng.cut.planWaits = false ∧ t.regs = s.regs) ∧
    (∀ s : State, s.eng.cut.planActive = true → s.eng.cut.planWaits = true → s.eng.cut.run = none →
      exec .planCutArm s = .next (withEng s
        (({ s.eng with cut := { s.eng.cut with planWaits := false } } : Engine).planArm s.kit s.regs))))

/-- R105, R106: a notice with the plan enabled and not yet ACTIVE makes it ACTIVE with its deadline, and arms a cut of its tenant from the
template, for any pulse. With no template source 0x0C is raised. A running cut of another tenant is waited for, an armed one ends with 0x63,
one of its own is adopted.
A notice with the plan disabled or already ACTIVE changes nothing in P0. -/
def Obligations.PreemptionNoticeArmsThePlansCut : Prop :=
  ∀ s : State, s.eng.power.state = 0 → s.eng.power.entering = false →
    let plan : Cut := { s.eng.cut with planActive := true, planTenant := s.regs.planTenant, planSource := 1, planLeft := s.regs.planDeadline }
    let tn := s.regs.planTenant
    (s.regs.planEnable = false ∨ s.eng.cut.planActive = true → exec .sysPreemptNFall s = .next s) ∧
    (s.regs.planEnable = true → s.eng.cut.planActive = false →
      (∀ p, s.eng.cut.run = none → tabFind tn.toNat s.eng.cut.template = some p →
        NoneHolds (({ s.eng with cut := plan } : Engine).cutConds s.kit s.regs tn p) →
        ∃ t run, exec .sysPreemptNFall s = .next t ∧ t.eng.cut = { plan with phase := .armed, run := some run, lastTenant := tn, step := p.step } ∧
          run.params = p ∧ run.tenant = tn ∧ run.job = none ∧ run.plan = true ∧ run.anyStep = true ∧
          (t.eng.kept tn.toNat).xtsNext = (s.eng.kept tn.toNat).xtsNext + 1 ∧ Only [.cut, .body, .stem, .out] s t) ∧
      (s.eng.cut.run = none → tabFind tn.toNat s.eng.cut.template = none →
        ∃ t, exec .sysPreemptNFall s = .next t ∧ t.eng.cut = plan ∧ Raised s t 0x0C (some tn) ∧ Only [.cut, .fox, .count, .draws, .cycle] s t) ∧
      (∀ run, s.eng.cut.run = some run →
        (run.tenant = tn → ∃ t, exec .sysPreemptNFall s = .next t ∧ Only [.cut] s t ∧ t.eng.cut =
          { plan with run := some { run with plan := true, anyStep := run.anyStep || s.eng.cut.phase == .armed } }) ∧
        (run.tenant ≠ tn → s.eng.cut.phase ≠ .armed → ∃ t, exec .sysPreemptNFall s = .next t ∧ Only [.cut] s t ∧
          t.eng.cut = { plan with planWaits := true }) ∧
        (run.tenant ≠ tn → s.eng.cut.phase = .armed → exec .sysPreemptNFall s = .next (withEng s
          ((({ s.eng with cut := plan } : Engine).endCut s.kit s.regs 0x63).planArm s.kit s.regs)))))

/-- R94 to R97, R392: a check of a line that no undrained granule of an armed range holds passes; one of an undrained granule is held, its
granule is hot and its chunk is queued for reading. A check that request-ready holds back only counts. -/
def Obligations.GuardHoldsUndrainedGranules : Prop :=
  ∀ (s : State) (client : Nat) (addr : BitVec 58) (htag : BitVec 4), s.kit.hasClient client = true →
    let a := 64 * addr.toNat
    let chunk := a / 4096 % 256
    (s.eng.grdReady s.kit client = false → ∃ t, exec (.grdCheck client addr htag) s = .next t ∧ Only [.count] s t ∧
      t.eng.counter Ctr.grdBpCc = s.eng.counter Ctr.grdBpCc + 1) ∧
    (s.eng.grdReady s.kit client = true →
      (s.eng.guard.find a = none → exec (.grdCheck client addr htag) s = .next (driven s [.verdict client htag false 4])) ∧
      (∀ n granule g, s.eng.guard.find a = some (n, granule) → s.eng.range n = some g →
        (g.armed = false ∨ g.bit granule = g.parity → exec (.grdCheck client addr htag) s = .next (driven s [.verdict client htag false 4])) ∧
        (∀ x, s.eng.guard.gran n granule = some x → x.hot = true → chunk ∈ x.chunks →
          exec (.grdCheck client addr htag) s = .next (driven s [.verdict client htag false 4])) ∧
        (g.armed = true → g.bit granule ≠ g.parity → (∀ x, s.eng.guard.gran n granule = some x → chunk ∉ x.chunks) →
          ∃ e, exec (.grdCheck client addr htag) s = .next (withEng s (e.guardPump s.kit)) ∧
            e.out = s.eng.out ++ [.verdict client htag true 4] ∧
            e.guard.holds = s.eng.guard.holds ++ [{ client := client, htag := htag, range := n, granule := granule, chunk := chunk }] ∧
            (∃ x, e.guard.gran n granule = some x ∧ x.hot = true ∧ x.prio1 = true ∧ (s.eng.guard.gran n granule = none → x.start = chunk)) ∧
            ((n, granule, chunk) ∈ e.guard.queue ∨ e.guard.chunkKnown n granule chunk = true) ∧ e.guard.ranges = s.eng.guard.ranges ∧
            e.counter Ctr.holds = s.eng.counter Ctr.holds + 1 ∧ Same [.guard, .out, .count] s.eng e)))

/-! ### Spares, self-test, the noise source -/

/-- R157, R331, R356, R357: a SPARE_CTRL write with GO that names a unit in service replaces it by the lowest free spare, marks the replaced
physical unit BAD and leaves LAST_CODE 0x00; with no free spare it leaves 0x57, with an undefined KIND or unit 0x11, and changes nothing
else. Without GO it does nothing. -/
def Obligations.SpareControlReplacesUnits : Prop :=
  ∀ (s : State) (value : Word), s.eng.cfgOpen = true →
    let kind := bits 27 24 value.toNat
    let l := bits 8 0 value.toNat
    let coded (c : Code) : State := driven (withEng s { s.eng with units := { s.eng.units with spareCode := c } }) [.cfgDone]
    (value.getLsbD 31 = false → exec (.spareCtrl value) s = .next (driven s [.cfgDone])) ∧
    (value.getLsbD 31 = true →
      (kind ≠ 1 → spareKind kind = none → exec (.spareCtrl value) s = .next (coded 0x11)) ∧
      (kind = 1 → 256 ≤ l → exec (.spareCtrl value) s = .next (coded 0x11)) ∧
      (kind = 1 → l < 256 → s.eng.body.freeBanks = 0 → (∀ m, s.eng.bulb.remap = some m → m.retire = false) →
        exec (.spareCtrl value) s = .next (coded 0x57)) ∧
      (∀ m, kind = 1 → l < 256 → s.eng.bulb.remap = some m → m.retire = true → exec (.spareCtrl value) s = .next (coded 0x58)) ∧
      (∀ l' target, kind = 1 → l < 256 → s.eng.bulb.remap = none → s.eng.body.logicalOf (s.eng.body.map l) = some l' →
        s.eng.body.leastWritten (s.eng.body.banksIn .free) = some target →
        let m : Remap := { logical := l', source := s.eng.body.map l, target := target, pointer := 0, retire := true }
        ∃ t, exec (.spareCtrl value) s = .next t ∧ t.eng.bulb = { s.eng.bulb with remap := some m } ∧ t.eng.units.spareCode = 0 ∧
          t.eng.units.spareBusy = true ∧ Only [.bulb, .units, .out] s t) ∧
      (∀ u, kind ≠ 1 → spareKind kind = some u →
        (u.logical ≤ l → exec (.spareCtrl value) s = .next (coded 0x11)) ∧
        (l < u.logical → freeSpares u s.eng.units s.eng.body = [] → exec (.spareCtrl value) s = .next (coded 0x57)) ∧
        (∀ p rest, l < u.logical → (s.eng.units.at u l).withdrawn = false → freeSpares u s.eng.units s.eng.body = p :: rest →
          ∃ t, exec (.spareCtrl value) s = .next t ∧ t.eng.units.at u l = { phys := p, withdrawn := false } ∧
            (∀ m, m ≠ l → t.eng.units.at u m = s.eng.units.at u m) ∧ (∀ v m, v ≠ u → t.eng.units.at v m = s.eng.units.at v m) ∧
            t.eng.body = s.eng.body.markBad u (s.eng.units.at u l).phys ∧ t.eng.units.spareCode = 0 ∧
            t.eng.counter Ctr.sparesUsed = s.eng.counter Ctr.sparesUsed + 1 ∧ Only [.units, .body, .count, .fox, .draws, .out, .cycle] s t)))

/-- R432, R330: the write that carries the TEST of FRONT_MARCH, PIPELINE_KAT or STEM_LOOP and GO starts that test on an idle engine whose
slots are all FREE; the end of a test leaves its code. The start-up test of the noise source, and a later recovery, make it healthy and let
the draws that waited go on. -/
def Obligations.SelfTestsAndNoiseTestsRun : Prop :=
  (∀ (s : State) (c : Instr) (value : Word), (value.toNat % 16, c) ∈ [(1, .frontMarch value), (2, .pipelineKat value), (3, .stemLoop value)] →
    s.eng.cfgOpen = true →
    (value.getLsbD 31 = true → s.eng.selfTest.running = false → s.eng.allFree = true → s.eng.idle s.regs = true →
      ∃ t, exec c s = .next t ∧ Only [.selfTest, .out] s t ∧ t.eng.out = s.eng.out ++ [.cfgDone] ∧
        t.eng.selfTest = { running := true, ctrl := value.setWidth 4, last := value.setWidth 4, code := 0 }) ∧
    (value.getLsbD 31 = false ∨ s.eng.selfTest.running = true ∨ s.eng.allFree = false ∨ s.eng.idle s.regs = false →
      ∃ t, exec c s = .next t ∧ Only [.selfTest, .out] s t ∧ t.eng.selfTest = { s.eng.selfTest with ctrl := value.setWidth 4 })) ∧
  (∀ (s : State) (code : Code), s.eng.selfTest.running = true →
    (s.eng.selfTest.last.toNat, code) ∈ [(1, 0), (1, 0x20), (2, 0), (2, 0x23), (2, 0x45), (3, 0), (3, 0x21)] →
    exec (.selfTestEnd code) s = .next (withEng s { s.eng with selfTest := { s.eng.selfTest with running := false, code := code } })) ∧
  (∀ s : State, s.eng.power.noiseOk = false → exec .noiseStartupDone s = .next (withEng s
    (({ s.eng with units := { s.eng.units with noise := .healthy }, power := { s.eng.power with noiseOk := true } } : Engine).releaseDraws
      s.kit s.regs))) ∧
  (∀ s : State, s.eng.power.noiseOk = true → s.eng.units.noise = .failed → exec .noiseHealthy s = .next (withEng s
    (({ s.eng with units := { s.eng.units with noise := .healthy } } : Engine).releaseDraws s.kit s.regs)))

/-! ### The body -/

/-- R116, R118, R129, R188: a body write that does not verify is tried again, up to three times, each attempt counted for its bank; one that
verifies is stored, and what waited for it goes on; the COMMIT_STATE write commits the cut. A vault line that fails for the fourth time counts
a failure for its bank, raises 0x14, is not stored, and is settled with 0x26. -/
def Obligations.BodyWritesAreVerifiedOrRetried : Prop :=
  ∀ (s : State) (w : BodyWrite) (rest : List BodyWrite), s.eng.bulb.writes = w :: rest →
    let bank := s.eng.writeBank w.use
    let line (key : Nat) : Option Line := s.eng.body.line key
    (w.attempts < 3 → ∃ t, exec (.bodyWriteComplete false) s = .next t ∧
      t.eng.bulb = { s.eng.bulb with writes := { w with attempts := w.attempts + 1 } :: rest } ∧
      t.eng.counter Ctr.writeRetries = s.eng.counter Ctr.writeRetries + 1 ∧ t.eng.body = s.eng.body.countWrite bank ∧
      Only [.bulb, .count, .body] s t) ∧
    (∀ n ver, w.use = .vault n ver → let key := s.eng.bodyKey n
      (∃ e, exec (.bodyWriteComplete true) s = .next (withEng s (e.settleLine s.kit s.regs (.body n) ver 0)) ∧
        (w.line ≠ Line.empty → e.body.line key = some w.line) ∧ (∀ m, m ≠ key → e.body.line m = line m) ∧
        (e.body.bank (key / bankLines)).writes = (s.eng.body.bank (key / bankLines)).writes + 1 ∧
        e.bulb = { s.eng.bulb with writes := rest } ∧ Same [.body, .bulb] s.eng e) ∧
      (3 ≤ w.attempts → ∃ e, exec (.bodyWriteComplete false) s = .next (withEng s (e.settleLine s.kit s.regs (.body n) ver 0x26)) ∧
        Raised s (withEng s e) 0x14 (some w.line.tenant) ∧ e.body = s.eng.body.countWrite bank ∧
        (e.bankErrors bank).writeFail = (s.eng.bankErrors bank).writeFail + 1 ∧ e.bulb.writes = rest ∧
        Same [.body, .bulb, .fox, .count, .draws, .cycle] s.eng e)) ∧
    (∀ n, w.use = .copy n → let key := s.eng.bodyKey n
      ∃ e, exec (.bodyWriteComplete true) s =
          .next (withEng s (((e.unfail (.body n)).settleLine s.kit s.regs (.body n) (s.eng.verOf (.body n)) 0).copyNext s.regs)) ∧
        (w.line ≠ Line.empty → e.body.line key = some w.line) ∧ (∀ m, m ≠ key → e.body.line m = line m) ∧
        e.bulb = { s.eng.bulb with writes := rest } ∧ Same [.body, .bulb] s.eng e) ∧
    (∀ u run, w.use = .commitState u → s.eng.cut.run = some run →
      ∃ e, exec (.bodyWriteComplete true) s = .next (withEng s ((e.commitCut s.kit s.regs run).pumpWindows s.kit s.regs)) ∧
        (let x := e.kept u; x.valid = true ∧ x.lastSlot = run.slot ∧ x.lastEpoch = run.epoch ∧ x.lastStep = run.params.step) ∧
        (∀ m, m ≠ u → e.kept m = s.eng.kept m) ∧ e.body.lines = s.eng.body.lines ∧
        (e.body.bank bank).writes = (s.eng.body.bank bank).writes + 1 ∧ Same [.body, .bulb] s.eng e)

/-- R130 to R134: a bank that meets a retirement criterion is copied to the least written FREE bank, and is WORN where there is none; the
switch maps the logical bank to the target and leaves the source RETIRED, or FREE after a rotation. No stored line is lost by the switch.
R129, R135, R137: the counts of a bank start again with the error window; a calibration pass starts at its first test line, and its even
beats each make one test write or test read for w Bulb cycles; after the eighth access to a bank its pulse step is set as it was found. -/
def Obligations.BanksAreRetiredAndCalibrated : Prop :=
  (
    (∀ (s : State) (bank l : Nat), bank < 272 → (s.eng.body.bank bank).state = .inUse → s.eng.retireDue s.regs bank = true →
      s.eng.body.logicalOf bank = some l →
      (∀ target, s.eng.body.leastWritten (s.eng.body.banksIn .free) = some target →
        let m : Remap := { logical := l, source := bank, target := target, pointer := 0, retire := true }
        (s.eng.bulb.remap = none →
          exec (.bankRetire bank) s = .next (withEng s { s.eng with bulb := { s.eng.bulb with remap := some m } })) ∧
        (∀ old, s.eng.bulb.remap = some old → old.retire = false →
          exec (.bankRetire bank) s = .next (withEng s { s.eng with
            body := s.eng.body.foldBack old, bulb := { s.eng.bulb with remap := some m } })) ∧
        (∀ old, s.eng.bulb.remap = some old → old.retire = true → old.source ≠ bank → s.eng.bulb.due.contains bank = false →
          exec (.bankRetire bank) s = .next (withEng s { s.eng with bulb := { s.eng.bulb with due := s.eng.bulb.due ++ [bank] } }))) ∧
      (s.eng.body.banksIn .free = [] → ∃ t, exec (.bankRetire bank) s = .next t ∧ (t.eng.body.bank bank).state = .worn ∧
        (∀ p, p ≠ bank → t.eng.body.bank p = s.eng.body.bank p) ∧ t.eng.body.lines = s.eng.body.lines ∧ Only [.body] s t)) ∧
    (∀ (s : State) (p q l : Nat), s.eng.bulb.remap = none → s.eng.body.mostWritten (s.eng.body.banksIn .inUse) = some p →
      s.eng.body.leastWritten (s.eng.body.banksIn .free) = some q → s.eng.body.logicalOf p = some l →
      s.regs.rotateGap * 2 ^ 32 < (s.eng.body.bank p).writes.toNat - (s.eng.body.bank q).writes.toNat →
      exec .wearRotate s = .next (withEng s { s.eng with bulb := { s.eng.bulb with
        remap := some { logical := l, source := p, target := q, pointer := 0, retire := false } } })) ∧
    (∀ (s : State) (m : Remap), s.eng.bulb.remap = some m → bankLines ≤ m.pointer → m.source ≠ m.target →
      ∃ e, exec .remapSwitch s = .next (withEng s e.nextRetire) ∧ e.bulb.remap = none ∧ e.body.map m.logical = m.target ∧
        (∀ l, l ≠ m.logical → e.body.map l = s.eng.body.map l) ∧ (e.body.bank m.target).state = .inUse ∧
        (e.body.bank m.source).state = (if m.retire then .retired else .free) ∧
        (∀ p, p ≠ m.source → p ≠ m.target → e.body.bank p = s.eng.body.bank p) ∧ e.body.lines = s.eng.body.lines ∧
        e.body.kept = s.eng.body.kept ∧ Same [.body, .bulb, .units, .count, .fox, .draws, .vault, .front, .cycle] s.eng e)) ∧
  (
    (∀ s : State, 43200000000 ≤ s.eng.beat.sinceWindow → ∃ t, exec .errorWindowEnd s = .next t ∧
      (∀ p, t.eng.bankErrors p = ⟨0, 0, 0⟩) ∧ t.eng.beat = { s.eng.beat with sinceWindow := 0 } ∧
      t.eng.bulb = { s.eng.bulb with errors := [] } ∧ Only [.bulb, .beat] s t) ∧
    (∀ (s : State) (temp : BitVec 8) (os : List CalOutcome), 500000 ≤ s.eng.beat.sinceCal →
      exec (.calibrationPass temp os) s = .next (withEng s { s.eng with
        bulb := { s.eng.bulb with vwbGoal := Config.vwbTarget temp, cal := some { outcomes := os, pos := 0 } },
        beat := { s.eng.beat with sinceCal := 0 } })) ∧
    (∀ (s : State) (c : Calibration) (o : CalOutcome), s.eng.bulb.cal = some c → s.eng.beat.num.getLsbD 0 = false →
      writeCc s.eng.beat.cc ≤ s.eng.budget.bulb → c.pos < 2176 →
      let e := s.eng.calBeat s.kit s.regs
      let p := c.pos / 8
      let last := c.pos % 8 = 7
      e.bulb.cal = (if c.pos = 2175 then none else some { c with pos := c.pos + 1 }) ∧
      e.budget = { s.eng.budget with bulb := s.eng.budget.bulb - writeCc s.eng.beat.cc } ∧ e.body.lines = s.eng.body.lines ∧
      (e.body.bank p).writes = (s.eng.body.bank p).writes + (if c.pos % 2 = 0 then 1 else 0) ∧
      (∀ q, q ≠ p → e.body.bank q = s.eng.body.bank q) ∧ Same [.body, .bulb, .budget, .fox, .count, .draws, .cycle] s.eng e ∧
      (last → (c.outcomes.find? fun x => x.bank == p) = some o → (e.body.bank p).step = o.step ∧
        (o.failed = true → (e.bankErrors p).writeFail = (s.eng.bankErrors p).writeFail + 1 ∧ Raised s (withEng s e) 0x18 none) ∧
        (o.failed = false → e.fox = s.eng.fox)) ∧
      (¬ last → (e.body.bank p).step = (s.eng.body.bank p).step ∧ e.fox = s.eng.fox)))

/-! ### Rings -/

/-- R261 to R264, R267: a doorbell of an inactive ring, or with a value out of range, is ignored, counted and raises 0x2C
(its TENANT is the model's reading: log 73). A good SQ_TAIL_DB announces its lines, which are read unless one waits on its PHASE, and a line
that spells a one-line entry is framed as the ring's newest entry; a good CQ_HEAD_DB frees the completions it passes. -/
def Obligations.DoorbellsMoveTheRingPointers : Prop :=
  ∀ (s : State) (ring : BitVec 8) (value : Word), s.eng.cfgOpen = true → let n := ring.toNat
    let g := s.eng.ring n
    let t := value.toNat
    let ahead (x : Nat) : Nat := (x + s.regs.sqSize n - g.sqHeadNow (s.regs.sqSize n)) % s.regs.sqSize n
    let freed := (t + s.regs.cqSize n - g.cqHead) % s.regs.cqSize n
    (∀ lines, (s.regs.ringActive n = false ∨ s.regs.sqSize n ≤ t ∨ ahead t < ahead g.tail) →
      ∃ u, exec (.sqTailDb ring value lines) s = .next u ∧ Raised s u 0x2C (s.regs.ringConcerned n) ∧
        u.eng.counter Ctr.badDoorbells = s.eng.counter Ctr.badDoorbells + 1 ∧ u.eng.out = s.eng.out ++ [.cfgDone] ∧
        Only [.count, .fox, .draws, .out, .cycle] s u) ∧
    (∀ lines, s.regs.ringActive n = true → t < s.regs.sqSize n → ahead g.tail ≤ ahead t → s.eng.power.state = 0 → s.eng.power.entering = false →
      let told := s.eng.setRing n { g with tail := t }
      exec (.sqTailDb ring value lines) s = .next (driven
        (withEng s (if g.phaseWait = none then told.frameLines s.kit s.regs n lines else told)) [.cfgDone])) ∧
    (∀ d : LineData, s.regs.ringActive n = true → s.regs.ringChained n = false → 2 ≤ s.regs.sqSize n → g.tail < s.regs.sqSize n →
      t = (g.tail + 1) % s.regs.sqSize n → ahead g.tail ≤ ahead t → s.eng.power.state = 0 → s.eng.power.entering = false →
      g.fetch = g.tail → g.chain = [] → g.failing = none → g.phaseWait = none → s.eng.canFetch s.regs n = true →
      (headerOf d).phase = g.phase → (headerOf d).lines = 1 → (∃ plen, jobShape (headerOf d).opcode = some (plen, 1)) →
      ∃ u, exec (.sqTailDb ring value [.ok d]) s = .next u ∧ (u.eng.ring n).ready = g.ready ++ [entryOf false g.fetch [d]] ∧
        (u.eng.ring n).fetch = t ∧ (u.eng.ring n).tail = t ∧ (u.eng.ring n).cq = g.cq ∧ (∀ m, m ≠ n → u.eng.ring m = s.eng.ring m) ∧
        u.eng.out = s.eng.out ++ [.cfgDone] ∧ Only [.rings, .out] s u) ∧
    ((s.regs.ringActive n = false ∨ s.regs.cqSize n ≤ t ∨ (g.cq.filter fun c => c.written).length < freed) →
      ∃ u, exec (.cqHeadDb ring value) s = .next u ∧ Raised s u 0x2C (s.regs.ringConcerned n) ∧
        u.eng.counter Ctr.badDoorbells = s.eng.counter Ctr.badDoorbells + 1 ∧ u.eng.out = s.eng.out ++ [.cfgDone] ∧
        Only [.count, .fox, .draws, .out, .cycle] s u) ∧
    (s.regs.ringActive n = true → t < s.regs.cqSize n → freed ≤ (g.cq.filter fun c => c.written).length →
      ∃ u, exec (.cqHeadDb ring value) s = .next u ∧ u.eng.ring n = { g with cqHead := t, cq := g.cq.drop freed } ∧
        (∀ m, m ≠ n → u.eng.ring m = s.eng.ring m) ∧ u.eng.out = s.eng.out ++ [.cfgDone] ∧ Only [.rings, .out] s u)

/-- R263, R265, R268, R269, R278: a line with the wrong PHASE is read again once a beat, up to 16 times, and then fails its entry; a completion whose write
failed is written again; a notice and a plan completion take a free completion entry; a fenced entry is released when every earlier job has
its completion written. -/
def Obligations.RingServiceGoesOn : Prop :=
  ∀ (s : State) (ring : BitVec 8), let n := ring.toNat
    let g := s.eng.ring n
    (∀ (m : Nat) (d : LineData) (rest : List LineRead), g.phaseWait = some m →
      let again : Instr := .phaseRetry (.ring ring) (.ok d :: rest)
      let waiting : Engine := (s.eng.bump Ctr.phaseRetries 1).setRing n { g with phaseWait := some (m + 1), phaseBeat := s.eng.beat.num }
      (g.phaseBeat = s.eng.beat.num → exec again s = .next s) ∧
      (g.phaseBeat ≠ s.eng.beat.num → s.eng.phaseBad s.regs n (.ok d) = true → m + 1 < 16 → exec again s = .next (withEng s waiting)) ∧
      (g.phaseBeat ≠ s.eng.beat.num → s.eng.phaseBad s.regs n (.ok d) = true → 16 ≤ m + 1 →
        exec again s = .next (withEng s (waiting.failPhase s.kit s.regs n d))) ∧
      (g.phaseBeat ≠ s.eng.beat.num → s.eng.phaseBad s.regs n (.ok d) = false → ∃ e,
        e.ring n = { g with phaseWait := none, phaseBeat := s.eng.beat.num } ∧ Same [.rings, .count] s.eng e ∧
        exec again s = .next (withEng s (e.frameLines s.kit s.regs n (.ok d :: rest))))) ∧
    (∀ addr bytes, g.cqOut = some (addr, bytes) → g.cqFailed = true → ∃ t tag, exec (.completionRetry ring) s = .next t ∧
      t.eng.ring n = { g with cqFailed := false } ∧ (∀ m, m ≠ n → t.eng.ring m = s.eng.ring m) ∧
      t.eng.out = s.eng.out ++ [.memWrite (channelOf s.kit addr) tag addr bytes [] 1] ∧
      (∃ q, t.eng.mem.reqs = s.eng.mem.reqs ++ [q] ∧ q.isWrite = true ∧ q.tag = tag ∧ q.addr = addr ∧ q.use = .completion n) ∧
      Only [.rings, .mem, .out] s t) ∧
    (s.regs.ringActive n = true → s.eng.cqFree s.regs n = true →
      (∀ cmdId index addr position stream, (g.waiting.find? fun w => w.isHalt) = some (.halt cmdId index addr position stream) →
        let bytes := cqBytes cmdId 0x28 g.cqPhase true false index (g.sqHead (s.regs.sqSize n))
          (natLE 8 addr.toNat ++ natLE 6 position ++ natLE 2 stream)
        ∃ t, exec (.haltNotice ring) s = .next t ∧ (t.eng.ring n).waiting = g.waiting.erase (.halt cmdId index addr position stream) ∧
          (t.eng.ring n).cq = g.cq ++ [{ bytes := bytes, irq := true, entry := none, written := false }] ∧ Only [.rings, .mem, .out] s t) ∧
      (∀ code result, (g.waiting.find? fun w => !w.isHalt) = some (.plan code result) →
        let bytes := cqBytes (BitVec.allOnes 64) code g.cqPhase false true 0xFFFF (g.sqHead (s.regs.sqSize n)) result
        ∃ t, exec (.planCompletion ring) s = .next t ∧ (t.eng.ring n).waiting = g.waiting.erase (.plan code result) ∧
          (t.eng.ring n).cq = g.cq ++ [{ bytes := bytes, irq := false, entry := none, written := false }] ∧ Only [.rings, .mem, .out] s t)) ∧
    (∀ x rest, g.ready = x :: rest → x.fence = true →
      (s.eng.fenceMet n = true → ∃ t, exec (.jobFenceRelease ring) s = .next t ∧
        t.eng.ring n = { g with ready := { x with fence := false } :: rest } ∧ (∀ m, m ≠ n → t.eng.ring m = s.eng.ring m) ∧
        Only [.rings] s t) ∧
      (s.eng.fenceMet n = false → exec (.jobFenceRelease ring) s = .next s))

/-- R316: a job of a FREE slot is refused with 0x40, whichever it is and whatever else is wrong with it, and does nothing else. The RESULT of a
RESTORE then names no entry (R266). -/
def Obligations.JobsOfFreeSlotsAreRefused : Prop :=
  ∀ (c : Instr) (ring : BitVec 8) (p : Entry → Bool) (s : State) (x : Entry), ringJob c = some (ring, p) →
    Starts s ring.toNat x.opcode x → p x = true → (s.eng.tenant (s.regs.ringTenant ring.toNat).toNat).state = .free →
    ∃ t, exec c s = .next t ∧ Taken s t ring.toNat ∧
      Completed s t ring.toNat x 0x40 (if x.opcode = 3 then zeroBytes 4 ++ natLE 4 0xFFFFFFFF else []) ∧
      Only [.rings, .budget, .count, .mem, .out, .vault] s t

/-- R255, R257, R275: a RING_CREATE to which no condition applies makes the lowest free ring from 1 active with its bases, sizes, tenant,
weight and burst, and completes with that number; a refused one changes no register. -/
def Obligations.RingCreateMakesTheLowestFreeRing : Prop :=
  ∀ (s : State) (ring : BitVec 8) (x : Entry), let n := ring.toNat
    let p := ringParamsOf x.params
    Starts s n 0x0C x →
    (∀ m, NoneHolds ((taken s n).ringConds s.regs n x) → s.regs.freeRing = some m →
      ∃ t, exec (.ringCreate ring) s = .next t ∧ t.regs.ringActive m = true ∧ t.regs.sqBase m = p.sqBase ∧ t.regs.cqBase m = p.cqBase ∧
        t.regs.sqSize m = 2 ^ p.sqLog ∧ t.regs.cqSize m = 2 ^ p.cqLog ∧ (t.regs.ringTenant m).toNat = p.tenant ∧
        t.regs.ringWeight m = p.weight ∧ t.regs.ringBurst m = p.burst ∧
        (∀ off, off < ringOff m ∨ ringOff m + 0x18 ≤ off → t.regs.word off = s.regs.word off ∧ t.regs.shadowWord off = s.regs.shadowWord off) ∧
        (s.eng.vault.drains = [] → t.eng.ring m = Ring.fresh) ∧ Completed s t n x 0 (natLE 1 m) ∧ Taken s t n ∧ t.kit = s.kit ∧
        t.pending = s.pending ∧ Same [.rings, .budget, .count, .mem, .out, .vault] s.eng t.eng) ∧
    (∀ code, judge ((taken s n).ringConds s.regs n x) = some code → ∃ t, exec (.ringCreate ring) s = .next t ∧ Completed s t n x code [] ∧
      Taken s t n ∧ Only [.rings, .budget, .count, .mem, .out, .vault] s t)

/-! ### Tenants -/

/-- R313 to R315: ADMIT gives the lowest FREE slot to its TENANT_UID with the initial policy; the same owner finds the stored values as they
were, another one finds them cleared. -/
def Obligations.AdmitTakesTheLowestFreeSlot : Prop :=
  ∀ (s : State) (ring : BitVec 8) (x : Entry) (m : Nat), let uid := BitVec.ofNat 128 (leAt 24 16 x.params)
    ring.toNat = 0 → Starts s 0 7 x → isKeyBind 1 x = true →
    leAt 24 16 x.params ≠ 0 → zeroAt 1 23 x.params = true → zeroAt 40 8 x.params = true → s.eng.freeSlot = some m →
    s.eng.uidHeld (leAt 24 16 x.params) = false → s.eng.selfTest.running = false →
    (s.eng.tenant m).state = .free ∧ (∀ n, n < m → (s.eng.tenant n).state ≠ .free) ∧
    ∃ t, exec (.keyBindAdmit ring []) s = .next t ∧ t.eng.tenant m = { Tenant.none with state := .admitted, uid := uid, policy := 1 } ∧
      (∀ n, n ≠ m → t.eng.tenant n = s.eng.tenant n ∧ t.eng.kept n = s.eng.kept n) ∧
      ((s.eng.kept m).owner = uid → t.eng.kept m = s.eng.kept m ∧ Completed s t 0 x 0 (natLE 1 m) ∧ Taken s t 0 ∧
        Only [.rings, .budget, .count, .mem, .out, .vault, .tenants] s t) ∧
      ((s.eng.kept m).owner ≠ uid → t.eng.kept m = (s.eng.kept m).newOwner uid ∧ t.regs = s.regs)

/-- R317, R325, R332, R421: an accepted RELEASE starts the switch of its slot: its keys are gone, its policy is 0, no front line, recipe, binding
set or guard range of it is left, its registers hold their reset values, and no other register changes. -/
def Obligations.ReleaseEmptiesTheSlot : Prop :=
  ∀ (s : State) (ring : BitVec 8) (x : Entry) (m : Nat), let tn := BitVec.ofNat 4 m
    let gone := releasedWords s.regs tn
    ring.toNat = 0 → Starts s 0 7 x → isKeyBind 2 x = true → leAt 1 1 x.params = m → m < 16 → zeroAt 2 46 x.params = true →
    (s.eng.tenant m).state ≠ .free → (s.eng.tenant m).releasing = none →
    ∃ t, exec (.keyBindRelease ring) s = .next t ∧ (t.eng.tenant m).sealKey = none ∧ (t.eng.tenant m).pollenKey = none ∧
      (t.eng.tenant m).session = false ∧ (t.eng.tenant m).sessionKeys = none ∧ (t.eng.tenant m).policy = 0 ∧ (∀ l ∈ t.eng.front.lines, l.line.tenant ≠ tn) ∧
      (∀ y ∈ t.eng.recipes.held, y.2.tenant ≠ tn) ∧ (∀ y ∈ t.eng.recipes.sets, y.2.tenant ≠ tn) ∧
      (∀ y ∈ t.eng.guard.ranges, y.2.owner ≠ tn) ∧ tabFind m t.eng.cut.template = none ∧
      (∀ off ∈ gone, t.regs.word off = (resetWord off).toNat ∧ t.regs.shadowWord off = (resetWord off).toNat) ∧
      (∀ off, off ∉ gone → t.regs.word off = s.regs.word off ∧ t.regs.shadowWord off = s.regs.shadowWord off) ∧
      t.kit = s.kit ∧ t.pending = s.pending

/-- R319 to R321, R325, R329, R330: the responder of a slot that is not FREE answers every request of the subset. A session exists from a FINISH
that verifies, with the leaf key that the TENANT_UID names, until END_SESSION, which clears its keys; a request that needs a session is answered
without one with UnexpectedRequest. A signed response carries a signature that the identity's public key verifies; where none can be made
nothing is answered and 0x23 is raised; while the noise source is not healthy it waits. A FREE slot answers nothing.
R313, R319: KEY_BIND with OP SPDM hands the request that it names to the slot's responder, and its completion waits for the write of the
response to host memory. What DMTF numbers is the model's reading: log 90. -/
def Obligations.ResponderAnswersTheSubset : Prop :=
  (
    ∀ (s : State) (slot : TenantNo), let x := s.eng.tenant slot.toNat
      let tells (kind : SpdmRsp) (bs : List Byte) : State := driven s [.spdm slot kind bs]
      let set (y : Tenant) : Engine := s.eng.setTenant slot.toNat y
      let digest := Config.spdmTranscript s.eng.draws
      let signs (c : Instr) (kind : SpdmRsp) (bs : List Byte) (y : Tenant) : Prop := ∃ t, exec c s = .next t ∧
        (∀ m, m ≠ slot.toNat → t.eng.tenant m = s.eng.tenant m) ∧
        (∀ sig, (s.eng.signDigest digest).1 = some sig → ecdsaVerify (publicKey (s.eng.keys.identity.getD 0)) digest sig.1 sig.2 = true ∧
          t.eng.out = s.eng.out ++ [.spdm slot kind (bs ++ natLE 48 sig.1.toNat ++ natLE 48 sig.2.toNat)] ∧
          t.eng.counter Ctr.signatures = s.eng.counter Ctr.signatures + 1 ∧ t.eng.tenant slot.toNat = y ∧
          Only [.out, .count, .draws, .tenants] s t) ∧
        ((s.eng.signDigest digest).1 = none → Raised s t 0x23 (some slot) ∧ Only [.count, .draws, .fox, .cycle] s t)
      (x.state = .free → ∀ c ∈ [Instr.getVersion slot, .getCapabilities slot, .negotiateAlgorithms slot, .getDigests slot, .keyUpdate slot,
        .endSession slot, .getState slot], exec c s = .next s) ∧
      (x.state ≠ .free → x.releasing = none →
        exec (.getVersion slot) s = .next (tells .version [0x13]) ∧
        exec (.getCapabilities slot) s = .next (tells .capabilities (natLE 4 0x43F6 ++ natLE 4 4096 ++ natLE 4 4096)) ∧
        exec (.negotiateAlgorithms slot) s = .next (tells .algorithms algorithmBytes) ∧
        exec (.getDigests slot) s = .next (tells .digests (natLE 48 (sha3_384 s.eng.keys.chainBytes).toNat)) ∧
        (∀ cert offset length, exec (.getCertificate slot cert offset length) s =
          .next (if cert = 0 then tells .certificate (slice offset length s.eng.keys.chainBytes) else tells .otherError [])) ∧
        (∀ nonce, s.eng.units.noise = .healthy → signs (.challenge slot nonce) .challengeAuth (natLE 32 nonce.toNat) x) ∧
        (∀ nonce, s.eng.units.noise ≠ .healthy → exec (.challenge slot nonce) s = .next s) ∧
        (∀ index inSession, exec (.getMeasurements slot index inSession false) s =
          .next (if index ≤ 6 ∨ index = 255 ∨ (index = 7 ∧ inSession = true ∧ x.session = true)
                 then tells .measurements (s.eng.measured s.kit s.regs slot index (inSession && x.session)) else tells .otherError [])) ∧
        (∀ index inSession, index ≤ 6 → s.eng.units.noise = .healthy → signs (.getMeasurements slot index inSession true) .measurements
          (s.eng.measured s.kit s.regs slot index (inSession && x.session)) x) ∧
        (s.eng.units.noise = .healthy → ∃ keys, signs (.keyExchange slot true) .keyExchange []
          { x with exchanging := true, session := false, sessionKeys := some keys }) ∧
        (s.eng.units.noise = .healthy → exec (.keyExchange slot false) s = .next (tells .otherError [])) ∧
        (∀ leaf, x.exchanging = true → (sha3_384 (natLE 96 leaf.toNat)).setWidth 128 = x.uid →
          exec (.finish slot leaf true) s =
            .next (driven (withEng s (set { x with exchanging := false, session := true })) [.spdm slot .finish []])) ∧
        (∀ leaf authentic, x.exchanging = true → authentic = false ∨ (sha3_384 (natLE 96 leaf.toNat)).setWidth 128 ≠ x.uid →
          exec (.finish slot leaf authentic) s = .next (driven (withEng s
            (set { x with exchanging := false, session := false, sessionKeys := none })) [.spdm slot .otherError []])) ∧
        (∀ leaf authentic, x.exchanging = false → exec (.finish slot leaf authentic) s = .next (tells .unexpected [])) ∧
        (x.session = true →
          exec (.keyUpdate slot) s = .next (driven (withEng s
            (set { x with sessionKeys := x.sessionKeys.map Config.spdmNextKeys })) [.spdm slot .keyUpdate []]) ∧
          exec (.endSession slot) s = .next (driven (withEng s
            (set { x with exchanging := false, session := false, sessionKeys := none })) [.spdm slot .endSession []])) ∧
        (x.session = false → exec (.keyUpdate slot) s = .next (tells .unexpected []) ∧ exec (.endSession slot) s = .next (tells .unexpected [])))) ∧
  (
    ∀ (s : State) (ring : BitVec 8) (x : Entry) (q : SpdmReq), let n := ring.toNat
      let tn := s.regs.ringTenant n
      let a := (taken s n).respond s.kit s.regs tn q
      let e : Engine := a.2.2.emit (.spdm tn a.1 a.2.1)
      let bs := (Config.spdmBytes tn.toNat a.1.no a.2.1 e.draws).take 4096
      let ends (req : SpdmRead) (e : Engine) (code : Code) (result : List Byte) : Prop :=
        exec (.keyBindSpdm ring req) s = .next (withEng s (e.complete s.kit s.regs (x.jobId n) code result))
      Starts s n 7 x → (s.eng.tenant tn.toNat).state ≠ .free → (s.eng.tenant tn.toNat).releasing = none → leAt 0 1 x.params = 3 →
      leAt 1 1 x.params = 0 → 1 ≤ leAt 2 2 x.params → leAt 2 2 x.params ≤ 4096 → zeroAt 4 4 x.params = true → zeroAt 24 24 x.params = true →
      leAt 8 8 x.params % 64 = 0 → leAt 16 8 x.params % 64 = 0 → s.regs.inRegions tn.toNat (leAt 8 8 x.params) (leAt 2 2 x.params) = true →
      s.regs.inRegions tn.toNat (leAt 16 8 x.params) 4096 = true →
      ends .memError (taken s n) 0x27 [] ∧ ends .poison (taken s n) 0x21 [] ∧
      (s.eng.mayRespond q = true → (a.1 = .signFailed → ends (.ok q) a.2.2 0x47 []) ∧
        (a.1 ≠ .signFailed → (bs = [] → ends (.ok q) e.drawn 0 (natLE 2 0)) ∧
          (bs ≠ [] → exec (.keyBindSpdm ring (.ok q)) s = .next (withEng s
            ((e.drawn.addJob { id := x.jobId n, tenant := some tn, kind := .wait (natLE 2 bs.length),
                               spans := [(leAt 8 8 x.params, leAt 2 2 x.params), (leAt 16 8 x.params, 4096)] }).writeJob s.kit (x.jobId n)
              (leAt 16 8 x.params) bs))))))

/-- R322 to R324: a key and policy message inside a session binds, unbinds or sets what it names and makes the slot ATTESTED; one that a
condition refuses changes nothing; outside a session each is unexpected. A SEAL key whose check value is not the stored one restarts
XTS_NEXT. -/
def Obligations.KeyMessagesBindKeysAndPolicy : Prop :=
  ∀ (s : State) (slot : TenantNo), let n := slot.toNat
    let x := s.eng.tenant n
    let kept := s.eng.kept n
    let answer (vop : Byte) (code : Code) (matched : Bool) (policy xts : Nat) : Output :=
      .spdm slot .vendor ([vop, code, BitVec.ofNat 8 (b2n matched), 0] ++ natLE 4 policy ++ natLE 4 xts ++ zeroBytes 4)
    x.state ≠ .free → x.releasing = none →
    (x.session = false → ∀ c ∈ [Instr.clearKey slot .seal, .clearKey slot .pollen, .getState slot, .setPolicy slot 1], exec c s =
      .next (driven s [.spdm slot .unexpected []])) ∧
    (∀ p, exec (.vendorDefinedRequest slot false p) s = .next (driven s [.spdm slot .unexpected []])) ∧
    (x.session = true →
      (∀ p, 4 < p.vop.toNat → exec (.vendorDefinedRequest slot true p) s =
        .next (driven s [answer p.vop 0x10 false x.policy.toNat kept.xtsNext.toNat])) ∧
      (∀ keyId key, (key.extractLsb' 0 256 : BitVec 256) = key.extractLsb' 256 256 → exec (.setKey slot .seal 0 key) s =
        .next (driven s [answer 1 0x11 false x.policy.toNat kept.xtsNext.toNat]) ∧
        (keyId ≠ 0 → exec (.setKey slot .seal keyId key) s = .next (driven s [answer 1 0x11 false x.policy.toNat kept.xtsNext.toNat]))) ∧
      (∀ key, (key.extractLsb' 0 256 : BitVec 256) ≠ key.extractLsb' 256 256 → s.eng.sealInUse slot = false →
        ∃ t, exec (.setKey slot .seal 0 key) s = .next t ∧ t.eng.tenant n = { x with sealKey := some key, state := .attested } ∧
          t.eng.kept n = (if sealCheck key = kept.kcv then kept else { kept with kcv := sealCheck key, xtsNext := 0 }) ∧
          (∀ m, m ≠ n → t.eng.tenant m = s.eng.tenant m ∧ t.eng.kept m = s.eng.kept m) ∧ Only [.tenants, .body, .out] s t) ∧
      (∀ keyId key, (key.extractLsb' 256 256 : BitVec 256) = 0 → ∃ t, exec (.setKey slot .pollen keyId key) s = .next t ∧
        (t.eng.tenant n).pollenKey = some (key.setWidth 256) ∧ (t.eng.tenant n).keyId = keyId ∧ (t.eng.tenant n).state = .attested ∧
        t.regs = s.regs) ∧
      (s.eng.sealInUse slot = false → ∃ t, exec (.clearKey slot .seal) s = .next t ∧
        t.eng.tenant n = { x with sealKey := none, state := .attested } ∧ t.eng.body = s.eng.body ∧ Only [.tenants, .out] s t) ∧
      (∃ t, exec (.clearKey slot .pollen) s = .next t ∧ (t.eng.tenant n).pollenKey = none ∧ (t.eng.tenant n).state = .attested) ∧
      (∀ policy : Word, policy.toNat < 8 ∨ (policy.toNat < 16 ∧ s.regs.sealedMode = true) → ∃ t, exec (.setPolicy slot policy) s = .next t ∧
        t.eng.tenant n = { x with policy := policy.setWidth 4, state := .attested } ∧
        t.eng.out = s.eng.out ++ [answer 3 0 false policy.toNat kept.xtsNext.toNat] ∧ Only [.tenants, .out] s t) ∧
      (∃ t, exec (.getState slot) s = .next t ∧ t.eng.tenant n = { x with state := .attested } ∧
        t.eng.out = s.eng.out ++ [answer 4 0 false x.policy.toNat kept.xtsNext.toNat] ∧ Only [.tenants, .out] s t))

/-! ### Jobs of the service: guard ranges, DRAIN, SCRUB, TELEMETRY, ADMIN_SEND -/

/-- R90, R91, R257, R272: GUARD_ADD registers the lowest free range, its bits equal to the parity that its number keeps, and completes with its
number; GUARD_REMOVE takes a range of its tenant that no cut names out again, and its number keeps its parity. -/
def Obligations.GuardRangesAreAddedAndRemoved : Prop :=
  ∀ (s : State) (ring : BitVec 8) (x : Entry), let n := ring.toNat
    let tn := s.regs.ringTenant n
    let base := leAt 0 8 x.params
    let granules := leAt 8 4 x.params
    let cls := leAt 12 1 x.params
    let addr := leAt 16 8 x.params
    let count := leAt 24 4 x.params
    Attested s n →
    (∀ bs g, Starts s n 0x0A x → 1 ≤ granules → granules ≤ 262144 → (cls = 0 ∨ (3 ≤ cls ∧ cls ≤ 7)) → 1 ≤ count → count ≤ 4096 →
      zeroAt 13 3 x.params = true → zeroAt 28 20 x.params = true → (∀ w ∈ s.eng.guard.ranges, granulesMeet (base / 2 ^ 20) granules w.2 = false) →
      base % 2 ^ 20 = 0 → addr % 64 = 0 → s.regs.inRegions tn.toNat base (granules * 2 ^ 20) = true →
      s.regs.inRegions tn.toNat addr (192 * count) = true → s.eng.mode ≠ .recovery → s.eng.guard.ranges.length < 64 →
      (s.eng.beat.sealed = true → (s.eng.guard.ranges.filter fun w => w.2.owner == tn).length < s.regs.quotaRanges tn.toNat) →
      tlistBad count bs = false → g < 64 → s.eng.range g = none → (∀ m, m < g → s.eng.range m ≠ none) →
      ∃ t w, exec (.guardAdd ring (.ok bs)) s = .next t ∧ t.eng.range g = some w ∧ w.base = base / 2 ^ 20 ∧ w.granules = granules ∧ w.owner = tn ∧
        w.cls = cls ∧ w.coords.length = count ∧ w.armed = false ∧ w.parity = s.eng.guard.parities.getLsbD g ∧ (∀ i, w.bit i = w.parity) ∧ (∀ m, m ≠ g → t.eng.range m = s.eng.range m) ∧
        Completed s t n x 0 (natLE 1 g) ∧ Taken s t n ∧ Only [.rings, .budget, .count, .mem, .out, .vault, .guard] s t) ∧
    (∀ w, Starts s n 0x0B x → leAt 0 1 x.params < 64 → s.eng.range (leAt 0 1 x.params) = some w → w.owner = tn → zeroAt 1 15 x.params = true →
      s.eng.rangeBusy (leAt 0 1 x.params) = false →
      ∃ t, exec (.guardRemove ring) s = .next t ∧ t.eng.range (leAt 0 1 x.params) = none ∧
        t.eng.guard.parities.getLsbD (leAt 0 1 x.params) = w.parity ∧
        (∀ m, m ≠ leAt 0 1 x.params → t.eng.range m = s.eng.range m) ∧ Completed s t n x 0 [] ∧ Taken s t n ∧
        Only [.rings, .budget, .count, .mem, .out, .vault, .guard] s t)

/-- R116, R224, R226, R273, R274, R276: a DRAIN waits for the tenant's dirty front lines, and takes note of those that have failed; a SCRUB writes zero over every line of the slots that it
names and ends their validity; a TELEMETRY writes the beat and the counters that it names to host memory; an ADMIN_SEND sends an ADMIN frame
over the lowest live port, and its completion waits for the acknowledgement. -/
def Obligations.ServiceJobsDoTheirWork : Prop :=
  ∀ (s : State) (ring : BitVec 8) (x : Entry), let n := ring.toNat
    let tn := s.regs.ringTenant n
    let id := x.jobId n
    Attested s n →
    (Starts s n 2 x → ∃ e d, exec (.drain ring) s = .next (withEng s ((e.pumpWindows s.kit s.regs).endDrains s.kit s.regs)) ∧
      e.rings.jobs = s.eng.rings.jobs ++ [{ id := id, tenant := some tn, kind := .drain }] ∧ e.vault.drains = s.eng.vault.drains ++ [d] ∧
      d.job = id ∧ (∀ l ∈ s.eng.front.lines, l.dirty = true → l.part = .vault → s.eng.front.find l.key = some l → l.line.tenant = tn →
        (s.eng.backFailed l.key = none → (l.key, l.ver) ∈ d.waits) ∧
        ∀ code, s.eng.backFailed l.key = some code → (l.key.offset, code) ∈ d.failures) ∧
      Same [.rings, .budget, .count, .vault] s.eng e) ∧
    (∀ slots, Starts s n 8 x → slotsNamed (leAt 0 1 x.params) = slots → 1 ≤ leAt 0 1 x.params → leAt 0 1 x.params ≤ 3 →
      zeroAt 1 15 x.params = true → s.regs.bodyBanks tn.toNat ≠ 0 → s.eng.cut.run = none → s.eng.bulb.copies = [] →
      (∀ b, (taken s n).bodyRead tn b = false) →
      (∀ b ∈ slots, ∀ i, i < s.regs.slotLines tn.toNat →
        (s.eng.body.upset (s.eng.partKey s.regs tn.toNat (b2n b * s.regs.slotLines tn.toNat + i))).fails < 4) →
      (∀ b ∈ slots, (taken s n).foreign s.regs tn (64 * (b2n b * s.regs.slotLines tn.toNat)) (64 * s.regs.slotLines tn.toNat) = false) →
      ∃ e, exec (.scrub ring []) s = .next (withEng s ((e.settleClean s.kit s.regs).refuse s.kit s.regs id 0)) ∧
        (∀ b ∈ slots, ∀ i, i < s.regs.slotLines tn.toNat → let off := b2n b * s.regs.slotLines tn.toNat + i
          (∀ l, e.body.line (s.eng.partKey s.regs tn.toNat off) = some l → l.data = 0) ∧ e.front.find (.body (s.regs.partLine tn.toNat off)) = none) ∧
        (let y := e.kept tn.toNat
         (∀ b ∈ slots, (if b then y.bComplete else y.aComplete) = false) ∧
         (∀ b ∈ slots, (s.eng.kept tn.toNat).lastSlot = b → y.valid = false)) ∧
        (∀ m, m ≠ tn.toNat → e.kept m = s.eng.kept m) ∧ Same [.rings, .budget, .count, .bulb, .body, .front] s.eng e) ∧
    (Starts s n 9 x → NoneHolds ((taken s n).telemetryConds s.regs n x.params) →
      exec (.telemetry ring) s = .next (withEng s
        (((taken s n).addJob { id := id, tenant := some tn, kind := .wait (natLE 8 s.eng.count.shadowBeat.toNat),
                               spans := [(leAt 0 8 x.params, 8 + leAt 12 4 x.params)] }).writeJob s.kit id
          (leAt 0 8 x.params) (natLE 8 s.eng.count.shadowBeat.toNat ++
            (spanOffsets (leAt 8 4 x.params) (leAt 12 4 x.params)).flatMap fun o => natLE 8 ((taken s n).shadowAt o).toNat)))) ∧
    (∀ i p, Starts s n 0x0D x → leAt 0 1 x.params = 1 → zeroAt 1 1 x.params = true → zeroAt 4 12 x.params = true →
      peerSlot s.regs tn.toNat (leAt 2 2 x.params) = some i → (s.eng.sess tn.toNat i).state = .keyed →
      lowestPort (s.eng.sess tn.toNat i).live = some p →
      exec (.adminSend ring) s = .next (withEng s
        (((taken s n).addJob { id := id, tenant := some tn, kind := .adminSend tn.toNat i p ((s.eng.sess tn.toNat i).port p).seqAhead }).sendSeq
          s.regs tn.toNat i p (Frame.bare ftAdmin 1))))

/-! ### Recipes -/

/-- R167 to R171: LOAD puts the recipe that the image spells at the lowest free index and answers with it; UNLOAD takes a recipe that nothing
names out; BIND makes the set that the image spells, whose recipes are the tenant's and of the classes; UNBIND takes it away. -/
def Obligations.RecipeJobsKeepTheStore : Prop :=
  ∀ (s : State) (ring : BitVec 8) (x : Entry), let n := ring.toNat
    let tn := s.regs.ringTenant n
    let p := loadParamsOf x.params
    let old := s.eng.recipes
    Attested s n → Starts s n 6 x → p.rsv = false →
    (∀ bs i, p.op = 1 → p.index = 0 → p.addr % 64 = 0 → s.regs.inRegions tn.toNat p.addr p.len = true → NoneHolds (imageConds p.len bs) →
      i < 1024 → s.eng.recipe i = none → (∀ m, m < i → s.eng.recipe m ≠ none) →
      (s.eng.beat.sealed = true → s.eng.recipesOf tn < s.regs.quotaRecipes tn.toNat) →
      ∃ t, exec (.recipeLoad ring (.ok bs)) s = .next t ∧ t.eng.recipe i = some (recipeOf tn bs) ∧
        (∀ m, m ≠ i → t.eng.recipe m = s.eng.recipe m) ∧ t.eng.recipes.sets = old.sets ∧ Completed s t n x 0 (natLE 2 i) ∧ Taken s t n ∧
        Only [.rings, .budget, .count, .mem, .out, .vault, .recipes] s t) ∧
    (∀ rc, p.op = 2 → p.addr = 0 → p.len = 0 → s.eng.recipe p.index = some rc → rc.tenant = tn → s.eng.recipeBusy p.index = false →
      ∃ t, exec (.unload ring) s = .next t ∧ t.eng.recipe p.index = none ∧ (∀ m, m ≠ p.index → t.eng.recipe m = s.eng.recipe m) ∧
        t.eng.recipes.sets = old.sets ∧ Completed s t n x 0 [] ∧ Taken s t n ∧ Only [.rings, .budget, .count, .mem, .out, .vault, .recipes] s t) ∧
    (∀ bs, p.op = 3 → p.addr % 64 = 0 → s.regs.inRegions tn.toNat p.addr p.len = true → p.len = 32 → s.eng.setForeign tn p.index = false →
      s.eng.setBusy p.index = false → NoneHolds (s.eng.bindConds tn bs) →
      ∃ t, exec (.bind ring (.ok bs)) s = .next t ∧ tabFind p.index t.eng.recipes.sets = some { tenant := tn, entries := bindEntries bs } ∧
        (∀ m, m ≠ p.index → tabFind m t.eng.recipes.sets = tabFind m old.sets) ∧ t.eng.recipes.held = old.held ∧ Completed s t n x 0 [] ∧
        Taken s t n ∧ Only [.rings, .budget, .count, .mem, .out, .vault, .recipes] s t) ∧
    (∀ b, p.op = 4 → p.addr = 0 → p.len = 0 → tabFind p.index old.sets = some b → b.tenant = tn → s.eng.setBusy p.index = false →
      ∃ t, exec (.unbind ring) s = .next t ∧ tabFind p.index t.eng.recipes.sets = none ∧
        (∀ m, m ≠ p.index → tabFind m t.eng.recipes.sets = tabFind m old.sets) ∧ t.eng.recipes.held = old.held ∧ Completed s t n x 0 [] ∧
        Taken s t n ∧ Only [.rings, .budget, .count, .mem, .out, .vault, .recipes] s t)

/-! ### Streams and restores -/

/-- R227, R238, R327, R244, R252, R266: an accepted SPILL or REFILL holds a stream, the lowest free number (log 29), that waits on its fence
exactly when it asks for one and an older stream of the tenant is of another layer; a SPILL takes the next XTS epoch. An accepted RESTORE is
held with its entries waiting and its stream numbers taken; a refused one says which entry in RESULT. -/
def Obligations.AcceptedStreamJobsAreHeld : Prop :=
  ∀ (s : State) (ring : BitVec 8) (x : Entry), let n := ring.toNat
    let tn := s.regs.ringTenant n
    let id := x.jobId n
    let d := descrOf x.params
    let fenced := d.fence && s.eng.fenceHolds tn d.layer s.eng.streams.nextOrder
    let opened (t : State) (m : Nat) (v : Stream) : Prop :=
      t.eng.stream m = some v ∧ v.tenant = tn ∧ v.job = id ∧ v.descr = d ∧ v.state = (if fenced then .fenced else .running) ∧
        v.order = s.eng.streams.nextOrder ∧ v.elemLines = d.lines ∧ v.got = [] ∧ v.made = [] ∧ v.out = [] ∧
        (∀ i, i ≠ m → t.eng.stream i = s.eng.stream i) ∧
        t.eng.rings.jobs = s.eng.rings.jobs ++ [{ id := id, tenant := some tn, kind := .stream m, spans := v.hostSpans }] ∧ Taken s t n
    (∀ m rest, s.eng.freeNumbers 1 = m :: rest →
      (Starts s n 4 x → NoneHolds ((taken s n).spillConds s.regs tn x.params) →
        ∃ t v, exec (.spill ring) s = .next t ∧ opened t m v ∧ v.spill = true ∧ v.xtsEpoch = (s.eng.kept tn.toNat).xtsNext ∧
          t.eng.kept tn.toNat = { s.eng.kept tn.toNat with xtsNext := (s.eng.kept tn.toNat).xtsNext + 1 } ∧
          (∀ i, i ≠ tn.toNat → t.eng.kept i = s.eng.kept i) ∧ Only [.rings, .budget, .count, .body, .streams] s t) ∧
      (Starts s n 5 x → NoneHolds ((taken s n).refillConds s.regs tn x.params) →
        ∃ t v, exec (.refill ring) s = .next t ∧ opened t m v ∧ v.spill = false ∧ v.fmt = d.fmt ∧ v.xtsEpoch = BitVec.ofNat 32 d.xtsEpoch ∧
          Only [.rings, .budget, .count, .streams] s t)) ∧
    (Starts s n 3 x →
      let refused (c : Instr) (code : Code) (entry : Option Nat) : Prop := ∃ t, exec c s = .next t ∧
        Completed s t n x code (zeroBytes 4 ++ natLE 4 (entry.getD 0xFFFFFFFF)) ∧ Taken s t n ∧
        Only [.rings, .budget, .count, .mem, .out, .vault] s t
      (∀ code plan locs faults, judge ((taken s n).restoreConds s.regs tn x.params) = some code →
        refused (.restore ring plan ⟨locs, faults⟩) code none) ∧
      (NoneHolds ((taken s n).restoreConds s.regs tn x.params) → ∀ locs faults,
        refused (.restore ring .memError ⟨locs, faults⟩) 0x27 none ∧ refused (.restore ring .poison ⟨locs, faults⟩) 0x21 none ∧
        ∀ bs code, judge (planConds s.regs tn (leAt 8 4 x.params) bs) = some code → refused (.restore ring (.ok bs) ⟨locs, faults⟩) code none) ∧
      (∀ bs locs, NoneHolds ((taken s n).restoreConds s.regs tn x.params) → NoneHolds (planConds s.regs tn (leAt 8 4 x.params) bs) →
        let p := planOf bs
        let at_ (i : Nat) : LocationData := (locs[i]?).getD { reach := 0, slotA := ⟨[], []⟩, slotB := ⟨[], []⟩ }
        let gs := groupsOf p (p.sources.mapIdx fun i y => (taken s n).location s.regs tn y (at_ i))
        let order := (List.range 64).flatMap fun g => (p.sources.mapIdx fun i y => (i, y)).filter fun z => z.2.group == g
        let reach := order.map fun z => (taken s n).reachCode s.regs tn z.2 (at_ z.1)
        (∀ i code, phase2 s.kit s.regs tn (s.eng.mode != .normal) reach p gs = some (i, code) →
          refused (.restore ring (.ok bs) ⟨locs, []⟩) code i) ∧
        (phase2 s.kit s.regs tn (s.eng.mode != .normal) reach p gs = none →
          ∃ t y, exec (.restore ring (.ok bs) ⟨locs, []⟩) s = .next t ∧ t.eng.streams.restores = s.eng.streams.restores ++ [y] ∧ y.job = id ∧
            y.tenant = tn ∧ y.numbers = s.eng.freeNumbers (leAt 12 1 x.params) ∧ y.entries.length = p.entries.length ∧
            (∀ z ∈ y.entries, z.state = .waiting) ∧ t.eng.streams.held = s.eng.streams.held ∧
            (let spans := planSpans (leAt 0 8 x.params) (leAt 8 4 x.params) p (gs.map Group.data)
             t.eng.rings.jobs = s.eng.rings.jobs ++ [{ id := id, tenant := some tn, kind := .restore, spans := spans }]) ∧ Taken s t n ∧
            Only [.rings, .budget, .count, .streams, .front, .body, .bulb, .vault, .fox, .draws, .cycle] s t)))

/-- R24, R145, R146, R155, R157, R233 to R243, R252: a stream that waits on its fence is released when nothing older holds it; the winner of
arbitration issues, another one that could issue counts its stall; the table of a SPILL is made from its sample, that of a REFILL is its table
line, and a bad one ends the job with 0x23; the chunk that is granted the lowest idle lane passes it, and a mismatch takes the lane out; a
halted stream goes on from a resume, or ends with the code that it met meanwhile; a restore's next entry takes a free stream number. -/
def Obligations.StreamsAdvance : Prop :=
  ∀ (s : State) (stream : BitVec 9) (v : Stream), let n := stream.toNat
    let into (w : Stream) : State := withEng s (s.eng.setStream n w)
    let kind : UnitKind := if v.spill then .enc else .dec
    s.eng.stream n = some v →
    (v.state = .fenced → s.eng.fenceHolds v.tenant v.descr.layer v.order = false →
      exec (.streamFenceRelease stream) s = .next (into { v with state := .running, cause := 0 })) ∧
    (s.eng.scheduling = true → ∀ faults,
      (v.state = .fenced → exec (.streamChunkIssue ⟨stream, faults⟩) s = .next (withEng s (s.eng.stall n 1))) ∧
      (v.state = .halted → exec (.streamChunkIssue ⟨stream, faults⟩) s = .next (withEng s (s.eng.stall n 2))) ∧
      (v.state = .running →
        let turned : Engine := { s.eng with streams := { s.eng.streams with turn := if v.descr.due0 = 2 ^ 64 - 1 then n else s.eng.streams.turn } }
        let w := s.eng.streamWriteCause s.kit v
        let q := s.eng.streamReadCause s.kit s.regs v
        (s.eng.winner s.kit s.regs = some n →
          (w = some 0 → exec (.streamChunkIssue ⟨stream, faults⟩) s = .next (withEng s (turned.issueWrite s.kit n { v with cause := 0 }))) ∧
          (w ≠ some 0 → q = some 0 →
            exec (.streamChunkIssue ⟨stream, faults⟩) s = .next (withEng s (turned.issueRead s.kit n { v with cause := 0 })))) ∧
        (s.eng.winner s.kit s.regs ≠ some n → (w = some 0 ∨ q = some 0) →
          exec (.streamChunkIssue ⟨stream, faults⟩) s = .next (withEng s (s.eng.stall n 7))) ∧
        (∀ c, q = none → w = some c → c ≠ 0 → c ≠ 3 → (∀ i, i < v.chunks → i ∉ v.made → s.eng.chunkStaged n i v = false) →
          exec (.streamChunkIssue ⟨stream, faults⟩) s = .next (withEng s (s.eng.stall n c))))) ∧
    (v.table = none → (rateGeom v.rate).isSome = true → v.state = .running →
      (v.spill = true → v.seed.isSome = true ∨ needsDraw v.steps = false ∨ s.eng.units.noise = .healthy →
        (∀ i ∈ v.needs (v.planeDep (min 63 (v.shape.planeLines v.units - 1))), (tabFind i v.got).isSome = true) →
        ∃ t w, exec (.tableReady stream) s = .next t ∧ t.eng.stream n = some w ∧ w.state = .running ∧
          w.table = some (codeLengths v.shape.outFmt.width
            (((runPlane v.steps (w.seed.getD 0) v.source).take 64).map fun b => b.data)) ∧
          (∀ m, m ≠ n → t.eng.stream m = s.eng.stream m) ∧ Only [.streams, .count, .front, .fox, .draws, .cycle] s t) ∧
      (∀ f, v.spill = false → tabFind 0 v.got = none → s.eng.front.find (.stream n 0) = some f →
        (∀ l ∈ s.eng.front.lines, l.key = .stream n 0 → l.flips = []) → f.line.poison = false →
        let b : MemBeat := { data := f.line.data, poison := false }
        let read : Stream := { v with got := tabSet 0 b v.got }
        let found := readTable v.fmt v.rate (v.unseal (s.eng.sealKey v.tenant) 0 b).data
        (∀ ls, found = some ls → exec (.tableReady stream) s = .next (into { read with table := some ls })) ∧
        (found = none → exec (.tableReady stream) s = .next (withEng s
          (((s.eng.setStream n read).bump (Ctr.decodeErrors v.tenant.toNat) 1).endStream s.kit s.regs n 0x23))))) ∧
    (∀ chunk busy,
      (∀ bad, s.eng.units.idleLane kind busy = none → exec (.codecChunkStart (.stream stream) chunk ⟨busy, bad⟩) s = .next s) ∧
      (∀ l, s.eng.units.idleLane kind busy = some l → s.eng.laneWinner v.spill = some n → s.eng.wantsLane v.spill n = some chunk →
        (∃ t w, exec (.codecChunkStart (.stream stream) chunk ⟨busy, false⟩) s = .next t ∧ t.eng.stream n = some w ∧
          w.made = chunk :: v.made ∧ (∃ more, w.toWrite = v.toWrite ++ more) ∧ w.state = v.state ∧
          (∀ m, m ≠ n → t.eng.stream m = s.eng.stream m) ∧ Only [.streams, .count, .front, .fox, .draws, .cycle] s t) ∧
        ∃ e, exec (.codecChunkStart (.stream stream) chunk ⟨busy, true⟩) s = .next (withEng s (e.laneFault s.kit s.regs kind l v.tenant)) ∧
          e.streams.held = s.eng.streams.held ∧ Same [.streams] s.eng e) ∧
      (∀ run i src l, s.eng.cut.run = some run → run.sources[i]? = some src → src.waitsLane = true → src.coded = chunk →
        s.eng.units.idleLane .enc busy = some l → exec (.codecChunkStart (.cut i) chunk ⟨busy, false⟩) s = .next (withEng s
          ((s.eng.setRun { run with sources := run.sources.set i { src with coded := chunk + 1 } }).cutPump s.kit s.regs)))) ∧
    (∀ value : Word, s.eng.cfgOpen = true → value.getLsbD 31 = true → value.toNat % 512 = n → v.state = .halted →
      (v.failing = 0 → v.resume.state = .running ∧ exec (.streamCtrlResume value) s =
        .next (driven (withEng s ((s.eng.setStream n v.resume).makeReady s.kit s.regs n)) [.cfgDone])) ∧
      (v.failing ≠ 0 → exec (.streamCtrlResume value) s =
        .next (driven (withEng s (s.eng.endStream s.kit s.regs n v.failing)) [.cfgDone]))) ∧
    (∀ part : BitVec 2, exec (.partitionLineFree part) s = .next (if part = 1 then withEng s (s.eng.guardPump s.kit) else s)) ∧
    (∀ job y m, s.eng.streams.restores[job]? = some y → y.freeNumber = some m → (∃ z ∈ y.entries, z.state = .waiting) →
      s.eng.scheduling = true → exec (.restoreEntryStart job) s = .next (withEng s
        ((s.eng.onRestore y.job (Restore.startNext m)).entryGoesOn s.kit s.regs m)))

/-- R20, R240, R241, R243, R266, R269, R387, R388: the lines that a read brings are staged in the front for the stream that asked for them, and a
running stream whose request meets 0x28 halts there; a halted one notes another error and waits; an answered completion write is the ring's, and
its error raises 0x2D (its TENANT: log 73); the last write of a job that waits for nothing else lets its completion go. A response that answers
nothing changes nothing. -/
def Obligations.MemResponsesReachWhoAsked : Prop :=
  ∀ (s : State) (channel : Nat) (tag : BitVec 12), s.kit.hasChannel channel = true →
    (∀ code beats faults, s.eng.mem.find channel tag false = none → exec (.memReadResponse channel tag code beats faults) s = .next s) ∧
    (∀ code, s.eng.mem.find channel tag true = none → exec (.memWriteResponse channel tag code) s = .next s) ∧
    (∀ q n lines v beats, s.eng.mem.find channel tag false = some q → q.use = .streamRead n lines → s.eng.stream n = some v →
      (beats.length = q.lines → lines.Nodup →
        ∃ e, exec (.memReadResponse channel tag 0 beats []) s = .next (withEng s (e.makeReady s.kit s.regs n)) ∧
          e.stream n = some { v with reads := v.reads - 1, reading := v.reading - lines.length } ∧
          (∀ p ∈ lines.zip beats, (e.front.find (.stream n p.1)).map (fun l => (l.line.data, l.line.poison, l.line.tenant)) =
            some (p.2.data, p.2.poison, v.tenant)) ∧
          (∀ key, (∀ i ∈ lines, key ≠ .stream n i) → e.front.find key = s.eng.front.find key) ∧
          (∀ m, m ≠ n → e.stream m = s.eng.stream m) ∧ e.mem = s.eng.mem.remove q ∧ Same [.mem, .streams, .front] s.eng e) ∧
      (v.state = .running → ∃ t, exec (.memReadResponse channel tag 0x28 beats []) s = .next t ∧
        t.eng.stream n = some { v with state := .halted, position := lines.headD 0, toRead := lines ++ v.toRead, haltWrite := false,
                                       reads := v.reads - 1, reading := v.reading - lines.length } ∧
        (t.eng.ring v.job.ring).waiting = (s.eng.ring v.job.ring).waiting ++
          [.halt v.job.cmdId v.job.index (BitVec.ofNat 64 q.addr) (lines.headD 0) n] ∧
        t.eng.counter Ctr.streamHalts = s.eng.counter Ctr.streamHalts + 1 ∧ t.eng.mem = s.eng.mem.remove q ∧
        Only [.mem, .streams, .rings, .count, .front] s t) ∧
      (v.state = .halted → ∃ t, exec (.memReadResponse channel tag 0x27 beats []) s = .next t ∧
        t.eng.stream n = some { v with reads := v.reads - 1, reading := v.reading - lines.length,
                                       failing := if v.failing = 0 then 0x27 else v.failing } ∧
        t.eng.mem = s.eng.mem.remove q ∧ Only [.mem, .streams, .front] s t)) ∧
    (∀ q n lines v, s.eng.mem.find channel tag true = some q → q.use = .streamWrite n lines → s.eng.stream n = some v → v.state = .running →
      ∃ t, exec (.memWriteResponse channel tag 0x28) s = .next t ∧
        (let again := lines.filter fun i => (tabFind i v.out).isSome && !v.toWrite.contains i
         t.eng.stream n = some { v with state := .halted, position := lines.headD 0, haltWrite := true, writes := v.writes - 1,
                                        toWrite := again ++ v.toWrite }) ∧
        t.eng.counter Ctr.streamHalts = s.eng.counter Ctr.streamHalts + 1 ∧ t.eng.mem = s.eng.mem.remove q ∧
        Only [.mem, .streams, .rings, .count] s t) ∧
    (∀ q n code, s.eng.mem.find channel tag true = some q → q.use = .completion n → let g := s.eng.ring n
      (∃ t, exec (.memWriteResponse channel tag 0) s = .next t ∧
        (t.eng.ring n).cq = updFirst (fun y => !y.written) (fun y => { y with written := true }) g.cq ∧ (t.eng.ring n).cqFailed = false ∧
        (t.eng.ring n).cqTail = g.cqTail ∧ (∀ m, m ≠ n → t.eng.ring m = s.eng.ring m) ∧ Only [.mem, .rings, .out] s t) ∧
      (code ≠ 0 → ∃ t, exec (.memWriteResponse channel tag code) s = .next t ∧ t.eng.ring n = { g with cqFailed := true } ∧
        Raised s t 0x2D (s.regs.ringConcerned n) ∧ Only [.mem, .rings, .fox, .count, .draws, .cycle] s t)) ∧
    (∀ q id j result, s.eng.mem.find channel tag true = some q → q.use = .job id →
      ((s.eng.mem.remove q).reqs.any fun y => y.use == MemFor.job id) = false →
      (s.eng.rings.jobs.find? fun y => y.id == id) = some j → j.kind = .wait result →
      ∃ t head more, exec (.memWriteResponse channel tag 0) s = .next t ∧
        (t.eng.ring id.ring).cq = (s.eng.ring id.ring).cq ++
          { bytes := cqBytes id.cmdId 0 (s.eng.ring id.ring).cqPhase false false id.index head result, irq := id.irq, entry := some id.index, written := false } :: more ∧
        (∀ y ∈ t.eng.rings.jobs, y.id ≠ id) ∧ Only [.mem, .rings, .out, .vault] s t)

/-! ### Pollen -/

/-- R204, R205, R207 to R214, R222, R226, R330: a frame that fails a check is dropped and counted, and the 65th stranger of a port in a beat
raises 0x28; an accepted one, unless it belongs to a setup, releases what it acknowledges and brings its credit, and then does what its type
says: an OPEN is answered with an ACCEPT under the derived key, once the noise source may be drawn, ACCEPT and CONFIRM make the session KEYED, a PROBE is answered, a CLOSE removes the session, NAK goes back, ADMIN in sequence runs the plan of its tenant. -/
def Obligations.FramesAreCheckedAndCarriedOut : Prop :=
  ∀ (s : State) (port : Nat) (f : Frame), s.kit.hasPort port = true →
    (∀ p ∈ frameCommands port f, f.type ≠ p.1 ∨ s.eng.listening port = false → exec p.2 s = .next s) ∧
    (s.eng.listening port = true →
      (∃ t, exec (.droppedFrame port none) s = .next t ∧ t.eng.counter Ctr.crcDrops = s.eng.counter Ctr.crcDrops + 1 ∧ Only [.count] s t) ∧
      (f.crc ≠ f.crcOf → ∀ p ∈ (0, Instr.droppedFrame port (some f)) :: frameCommands port f, p.1 = 0 ∨ f.type = p.1 →
        ∃ t, exec p.2 s = .next t ∧ t.eng.counter Ctr.crcDrops = s.eng.counter Ctr.crcDrops + 1 ∧ Only [.count] s t) ∧
      (∀ d, s.eng.checkFrame s.regs port f = .inr d → ∀ p ∈ (0, Instr.droppedFrame port (some f)) :: frameCommands port f,
        p.1 = 0 ∨ f.type = p.1 → exec p.2 s = .next (withEng s (s.eng.dropFrame s.kit s.regs d))) ∧
      (∀ n, s.eng.strangersAt port = 64 → (∀ x ∈ s.eng.pollen.strangers, x.2 ≤ 64) → s.eng.checkFrame s.regs port f = .inr (.stranger n) →
        n = port ∧ ∃ t, exec (.droppedFrame port (some f)) s = .next t ∧ Raised s t 0x28 none ∧
          t.eng.counter Ctr.strangerDrops = s.eng.counter Ctr.strangerDrops + 1 ∧ Only [.pollen, .fox, .count, .draws, .cycle] s t) ∧
      (∀ t i, s.eng.checkFrame s.regs port f = .inl (t, i) →
        (∃ e, Heard s t i port f e ∧
          (f.type = ftAck → exec (.ack port f) s = .next (withEng s (e.servePort s.kit s.regs t i port))) ∧
          (f.type = ftCredit → exec (.credit port f) s = .next (withEng s (e.servePort s.kit s.regs t i port))) ∧
          (f.type = ftNak → exec (.nak port f) s =
            .next (withEng s ((e.onPort t i port (PortSess.goBack f.ackSeq)).servePort s.kit s.regs t i port))) ∧
          (f.type = ftClose → exec (.close port f) s = .next (withEng s (e.removeSess s.kit s.regs t i 0x34 false))) ∧
          (f.type = ftProbe → exec (.probe port f) s = .next (withEng s
            (e.sendControl s.regs t i port ftProbeReply (bodyOf 0 (BitVec.ofNat 32 (s.regs.reported t i)))))) ∧
          (f.type = ftProbeReply → (s.eng.sess t i).live.getLsbD port = true → exec (.probeReply port f) s = .next (withEng s
            ((e.setSess t i { e.sess t i with pages := f.bodyHi.toNat % 2 ^ 28 }).servePort s.kit s.regs t i port))) ∧
          (∀ kp, f.type = ftOpen → (s.eng.tenant t).pollenKey = some kp → initiates s.regs t i = false → s.eng.units.noise = .healthy →
            s.regs.self ≠ 0xFFFF → ∃ u g, exec (.open_ port f) s = .next u ∧ u.eng.out = e.out ++ [.frame port g] ∧ g.type = ftAccept ∧
              g.sessionId = f.sessionId ∧
              let v := u.eng.sess t i
              v.newSetup = true ∧ v.newId = f.sessionId ∧ v.newNonceI = f.bodyLo ∧ g.bodyLo = v.newNonceR ∧ Sound v.newKey g ∧
                v.newKey = sessionKey kp f.bodyLo v.newNonceR (s.regs.peerId t i) s.regs.self f.sessionId ∧ v.key = (s.eng.sess t i).key) ∧
          (∀ kp, f.type = ftOpen → (s.eng.tenant t).pollenKey = some kp → initiates s.regs t i = false → s.eng.units.noise ≠ .healthy →
            ∃ u, exec (.open_ port f) s = .next u ∧ u.eng.out = e.out ∧ (u.eng.sess t i).newSetup = true ∧
              (u.eng.sess t i).drawWait = some port ∧ (u.eng.sess t i).key = (s.eng.sess t i).key) ∧
          (∀ kp, f.type = ftAccept → (s.eng.tenant t).pollenKey = some kp → (e.sess t i).newSetup = true → initiates s.regs t i = true →
            ∃ v, v.state = .keyed ∧ v.id = (e.sess t i).newId ∧ v.newSetup = false ∧ v.ports = [] ∧
              v.key = sessionKey kp (e.sess t i).newNonceI f.bodyLo s.regs.self (s.regs.peerId t i) (e.sess t i).newId ∧
              exec (.accept port f) s = .next (withEng s
                (((e.setSess t i v).sendSetup s.regs t i port ftConfirm 0 v.id v.key).serveSess s.kit s.regs t i))) ∧
          (f.type = ftConfirm → (e.sess t i).newSetup = true → (e.sess t i).drawWait = none → initiates s.regs t i = false → (s.eng.sess t i).state ≠ .keyed →
            ∃ v, v.state = .keyed ∧ v.id = (e.sess t i).newId ∧ v.key = (e.sess t i).newKey ∧ v.newSetup = false ∧ v.ports = [] ∧
              exec (.confirm port f) s = .next (withEng s ((e.setSess t i v).serveSess s.kit s.regs t i)))) ∧
        (f.type = ftAdmin → f.seq = ((s.eng.sess t i).port port).expect → s.eng.power.state = 0 → s.eng.power.entering = false →
          ∃ e, ((e.sess t i).port port).expect = f.seq + 1 ∧ e.cut = s.eng.cut ∧ e.tenants = s.eng.tenants ∧
            e.counter Ctr.framesRx = s.eng.counter Ctr.framesRx + 1 ∧ exec (.admin port f) s = .next (withEng s
              (if f.body.extractLsb' 0 8 = 1 ∧ s.regs.planTenant = BitVec.ofNat 4 t then e.notice s.kit s.regs 2 else e)))))

/-- R207, R209, R212 to R214, R222 to R225: a setup and its retry send an OPEN with fresh values; a rekey stops further vault commands; RTO goes back
to the oldest unacknowledged frame; ACK, CREDIT and PROBE frames go out when they are due; a lost peer's session is removed, and a port that
falls or rises changes the set of ports that are up. -/
def Obligations.SessionTimersAndPortsAct : Prop :=
  ∀ (s : State) (tenant : TenantNo) (slot : BitVec 4), let t := tenant.toNat
    let i := slot.toNat
    let v := s.eng.sess t i
    (∀ (c : Instr) (kp : BitVec 256) (p : Nat), s.eng.maySetup s.regs t i = true →
      (c = .sessionOpen tenant slot ∧ v.state = .none) ∨ (c = .openRetry tenant slot ∧ v.newSetup = true ∧ 64 ≤ v.openBeats) →
      (s.eng.tenant t).pollenKey = some kp → lowestPort (s.eng.upMask (s.regs.peerMask t i)) = some p → s.eng.units.noise = .healthy →
      ∃ u g, exec c s = .next u ∧ u.eng.out = s.eng.out ++ [.frame p g] ∧ g.type = ftOpen ∧ Sound kp g ∧
        (let w := u.eng.sess t i
         w.newSetup = true ∧ w.initiator = true ∧ w.openBeats = 0 ∧ g.sessionId = w.newId ∧ g.bodyLo = w.newNonceI ∧ w.key = v.key ∧
           w.state = (if v.state = .keyed then .keyed else .opening)) ∧
        Only [.pollen, .count, .out, .draws] s u) ∧
    (v.state = .keyed → v.seqHigh = true → let e := s.eng.setSess t i { v with rekey := true }
      exec (.sessionRekey tenant slot) s = .next (withEng s
        (if e.sessIdle t i && e.maySetup s.regs t i && !v.newSetup then e.startSetup s.regs t i else e))) ∧
    (∀ port x rest, s.kit.hasPort port = true → (v.port port).unacked = x :: rest → exec (.retransmit tenant slot port) s =
      .next (withEng s ((s.eng.onPort t i port (PortSess.goBack (x.seq.getD 0))).servePort s.kit s.regs t i port))) ∧
    (∀ port, s.kit.hasPort port = true → 0 < (v.port port).owed → s.eng.canSend s.regs = true →
      ∃ u g, exec (.ackTimer tenant slot port) s = .next u ∧ u.eng.out = s.eng.out ++ [.frame port g] ∧ g.type = ftAck ∧
        g.ackSeq = (v.port port).expect ∧ Sound v.key g ∧ (u.eng.sess t i).port port = { v.port port with owed := 0 } ∧
        Only [.pollen, .count, .out] s u) ∧
    (∀ port, s.kit.hasPort port = true → v.state = .keyed → v.live.getLsbD port = true → s.eng.granted port + 64 ≤ s.regs.inboundLines →
      s.eng.promised s.kit + 64 ≤ Part.size .vault → (s.eng.creditNext port).getD (16 * t + i) = 16 * t + i → s.eng.canSend s.regs = true →
      ∃ u g, exec (.creditGrant tenant slot port) s = .next u ∧ u.eng.out = s.eng.out ++ [.frame port g] ∧ g.type = ftCredit ∧
        g.creditLimit = (v.port port).limitOut + 64 ∧ Sound v.key g ∧
        (u.eng.sess t i).port port = { v.port port with limitOut := (v.port port).limitOut + 64, owed := 0 } ∧
        Only [.pollen, .count, .out] s u) ∧
    (v.state = .keyed → s.regs.probeInterval ≤ v.sinceRx → s.eng.canSend s.regs = true →
      ∃ u gs, exec (.probeSend tenant slot) s = .next u ∧ u.eng.out = s.eng.out ++ gs ∧ Only [.pollen, .count, .out] s u ∧
        gs.length = ((List.range 48).filter fun p => (s.eng.upMask (s.regs.peerMask t i)).getLsbD p).length ∧
        ∀ o ∈ gs, ∃ p g, o = .frame p g ∧ g.type = ftProbe ∧ (s.eng.upMask (s.regs.peerMask t i)).getLsbD p = true) ∧
    (∀ x, v.state = .keyed → 4 * s.regs.probeInterval ≤ v.sinceRx →
      (s.eng.pollen.sess.filter fun y => s.regs.peerId (y.1 / 16) (y.1 % 16) == s.regs.peerId t i) = [x] → x.1 = 16 * t + i →
      ∃ u, exec (.peerLost tenant slot) s = .next u ∧ u.eng.sess t i = Session.none ∧ u.regs = s.regs) ∧
    (∀ port, s.kit.hasPort port = true →
      (exec (.lnkUpFall port) s = .next (withEng s (Engine.forEach s.eng.pollen.sess
        (fun x e => e.failPort s.kit s.regs (x.1 / 16) (x.1 % 16) port 0x31)
        { s.eng with pollen := { s.eng.pollen with portUp := s.eng.pollen.portUp &&& ~~~(1#48 <<< port) } }))) ∧
      (∀ x, (s.eng.pollen.sess.filter fun y => y.2.state == .keyed) = [x] → (BitVec.ofNat 48 (s.regs.peerMask (x.1 / 16) (x.1 % 16))).getLsbD port = true →
        exec (.lnkUpRise port) s = .next (withEng s (Engine.sendControl s.regs (x.1 / 16) (x.1 % 16) port ftProbe 0
          { s.eng with pollen := { s.eng.pollen with portUp := s.eng.pollen.portUp ||| (1#48 <<< port) } }))) ∧
      ((∀ x ∈ s.eng.pollen.sess, x.2.state ≠ .keyed) → ∃ u, exec (.lnkUpRise port) s = .next u ∧ Only [.pollen] s u ∧
        u.eng.pollen = { s.eng.pollen with portUp := s.eng.pollen.portUp ||| (1#48 <<< port) }))

/-! ### The vault -/

/-- R294 to R304: a CMD of a host queue that a condition refuses is answered with REFUSED and its code, and does nothing else; an accepted one is
in flight and does what its opcode says: WRITE and FW_DOWNLOAD wait for their data; the features are read and set; IDENTIFY, GET_LOG and READ
write their DATA packets and their RESP, a READ of clean lines what the partition holds; FLUSH and VERIFY wait for durability, and with nothing
dirty are answered at once, VERIFY by the digest of the body's lines. A READ first meets the upsets that come with it (R109). -/
def Obligations.HostCommandsAreServed : Prop :=
  ∀ (s : State) (queue : BitVec 4) (p : Packet) (h : VaultHdr), let q := queue.toNat
    let tn := s.regs.vqTenant q
    let c := s.eng.newCmd tn none h
    let e := inFlight s q c
    Offered s q p h →
    (∀ code, ∀ y ∈ vaultCommands queue, h.opcode = y.1 ∨ opDefined h.opcode = false → judge (cmdConds s q p h) = some code →
      ∃ t, exec y.2 s = .next t ∧ Responded s t q h true code 0 ∧ t.eng.counter Ctr.cmdsFailed = s.eng.counter Ctr.cmdsFailed + 1 ∧
        Only [.vault, .count, .mem, .out] s t) ∧
    (∀ window upsets, exec (.read (.host queue) window upsets) s = exec (.read (.host queue) window {}) (withEng s (s.eng.strike upsets))) ∧
    (NoneHolds (cmdConds s q p h) →
      (h.opcode = opWrite → exec (.write (.host queue)) s = .next (withEng s e)) ∧
      (h.opcode = opFwDownload → exec (.fwDownload (.host queue)) s = .next (withEng s e)) ∧
      (∀ window, h.opcode = opRead → ∃ beats code off e', exec (.read (.host queue) window {}) s =
          .next (withEng s (e'.finishCmd s.kit s.regs q c beats code off)) ∧ (code = 0 → off = h.len ∧ beats.length = ceilDiv h.len 64) ∧
        Same [.vault, .count, .fox, .draws, .front, .body, .bulb, .cycle] s.eng e') ∧
      (h.opcode = opFlush → exec (.flush (.host queue)) s = .next (withEng s (e.beginFlush s.kit s.regs q c none))) ∧
      (∀ window faults b rest, h.opcode = opVerify → p.payload = b :: rest → exec (.verify (.host queue) window faults) s = .next (withEng s
        (e.beginFlush s.kit s.regs q c (some { expected := b.data.setWidth 256, reads := { window := window, faults := faults } })))) ∧
      (OutClear s q tn →
        (h.opcode = opGetFeature → ∃ t, exec (.getFeature (.host queue)) s = .next t ∧
          Answered s t q h [] 0 (if h.arg = 1 then (s.eng.vtenant tn.toNat).arb.toNat else (s.eng.vtenant tn.toNat).wcache.toNat) ∧
          t.eng.vault.tenants = s.eng.vault.tenants ∧ Only [.vault, .count, .mem, .out] s t) ∧
        (h.opcode = opSetFeature → ∃ t, exec (.setFeature (.host queue)) s = .next t ∧ Answered s t q h [] 0 0 ∧
          (let old := s.eng.vtenant tn.toNat
           let v := BitVec.ofNat 32 (bits 63 32 h.arg)
           t.eng.vtenant tn.toNat = if bits 7 0 h.arg = 1 then { old with arb := v } else { old with wcache := v }) ∧
          (∀ m, m ≠ tn.toNat → t.eng.vtenant m = s.eng.vtenant m) ∧ Only [.vault, .count, .mem, .out] s t) ∧
        (let data := plainBeats (s.eng.identifyData s.regs q c)
         h.opcode = opIdentify → OutFits s q h data → ∃ t, exec (.identify (.host queue)) s = .next t ∧ Answered s t q h data 0 256 ∧
          Only [.vault, .count, .mem, .out] s t) ∧
        (let page := bits 7 0 h.arg
         let data := plainBeats (s.eng.logPage tn.toNat page)
         h.opcode = opGetLog → OutFits s q h data → ∃ t, exec (.getLog (.host queue)) s = .next t ∧
          Answered s t q h data 0 (pageSize page) ∧ (∀ m, m ≠ tn.toNat → t.eng.vtenant m = s.eng.vtenant m) ∧
          (let old := s.eng.vtenant tn.toNat
           t.eng.vtenant tn.toNat = if page = 2 ∧ bitOf 8 h.arg = true ∧ old.deferred ≠ [] then { old with deferred := [], overflow := false } else old) ∧
          Only [.vault, .count, .mem, .out] s t) ∧
        (let lines := (lineRange h.offset h.len).map fun n => (64 * n, (s.eng.partRead s.regs tn.toNat n).getD Line.empty)
         let data : List MemBeat := lines.map fun x => { data := x.2.data, poison := x.2.poison }
         let bad := lines.find? fun x => x.2.poison
         let code : Code := if bad.isSome then 0x21 else 0
         ∀ window, h.opcode = opRead → (∀ n ∈ lineRange h.offset h.len, ReadsClean s tn.toNat n) → OutFits s q h data →
          ∃ t, exec (.read (.host queue) window {}) s = .next t ∧ Answered s t q h data code ((bad.map fun x => x.1).getD h.len) ∧
            Only (answerGroups code) s t) ∧
        (Settled s →
          (h.opcode = opFlush → ∃ t, exec (.flush (.host queue)) s = .next t ∧ Answered s t q h [] 0 0 ∧ Only [.vault, .count, .mem, .out] s t) ∧
          (let line (n : Nat) : Line := (s.eng.body.line (s.eng.partKey s.regs tn.toNat n)).getD Line.empty
           ∀ window b rest, h.opcode = opVerify → p.payload = b :: rest →
            (∀ n ∈ lineRange h.offset h.len, (s.eng.body.upset (s.eng.partKey s.regs tn.toNat n)).flips = [] ∧ (line n).poison = false) →
            let code : Code := if parallelHash (((lineRange h.offset h.len).flatMap fun n => lineBytes (line n).data).take h.len) =
              b.data.setWidth 256 then 0 else 0x22
            ∃ t, exec (.verify (.host queue) window []) s = .next t ∧ Answered s t q h [] code 0 ∧ Only (answerGroups code) s t))))

/-- R305, R306, R342: an FW_COMMIT that a condition refuses is answered with REFUSED and its code; an accepted one stores the image of the staging
buffer in the slot that is not active when it is authentic, and nothing otherwise (0x46); one that does not verify is not to be used (0x26); each
way the buffer is emptied. ARG 2 activates the stored image: a live update begins. -/
def Obligations.FirmwareIsCommitted : Prop :=
  ∀ (s : State) (queue : BitVec 4) (p : Packet) (h : VaultHdr) (o : StoreOutcome), let q := queue.toNat
    let tn := s.regs.vqTenant q
    let c := s.eng.newCmd tn none h
    let slot := !s.eng.body.activeSlot
    let img := stagedImage s.eng.vault.staging
    let stored := s.eng.body.setFwSlot slot img
    let commits := [(1, Instr.store (.host queue) o), (2, Instr.storeActivate (.host queue) o)]
    Offered s q p h →
    (∀ code, ∀ y ∈ commits, (h.opcode = opFwCommit ∧ h.arg ≠ 3 - y.1) ∨ opDefined h.opcode = false →
      judge (cmdConds s q p h) = some code →
      ∃ t, exec y.2 s = .next t ∧ Responded s t q h true code 0 ∧ t.eng.counter Ctr.cmdsFailed = s.eng.counter Ctr.cmdsFailed + 1 ∧
        Only [.vault, .count, .mem, .out] s t) ∧
    (NoneHolds (cmdConds s q p h) → h.opcode = opFwCommit →
      (OutClear s q tn →
        (∀ y ∈ commits, h.arg = y.1 →
          (s.eng.authentic s.eng.vault.staging = false → ∃ t, exec y.2 s = .next t ∧ Answered s t q h [] 0x46 0 ∧
            t.eng.vault.staging = [] ∧ Only [.vault, .count, .mem, .out, .draws, .cycle] s t) ∧
          (s.eng.authentic s.eng.vault.staging = true → o.verified = false → ∃ t, exec y.2 s = .next t ∧ Answered s t q h [] 0x26 0 ∧
            t.eng.vault.staging = [] ∧ t.eng.body = stored ∧ Only [.vault, .count, .mem, .out, .draws, .cycle, .body] s t)) ∧
        (h.arg = 1 → s.eng.authentic s.eng.vault.staging = true → o.verified = true → ∃ t, exec (.store (.host queue) o) s = .next t ∧
          Answered s t q h [] 0 0 ∧ t.eng.vault.staging = [] ∧ t.eng.body = { stored with nextSlot := slot } ∧
          Only [.vault, .count, .mem, .out, .body] s t)) ∧
      (h.arg = 2 → s.eng.authentic s.eng.vault.staging = true → o.verified = true → ∃ t, exec (.storeActivate (.host queue) o) s = .next t ∧
        t.eng.referee.fw = .restarting 0 ∧ t.eng.referee.fwSvn = BitVec.ofNat 32 (leAt 8 4 img) ∧ t.eng.referee.steward = s.eng.referee.steward ∧
        t.eng.body = { stored with nextSlot := slot } ∧ (t.eng.vq q).cmds = (s.eng.vq q).cmds ++ [c] ∧ Only [.vault, .referee, .body] s t))

/-- R261, R263, R265, R286, R287, R309: a doorbell of a host queue moves its pointer, and what becomes visible is framed or goes out; one that is
not active, out of range or moves back is ignored, and raises 0x2C (the TENANT: log 73). A window that waits on its PHASE is read again at a later
edge, and waits on. A reset empties its queue, and its end is accepted. -/
def Obligations.VaultDoorbellsAndResets : Prop :=
  (∀ (s : State) (queue : BitVec 4) (value : Word), s.eng.cfgOpen = true → let q := queue.toNat
    let v := s.eng.vq q
    let size := s.regs.inSize q
    let ahead (x : Nat) : Nat := (x + size - s.eng.inHead s.regs q) % size
    let freed := (value.toNat + s.regs.outSize q - v.outHead) % s.regs.outSize q
    (∀ lines, s.regs.vqActive q = false ∨ size ≤ value.toNat ∨ ahead value.toNat < ahead v.inTail →
      ∃ t, exec (.vqInDb queue value lines) s = .next t ∧ Raised s t 0x2C (s.regs.queueConcerned q) ∧ Only [.count, .fox, .draws, .out, .cycle] s t) ∧
    (s.regs.vqActive q = true → value.toNat < size → ahead v.inTail ≤ ahead value.toNat → s.eng.power.state = 0 → s.eng.power.entering = false →
      (∀ lines, v.phaseWait.isSome = true → exec (.vqInDb queue value lines) s =
        .next (driven (withEng s (s.eng.setVq q { v with inTail := value.toNat })) [.cfgDone])) ∧
      (∀ lines, v.phaseWait = none → ∃ e : Engine, e.vq q = { v with inTail := value.toNat, unread := [] } ∧
        (∀ m, m ≠ q → e.vq m = s.eng.vq m) ∧ Same [.vault] s.eng e ∧
        exec (.vqInDb queue value lines) s = .next (driven (withEng s (e.frameIn s.kit s.regs q lines)) [.cfgDone])) ∧
      (∀ d : LineData, v.phaseWait = none → v.chain = [] → v.inFetch < size → 1 < size → value.toNat = (v.inFetch + 1) % size →
        d.getLsbD 0 = v.inPhase → lineCount d = 0 → ∃ t, exec (.vqInDb queue value [.ok d]) s = .next t ∧
          (t.eng.vq q).packets = v.packets ++ [{ hdr := lineHdr d, payload := [], rsv := lineRsv d }] ∧
          (t.eng.vq q).inTail = value.toNat ∧ (t.eng.vq q).inFetch = value.toNat ∧ (∀ m, m ≠ q → t.eng.vq m = s.eng.vq m) ∧
          t.eng.out = s.eng.out ++ [.cfgDone] ∧ Only [.vault, .out] s t)) ∧
    (s.regs.vqActive q = false ∨ s.regs.outSize q ≤ value.toNat ∨ s.eng.outUnreleased s.regs q < freed →
      ∃ t, exec (.vqOutDb queue value) s = .next t ∧ Raised s t 0x2C (s.regs.queueConcerned q) ∧ Only [.count, .fox, .draws, .out, .cycle] s t) ∧
    (s.regs.vqActive q = true → value.toNat < s.regs.outSize q → freed ≤ s.eng.outUnreleased s.regs q →
      let e := s.eng.setVq q { v with outHead := value.toNat }
      exec (.vqOutDb queue value) s = .next (driven (withEng s ((e.pumpOut s.kit s.regs q).resumeIn s.kit s.regs q)) [.cfgDone]) ∧
      ((∀ c ∈ v.cmds, c.answer = none) → v.unread = [] → exec (.vqOutDb queue value) s = .next (driven (withEng s e) [.cfgDone])))) ∧
  (∀ (s : State) (queue : BitVec 4) (n : Nat) (d : LineData) (rest : List LineRead), let q := queue.toNat
    let v := s.eng.vq q
    v.phaseWait = some n →
    (v.phaseBeat = s.eng.beat.num → exec (.phaseRetry (.queue queue) (.ok d :: rest)) s = .next s) ∧
    (v.phaseBeat ≠ s.eng.beat.num → d.getLsbD 0 ≠ v.inPhase → n + 1 < 16 → ∃ t, exec (.phaseRetry (.queue queue) (.ok d :: rest)) s = .next t ∧
      t.eng.counter Ctr.phaseRetries = s.eng.counter Ctr.phaseRetries + 1 ∧
      t.eng.vq q = { v with chain := [d], phaseWait := some (n + 1), phaseBeat := s.eng.beat.num } ∧
      (∀ m, m ≠ q → t.eng.vq m = s.eng.vq m) ∧ Only [.vault, .count] s t)) ∧
  (∀ (s : State) (value : Word), s.eng.cfgOpen = true → value.getLsbD 31 = true → bits 30 6 value.toNat = 0 → let q := value.toNat % 64
    (s.eng.vq q).resetting = false →
    (q < 16 → ∃ t, exec (.vqReset value) s = .next t ∧ t.eng.vq q = { VQueue.fresh with resetting := true } ∧
      t.regs.vqActive q = false ∧ (∀ off, off ≠ vqOff q + 0x10 → t.regs.word off = s.regs.word off ∧ t.regs.shadowWord off = s.regs.shadowWord off) ∧
      t.eng.counter Ctr.queueResets = s.eng.counter Ctr.queueResets + 1 ∧ t.kit = s.kit ∧ t.pending = s.pending ∧
      Same [.vault, .front, .count, .draws, .cycle, .mem, .out] s.eng t.eng) ∧
    (16 ≤ q → q < 16 + s.kit.linkPorts → (s.eng.vq q).cmds = [] → ∃ t, exec (.vqReset value) s = .next t ∧
      t.eng.vq q = { s.eng.vq q with resetting := true } ∧ (∀ m, m ≠ q → t.eng.vq m = s.eng.vq m) ∧
      t.eng.counter Ctr.queueResets = s.eng.counter Ctr.queueResets + 1 ∧ t.eng.out = s.eng.out ++ [.cfgDone] ∧
      Only [.vault, .count, .out] s t)) ∧
  (∀ (s : State) (queue : BitVec 6), ∃ t, exec (.vqResetDone queue) s = .next t ∧
    t.eng.vq queue.toNat = { s.eng.vq queue.toNat with resetting := false } ∧ (∀ m, m ≠ queue.toNat → t.eng.vq m = s.eng.vq m) ∧ Only [.vault] s t)

/-- R221, R285, R289 to R295, R305, R307, R354: XFER_RDY reserves the lines of the command that the classes choose; DATA in place is staged, the
last of it fills the staging buffer or makes the lines of a WRITE front copies, and DATA out of place ends its command with 0x19. Of what frames
carry, a CMD is refused, waits for a steward, or starts; XFER_RDY lets the data of its exchange go, and RESP ends it, with 0x35 for its cut
unless it says 0x00; one that answers nothing ends the command with its tag, if there is one. An exchange that has waited too long ends
with 0x60. A READ first meets the upsets that come with it (R109). -/
def Obligations.VaultExchangesMove : Prop :=
  (∀ (s : State) (queue : BitVec 6) (c : VCmd), let q := queue.toNat
    let v := s.eng.vq q
    ((v.cmds.find? fun x => x.tag == c.tag && movesIn x.opcode && !x.ready && x.answer.isNone) = some c → c.session = none →
      (∃ e, s.eng.chooseCmd (arbVault c.tenant.toNat) c.tenant (s.eng.waitingWrites c.tenant) = some (s.eng.candidate q c, e)) →
      s.eng.vaultRoom s.regs c.tenant (c.len / 64) = true → ∃ t tag, exec (.xferRdySend queue c.tag) s = .next t ∧
        (t.eng.vq q).cmds = updFirst (fun x => x.tag == c.tag) (fun x => { x with ready := true }) v.cmds ∧
        t.eng.front = { s.eng.front with reserved := s.eng.front.reserved + c.len / 64 } ∧
        (let a := s.regs.outBase q + 64 * v.outTail
         t.eng.out = s.eng.out ++ [.memWrite (channelOf s.kit a) tag a
           (outHeader v.outPhase 0 (mkHdr ptXferRdy c.tag c.opcode c.prio c.len c.offset 0).word) [] 1]) ∧ Only [.vault, .front, .mem, .out] s t) ∧
    (∀ n, (v.cmds.find? fun x => x.tag == c.tag && x.session.isSome) = some c → c.session = some n → 4 * s.regs.probeInterval ≤ c.age →
      ∃ e : Engine, (e.vq q).cmds = v.cmds.filter (fun x => !(x.tag == c.tag)) ∧
        e.counter Ctr.xchgTimeouts = s.eng.counter Ctr.xchgTimeouts + 1 ∧ Same [.vault, .front, .count, .draws, .cycle] s.eng e ∧
        (s.eng.sessionLive q c = false → exec (.exchangeTimeout queue c.tag) s = .next (withEng s e)) ∧
        (s.eng.sessionLive q c = true → exec (.exchangeTimeout queue c.tag) s = .next (withEng s
          (e.sendSeq s.regs (n / 16) (n % 16) (q - 16) (vaultFrame (respHdr c.tag c.opcode c.prio c.offset 0 false 0x60).word [])))))) ∧
  (∀ (s : State) (queue : BitVec 4) (p : Packet) (rest : List Packet) (c : VCmd), let q := queue.toNat
    let v := s.eng.vq q
    let h := vaultHdrOf p.hdr
    let got := c.staged ++ p.payload
    let gone := v.cmds.filter fun x => !(x.tag == c.tag)
    let a := s.regs.outBase q + 64 * v.outTail
    v.packets = p :: rest → s.regs.vqActive q = true → s.eng.scheduling = true → h.type = ptData →
    (v.cmds.find? fun x => x.tag == h.tag) = some c → c.ready = true → c.waiting = false → c.answer = none → c.session = none → p.payload ≠ [] →
    (h.offset = c.offset + 64 * c.staged.length → 64 * got.length < c.len → h.last = false → ∃ t, exec (.data (.host queue)) s = .next t ∧
      (t.eng.vq q).cmds = updFirst (fun x => x.tag == h.tag) (fun _ => { c with staged := got, age := 0 }) v.cmds ∧
      (t.eng.vq q).packets = rest ∧ Only [.vault] s t) ∧
    (OutClear s q c.tenant →
      (h.offset ≠ c.offset + 64 * c.staged.length → ∃ t tag, exec (.data (.host queue)) s = .next t ∧
        t.eng.counter Ctr.seqErrors = s.eng.counter Ctr.seqErrors + 1 ∧ (t.eng.vq q).cmds = gone ∧
        t.eng.out = s.eng.out ++ [.memWrite (channelOf s.kit a) tag a
          (outHeader v.outPhase 0 (respHdr c.tag c.opcode c.prio c.offset 0 false 0x19).word) [] 1] ∧
        Only [.vault, .front, .count, .draws, .cycle, .mem, .out] s t) ∧
      (h.offset = c.offset + 64 * c.staged.length → 64 * got.length = c.len → h.last = true →
        (c.opcode = opFwDownload → ∃ t tag, exec (.data (.host queue)) s = .next t ∧ (t.eng.vq q).cmds = gone ∧
          t.eng.vault.staging = putStaging c.offset (bytesOfLines (got.map fun b => b.data)) s.eng.vault.staging ∧
          t.eng.out = s.eng.out ++ [.memWrite (channelOf s.kit a) tag a
            (outHeader v.outPhase 0 (respHdr c.tag c.opcode c.prio c.offset c.len false 0).word) [] 1] ∧
          Only [.vault, .front, .count, .mem, .out] s t) ∧
        (c.opcode = opWrite → bitOf 2 c.flags = false → s.eng.front.anyDirty = false → ∃ t tag, exec (.data (.host queue)) s = .next t ∧
          (t.eng.vq q).cmds = gone ∧
          (∀ x ∈ (lineRange c.offset c.len).zip got, ∃ l, t.eng.front.find (.body (s.regs.partLine c.tenant.toNat x.1)) = some l ∧
            l.line = Line.ofData x.2.data c.tenant 0xD x.2.poison ∧ l.dirty = true ∧ l.part = .vault) ∧
          t.eng.out = s.eng.out ++ [.memWrite (channelOf s.kit a) tag a
            (outHeader v.outPhase 0 (respHdr c.tag c.opcode c.prio c.offset c.len false 0).word) [] 1] ∧
          Only [.vault, .front, .bulb, .body, .count, .mem, .out] s t)))) ∧
  (∀ (s : State) (port t i : Nat) (f : Frame), let h := vaultHdrOf f.bodyLo
    let q := 16 + port
    let mine (c : VCmd) : Bool := c.tag == h.tag && c.session == some (16 * t + i)
    VaultFrameOf s port t i f → ∃ e, VaultHeard s port t i f e ∧
      (∀ x, s.eng.xchgOf t i port h.tag = some x → let ended : Engine := { e with pollen := { e.pollen with xchgs := e.pollen.xchgs.filter fun y => y != x } }
        (h.type = ptResp →
          (∀ op, x.use = .cut op → exec (.resp port f) s =
            .next (withEng s (if h.code = 0 then ended.ackOp s.kit s.regs (.peer i) op else ended.endCut s.kit s.regs 0x35))) ∧
          (∀ id code plan result, x.use = .closing id code plan result → exec (.resp port f) s =
            .next (withEng s (ended.closingAnswered s.kit s.regs id code plan result))) ∧
          (x.use = .over → exec (.resp port f) s = .next (withEng s ended))) ∧
        (∀ op run, h.type = ptXferRdy → x.use = .cut op → x.dataSent = false → s.eng.cut.run = some run →
          let sent : List Xchg := updFirst (fun y => y == x) (fun y => { y with dataSent := true }) e.pollen.xchgs
          let y : Code × Engine := ({ e with pollen := { e.pollen with xchgs := sent } }).readOp s.kit s.regs run op
          exec (.xferRdy port f) s = .next (withEng s (if y.1 = 0 then y.2.forEach
            (dataPacketsOf x.tag opWrite (e.buddyFlags run.tenant op % 4) (e.windowOff run i op) (run.opBeats op))
            (fun z e => e.sendSeq s.regs t i port (vaultFrame z.1.word z.2)) else y.2.endCut s.kit s.regs y.1)))) ∧
      (s.eng.xchgOf t i port h.tag = none → ∀ y ∈ [(ptResp, Instr.resp port f), (ptXferRdy, Instr.xferRdy port f)], h.type = y.1 →
        ((s.eng.vq q).cmds.find? mine = none → exec y.2 s = .next (withEng s (e.bump Ctr.seqErrors 1))) ∧
        (∀ c, (s.eng.vq q).cmds.find? mine = some c → c.answer = none → exec y.2 s =
          .next (withEng s ((e.bump Ctr.seqErrors 1).finishCmd s.kit s.regs q c [] 0x19 0)))) ∧
      (h.type = ptCmd → let conds := (false, 0x11) :: fieldConds h f.beats ++ s.eng.stateConds s.regs q (BitVec.ofNat 4 t) (some (16 * t + i)) h
        let c := e.newCmd (BitVec.ofNat 4 t) (some (16 * t + i)) h
        let e' := e.ordered.onCmds q fun cs => cs ++ [c]
        (∀ window upsets, exec (.read (.link port f) window upsets) s =
          exec (.read (.link port f) window {}) (withEng s (s.eng.strike upsets))) ∧
        (∀ y ∈ linkCommands port f, h.opcode = y.1 ∨ opDefined h.opcode = false → s.eng.mayServe = false →
          exec y.2 s = .next (withEng s (e.setVq q { e.vq q with held := (e.vq q).held ++
            [{ session := 16 * t + i, hdr := f.bodyLo, payload := f.beats, reads := {} }] }))) ∧
        (∀ code, ∀ y ∈ linkCommands port f, h.opcode = y.1 ∨ opDefined h.opcode = false → s.eng.mayServe = true → judge conds = some code →
          exec y.2 s = .next (withEng s ((e.bump Ctr.cmdsFailed 1).sendPacket s.kit s.regs q (some (16 * t + i))
            (respHdr h.tag h.opcode (h.flags % 4) h.offset 0 true code) []))) ∧
        (s.eng.mayServe = true → NoneHolds conds →
          (h.opcode = opWrite → exec (.write (.link port f)) s = .next (withEng s e')) ∧
          (∀ window, h.opcode = opRead → exec (.read (.link port f) window {}) s = .next (withEng s (e'.serveRead s.kit s.regs q c window))) ∧
          (h.opcode = opFlush → exec (.flush (.link port f)) s = .next (withEng s (e'.beginFlush s.kit s.regs q c none))) ∧
          (∀ window faults, h.opcode = opVerify → exec (.verify (.link port f) window faults) s =
            .next (withEng s (e'.serveVerify s.kit s.regs q c f.beats { window := window, faults := faults }))) ∧
          (h.opcode = opIdentify → exec (.identify (.link port f)) s = .next (withEng s (e'.serveIdentify s.kit s.regs q c))))))

/-! ### The KEY port and the DBG port -/

/-- R410: a KEY command is answered REFUSED and changes nothing without KEY_EN where it is asked for, with a slot that is not FREE where all
must be, wherever what is to be set is set already, and with too many or too few words; GEN_IDENTITY waits for the noise source. R409: what
each does otherwise. -/
def Obligations.KeyCommandsSetTheFusesOnce : Prop :=
  ∀ (s : State) (w : Word), s.eng.cfgOpen = true →
    let keys := s.eng.keys
    let done (ks : Keys) (answer : Nat) : Host.Outcome State Fault Refusal :=
      .next (driven (withEng s { s.eng with keys := ks }) [.keyRsp 0 (BitVec.ofNat 32 answer)])
    let refused := (Host.Outcome.next (driven s [.keyRsp 1 0]) : Host.Outcome State Fault Refusal)
    (∀ c ∈ [Instr.genIdentity false w, .certWord false w, .lockCert false w, .fwKeyWord false w, .fuseFwKey false w], exec c s = refused) ∧
    (s.eng.allFree = false → ∀ c ∈ [Instr.genIdentity true w, .lockCert true w, .fuseFwKey true w], exec c s = refused) ∧
    (keys.identity.isSome = true → ∀ en, exec (.genIdentity en w) s = refused) ∧
    (keys.chainLocked = true → ∀ en, exec (.certWord en w) s = refused ∧ exec (.lockCert en w) s = refused) ∧
    (keys.fwDigest.isSome = true → ∀ en, exec (.fwKeyWord en w) s = refused ∧ exec (.fuseFwKey en w) s = refused) ∧
    (1024 ≤ keys.chain.length → ∀ en, exec (.certWord en w) s = refused) ∧
    (12 ≤ keys.fwWords.length → ∀ en, exec (.fwKeyWord en w) s = refused) ∧
    (keys.fwWords.length < 12 → ∀ en, exec (.fuseFwKey en w) s = refused) ∧
    (s.eng.allFree = true → keys.identity = none → s.eng.units.noise ≠ .healthy → exec (.genIdentity true w) s = .next s) ∧
    (s.eng.allFree = true → keys.identity = none → s.eng.units.noise = .healthy → ∃ t key, exec (.genIdentity true w) s = .next t ∧
      t.eng.keys = { keys with identity := some key } ∧ t.eng.out = s.eng.out ++ [.keyRsp 0 0] ∧ Only [.keys, .out, .draws] s t) ∧
    (s.eng.allFree = true → keys.chainLocked = false → exec (.lockCert true w) s = done { keys with chainLocked := true } 0) ∧
    (keys.chainLocked = false → keys.chain.length < 1024 → exec (.certWord true w) s = done { keys with chain := keys.chain ++ [w] } (keys.chain.length + 1)) ∧
    (keys.fwDigest = none → keys.fwWords.length < 12 →
      exec (.fwKeyWord true w) s = done { keys with fwWords := keys.fwWords ++ [w] } (keys.fwWords.length + 1)) ∧
    (s.eng.allFree = true → keys.fwDigest = none → 12 ≤ keys.fwWords.length →
      exec (.fuseFwKey true w) s = done { keys with fwDigest := some (digestOfWords keys.fwWords) } 0) ∧
    (∀ en, keys.identity.isSome = true → w.toNat ≤ 23 → exec (.readPublic en w) s = done keys (leAt (4 * w.toNat) 4 keys.publicBytes)) ∧
    (∀ en, keys.identity = none ∨ 23 < w.toNat → exec (.readPublic en w) s = refused) ∧
    (∀ en, exec (.status en w) s = done keys (b2n keys.identity.isSome + 2 * b2n keys.chainLocked + 4 * b2n keys.fwDigest.isSome +
      8 * keys.chain.length + 2 ^ 14 * b2n s.eng.allFree))

/-- R409, R410: what is set once stays: no step takes an identity key, a locked certificate chain or a firmware key digest away or changes it. -/
def Obligations.FusesStayAsTheyAreSet : Prop :=
  ∀ s t : State, step s = .next t →
    (∀ key, s.eng.keys.identity = some key → t.eng.keys.identity = some key) ∧
    (s.eng.keys.chainLocked = true → t.eng.keys.chainLocked = true ∧ t.eng.keys.chain = s.eng.keys.chain) ∧
    (∀ digest, s.eng.keys.fwDigest = some digest → t.eng.keys.fwDigest = some digest)

/-- R333, R334, R411, R412: a DBG read of a register that holds a tenant's value is answered only under that tenant's DEBUG_CONSENT, and is then
counted and remembered; one of any other readable register is answered; SCAN_TEST enters test mode only with every slot FREE, and removes the
keys and the front lines first; IDCODE gives a word whose bit 0 is 1. -/
def Obligations.DebugPortAsksForConsent : Prop :=
  (∀ (s : State) (dr : BitVec 56) (v : Word), s.eng.cfgOpen = true → dr.getLsbD 55 = false → let addr : BitVec 20 := dr.extractLsb' 35 20
    let off := if addr.toNat < 0x80000 then addr.toNat else (aliasOf addr.toNat).1
    let shown (t : State) (data : Word) (status : BitVec 2) : Prop :=
      t.eng.dbg.dr = dbgWord false addr data status ∧ t.eng.dbg.testMode = s.eng.dbg.testMode ∧
        t.eng.out = s.eng.out ++ [.dbgOut (dbgWord false addr data status)]
    (cfgRead s.kit s.regs s.eng addr.toNat = none → ∃ t, exec (.cfgAccess dr) s = .next t ∧ shown t 0 1 ∧ Only [.dbg, .out] s t) ∧
    (cfgRead s.kit s.regs s.eng addr.toNat = some v →
      (wordTenant s.regs s.eng off = none → ∃ t, exec (.cfgAccess dr) s = .next t ∧ shown t v 0 ∧ Only [.dbg, .out] s t) ∧
      (∀ n, wordTenant s.regs s.eng off = some n →
        ((s.eng.tenant n).policy.getLsbD 1 = false → ∃ t, exec (.cfgAccess dr) s = .next t ∧ shown t 0 2 ∧
          t.eng.counter Ctr.dbgDenied = s.eng.counter Ctr.dbgDenied + 1 ∧ Only [.dbg, .out, .count] s t) ∧
        ((s.eng.tenant n).policy.getLsbD 1 = true → ∃ t, exec (.cfgAccess dr) s = .next t ∧ shown t v 0 ∧
          t.eng.tenant n = { s.eng.tenant n with debugAccessed := true } ∧
          t.eng.counter (Ctr.dbgReads n) = s.eng.counter (Ctr.dbgReads n) + 1 ∧ Only [.dbg, .out, .count, .tenants] s t)))) ∧
  (∀ (s : State) (dr : BitVec 56) (i : WordInfo), s.eng.cfgOpen = true → dr.getLsbD 55 = true → let addr : BitVec 20 := dr.extractLsb' 35 20
    addr.toNat % 4 = 0 → addr.toNat < 0x80000 → rwWord s.kit addr.toNat = some i →
    ∃ t, exec (.cfgAccess dr) s = .next t ∧ t.regs.shadowWord addr.toNat = (dr.extractLsb' 3 32).toNat ∧
      (∀ off, off ≠ addr.toNat → t.regs.shadowWord off = s.regs.shadowWord off) ∧ t.regs.live = s.regs.live ∧
      t.eng.dbg.dr = dbgWord true addr 0 0 ∧ t.kit = s.kit ∧ t.pending = s.pending ∧ Same [.dbg, .out] s.eng t.eng) ∧
  (∀ s : State, (s.eng.allFree = false → exec .scanTest s = .next s) ∧
    (s.eng.allFree = true → ∃ t, exec .scanTest s = .next t ∧ t.eng.dbg = { s.eng.dbg with testMode := true } ∧ t.eng.front.lines = [] ∧
      (∀ n, n < 16 → (t.eng.tenant n).sealKey = none ∧ (t.eng.tenant n).pollenKey = none ∧ (t.eng.tenant n).state = (s.eng.tenant n).state) ∧
      Only [.dbg, .front, .tenants] s t)) ∧
  (∀ s : State, ∃ code : Word, exec .idcode s = .next (driven s [.idcode code]) ∧ code.getLsbD 0 = true)
end

