-- ==== Sys2Proof/Laws/Tab.lean ====
section
/-!
SUPPORT. The laws of the sparse tables: a read after a write, and the one canonical form, which every operation keeps.
-/

namespace Sys2Proof.Machine

variable {α : Type}

@[simp] theorem tabFind_nil (k : Nat) : tabFind k ([] : Tab α) = none := rfl

theorem tabFind_set_same (k : Nat) (v : α) (t : Tab α) : tabFind k (tabSet k v t) = some v := by
  induction t with
  | nil => simp [tabSet, tabFind]
  | cons p t ih =>
    obtain ⟨j, w⟩ := p
    unfold tabSet
    split
    · simp [tabFind]
    · split
      · simp [tabFind]
      · rename_i h _
        simp [tabFind, h, ih]

theorem tabFind_set_ne {j k : Nat} (h : j ≠ k) (v : α) (t : Tab α) : tabFind j (tabSet k v t) = tabFind j t := by
  induction t with
  | nil => simp [tabSet, tabFind, Ne.symm h]
  | cons p t ih =>
    obtain ⟨i, w⟩ := p
    unfold tabSet
    split
    · rename_i hi
      subst hi
      simp [tabFind, Ne.symm h]
    · split
      · simp [tabFind, Ne.symm h]
      · simp [tabFind, ih]

theorem tabFind_erase_ne {j k : Nat} (h : j ≠ k) (t : Tab α) : tabFind j (tabErase k t) = tabFind j t := by
  induction t with
  | nil => rfl
  | cons p t ih =>
    obtain ⟨i, w⟩ := p
    unfold tabErase
    split
    · rename_i hi
      subst hi
      simp [tabFind, Ne.symm h, ih]
    · simp [tabFind, ih]

/-! ### Order -/

theorem tabAbove_set {k j : Nat} {v : α} {t : Tab α} (hk : k < j) (h : tabAbove k t = true) : tabAbove k (tabSet j v t) = true := by
  induction t with
  | nil => simp [tabSet, tabAbove, hk]
  | cons p t ih =>
    obtain ⟨i, w⟩ := p
    simp only [tabAbove, List.all_cons, Bool.and_eq_true, decide_eq_true_eq] at h
    have ih' := ih (by simpa [tabAbove] using h.2)
    unfold tabSet
    split
    · simpa [tabAbove, hk] using h.2
    · split
      · simp only [tabAbove, List.all_cons, Bool.and_eq_true, decide_eq_true_eq]
        exact ⟨hk, h.1, h.2⟩
      · simp only [tabAbove, List.all_cons, Bool.and_eq_true, decide_eq_true_eq]
        exact ⟨h.1, by simpa [tabAbove] using ih'⟩

theorem tabAbove_erase {k j : Nat} {t : Tab α} (h : tabAbove k t = true) : tabAbove k (tabErase j t) = true := by
  induction t with
  | nil => rfl
  | cons p t ih =>
    obtain ⟨i, w⟩ := p
    simp only [tabAbove, List.all_cons, Bool.and_eq_true, decide_eq_true_eq] at h
    unfold tabErase
    split
    · exact ih (by simpa [tabAbove] using h.2)
    · simp only [tabAbove, List.all_cons, Bool.and_eq_true, decide_eq_true_eq]
      exact ⟨h.1, by simpa [tabAbove] using ih (by simpa [tabAbove] using h.2)⟩

theorem tabAbove_weaken {j k : Nat} {t : Tab α} (hjk : j < k) (h : tabAbove k t = true) : tabAbove j t = true := by
  simp only [tabAbove, List.all_eq_true, decide_eq_true_eq] at h ⊢
  exact fun p hp => Nat.lt_trans hjk (h p hp)

theorem tabSorted_set {k : Nat} {v : α} {t : Tab α} (h : tabSorted t = true) : tabSorted (tabSet k v t) = true := by
  induction t with
  | nil => rfl
  | cons p t ih =>
    obtain ⟨j, w⟩ := p
    simp only [tabSorted, Bool.and_eq_true] at h
    unfold tabSet
    split
    · rename_i hj
      subst hj
      simp [tabSorted, h.1, h.2]
    · rename_i hne
      split
      · rename_i hlt
        simp only [tabSorted, Bool.and_eq_true]
        refine ⟨?_, h.1, h.2⟩
        simp only [tabAbove, List.all_cons, Bool.and_eq_true, decide_eq_true_eq]
        exact ⟨hlt, tabAbove_weaken hlt h.1⟩
      · rename_i hge
        simp only [tabSorted, Bool.and_eq_true]
        exact ⟨tabAbove_set (by omega) h.1, ih h.2⟩

theorem tabSorted_erase {k : Nat} {t : Tab α} (h : tabSorted t = true) : tabSorted (tabErase k t) = true := by
  induction t with
  | nil => rfl
  | cons p t ih =>
    obtain ⟨j, w⟩ := p
    simp only [tabSorted, Bool.and_eq_true] at h
    unfold tabErase
    split
    · exact ih h.2
    · simp only [tabSorted, Bool.and_eq_true]
      exact ⟨tabAbove_erase h.1, ih h.2⟩

theorem tabFind_erase_same (k : Nat) (t : Tab α) : tabFind k (tabErase k t) = none := by
  induction t with
  | nil => rfl
  | cons p t ih =>
    obtain ⟨j, w⟩ := p
    unfold tabErase
    split
    · exact ih
    · rename_i hj
      simp [tabFind, hj, ih]

theorem tabSorted_filter {p : Nat × α → Bool} {t : Tab α} (h : tabSorted t = true) : tabSorted (t.filter p) = true := by
  induction t with
  | nil => rfl
  | cons q t ih =>
    obtain ⟨j, w⟩ := q
    simp only [tabSorted, Bool.and_eq_true] at h
    rw [List.filter_cons]
    split
    · simp only [tabSorted, Bool.and_eq_true]
      refine ⟨?_, ih h.2⟩
      have h1 := h.1
      simp only [tabAbove, List.all_eq_true, decide_eq_true_eq] at h1 ⊢
      exact fun x hx => h1 x (List.mem_filter.mp hx).1
    · exact ih h.2

/-! ### The canonical form -/

variable [DecidableEq α] {d : Nat → α}

theorem tabNoDefault_set {k : Nat} {v : α} {t : Tab α} (hv : v ≠ d k) (h : tabNoDefault d t = true) :
    tabNoDefault d (tabSet k v t) = true := by
  induction t with
  | nil => simp [tabSet, tabNoDefault, hv]
  | cons p t ih =>
    obtain ⟨j, w⟩ := p
    simp only [tabNoDefault, List.all_cons, Bool.and_eq_true, decide_eq_true_eq] at h
    have ih' := ih (by simpa [tabNoDefault] using h.2)
    unfold tabSet
    split
    · simp only [tabNoDefault, List.all_cons, Bool.and_eq_true, decide_eq_true_eq]
      exact ⟨hv, h.2⟩
    · split
      · simp only [tabNoDefault, List.all_cons, Bool.and_eq_true, decide_eq_true_eq]
        exact ⟨hv, h.1, h.2⟩
      · simp only [tabNoDefault, List.all_cons, Bool.and_eq_true, decide_eq_true_eq]
        exact ⟨h.1, by simpa [tabNoDefault] using ih'⟩

theorem tabNoDefault_erase {k : Nat} {t : Tab α} (h : tabNoDefault d t = true) : tabNoDefault d (tabErase k t) = true := by
  induction t with
  | nil => rfl
  | cons p t ih =>
    obtain ⟨j, w⟩ := p
    simp only [tabNoDefault, List.all_cons, Bool.and_eq_true, decide_eq_true_eq] at h
    unfold tabErase
    split
    · exact ih (by simpa [tabNoDefault] using h.2)
    · simp only [tabNoDefault, List.all_cons, Bool.and_eq_true, decide_eq_true_eq]
      exact ⟨h.1, by simpa [tabNoDefault] using ih (by simpa [tabNoDefault] using h.2)⟩

@[simp] theorem tabWf_nil : tabWf d ([] : Tab α) = true := rfl

theorem tabWf_erase {k : Nat} {t : Tab α} (h : tabWf d t = true) : tabWf d (tabErase k t) = true := by
  simp only [tabWf, Bool.and_eq_true] at h ⊢
  exact ⟨tabSorted_erase h.1, tabNoDefault_erase h.2⟩

/-- Writing an index keeps the canonical form. -/
theorem tabWf_put {k : Nat} {v : α} {t : Tab α} (h : tabWf d t = true) : tabWf d (tabPut d k v t) = true := by
  unfold tabPut
  split
  · exact tabWf_erase h
  · rename_i hv
    simp only [tabWf, Bool.and_eq_true] at h ⊢
    exact ⟨tabSorted_set h.1, tabNoDefault_set hv h.2⟩

theorem tabWf_filter {p : Nat × α → Bool} {t : Tab α} (h : tabWf d t = true) : tabWf d (t.filter p) = true := by
  simp only [tabWf, Bool.and_eq_true] at h ⊢
  refine ⟨tabSorted_filter h.1, ?_⟩
  have h2 := h.2
  simp only [tabNoDefault, List.all_eq_true] at h2 ⊢
  exact fun x hx => h2 x (List.mem_filter.mp hx).1

/-- A read of the index that was written gives the value written. -/
@[simp] theorem tabGet_put_same (d : Nat → α) (k : Nat) (v : α) (t : Tab α) : tabGet d k (tabPut d k v t) = v := by
  unfold tabPut tabGet
  split
  · rename_i hv
    rw [tabFind_erase_same, hv]
    rfl
  · rw [tabFind_set_same]
    rfl

/-- A read of any other index gives what it gave before. -/
theorem tabGet_put_ne {j k : Nat} (hjk : j ≠ k) (v : α) (t : Tab α) : tabGet d j (tabPut d k v t) = tabGet d j t := by
  unfold tabPut tabGet
  split
  · rw [tabFind_erase_ne hjk]
  · rw [tabFind_set_ne hjk]

end Sys2Proof.Machine
end

