-- ==== Sys2Proof/Laws/State.lean ====
section
/-!
SUPPORT. The fields of the state after each plain update: one lemma for each field that the update leaves, true by `rfl`.
-/

namespace Sys2Proof.Machine

/-! ### How a command acts -/

theorem State.eff_eq (f : Kit → Regs → Engine → Engine) (s : State) : s.eff f = .next { s with eng := f s.kit s.regs s.eng } := rfl

theorem State.effRegs_eq (f : Kit → Regs → Engine → Regs × Engine) (s : State) :
    s.effRegs f = .next { s with regs := (f s.kit s.regs s.eng).1, eng := (f s.kit s.regs s.eng).2 } := rfl

@[simp] theorem State.needs_true (s : State) (o : State → Out) : s.needs true o = o s := rfl
@[simp] theorem State.needs_false (s : State) (o : State → Out) : s.needs false o = .fault .noSuchUnit := rfl

@[simp] theorem Engine.when_true (f : Engine → Engine) (e : Engine) : e.when true f = f e := rfl
@[simp] theorem Engine.when_false (f : Engine → Engine) (e : Engine) : e.when false f = e := rfl
@[simp] theorem Engine.forEach_nil {α : Type} (f : α → Engine → Engine) (e : Engine) : e.forEach [] f = e := rfl

/-! ### The register file -/

@[simp] theorem Regs.setShadow_live (o : Nat) (v : Word) (r : Regs) : (r.setShadow o v).live = r.live := rfl
@[simp] theorem Regs.outcome_live (s : BitVec 2) (c : Code) (o : Nat) (r : Regs) : (r.outcome s c o).live = r.live := rfl
@[simp] theorem Regs.outcome_shadow (s : BitVec 2) (c : Code) (o : Nat) (r : Regs) : (r.outcome s c o).shadow = r.shadow := rfl
@[simp] theorem Regs.discard_live (r : Regs) : r.discard.live = r.live := rfl
@[simp] theorem Regs.discard_shadow (r : Regs) : r.discard.shadow = r.live := rfl
@[simp] theorem Regs.proposed_shadow (k : Kit) (r : Regs) : (r.proposed k).shadow = r.shadow := rfl

/-! ### The engine -/

@[simp] theorem Engine.drawn_beat (e : Engine) : (e.drawn).beat = e.beat := rfl
@[simp] theorem Engine.drawn_budget (e : Engine) : (e.drawn).budget = e.budget := rfl
@[simp] theorem Engine.drawn_count (e : Engine) : (e.drawn).count = e.count := rfl
@[simp] theorem Engine.drawn_stem (e : Engine) : (e.drawn).stem = e.stem := rfl
@[simp] theorem Engine.drawn_buds (e : Engine) : (e.drawn).buds = e.buds := rfl
@[simp] theorem Engine.drawn_cut (e : Engine) : (e.drawn).cut = e.cut := rfl
@[simp] theorem Engine.drawn_guard (e : Engine) : (e.drawn).guard = e.guard := rfl
@[simp] theorem Engine.drawn_front (e : Engine) : (e.drawn).front = e.front := rfl
@[simp] theorem Engine.drawn_body (e : Engine) : (e.drawn).body = e.body := rfl
@[simp] theorem Engine.drawn_bulb (e : Engine) : (e.drawn).bulb = e.bulb := rfl
@[simp] theorem Engine.drawn_units (e : Engine) : (e.drawn).units = e.units := rfl
@[simp] theorem Engine.drawn_recipes (e : Engine) : (e.drawn).recipes = e.recipes := rfl
@[simp] theorem Engine.drawn_pollen (e : Engine) : (e.drawn).pollen = e.pollen := rfl
@[simp] theorem Engine.drawn_streams (e : Engine) : (e.drawn).streams = e.streams := rfl
@[simp] theorem Engine.drawn_rings (e : Engine) : (e.drawn).rings = e.rings := rfl
@[simp] theorem Engine.drawn_vault (e : Engine) : (e.drawn).vault = e.vault := rfl
@[simp] theorem Engine.drawn_tenants (e : Engine) : (e.drawn).tenants = e.tenants := rfl
@[simp] theorem Engine.drawn_fox (e : Engine) : (e.drawn).fox = e.fox := rfl
@[simp] theorem Engine.drawn_referee (e : Engine) : (e.drawn).referee = e.referee := rfl
@[simp] theorem Engine.drawn_power (e : Engine) : (e.drawn).power = e.power := rfl
@[simp] theorem Engine.drawn_keys (e : Engine) : (e.drawn).keys = e.keys := rfl
@[simp] theorem Engine.drawn_dbg (e : Engine) : (e.drawn).dbg = e.dbg := rfl
@[simp] theorem Engine.drawn_selfTest (e : Engine) : (e.drawn).selfTest = e.selfTest := rfl
@[simp] theorem Engine.drawn_mem (e : Engine) : (e.drawn).mem = e.mem := rfl
@[simp] theorem Engine.drawn_out (e : Engine) : (e.drawn).out = e.out := rfl

@[simp] theorem Engine.drewN_beat (n : Nat) (e : Engine) : (e.drewN n).beat = e.beat := rfl
@[simp] theorem Engine.drewN_budget (n : Nat) (e : Engine) : (e.drewN n).budget = e.budget := rfl
@[simp] theorem Engine.drewN_count (n : Nat) (e : Engine) : (e.drewN n).count = e.count := rfl
@[simp] theorem Engine.drewN_stem (n : Nat) (e : Engine) : (e.drewN n).stem = e.stem := rfl
@[simp] theorem Engine.drewN_buds (n : Nat) (e : Engine) : (e.drewN n).buds = e.buds := rfl
@[simp] theorem Engine.drewN_cut (n : Nat) (e : Engine) : (e.drewN n).cut = e.cut := rfl
@[simp] theorem Engine.drewN_guard (n : Nat) (e : Engine) : (e.drewN n).guard = e.guard := rfl
@[simp] theorem Engine.drewN_front (n : Nat) (e : Engine) : (e.drewN n).front = e.front := rfl
@[simp] theorem Engine.drewN_body (n : Nat) (e : Engine) : (e.drewN n).body = e.body := rfl
@[simp] theorem Engine.drewN_bulb (n : Nat) (e : Engine) : (e.drewN n).bulb = e.bulb := rfl
@[simp] theorem Engine.drewN_units (n : Nat) (e : Engine) : (e.drewN n).units = e.units := rfl
@[simp] theorem Engine.drewN_recipes (n : Nat) (e : Engine) : (e.drewN n).recipes = e.recipes := rfl
@[simp] theorem Engine.drewN_pollen (n : Nat) (e : Engine) : (e.drewN n).pollen = e.pollen := rfl
@[simp] theorem Engine.drewN_streams (n : Nat) (e : Engine) : (e.drewN n).streams = e.streams := rfl
@[simp] theorem Engine.drewN_rings (n : Nat) (e : Engine) : (e.drewN n).rings = e.rings := rfl
@[simp] theorem Engine.drewN_vault (n : Nat) (e : Engine) : (e.drewN n).vault = e.vault := rfl
@[simp] theorem Engine.drewN_tenants (n : Nat) (e : Engine) : (e.drewN n).tenants = e.tenants := rfl
@[simp] theorem Engine.drewN_fox (n : Nat) (e : Engine) : (e.drewN n).fox = e.fox := rfl
@[simp] theorem Engine.drewN_referee (n : Nat) (e : Engine) : (e.drewN n).referee = e.referee := rfl
@[simp] theorem Engine.drewN_power (n : Nat) (e : Engine) : (e.drewN n).power = e.power := rfl
@[simp] theorem Engine.drewN_keys (n : Nat) (e : Engine) : (e.drewN n).keys = e.keys := rfl
@[simp] theorem Engine.drewN_dbg (n : Nat) (e : Engine) : (e.drewN n).dbg = e.dbg := rfl
@[simp] theorem Engine.drewN_selfTest (n : Nat) (e : Engine) : (e.drewN n).selfTest = e.selfTest := rfl
@[simp] theorem Engine.drewN_mem (n : Nat) (e : Engine) : (e.drewN n).mem = e.mem := rfl
@[simp] theorem Engine.drewN_out (n : Nat) (e : Engine) : (e.drewN n).out = e.out := rfl

@[simp] theorem Engine.emit_beat (o : Output) (e : Engine) : (e.emit o).beat = e.beat := rfl
@[simp] theorem Engine.emit_budget (o : Output) (e : Engine) : (e.emit o).budget = e.budget := rfl
@[simp] theorem Engine.emit_count (o : Output) (e : Engine) : (e.emit o).count = e.count := rfl
@[simp] theorem Engine.emit_stem (o : Output) (e : Engine) : (e.emit o).stem = e.stem := rfl
@[simp] theorem Engine.emit_buds (o : Output) (e : Engine) : (e.emit o).buds = e.buds := rfl
@[simp] theorem Engine.emit_cut (o : Output) (e : Engine) : (e.emit o).cut = e.cut := rfl
@[simp] theorem Engine.emit_guard (o : Output) (e : Engine) : (e.emit o).guard = e.guard := rfl
@[simp] theorem Engine.emit_front (o : Output) (e : Engine) : (e.emit o).front = e.front := rfl
@[simp] theorem Engine.emit_body (o : Output) (e : Engine) : (e.emit o).body = e.body := rfl
@[simp] theorem Engine.emit_bulb (o : Output) (e : Engine) : (e.emit o).bulb = e.bulb := rfl
@[simp] theorem Engine.emit_units (o : Output) (e : Engine) : (e.emit o).units = e.units := rfl
@[simp] theorem Engine.emit_recipes (o : Output) (e : Engine) : (e.emit o).recipes = e.recipes := rfl
@[simp] theorem Engine.emit_pollen (o : Output) (e : Engine) : (e.emit o).pollen = e.pollen := rfl
@[simp] theorem Engine.emit_streams (o : Output) (e : Engine) : (e.emit o).streams = e.streams := rfl
@[simp] theorem Engine.emit_rings (o : Output) (e : Engine) : (e.emit o).rings = e.rings := rfl
@[simp] theorem Engine.emit_vault (o : Output) (e : Engine) : (e.emit o).vault = e.vault := rfl
@[simp] theorem Engine.emit_tenants (o : Output) (e : Engine) : (e.emit o).tenants = e.tenants := rfl
@[simp] theorem Engine.emit_fox (o : Output) (e : Engine) : (e.emit o).fox = e.fox := rfl
@[simp] theorem Engine.emit_referee (o : Output) (e : Engine) : (e.emit o).referee = e.referee := rfl
@[simp] theorem Engine.emit_power (o : Output) (e : Engine) : (e.emit o).power = e.power := rfl
@[simp] theorem Engine.emit_keys (o : Output) (e : Engine) : (e.emit o).keys = e.keys := rfl
@[simp] theorem Engine.emit_dbg (o : Output) (e : Engine) : (e.emit o).dbg = e.dbg := rfl
@[simp] theorem Engine.emit_selfTest (o : Output) (e : Engine) : (e.emit o).selfTest = e.selfTest := rfl
@[simp] theorem Engine.emit_mem (o : Output) (e : Engine) : (e.emit o).mem = e.mem := rfl
@[simp] theorem Engine.emit_draws (o : Output) (e : Engine) : (e.emit o).draws = e.draws := rfl

@[simp] theorem Engine.bump_beat (o n : Nat) (e : Engine) : (e.bump o n).beat = e.beat := rfl
@[simp] theorem Engine.bump_budget (o n : Nat) (e : Engine) : (e.bump o n).budget = e.budget := rfl
@[simp] theorem Engine.bump_stem (o n : Nat) (e : Engine) : (e.bump o n).stem = e.stem := rfl
@[simp] theorem Engine.bump_buds (o n : Nat) (e : Engine) : (e.bump o n).buds = e.buds := rfl
@[simp] theorem Engine.bump_cut (o n : Nat) (e : Engine) : (e.bump o n).cut = e.cut := rfl
@[simp] theorem Engine.bump_guard (o n : Nat) (e : Engine) : (e.bump o n).guard = e.guard := rfl
@[simp] theorem Engine.bump_front (o n : Nat) (e : Engine) : (e.bump o n).front = e.front := rfl
@[simp] theorem Engine.bump_body (o n : Nat) (e : Engine) : (e.bump o n).body = e.body := rfl
@[simp] theorem Engine.bump_bulb (o n : Nat) (e : Engine) : (e.bump o n).bulb = e.bulb := rfl
@[simp] theorem Engine.bump_units (o n : Nat) (e : Engine) : (e.bump o n).units = e.units := rfl
@[simp] theorem Engine.bump_recipes (o n : Nat) (e : Engine) : (e.bump o n).recipes = e.recipes := rfl
@[simp] theorem Engine.bump_pollen (o n : Nat) (e : Engine) : (e.bump o n).pollen = e.pollen := rfl
@[simp] theorem Engine.bump_streams (o n : Nat) (e : Engine) : (e.bump o n).streams = e.streams := rfl
@[simp] theorem Engine.bump_rings (o n : Nat) (e : Engine) : (e.bump o n).rings = e.rings := rfl
@[simp] theorem Engine.bump_vault (o n : Nat) (e : Engine) : (e.bump o n).vault = e.vault := rfl
@[simp] theorem Engine.bump_tenants (o n : Nat) (e : Engine) : (e.bump o n).tenants = e.tenants := rfl
@[simp] theorem Engine.bump_fox (o n : Nat) (e : Engine) : (e.bump o n).fox = e.fox := rfl
@[simp] theorem Engine.bump_referee (o n : Nat) (e : Engine) : (e.bump o n).referee = e.referee := rfl
@[simp] theorem Engine.bump_power (o n : Nat) (e : Engine) : (e.bump o n).power = e.power := rfl
@[simp] theorem Engine.bump_keys (o n : Nat) (e : Engine) : (e.bump o n).keys = e.keys := rfl
@[simp] theorem Engine.bump_dbg (o n : Nat) (e : Engine) : (e.bump o n).dbg = e.dbg := rfl
@[simp] theorem Engine.bump_selfTest (o n : Nat) (e : Engine) : (e.bump o n).selfTest = e.selfTest := rfl
@[simp] theorem Engine.bump_mem (o n : Nat) (e : Engine) : (e.bump o n).mem = e.mem := rfl
@[simp] theorem Engine.bump_out (o n : Nat) (e : Engine) : (e.bump o n).out = e.out := rfl
@[simp] theorem Engine.bump_draws (o n : Nat) (e : Engine) : (e.bump o n).draws = e.draws := rfl

@[simp] theorem Engine.setTenant_beat (t : Nat) (v : Tenant) (e : Engine) : (e.setTenant t v).beat = e.beat := rfl
@[simp] theorem Engine.setTenant_budget (t : Nat) (v : Tenant) (e : Engine) : (e.setTenant t v).budget = e.budget := rfl
@[simp] theorem Engine.setTenant_count (t : Nat) (v : Tenant) (e : Engine) : (e.setTenant t v).count = e.count := rfl
@[simp] theorem Engine.setTenant_stem (t : Nat) (v : Tenant) (e : Engine) : (e.setTenant t v).stem = e.stem := rfl
@[simp] theorem Engine.setTenant_buds (t : Nat) (v : Tenant) (e : Engine) : (e.setTenant t v).buds = e.buds := rfl
@[simp] theorem Engine.setTenant_cut (t : Nat) (v : Tenant) (e : Engine) : (e.setTenant t v).cut = e.cut := rfl
@[simp] theorem Engine.setTenant_guard (t : Nat) (v : Tenant) (e : Engine) : (e.setTenant t v).guard = e.guard := rfl
@[simp] theorem Engine.setTenant_front (t : Nat) (v : Tenant) (e : Engine) : (e.setTenant t v).front = e.front := rfl
@[simp] theorem Engine.setTenant_body (t : Nat) (v : Tenant) (e : Engine) : (e.setTenant t v).body = e.body := rfl
@[simp] theorem Engine.setTenant_bulb (t : Nat) (v : Tenant) (e : Engine) : (e.setTenant t v).bulb = e.bulb := rfl
@[simp] theorem Engine.setTenant_units (t : Nat) (v : Tenant) (e : Engine) : (e.setTenant t v).units = e.units := rfl
@[simp] theorem Engine.setTenant_recipes (t : Nat) (v : Tenant) (e : Engine) : (e.setTenant t v).recipes = e.recipes := rfl
@[simp] theorem Engine.setTenant_pollen (t : Nat) (v : Tenant) (e : Engine) : (e.setTenant t v).pollen = e.pollen := rfl
@[simp] theorem Engine.setTenant_streams (t : Nat) (v : Tenant) (e : Engine) : (e.setTenant t v).streams = e.streams := rfl
@[simp] theorem Engine.setTenant_rings (t : Nat) (v : Tenant) (e : Engine) : (e.setTenant t v).rings = e.rings := rfl
@[simp] theorem Engine.setTenant_vault (t : Nat) (v : Tenant) (e : Engine) : (e.setTenant t v).vault = e.vault := rfl
@[simp] theorem Engine.setTenant_fox (t : Nat) (v : Tenant) (e : Engine) : (e.setTenant t v).fox = e.fox := rfl
@[simp] theorem Engine.setTenant_referee (t : Nat) (v : Tenant) (e : Engine) : (e.setTenant t v).referee = e.referee := rfl
@[simp] theorem Engine.setTenant_power (t : Nat) (v : Tenant) (e : Engine) : (e.setTenant t v).power = e.power := rfl
@[simp] theorem Engine.setTenant_keys (t : Nat) (v : Tenant) (e : Engine) : (e.setTenant t v).keys = e.keys := rfl
@[simp] theorem Engine.setTenant_dbg (t : Nat) (v : Tenant) (e : Engine) : (e.setTenant t v).dbg = e.dbg := rfl
@[simp] theorem Engine.setTenant_selfTest (t : Nat) (v : Tenant) (e : Engine) : (e.setTenant t v).selfTest = e.selfTest := rfl
@[simp] theorem Engine.setTenant_mem (t : Nat) (v : Tenant) (e : Engine) : (e.setTenant t v).mem = e.mem := rfl
@[simp] theorem Engine.setTenant_out (t : Nat) (v : Tenant) (e : Engine) : (e.setTenant t v).out = e.out := rfl
@[simp] theorem Engine.setTenant_draws (t : Nat) (v : Tenant) (e : Engine) : (e.setTenant t v).draws = e.draws := rfl

@[simp] theorem Engine.setKept_beat (t : Nat) (v : Kept) (e : Engine) : (e.setKept t v).beat = e.beat := rfl
@[simp] theorem Engine.setKept_budget (t : Nat) (v : Kept) (e : Engine) : (e.setKept t v).budget = e.budget := rfl
@[simp] theorem Engine.setKept_count (t : Nat) (v : Kept) (e : Engine) : (e.setKept t v).count = e.count := rfl
@[simp] theorem Engine.setKept_stem (t : Nat) (v : Kept) (e : Engine) : (e.setKept t v).stem = e.stem := rfl
@[simp] theorem Engine.setKept_buds (t : Nat) (v : Kept) (e : Engine) : (e.setKept t v).buds = e.buds := rfl
@[simp] theorem Engine.setKept_cut (t : Nat) (v : Kept) (e : Engine) : (e.setKept t v).cut = e.cut := rfl
@[simp] theorem Engine.setKept_guard (t : Nat) (v : Kept) (e : Engine) : (e.setKept t v).guard = e.guard := rfl
@[simp] theorem Engine.setKept_front (t : Nat) (v : Kept) (e : Engine) : (e.setKept t v).front = e.front := rfl
@[simp] theorem Engine.setKept_bulb (t : Nat) (v : Kept) (e : Engine) : (e.setKept t v).bulb = e.bulb := rfl
@[simp] theorem Engine.setKept_units (t : Nat) (v : Kept) (e : Engine) : (e.setKept t v).units = e.units := rfl
@[simp] theorem Engine.setKept_recipes (t : Nat) (v : Kept) (e : Engine) : (e.setKept t v).recipes = e.recipes := rfl
@[simp] theorem Engine.setKept_pollen (t : Nat) (v : Kept) (e : Engine) : (e.setKept t v).pollen = e.pollen := rfl
@[simp] theorem Engine.setKept_streams (t : Nat) (v : Kept) (e : Engine) : (e.setKept t v).streams = e.streams := rfl
@[simp] theorem Engine.setKept_rings (t : Nat) (v : Kept) (e : Engine) : (e.setKept t v).rings = e.rings := rfl
@[simp] theorem Engine.setKept_vault (t : Nat) (v : Kept) (e : Engine) : (e.setKept t v).vault = e.vault := rfl
@[simp] theorem Engine.setKept_tenants (t : Nat) (v : Kept) (e : Engine) : (e.setKept t v).tenants = e.tenants := rfl
@[simp] theorem Engine.setKept_fox (t : Nat) (v : Kept) (e : Engine) : (e.setKept t v).fox = e.fox := rfl
@[simp] theorem Engine.setKept_referee (t : Nat) (v : Kept) (e : Engine) : (e.setKept t v).referee = e.referee := rfl
@[simp] theorem Engine.setKept_power (t : Nat) (v : Kept) (e : Engine) : (e.setKept t v).power = e.power := rfl
@[simp] theorem Engine.setKept_keys (t : Nat) (v : Kept) (e : Engine) : (e.setKept t v).keys = e.keys := rfl
@[simp] theorem Engine.setKept_dbg (t : Nat) (v : Kept) (e : Engine) : (e.setKept t v).dbg = e.dbg := rfl
@[simp] theorem Engine.setKept_selfTest (t : Nat) (v : Kept) (e : Engine) : (e.setKept t v).selfTest = e.selfTest := rfl
@[simp] theorem Engine.setKept_mem (t : Nat) (v : Kept) (e : Engine) : (e.setKept t v).mem = e.mem := rfl
@[simp] theorem Engine.setKept_out (t : Nat) (v : Kept) (e : Engine) : (e.setKept t v).out = e.out := rfl
@[simp] theorem Engine.setKept_draws (t : Nat) (v : Kept) (e : Engine) : (e.setKept t v).draws = e.draws := rfl

@[simp] theorem Engine.setBud_beat (t : Nat) (v : Bud) (e : Engine) : (e.setBud t v).beat = e.beat := rfl
@[simp] theorem Engine.setBud_budget (t : Nat) (v : Bud) (e : Engine) : (e.setBud t v).budget = e.budget := rfl
@[simp] theorem Engine.setBud_count (t : Nat) (v : Bud) (e : Engine) : (e.setBud t v).count = e.count := rfl
@[simp] theorem Engine.setBud_stem (t : Nat) (v : Bud) (e : Engine) : (e.setBud t v).stem = e.stem := rfl
@[simp] theorem Engine.setBud_cut (t : Nat) (v : Bud) (e : Engine) : (e.setBud t v).cut = e.cut := rfl
@[simp] theorem Engine.setBud_guard (t : Nat) (v : Bud) (e : Engine) : (e.setBud t v).guard = e.guard := rfl
@[simp] theorem Engine.setBud_front (t : Nat) (v : Bud) (e : Engine) : (e.setBud t v).front = e.front := rfl
@[simp] theorem Engine.setBud_body (t : Nat) (v : Bud) (e : Engine) : (e.setBud t v).body = e.body := rfl
@[simp] theorem Engine.setBud_bulb (t : Nat) (v : Bud) (e : Engine) : (e.setBud t v).bulb = e.bulb := rfl
@[simp] theorem Engine.setBud_units (t : Nat) (v : Bud) (e : Engine) : (e.setBud t v).units = e.units := rfl
@[simp] theorem Engine.setBud_recipes (t : Nat) (v : Bud) (e : Engine) : (e.setBud t v).recipes = e.recipes := rfl
@[simp] theorem Engine.setBud_pollen (t : Nat) (v : Bud) (e : Engine) : (e.setBud t v).pollen = e.pollen := rfl
@[simp] theorem Engine.setBud_streams (t : Nat) (v : Bud) (e : Engine) : (e.setBud t v).streams = e.streams := rfl
@[simp] theorem Engine.setBud_rings (t : Nat) (v : Bud) (e : Engine) : (e.setBud t v).rings = e.rings := rfl
@[simp] theorem Engine.setBud_vault (t : Nat) (v : Bud) (e : Engine) : (e.setBud t v).vault = e.vault := rfl
@[simp] theorem Engine.setBud_tenants (t : Nat) (v : Bud) (e : Engine) : (e.setBud t v).tenants = e.tenants := rfl
@[simp] theorem Engine.setBud_fox (t : Nat) (v : Bud) (e : Engine) : (e.setBud t v).fox = e.fox := rfl
@[simp] theorem Engine.setBud_referee (t : Nat) (v : Bud) (e : Engine) : (e.setBud t v).referee = e.referee := rfl
@[simp] theorem Engine.setBud_power (t : Nat) (v : Bud) (e : Engine) : (e.setBud t v).power = e.power := rfl
@[simp] theorem Engine.setBud_keys (t : Nat) (v : Bud) (e : Engine) : (e.setBud t v).keys = e.keys := rfl
@[simp] theorem Engine.setBud_dbg (t : Nat) (v : Bud) (e : Engine) : (e.setBud t v).dbg = e.dbg := rfl
@[simp] theorem Engine.setBud_selfTest (t : Nat) (v : Bud) (e : Engine) : (e.setBud t v).selfTest = e.selfTest := rfl
@[simp] theorem Engine.setBud_mem (t : Nat) (v : Bud) (e : Engine) : (e.setBud t v).mem = e.mem := rfl
@[simp] theorem Engine.setBud_out (t : Nat) (v : Bud) (e : Engine) : (e.setBud t v).out = e.out := rfl
@[simp] theorem Engine.setBud_draws (t : Nat) (v : Bud) (e : Engine) : (e.setBud t v).draws = e.draws := rfl

@[simp] theorem Engine.setRing_beat (n : Nat) (v : Ring) (e : Engine) : (e.setRing n v).beat = e.beat := rfl
@[simp] theorem Engine.setRing_budget (n : Nat) (v : Ring) (e : Engine) : (e.setRing n v).budget = e.budget := rfl
@[simp] theorem Engine.setRing_count (n : Nat) (v : Ring) (e : Engine) : (e.setRing n v).count = e.count := rfl
@[simp] theorem Engine.setRing_stem (n : Nat) (v : Ring) (e : Engine) : (e.setRing n v).stem = e.stem := rfl
@[simp] theorem Engine.setRing_buds (n : Nat) (v : Ring) (e : Engine) : (e.setRing n v).buds = e.buds := rfl
@[simp] theorem Engine.setRing_cut (n : Nat) (v : Ring) (e : Engine) : (e.setRing n v).cut = e.cut := rfl
@[simp] theorem Engine.setRing_guard (n : Nat) (v : Ring) (e : Engine) : (e.setRing n v).guard = e.guard := rfl
@[simp] theorem Engine.setRing_front (n : Nat) (v : Ring) (e : Engine) : (e.setRing n v).front = e.front := rfl
@[simp] theorem Engine.setRing_body (n : Nat) (v : Ring) (e : Engine) : (e.setRing n v).body = e.body := rfl
@[simp] theorem Engine.setRing_bulb (n : Nat) (v : Ring) (e : Engine) : (e.setRing n v).bulb = e.bulb := rfl
@[simp] theorem Engine.setRing_units (n : Nat) (v : Ring) (e : Engine) : (e.setRing n v).units = e.units := rfl
@[simp] theorem Engine.setRing_recipes (n : Nat) (v : Ring) (e : Engine) : (e.setRing n v).recipes = e.recipes := rfl
@[simp] theorem Engine.setRing_pollen (n : Nat) (v : Ring) (e : Engine) : (e.setRing n v).pollen = e.pollen := rfl
@[simp] theorem Engine.setRing_streams (n : Nat) (v : Ring) (e : Engine) : (e.setRing n v).streams = e.streams := rfl
@[simp] theorem Engine.setRing_vault (n : Nat) (v : Ring) (e : Engine) : (e.setRing n v).vault = e.vault := rfl
@[simp] theorem Engine.setRing_tenants (n : Nat) (v : Ring) (e : Engine) : (e.setRing n v).tenants = e.tenants := rfl
@[simp] theorem Engine.setRing_fox (n : Nat) (v : Ring) (e : Engine) : (e.setRing n v).fox = e.fox := rfl
@[simp] theorem Engine.setRing_referee (n : Nat) (v : Ring) (e : Engine) : (e.setRing n v).referee = e.referee := rfl
@[simp] theorem Engine.setRing_power (n : Nat) (v : Ring) (e : Engine) : (e.setRing n v).power = e.power := rfl
@[simp] theorem Engine.setRing_keys (n : Nat) (v : Ring) (e : Engine) : (e.setRing n v).keys = e.keys := rfl
@[simp] theorem Engine.setRing_dbg (n : Nat) (v : Ring) (e : Engine) : (e.setRing n v).dbg = e.dbg := rfl
@[simp] theorem Engine.setRing_selfTest (n : Nat) (v : Ring) (e : Engine) : (e.setRing n v).selfTest = e.selfTest := rfl
@[simp] theorem Engine.setRing_mem (n : Nat) (v : Ring) (e : Engine) : (e.setRing n v).mem = e.mem := rfl
@[simp] theorem Engine.setRing_out (n : Nat) (v : Ring) (e : Engine) : (e.setRing n v).out = e.out := rfl
@[simp] theorem Engine.setRing_draws (n : Nat) (v : Ring) (e : Engine) : (e.setRing n v).draws = e.draws := rfl

@[simp] theorem Engine.addJob_beat (j : Job) (e : Engine) : (e.addJob j).beat = e.beat := rfl
@[simp] theorem Engine.addJob_budget (j : Job) (e : Engine) : (e.addJob j).budget = e.budget := rfl
@[simp] theorem Engine.addJob_count (j : Job) (e : Engine) : (e.addJob j).count = e.count := rfl
@[simp] theorem Engine.addJob_stem (j : Job) (e : Engine) : (e.addJob j).stem = e.stem := rfl
@[simp] theorem Engine.addJob_buds (j : Job) (e : Engine) : (e.addJob j).buds = e.buds := rfl
@[simp] theorem Engine.addJob_cut (j : Job) (e : Engine) : (e.addJob j).cut = e.cut := rfl
@[simp] theorem Engine.addJob_guard (j : Job) (e : Engine) : (e.addJob j).guard = e.guard := rfl
@[simp] theorem Engine.addJob_front (j : Job) (e : Engine) : (e.addJob j).front = e.front := rfl
@[simp] theorem Engine.addJob_body (j : Job) (e : Engine) : (e.addJob j).body = e.body := rfl
@[simp] theorem Engine.addJob_bulb (j : Job) (e : Engine) : (e.addJob j).bulb = e.bulb := rfl
@[simp] theorem Engine.addJob_units (j : Job) (e : Engine) : (e.addJob j).units = e.units := rfl
@[simp] theorem Engine.addJob_recipes (j : Job) (e : Engine) : (e.addJob j).recipes = e.recipes := rfl
@[simp] theorem Engine.addJob_pollen (j : Job) (e : Engine) : (e.addJob j).pollen = e.pollen := rfl
@[simp] theorem Engine.addJob_streams (j : Job) (e : Engine) : (e.addJob j).streams = e.streams := rfl
@[simp] theorem Engine.addJob_vault (j : Job) (e : Engine) : (e.addJob j).vault = e.vault := rfl
@[simp] theorem Engine.addJob_tenants (j : Job) (e : Engine) : (e.addJob j).tenants = e.tenants := rfl
@[simp] theorem Engine.addJob_fox (j : Job) (e : Engine) : (e.addJob j).fox = e.fox := rfl
@[simp] theorem Engine.addJob_referee (j : Job) (e : Engine) : (e.addJob j).referee = e.referee := rfl
@[simp] theorem Engine.addJob_power (j : Job) (e : Engine) : (e.addJob j).power = e.power := rfl
@[simp] theorem Engine.addJob_keys (j : Job) (e : Engine) : (e.addJob j).keys = e.keys := rfl
@[simp] theorem Engine.addJob_dbg (j : Job) (e : Engine) : (e.addJob j).dbg = e.dbg := rfl
@[simp] theorem Engine.addJob_selfTest (j : Job) (e : Engine) : (e.addJob j).selfTest = e.selfTest := rfl
@[simp] theorem Engine.addJob_mem (j : Job) (e : Engine) : (e.addJob j).mem = e.mem := rfl
@[simp] theorem Engine.addJob_out (j : Job) (e : Engine) : (e.addJob j).out = e.out := rfl
@[simp] theorem Engine.addJob_draws (j : Job) (e : Engine) : (e.addJob j).draws = e.draws := rfl

@[simp] theorem Engine.setStream_beat (n : Nat) (v : Stream) (e : Engine) : (e.setStream n v).beat = e.beat := rfl
@[simp] theorem Engine.setStream_budget (n : Nat) (v : Stream) (e : Engine) : (e.setStream n v).budget = e.budget := rfl
@[simp] theorem Engine.setStream_count (n : Nat) (v : Stream) (e : Engine) : (e.setStream n v).count = e.count := rfl
@[simp] theorem Engine.setStream_stem (n : Nat) (v : Stream) (e : Engine) : (e.setStream n v).stem = e.stem := rfl
@[simp] theorem Engine.setStream_buds (n : Nat) (v : Stream) (e : Engine) : (e.setStream n v).buds = e.buds := rfl
@[simp] theorem Engine.setStream_cut (n : Nat) (v : Stream) (e : Engine) : (e.setStream n v).cut = e.cut := rfl
@[simp] theorem Engine.setStream_guard (n : Nat) (v : Stream) (e : Engine) : (e.setStream n v).guard = e.guard := rfl
@[simp] theorem Engine.setStream_front (n : Nat) (v : Stream) (e : Engine) : (e.setStream n v).front = e.front := rfl
@[simp] theorem Engine.setStream_body (n : Nat) (v : Stream) (e : Engine) : (e.setStream n v).body = e.body := rfl
@[simp] theorem Engine.setStream_bulb (n : Nat) (v : Stream) (e : Engine) : (e.setStream n v).bulb = e.bulb := rfl
@[simp] theorem Engine.setStream_units (n : Nat) (v : Stream) (e : Engine) : (e.setStream n v).units = e.units := rfl
@[simp] theorem Engine.setStream_recipes (n : Nat) (v : Stream) (e : Engine) : (e.setStream n v).recipes = e.recipes := rfl
@[simp] theorem Engine.setStream_pollen (n : Nat) (v : Stream) (e : Engine) : (e.setStream n v).pollen = e.pollen := rfl
@[simp] theorem Engine.setStream_rings (n : Nat) (v : Stream) (e : Engine) : (e.setStream n v).rings = e.rings := rfl
@[simp] theorem Engine.setStream_vault (n : Nat) (v : Stream) (e : Engine) : (e.setStream n v).vault = e.vault := rfl
@[simp] theorem Engine.setStream_tenants (n : Nat) (v : Stream) (e : Engine) : (e.setStream n v).tenants = e.tenants := rfl
@[simp] theorem Engine.setStream_fox (n : Nat) (v : Stream) (e : Engine) : (e.setStream n v).fox = e.fox := rfl
@[simp] theorem Engine.setStream_referee (n : Nat) (v : Stream) (e : Engine) : (e.setStream n v).referee = e.referee := rfl
@[simp] theorem Engine.setStream_power (n : Nat) (v : Stream) (e : Engine) : (e.setStream n v).power = e.power := rfl
@[simp] theorem Engine.setStream_keys (n : Nat) (v : Stream) (e : Engine) : (e.setStream n v).keys = e.keys := rfl
@[simp] theorem Engine.setStream_dbg (n : Nat) (v : Stream) (e : Engine) : (e.setStream n v).dbg = e.dbg := rfl
@[simp] theorem Engine.setStream_selfTest (n : Nat) (v : Stream) (e : Engine) : (e.setStream n v).selfTest = e.selfTest := rfl
@[simp] theorem Engine.setStream_mem (n : Nat) (v : Stream) (e : Engine) : (e.setStream n v).mem = e.mem := rfl
@[simp] theorem Engine.setStream_out (n : Nat) (v : Stream) (e : Engine) : (e.setStream n v).out = e.out := rfl
@[simp] theorem Engine.setStream_draws (n : Nat) (v : Stream) (e : Engine) : (e.setStream n v).draws = e.draws := rfl

@[simp] theorem Engine.setSess_beat (t i : Nat) (v : Session) (e : Engine) : (e.setSess t i v).beat = e.beat := rfl
@[simp] theorem Engine.setSess_budget (t i : Nat) (v : Session) (e : Engine) : (e.setSess t i v).budget = e.budget := rfl
@[simp] theorem Engine.setSess_count (t i : Nat) (v : Session) (e : Engine) : (e.setSess t i v).count = e.count := rfl
@[simp] theorem Engine.setSess_stem (t i : Nat) (v : Session) (e : Engine) : (e.setSess t i v).stem = e.stem := rfl
@[simp] theorem Engine.setSess_buds (t i : Nat) (v : Session) (e : Engine) : (e.setSess t i v).buds = e.buds := rfl
@[simp] theorem Engine.setSess_cut (t i : Nat) (v : Session) (e : Engine) : (e.setSess t i v).cut = e.cut := rfl
@[simp] theorem Engine.setSess_guard (t i : Nat) (v : Session) (e : Engine) : (e.setSess t i v).guard = e.guard := rfl
@[simp] theorem Engine.setSess_front (t i : Nat) (v : Session) (e : Engine) : (e.setSess t i v).front = e.front := rfl
@[simp] theorem Engine.setSess_body (t i : Nat) (v : Session) (e : Engine) : (e.setSess t i v).body = e.body := rfl
@[simp] theorem Engine.setSess_bulb (t i : Nat) (v : Session) (e : Engine) : (e.setSess t i v).bulb = e.bulb := rfl
@[simp] theorem Engine.setSess_units (t i : Nat) (v : Session) (e : Engine) : (e.setSess t i v).units = e.units := rfl
@[simp] theorem Engine.setSess_recipes (t i : Nat) (v : Session) (e : Engine) : (e.setSess t i v).recipes = e.recipes := rfl
@[simp] theorem Engine.setSess_streams (t i : Nat) (v : Session) (e : Engine) : (e.setSess t i v).streams = e.streams := rfl
@[simp] theorem Engine.setSess_rings (t i : Nat) (v : Session) (e : Engine) : (e.setSess t i v).rings = e.rings := rfl
@[simp] theorem Engine.setSess_vault (t i : Nat) (v : Session) (e : Engine) : (e.setSess t i v).vault = e.vault := rfl
@[simp] theorem Engine.setSess_tenants (t i : Nat) (v : Session) (e : Engine) : (e.setSess t i v).tenants = e.tenants := rfl
@[simp] theorem Engine.setSess_fox (t i : Nat) (v : Session) (e : Engine) : (e.setSess t i v).fox = e.fox := rfl
@[simp] theorem Engine.setSess_referee (t i : Nat) (v : Session) (e : Engine) : (e.setSess t i v).referee = e.referee := rfl
@[simp] theorem Engine.setSess_power (t i : Nat) (v : Session) (e : Engine) : (e.setSess t i v).power = e.power := rfl
@[simp] theorem Engine.setSess_keys (t i : Nat) (v : Session) (e : Engine) : (e.setSess t i v).keys = e.keys := rfl
@[simp] theorem Engine.setSess_dbg (t i : Nat) (v : Session) (e : Engine) : (e.setSess t i v).dbg = e.dbg := rfl
@[simp] theorem Engine.setSess_selfTest (t i : Nat) (v : Session) (e : Engine) : (e.setSess t i v).selfTest = e.selfTest := rfl
@[simp] theorem Engine.setSess_mem (t i : Nat) (v : Session) (e : Engine) : (e.setSess t i v).mem = e.mem := rfl
@[simp] theorem Engine.setSess_out (t i : Nat) (v : Session) (e : Engine) : (e.setSess t i v).out = e.out := rfl
@[simp] theorem Engine.setSess_draws (t i : Nat) (v : Session) (e : Engine) : (e.setSess t i v).draws = e.draws := rfl

@[simp] theorem Engine.setVq_beat (q : Nat) (v : VQueue) (e : Engine) : (e.setVq q v).beat = e.beat := rfl
@[simp] theorem Engine.setVq_budget (q : Nat) (v : VQueue) (e : Engine) : (e.setVq q v).budget = e.budget := rfl
@[simp] theorem Engine.setVq_count (q : Nat) (v : VQueue) (e : Engine) : (e.setVq q v).count = e.count := rfl
@[simp] theorem Engine.setVq_stem (q : Nat) (v : VQueue) (e : Engine) : (e.setVq q v).stem = e.stem := rfl
@[simp] theorem Engine.setVq_buds (q : Nat) (v : VQueue) (e : Engine) : (e.setVq q v).buds = e.buds := rfl
@[simp] theorem Engine.setVq_cut (q : Nat) (v : VQueue) (e : Engine) : (e.setVq q v).cut = e.cut := rfl
@[simp] theorem Engine.setVq_guard (q : Nat) (v : VQueue) (e : Engine) : (e.setVq q v).guard = e.guard := rfl
@[simp] theorem Engine.setVq_front (q : Nat) (v : VQueue) (e : Engine) : (e.setVq q v).front = e.front := rfl
@[simp] theorem Engine.setVq_body (q : Nat) (v : VQueue) (e : Engine) : (e.setVq q v).body = e.body := rfl
@[simp] theorem Engine.setVq_bulb (q : Nat) (v : VQueue) (e : Engine) : (e.setVq q v).bulb = e.bulb := rfl
@[simp] theorem Engine.setVq_units (q : Nat) (v : VQueue) (e : Engine) : (e.setVq q v).units = e.units := rfl
@[simp] theorem Engine.setVq_recipes (q : Nat) (v : VQueue) (e : Engine) : (e.setVq q v).recipes = e.recipes := rfl
@[simp] theorem Engine.setVq_pollen (q : Nat) (v : VQueue) (e : Engine) : (e.setVq q v).pollen = e.pollen := rfl
@[simp] theorem Engine.setVq_streams (q : Nat) (v : VQueue) (e : Engine) : (e.setVq q v).streams = e.streams := rfl
@[simp] theorem Engine.setVq_rings (q : Nat) (v : VQueue) (e : Engine) : (e.setVq q v).rings = e.rings := rfl
@[simp] theorem Engine.setVq_tenants (q : Nat) (v : VQueue) (e : Engine) : (e.setVq q v).tenants = e.tenants := rfl
@[simp] theorem Engine.setVq_fox (q : Nat) (v : VQueue) (e : Engine) : (e.setVq q v).fox = e.fox := rfl
@[simp] theorem Engine.setVq_referee (q : Nat) (v : VQueue) (e : Engine) : (e.setVq q v).referee = e.referee := rfl
@[simp] theorem Engine.setVq_power (q : Nat) (v : VQueue) (e : Engine) : (e.setVq q v).power = e.power := rfl
@[simp] theorem Engine.setVq_keys (q : Nat) (v : VQueue) (e : Engine) : (e.setVq q v).keys = e.keys := rfl
@[simp] theorem Engine.setVq_dbg (q : Nat) (v : VQueue) (e : Engine) : (e.setVq q v).dbg = e.dbg := rfl
@[simp] theorem Engine.setVq_selfTest (q : Nat) (v : VQueue) (e : Engine) : (e.setVq q v).selfTest = e.selfTest := rfl
@[simp] theorem Engine.setVq_mem (q : Nat) (v : VQueue) (e : Engine) : (e.setVq q v).mem = e.mem := rfl
@[simp] theorem Engine.setVq_out (q : Nat) (v : VQueue) (e : Engine) : (e.setVq q v).out = e.out := rfl
@[simp] theorem Engine.setVq_draws (q : Nat) (v : VQueue) (e : Engine) : (e.setVq q v).draws = e.draws := rfl

@[simp] theorem Engine.onFront_beat (f : Front → Front) (e : Engine) : (e.onFront f).beat = e.beat := rfl
@[simp] theorem Engine.onFront_budget (f : Front → Front) (e : Engine) : (e.onFront f).budget = e.budget := rfl
@[simp] theorem Engine.onFront_count (f : Front → Front) (e : Engine) : (e.onFront f).count = e.count := rfl
@[simp] theorem Engine.onFront_stem (f : Front → Front) (e : Engine) : (e.onFront f).stem = e.stem := rfl
@[simp] theorem Engine.onFront_buds (f : Front → Front) (e : Engine) : (e.onFront f).buds = e.buds := rfl
@[simp] theorem Engine.onFront_cut (f : Front → Front) (e : Engine) : (e.onFront f).cut = e.cut := rfl
@[simp] theorem Engine.onFront_guard (f : Front → Front) (e : Engine) : (e.onFront f).guard = e.guard := rfl
@[simp] theorem Engine.onFront_body (f : Front → Front) (e : Engine) : (e.onFront f).body = e.body := rfl
@[simp] theorem Engine.onFront_bulb (f : Front → Front) (e : Engine) : (e.onFront f).bulb = e.bulb := rfl
@[simp] theorem Engine.onFront_units (f : Front → Front) (e : Engine) : (e.onFront f).units = e.units := rfl
@[simp] theorem Engine.onFront_recipes (f : Front → Front) (e : Engine) : (e.onFront f).recipes = e.recipes := rfl
@[simp] theorem Engine.onFront_pollen (f : Front → Front) (e : Engine) : (e.onFront f).pollen = e.pollen := rfl
@[simp] theorem Engine.onFront_streams (f : Front → Front) (e : Engine) : (e.onFront f).streams = e.streams := rfl
@[simp] theorem Engine.onFront_rings (f : Front → Front) (e : Engine) : (e.onFront f).rings = e.rings := rfl
@[simp] theorem Engine.onFront_vault (f : Front → Front) (e : Engine) : (e.onFront f).vault = e.vault := rfl
@[simp] theorem Engine.onFront_tenants (f : Front → Front) (e : Engine) : (e.onFront f).tenants = e.tenants := rfl
@[simp] theorem Engine.onFront_fox (f : Front → Front) (e : Engine) : (e.onFront f).fox = e.fox := rfl
@[simp] theorem Engine.onFront_referee (f : Front → Front) (e : Engine) : (e.onFront f).referee = e.referee := rfl
@[simp] theorem Engine.onFront_power (f : Front → Front) (e : Engine) : (e.onFront f).power = e.power := rfl
@[simp] theorem Engine.onFront_keys (f : Front → Front) (e : Engine) : (e.onFront f).keys = e.keys := rfl
@[simp] theorem Engine.onFront_dbg (f : Front → Front) (e : Engine) : (e.onFront f).dbg = e.dbg := rfl
@[simp] theorem Engine.onFront_selfTest (f : Front → Front) (e : Engine) : (e.onFront f).selfTest = e.selfTest := rfl
@[simp] theorem Engine.onFront_mem (f : Front → Front) (e : Engine) : (e.onFront f).mem = e.mem := rfl
@[simp] theorem Engine.onFront_out (f : Front → Front) (e : Engine) : (e.onFront f).out = e.out := rfl
@[simp] theorem Engine.onFront_draws (f : Front → Front) (e : Engine) : (e.onFront f).draws = e.draws := rfl

@[simp] theorem Engine.onReferee_beat (f : Referee → Referee) (e : Engine) : (e.onReferee f).beat = e.beat := rfl
@[simp] theorem Engine.onReferee_budget (f : Referee → Referee) (e : Engine) : (e.onReferee f).budget = e.budget := rfl
@[simp] theorem Engine.onReferee_count (f : Referee → Referee) (e : Engine) : (e.onReferee f).count = e.count := rfl
@[simp] theorem Engine.onReferee_stem (f : Referee → Referee) (e : Engine) : (e.onReferee f).stem = e.stem := rfl
@[simp] theorem Engine.onReferee_buds (f : Referee → Referee) (e : Engine) : (e.onReferee f).buds = e.buds := rfl
@[simp] theorem Engine.onReferee_cut (f : Referee → Referee) (e : Engine) : (e.onReferee f).cut = e.cut := rfl
@[simp] theorem Engine.onReferee_guard (f : Referee → Referee) (e : Engine) : (e.onReferee f).guard = e.guard := rfl
@[simp] theorem Engine.onReferee_front (f : Referee → Referee) (e : Engine) : (e.onReferee f).front = e.front := rfl
@[simp] theorem Engine.onReferee_body (f : Referee → Referee) (e : Engine) : (e.onReferee f).body = e.body := rfl
@[simp] theorem Engine.onReferee_bulb (f : Referee → Referee) (e : Engine) : (e.onReferee f).bulb = e.bulb := rfl
@[simp] theorem Engine.onReferee_units (f : Referee → Referee) (e : Engine) : (e.onReferee f).units = e.units := rfl
@[simp] theorem Engine.onReferee_recipes (f : Referee → Referee) (e : Engine) : (e.onReferee f).recipes = e.recipes := rfl
@[simp] theorem Engine.onReferee_pollen (f : Referee → Referee) (e : Engine) : (e.onReferee f).pollen = e.pollen := rfl
@[simp] theorem Engine.onReferee_streams (f : Referee → Referee) (e : Engine) : (e.onReferee f).streams = e.streams := rfl
@[simp] theorem Engine.onReferee_rings (f : Referee → Referee) (e : Engine) : (e.onReferee f).rings = e.rings := rfl
@[simp] theorem Engine.onReferee_vault (f : Referee → Referee) (e : Engine) : (e.onReferee f).vault = e.vault := rfl
@[simp] theorem Engine.onReferee_tenants (f : Referee → Referee) (e : Engine) : (e.onReferee f).tenants = e.tenants := rfl
@[simp] theorem Engine.onReferee_fox (f : Referee → Referee) (e : Engine) : (e.onReferee f).fox = e.fox := rfl
@[simp] theorem Engine.onReferee_power (f : Referee → Referee) (e : Engine) : (e.onReferee f).power = e.power := rfl
@[simp] theorem Engine.onReferee_keys (f : Referee → Referee) (e : Engine) : (e.onReferee f).keys = e.keys := rfl
@[simp] theorem Engine.onReferee_dbg (f : Referee → Referee) (e : Engine) : (e.onReferee f).dbg = e.dbg := rfl
@[simp] theorem Engine.onReferee_selfTest (f : Referee → Referee) (e : Engine) : (e.onReferee f).selfTest = e.selfTest := rfl
@[simp] theorem Engine.onReferee_mem (f : Referee → Referee) (e : Engine) : (e.onReferee f).mem = e.mem := rfl
@[simp] theorem Engine.onReferee_out (f : Referee → Referee) (e : Engine) : (e.onReferee f).out = e.out := rfl
@[simp] theorem Engine.onReferee_draws (f : Referee → Referee) (e : Engine) : (e.onReferee f).draws = e.draws := rfl

@[simp] theorem Engine.onKeys_beat (f : Keys → Keys) (e : Engine) : (e.onKeys f).beat = e.beat := rfl
@[simp] theorem Engine.onKeys_budget (f : Keys → Keys) (e : Engine) : (e.onKeys f).budget = e.budget := rfl
@[simp] theorem Engine.onKeys_count (f : Keys → Keys) (e : Engine) : (e.onKeys f).count = e.count := rfl
@[simp] theorem Engine.onKeys_stem (f : Keys → Keys) (e : Engine) : (e.onKeys f).stem = e.stem := rfl
@[simp] theorem Engine.onKeys_buds (f : Keys → Keys) (e : Engine) : (e.onKeys f).buds = e.buds := rfl
@[simp] theorem Engine.onKeys_cut (f : Keys → Keys) (e : Engine) : (e.onKeys f).cut = e.cut := rfl
@[simp] theorem Engine.onKeys_guard (f : Keys → Keys) (e : Engine) : (e.onKeys f).guard = e.guard := rfl
@[simp] theorem Engine.onKeys_front (f : Keys → Keys) (e : Engine) : (e.onKeys f).front = e.front := rfl
@[simp] theorem Engine.onKeys_body (f : Keys → Keys) (e : Engine) : (e.onKeys f).body = e.body := rfl
@[simp] theorem Engine.onKeys_bulb (f : Keys → Keys) (e : Engine) : (e.onKeys f).bulb = e.bulb := rfl
@[simp] theorem Engine.onKeys_units (f : Keys → Keys) (e : Engine) : (e.onKeys f).units = e.units := rfl
@[simp] theorem Engine.onKeys_recipes (f : Keys → Keys) (e : Engine) : (e.onKeys f).recipes = e.recipes := rfl
@[simp] theorem Engine.onKeys_pollen (f : Keys → Keys) (e : Engine) : (e.onKeys f).pollen = e.pollen := rfl
@[simp] theorem Engine.onKeys_streams (f : Keys → Keys) (e : Engine) : (e.onKeys f).streams = e.streams := rfl
@[simp] theorem Engine.onKeys_rings (f : Keys → Keys) (e : Engine) : (e.onKeys f).rings = e.rings := rfl
@[simp] theorem Engine.onKeys_vault (f : Keys → Keys) (e : Engine) : (e.onKeys f).vault = e.vault := rfl
@[simp] theorem Engine.onKeys_tenants (f : Keys → Keys) (e : Engine) : (e.onKeys f).tenants = e.tenants := rfl
@[simp] theorem Engine.onKeys_fox (f : Keys → Keys) (e : Engine) : (e.onKeys f).fox = e.fox := rfl
@[simp] theorem Engine.onKeys_referee (f : Keys → Keys) (e : Engine) : (e.onKeys f).referee = e.referee := rfl
@[simp] theorem Engine.onKeys_power (f : Keys → Keys) (e : Engine) : (e.onKeys f).power = e.power := rfl
@[simp] theorem Engine.onKeys_dbg (f : Keys → Keys) (e : Engine) : (e.onKeys f).dbg = e.dbg := rfl
@[simp] theorem Engine.onKeys_selfTest (f : Keys → Keys) (e : Engine) : (e.onKeys f).selfTest = e.selfTest := rfl
@[simp] theorem Engine.onKeys_mem (f : Keys → Keys) (e : Engine) : (e.onKeys f).mem = e.mem := rfl
@[simp] theorem Engine.onKeys_out (f : Keys → Keys) (e : Engine) : (e.onKeys f).out = e.out := rfl
@[simp] theorem Engine.onKeys_draws (f : Keys → Keys) (e : Engine) : (e.onKeys f).draws = e.draws := rfl

@[simp] theorem Engine.memReadOn_beat (c a l : Nat) (p : BitVec 2) (u : MemFor) (e : Engine) : (e.memReadOn c a l p u).beat = e.beat := rfl
@[simp] theorem Engine.memReadOn_budget (c a l : Nat) (p : BitVec 2) (u : MemFor) (e : Engine) : (e.memReadOn c a l p u).budget = e.budget := rfl
@[simp] theorem Engine.memReadOn_count (c a l : Nat) (p : BitVec 2) (u : MemFor) (e : Engine) : (e.memReadOn c a l p u).count = e.count := rfl
@[simp] theorem Engine.memReadOn_stem (c a l : Nat) (p : BitVec 2) (u : MemFor) (e : Engine) : (e.memReadOn c a l p u).stem = e.stem := rfl
@[simp] theorem Engine.memReadOn_buds (c a l : Nat) (p : BitVec 2) (u : MemFor) (e : Engine) : (e.memReadOn c a l p u).buds = e.buds := rfl
@[simp] theorem Engine.memReadOn_cut (c a l : Nat) (p : BitVec 2) (u : MemFor) (e : Engine) : (e.memReadOn c a l p u).cut = e.cut := rfl
@[simp] theorem Engine.memReadOn_guard (c a l : Nat) (p : BitVec 2) (u : MemFor) (e : Engine) : (e.memReadOn c a l p u).guard = e.guard := rfl
@[simp] theorem Engine.memReadOn_front (c a l : Nat) (p : BitVec 2) (u : MemFor) (e : Engine) : (e.memReadOn c a l p u).front = e.front := rfl
@[simp] theorem Engine.memReadOn_body (c a l : Nat) (p : BitVec 2) (u : MemFor) (e : Engine) : (e.memReadOn c a l p u).body = e.body := rfl
@[simp] theorem Engine.memReadOn_bulb (c a l : Nat) (p : BitVec 2) (u : MemFor) (e : Engine) : (e.memReadOn c a l p u).bulb = e.bulb := rfl
@[simp] theorem Engine.memReadOn_units (c a l : Nat) (p : BitVec 2) (u : MemFor) (e : Engine) : (e.memReadOn c a l p u).units = e.units := rfl
@[simp] theorem Engine.memReadOn_recipes (c a l : Nat) (p : BitVec 2) (u : MemFor) (e : Engine) : (e.memReadOn c a l p u).recipes = e.recipes := rfl
@[simp] theorem Engine.memReadOn_pollen (c a l : Nat) (p : BitVec 2) (u : MemFor) (e : Engine) : (e.memReadOn c a l p u).pollen = e.pollen := rfl
@[simp] theorem Engine.memReadOn_streams (c a l : Nat) (p : BitVec 2) (u : MemFor) (e : Engine) : (e.memReadOn c a l p u).streams = e.streams := rfl
@[simp] theorem Engine.memReadOn_rings (c a l : Nat) (p : BitVec 2) (u : MemFor) (e : Engine) : (e.memReadOn c a l p u).rings = e.rings := rfl
@[simp] theorem Engine.memReadOn_vault (c a l : Nat) (p : BitVec 2) (u : MemFor) (e : Engine) : (e.memReadOn c a l p u).vault = e.vault := rfl
@[simp] theorem Engine.memReadOn_tenants (c a l : Nat) (p : BitVec 2) (u : MemFor) (e : Engine) : (e.memReadOn c a l p u).tenants = e.tenants := rfl
@[simp] theorem Engine.memReadOn_fox (c a l : Nat) (p : BitVec 2) (u : MemFor) (e : Engine) : (e.memReadOn c a l p u).fox = e.fox := rfl
@[simp] theorem Engine.memReadOn_referee (c a l : Nat) (p : BitVec 2) (u : MemFor) (e : Engine) : (e.memReadOn c a l p u).referee = e.referee := rfl
@[simp] theorem Engine.memReadOn_power (c a l : Nat) (p : BitVec 2) (u : MemFor) (e : Engine) : (e.memReadOn c a l p u).power = e.power := rfl
@[simp] theorem Engine.memReadOn_keys (c a l : Nat) (p : BitVec 2) (u : MemFor) (e : Engine) : (e.memReadOn c a l p u).keys = e.keys := rfl
@[simp] theorem Engine.memReadOn_dbg (c a l : Nat) (p : BitVec 2) (u : MemFor) (e : Engine) : (e.memReadOn c a l p u).dbg = e.dbg := rfl
@[simp] theorem Engine.memReadOn_selfTest (c a l : Nat) (p : BitVec 2) (u : MemFor) (e : Engine) : (e.memReadOn c a l p u).selfTest = e.selfTest := rfl
@[simp] theorem Engine.memReadOn_draws (c a l : Nat) (p : BitVec 2) (u : MemFor) (e : Engine) : (e.memReadOn c a l p u).draws = e.draws := rfl

@[simp] theorem Engine.memWrite_beat (k : Kit) (a : Nat) (bs : List Byte) (ps : List Bool) (p : BitVec 2) (u : MemFor) (e : Engine) : (e.memWrite k a bs ps p u).beat = e.beat := rfl
@[simp] theorem Engine.memWrite_budget (k : Kit) (a : Nat) (bs : List Byte) (ps : List Bool) (p : BitVec 2) (u : MemFor) (e : Engine) : (e.memWrite k a bs ps p u).budget = e.budget := rfl
@[simp] theorem Engine.memWrite_count (k : Kit) (a : Nat) (bs : List Byte) (ps : List Bool) (p : BitVec 2) (u : MemFor) (e : Engine) : (e.memWrite k a bs ps p u).count = e.count := rfl
@[simp] theorem Engine.memWrite_stem (k : Kit) (a : Nat) (bs : List Byte) (ps : List Bool) (p : BitVec 2) (u : MemFor) (e : Engine) : (e.memWrite k a bs ps p u).stem = e.stem := rfl
@[simp] theorem Engine.memWrite_buds (k : Kit) (a : Nat) (bs : List Byte) (ps : List Bool) (p : BitVec 2) (u : MemFor) (e : Engine) : (e.memWrite k a bs ps p u).buds = e.buds := rfl
@[simp] theorem Engine.memWrite_cut (k : Kit) (a : Nat) (bs : List Byte) (ps : List Bool) (p : BitVec 2) (u : MemFor) (e : Engine) : (e.memWrite k a bs ps p u).cut = e.cut := rfl
@[simp] theorem Engine.memWrite_guard (k : Kit) (a : Nat) (bs : List Byte) (ps : List Bool) (p : BitVec 2) (u : MemFor) (e : Engine) : (e.memWrite k a bs ps p u).guard = e.guard := rfl
@[simp] theorem Engine.memWrite_front (k : Kit) (a : Nat) (bs : List Byte) (ps : List Bool) (p : BitVec 2) (u : MemFor) (e : Engine) : (e.memWrite k a bs ps p u).front = e.front := rfl
@[simp] theorem Engine.memWrite_body (k : Kit) (a : Nat) (bs : List Byte) (ps : List Bool) (p : BitVec 2) (u : MemFor) (e : Engine) : (e.memWrite k a bs ps p u).body = e.body := rfl
@[simp] theorem Engine.memWrite_bulb (k : Kit) (a : Nat) (bs : List Byte) (ps : List Bool) (p : BitVec 2) (u : MemFor) (e : Engine) : (e.memWrite k a bs ps p u).bulb = e.bulb := rfl
@[simp] theorem Engine.memWrite_units (k : Kit) (a : Nat) (bs : List Byte) (ps : List Bool) (p : BitVec 2) (u : MemFor) (e : Engine) : (e.memWrite k a bs ps p u).units = e.units := rfl
@[simp] theorem Engine.memWrite_recipes (k : Kit) (a : Nat) (bs : List Byte) (ps : List Bool) (p : BitVec 2) (u : MemFor) (e : Engine) : (e.memWrite k a bs ps p u).recipes = e.recipes := rfl
@[simp] theorem Engine.memWrite_pollen (k : Kit) (a : Nat) (bs : List Byte) (ps : List Bool) (p : BitVec 2) (u : MemFor) (e : Engine) : (e.memWrite k a bs ps p u).pollen = e.pollen := rfl
@[simp] theorem Engine.memWrite_streams (k : Kit) (a : Nat) (bs : List Byte) (ps : List Bool) (p : BitVec 2) (u : MemFor) (e : Engine) : (e.memWrite k a bs ps p u).streams = e.streams := rfl
@[simp] theorem Engine.memWrite_rings (k : Kit) (a : Nat) (bs : List Byte) (ps : List Bool) (p : BitVec 2) (u : MemFor) (e : Engine) : (e.memWrite k a bs ps p u).rings = e.rings := rfl
@[simp] theorem Engine.memWrite_vault (k : Kit) (a : Nat) (bs : List Byte) (ps : List Bool) (p : BitVec 2) (u : MemFor) (e : Engine) : (e.memWrite k a bs ps p u).vault = e.vault := rfl
@[simp] theorem Engine.memWrite_tenants (k : Kit) (a : Nat) (bs : List Byte) (ps : List Bool) (p : BitVec 2) (u : MemFor) (e : Engine) : (e.memWrite k a bs ps p u).tenants = e.tenants := rfl
@[simp] theorem Engine.memWrite_fox (k : Kit) (a : Nat) (bs : List Byte) (ps : List Bool) (p : BitVec 2) (u : MemFor) (e : Engine) : (e.memWrite k a bs ps p u).fox = e.fox := rfl
@[simp] theorem Engine.memWrite_referee (k : Kit) (a : Nat) (bs : List Byte) (ps : List Bool) (p : BitVec 2) (u : MemFor) (e : Engine) : (e.memWrite k a bs ps p u).referee = e.referee := rfl
@[simp] theorem Engine.memWrite_power (k : Kit) (a : Nat) (bs : List Byte) (ps : List Bool) (p : BitVec 2) (u : MemFor) (e : Engine) : (e.memWrite k a bs ps p u).power = e.power := rfl
@[simp] theorem Engine.memWrite_keys (k : Kit) (a : Nat) (bs : List Byte) (ps : List Bool) (p : BitVec 2) (u : MemFor) (e : Engine) : (e.memWrite k a bs ps p u).keys = e.keys := rfl
@[simp] theorem Engine.memWrite_dbg (k : Kit) (a : Nat) (bs : List Byte) (ps : List Bool) (p : BitVec 2) (u : MemFor) (e : Engine) : (e.memWrite k a bs ps p u).dbg = e.dbg := rfl
@[simp] theorem Engine.memWrite_selfTest (k : Kit) (a : Nat) (bs : List Byte) (ps : List Bool) (p : BitVec 2) (u : MemFor) (e : Engine) : (e.memWrite k a bs ps p u).selfTest = e.selfTest := rfl
@[simp] theorem Engine.memWrite_draws (k : Kit) (a : Nat) (bs : List Byte) (ps : List Bool) (p : BitVec 2) (u : MemFor) (e : Engine) : (e.memWrite k a bs ps p u).draws = e.draws := rfl

@[simp] theorem Engine.ticked_budget (e : Engine) : e.ticked.budget = e.budget := rfl
@[simp] theorem Engine.ticked_count (e : Engine) : e.ticked.count = e.count := rfl
@[simp] theorem Engine.ticked_stem (e : Engine) : e.ticked.stem = e.stem := rfl
@[simp] theorem Engine.ticked_buds (e : Engine) : e.ticked.buds = e.buds := rfl
@[simp] theorem Engine.ticked_cut (e : Engine) : e.ticked.cut = e.cut := rfl
@[simp] theorem Engine.ticked_guard (e : Engine) : e.ticked.guard = e.guard := rfl
@[simp] theorem Engine.ticked_front (e : Engine) : e.ticked.front = e.front := rfl
@[simp] theorem Engine.ticked_body (e : Engine) : e.ticked.body = e.body := rfl
@[simp] theorem Engine.ticked_bulb (e : Engine) : e.ticked.bulb = e.bulb := rfl
@[simp] theorem Engine.ticked_units (e : Engine) : e.ticked.units = e.units := rfl
@[simp] theorem Engine.ticked_recipes (e : Engine) : e.ticked.recipes = e.recipes := rfl
@[simp] theorem Engine.ticked_pollen (e : Engine) : e.ticked.pollen = e.pollen := rfl
@[simp] theorem Engine.ticked_streams (e : Engine) : e.ticked.streams = e.streams := rfl
@[simp] theorem Engine.ticked_rings (e : Engine) : e.ticked.rings = e.rings := rfl
@[simp] theorem Engine.ticked_vault (e : Engine) : e.ticked.vault = e.vault := rfl
@[simp] theorem Engine.ticked_tenants (e : Engine) : e.ticked.tenants = e.tenants := rfl
@[simp] theorem Engine.ticked_fox (e : Engine) : e.ticked.fox = e.fox := rfl
@[simp] theorem Engine.ticked_referee (e : Engine) : e.ticked.referee = e.referee := rfl
@[simp] theorem Engine.ticked_power (e : Engine) : e.ticked.power = e.power := rfl
@[simp] theorem Engine.ticked_keys (e : Engine) : e.ticked.keys = e.keys := rfl
@[simp] theorem Engine.ticked_dbg (e : Engine) : e.ticked.dbg = e.dbg := rfl
@[simp] theorem Engine.ticked_selfTest (e : Engine) : e.ticked.selfTest = e.selfTest := rfl
@[simp] theorem Engine.ticked_mem (e : Engine) : e.ticked.mem = e.mem := rfl
@[simp] theorem Engine.ticked_out (e : Engine) : e.ticked.out = e.out := rfl

/-! ### What an update sets -/

@[simp] theorem Engine.ticked_beat (e : Engine) : e.ticked.beat = { e.beat with cycle := e.cycleNow } := rfl
@[simp] theorem Engine.ticked_draws (e : Engine) : e.ticked.draws = e.draws + 1 := rfl
@[simp] theorem Engine.drawn_draws (e : Engine) : e.drawn.draws = e.draws + 1 := rfl
@[simp] theorem Engine.emit_out (o : Output) (e : Engine) : (e.emit o).out = e.out ++ [o] := rfl
@[simp] theorem Engine.onFront_front (f : Front → Front) (e : Engine) : (e.onFront f).front = f e.front := rfl
@[simp] theorem Engine.onReferee_referee (f : Referee → Referee) (e : Engine) : (e.onReferee f).referee = f e.referee := rfl
@[simp] theorem Engine.onKeys_keys (f : Keys → Keys) (e : Engine) : (e.onKeys f).keys = f e.keys := rfl
@[simp] theorem Engine.addJob_jobs (j : Job) (e : Engine) : (e.addJob j).rings.jobs = e.rings.jobs ++ [j] := rfl
@[simp] theorem Engine.addJob_rings (j : Job) (e : Engine) : (e.addJob j).rings.rings = e.rings.rings := rfl
@[simp] theorem Engine.setRing_jobs (n : Nat) (v : Ring) (e : Engine) : (e.setRing n v).rings.jobs = e.rings.jobs := rfl

end Sys2Proof.Machine
end

