-- ==== Sys2Proof/Laws/Ops.lean ====
section
/-!
SUPPORT. What the shared operations can do, said once: the order of refusals, how a job starts and is judged, a loop that keeps a part of
the engine, fault raises, completions, the memory of the body.
-/

namespace Sys2Proof.Machine

/-! ### The order of refusals (R14) -/

theorem judge_none {l : List (Bool × Code)} : judge l = none ↔ ∀ p ∈ l, p.1 = false := by
  induction l with
  | nil => simp [judge]
  | cons p l ih =>
    obtain ⟨b, c⟩ := p
    cases hj : judge l with
    | none =>
      cases b <;> simp [judge, hj]
      simpa using ih.mp hj
    | some d =>
      have : ¬ ∀ p ∈ l, p.1 = false := fun h => by simp [ih.mpr h] at hj
      simp only [judge, hj, List.mem_cons, forall_eq_or_imp]
      constructor
      · intro h
        split at h <;> cases h
      · exact fun h => absurd h.2 this

/-- The code reported is that of a condition that holds. -/
theorem judge_some_mem {l : List (Bool × Code)} {c : Code} (h : judge l = some c) : (true, c) ∈ l := by
  induction l generalizing c with
  | nil => simp [judge] at h
  | cons p l ih =>
    obtain ⟨b, d⟩ := p
    simp only [judge] at h
    cases hj : judge l with
    | none =>
      simp only [hj] at h
      cases b <;> simp_all
    | some e =>
      simp only [hj] at h
      split at h
      · rename_i hb
        simp only [Bool.and_eq_true] at hb
        cases h
        simp [hb.1]
      · cases h
        exact List.mem_cons_of_mem _ (ih hj)

/-! ### Loops -/

/-- A loop whose every round keeps a part of the engine keeps that part. -/
theorem Engine.forEach_keeps {α β : Type} (g : Engine → β) (f : α → Engine → Engine) (h : ∀ x e, g (f x e) = g e) (xs : List α)
    (e : Engine) : g (e.forEach xs f) = g e := by
  unfold Engine.forEach
  induction xs generalizing e with
  | nil => rfl
  | cons x xs ih => simp only [List.foldl_cons, ih, h]

/-- A step under a condition keeps what the step keeps. -/
theorem Engine.when_keeps {β : Type} (g : Engine → β) (c : Bool) (f : Engine → Engine) (h : ∀ e, g (f e) = g e) (e : Engine) :
    g (e.when c f) = g e := by
  cases c
  · rfl
  · exact h e

/-! ### Fault raises (R343 to R348) -/

theorem Engine.raiseAt_eq (k : Kit) (r : Regs) (s : Nat) (t : Option TenantNo) (st : Dword) (e : Engine) :
    e.raiseAt k r s t st = { e with count := (e.raiseAt k r s t st).count, fox := (e.raiseAt k r s t st).fox } := by
  unfold Engine.raiseAt
  split
  · dsimp only
    split <;> rfl
  · rfl

/-- A raise changes nothing but the core's cycle inside the beat, the counters, Foxglove and the count of draws (R48). -/
theorem Engine.raise_eq {k : Kit} (r : Regs) {s : Nat} (t : Option TenantNo) (e : Engine) (h : foxImplemented k s = true) :
    e.raise k r s t = { e with
      beat := { e.beat with cycle := e.cycleNow }
      count := (e.raiseAt k r s t e.stamp).count
      fox := (e.raiseAt k r s t e.stamp).fox
      draws := e.draws + 1 } := by
  unfold Engine.raise
  simp only [h, if_true]
  conv_lhs => rw [Engine.raiseAt_eq]
  rfl

/-- A source that the configuration does not implement raises nothing. -/
theorem Engine.raise_none {k : Kit} (r : Regs) {s : Nat} (t : Option TenantNo) (e : Engine) (h : foxImplemented k s = false) :
    e.raise k r s t = e := by
  unfold Engine.raise
  simp [h]

/-- A part of the engine that is no cycle, counter, Foxglove or draw is as a raise found it. -/
theorem Engine.raise_keeps {β : Type} (g : Engine → β) (k : Kit) (r : Regs) (s : Nat) (t : Option TenantNo) (e : Engine)
    (h : ∀ c f, g { e with beat := { e.beat with cycle := e.cycleNow }, count := c, fox := f, draws := e.draws + 1 } = g e) :
    g (e.raise k r s t) = g e := by
  cases hf : foxImplemented k s with
  | false => rw [Engine.raise_none r t e hf]
  | true =>
    rw [Engine.raise_eq r t e hf]
    exact h _ _

@[simp] theorem Engine.raise_num (k : Kit) (r : Regs) (s : Nat) (t : Option TenantNo) (e : Engine) :
    (e.raise k r s t).beat.num = e.beat.num :=
  Engine.raise_keeps (fun e => e.beat.num) k r s t e fun _ _ => rfl

@[simp] theorem Engine.raise_budget (k : Kit) (r : Regs) (s : Nat) (t : Option TenantNo) (e : Engine) : (e.raise k r s t).budget = e.budget :=
  Engine.raise_keeps (fun e => e.budget) k r s t e fun _ _ => rfl

@[simp] theorem Engine.raise_stem (k : Kit) (r : Regs) (s : Nat) (t : Option TenantNo) (e : Engine) : (e.raise k r s t).stem = e.stem :=
  Engine.raise_keeps (fun e => e.stem) k r s t e fun _ _ => rfl

@[simp] theorem Engine.raise_buds (k : Kit) (r : Regs) (s : Nat) (t : Option TenantNo) (e : Engine) : (e.raise k r s t).buds = e.buds :=
  Engine.raise_keeps (fun e => e.buds) k r s t e fun _ _ => rfl

@[simp] theorem Engine.raise_cut (k : Kit) (r : Regs) (s : Nat) (t : Option TenantNo) (e : Engine) : (e.raise k r s t).cut = e.cut :=
  Engine.raise_keeps (fun e => e.cut) k r s t e fun _ _ => rfl

@[simp] theorem Engine.raise_guard (k : Kit) (r : Regs) (s : Nat) (t : Option TenantNo) (e : Engine) : (e.raise k r s t).guard = e.guard :=
  Engine.raise_keeps (fun e => e.guard) k r s t e fun _ _ => rfl

@[simp] theorem Engine.raise_front (k : Kit) (r : Regs) (s : Nat) (t : Option TenantNo) (e : Engine) : (e.raise k r s t).front = e.front :=
  Engine.raise_keeps (fun e => e.front) k r s t e fun _ _ => rfl

@[simp] theorem Engine.raise_body (k : Kit) (r : Regs) (s : Nat) (t : Option TenantNo) (e : Engine) : (e.raise k r s t).body = e.body :=
  Engine.raise_keeps (fun e => e.body) k r s t e fun _ _ => rfl

@[simp] theorem Engine.raise_bulb (k : Kit) (r : Regs) (s : Nat) (t : Option TenantNo) (e : Engine) : (e.raise k r s t).bulb = e.bulb :=
  Engine.raise_keeps (fun e => e.bulb) k r s t e fun _ _ => rfl

@[simp] theorem Engine.raise_units (k : Kit) (r : Regs) (s : Nat) (t : Option TenantNo) (e : Engine) : (e.raise k r s t).units = e.units :=
  Engine.raise_keeps (fun e => e.units) k r s t e fun _ _ => rfl

@[simp] theorem Engine.raise_recipes (k : Kit) (r : Regs) (s : Nat) (t : Option TenantNo) (e : Engine) : (e.raise k r s t).recipes = e.recipes :=
  Engine.raise_keeps (fun e => e.recipes) k r s t e fun _ _ => rfl

@[simp] theorem Engine.raise_pollen (k : Kit) (r : Regs) (s : Nat) (t : Option TenantNo) (e : Engine) : (e.raise k r s t).pollen = e.pollen :=
  Engine.raise_keeps (fun e => e.pollen) k r s t e fun _ _ => rfl

@[simp] theorem Engine.raise_streams (k : Kit) (r : Regs) (s : Nat) (t : Option TenantNo) (e : Engine) : (e.raise k r s t).streams = e.streams :=
  Engine.raise_keeps (fun e => e.streams) k r s t e fun _ _ => rfl

@[simp] theorem Engine.raise_rings (k : Kit) (r : Regs) (s : Nat) (t : Option TenantNo) (e : Engine) : (e.raise k r s t).rings = e.rings :=
  Engine.raise_keeps (fun e => e.rings) k r s t e fun _ _ => rfl

@[simp] theorem Engine.raise_vault (k : Kit) (r : Regs) (s : Nat) (t : Option TenantNo) (e : Engine) : (e.raise k r s t).vault = e.vault :=
  Engine.raise_keeps (fun e => e.vault) k r s t e fun _ _ => rfl

@[simp] theorem Engine.raise_tenants (k : Kit) (r : Regs) (s : Nat) (t : Option TenantNo) (e : Engine) : (e.raise k r s t).tenants = e.tenants :=
  Engine.raise_keeps (fun e => e.tenants) k r s t e fun _ _ => rfl

@[simp] theorem Engine.raise_referee (k : Kit) (r : Regs) (s : Nat) (t : Option TenantNo) (e : Engine) : (e.raise k r s t).referee = e.referee :=
  Engine.raise_keeps (fun e => e.referee) k r s t e fun _ _ => rfl

@[simp] theorem Engine.raise_power (k : Kit) (r : Regs) (s : Nat) (t : Option TenantNo) (e : Engine) : (e.raise k r s t).power = e.power :=
  Engine.raise_keeps (fun e => e.power) k r s t e fun _ _ => rfl

@[simp] theorem Engine.raise_keys (k : Kit) (r : Regs) (s : Nat) (t : Option TenantNo) (e : Engine) : (e.raise k r s t).keys = e.keys :=
  Engine.raise_keeps (fun e => e.keys) k r s t e fun _ _ => rfl

@[simp] theorem Engine.raise_dbg (k : Kit) (r : Regs) (s : Nat) (t : Option TenantNo) (e : Engine) : (e.raise k r s t).dbg = e.dbg :=
  Engine.raise_keeps (fun e => e.dbg) k r s t e fun _ _ => rfl

@[simp] theorem Engine.raise_selfTest (k : Kit) (r : Regs) (s : Nat) (t : Option TenantNo) (e : Engine) : (e.raise k r s t).selfTest = e.selfTest :=
  Engine.raise_keeps (fun e => e.selfTest) k r s t e fun _ _ => rfl

@[simp] theorem Engine.raise_mem (k : Kit) (r : Regs) (s : Nat) (t : Option TenantNo) (e : Engine) : (e.raise k r s t).mem = e.mem :=
  Engine.raise_keeps (fun e => e.mem) k r s t e fun _ _ => rfl

@[simp] theorem Engine.raise_out (k : Kit) (r : Regs) (s : Nat) (t : Option TenantNo) (e : Engine) : (e.raise k r s t).out = e.out :=
  Engine.raise_keeps (fun e => e.out) k r s t e fun _ _ => rfl

/-! ### A job starts (R277) -/

/-- An entry taken changes nothing but the budget of its ring, the counters and the rings, and of the rings no job. -/
theorem Engine.takeEntry_eq (r : Regs) (n : Nat) (e : Engine) :
    ∃ b c g, e.takeEntry r n = { e with budget := b, count := c, rings := g } ∧ g.jobs = e.rings.jobs := by
  unfold Engine.takeEntry Engine.endTurn Engine.when Engine.takeTurn
  dsimp only
  repeat' split
  all_goals exact ⟨_, _, _, rfl, rfl⟩

@[simp] theorem Engine.takeEntry_beat (r : Regs) (n : Nat) (e : Engine) : (e.takeEntry r n).beat = e.beat := by
  obtain ⟨_, _, _, h, -⟩ := Engine.takeEntry_eq r n e
  rw [h]

@[simp] theorem Engine.takeEntry_stem (r : Regs) (n : Nat) (e : Engine) : (e.takeEntry r n).stem = e.stem := by
  obtain ⟨_, _, _, h, -⟩ := Engine.takeEntry_eq r n e
  rw [h]

@[simp] theorem Engine.takeEntry_buds (r : Regs) (n : Nat) (e : Engine) : (e.takeEntry r n).buds = e.buds := by
  obtain ⟨_, _, _, h, -⟩ := Engine.takeEntry_eq r n e
  rw [h]

@[simp] theorem Engine.takeEntry_cut (r : Regs) (n : Nat) (e : Engine) : (e.takeEntry r n).cut = e.cut := by
  obtain ⟨_, _, _, h, -⟩ := Engine.takeEntry_eq r n e
  rw [h]

@[simp] theorem Engine.takeEntry_guard (r : Regs) (n : Nat) (e : Engine) : (e.takeEntry r n).guard = e.guard := by
  obtain ⟨_, _, _, h, -⟩ := Engine.takeEntry_eq r n e
  rw [h]

@[simp] theorem Engine.takeEntry_front (r : Regs) (n : Nat) (e : Engine) : (e.takeEntry r n).front = e.front := by
  obtain ⟨_, _, _, h, -⟩ := Engine.takeEntry_eq r n e
  rw [h]

@[simp] theorem Engine.takeEntry_body (r : Regs) (n : Nat) (e : Engine) : (e.takeEntry r n).body = e.body := by
  obtain ⟨_, _, _, h, -⟩ := Engine.takeEntry_eq r n e
  rw [h]

@[simp] theorem Engine.takeEntry_bulb (r : Regs) (n : Nat) (e : Engine) : (e.takeEntry r n).bulb = e.bulb := by
  obtain ⟨_, _, _, h, -⟩ := Engine.takeEntry_eq r n e
  rw [h]

@[simp] theorem Engine.takeEntry_units (r : Regs) (n : Nat) (e : Engine) : (e.takeEntry r n).units = e.units := by
  obtain ⟨_, _, _, h, -⟩ := Engine.takeEntry_eq r n e
  rw [h]

@[simp] theorem Engine.takeEntry_recipes (r : Regs) (n : Nat) (e : Engine) : (e.takeEntry r n).recipes = e.recipes := by
  obtain ⟨_, _, _, h, -⟩ := Engine.takeEntry_eq r n e
  rw [h]

@[simp] theorem Engine.takeEntry_pollen (r : Regs) (n : Nat) (e : Engine) : (e.takeEntry r n).pollen = e.pollen := by
  obtain ⟨_, _, _, h, -⟩ := Engine.takeEntry_eq r n e
  rw [h]

@[simp] theorem Engine.takeEntry_streams (r : Regs) (n : Nat) (e : Engine) : (e.takeEntry r n).streams = e.streams := by
  obtain ⟨_, _, _, h, -⟩ := Engine.takeEntry_eq r n e
  rw [h]

@[simp] theorem Engine.takeEntry_vault (r : Regs) (n : Nat) (e : Engine) : (e.takeEntry r n).vault = e.vault := by
  obtain ⟨_, _, _, h, -⟩ := Engine.takeEntry_eq r n e
  rw [h]

@[simp] theorem Engine.takeEntry_tenants (r : Regs) (n : Nat) (e : Engine) : (e.takeEntry r n).tenants = e.tenants := by
  obtain ⟨_, _, _, h, -⟩ := Engine.takeEntry_eq r n e
  rw [h]

@[simp] theorem Engine.takeEntry_fox (r : Regs) (n : Nat) (e : Engine) : (e.takeEntry r n).fox = e.fox := by
  obtain ⟨_, _, _, h, -⟩ := Engine.takeEntry_eq r n e
  rw [h]

@[simp] theorem Engine.takeEntry_referee (r : Regs) (n : Nat) (e : Engine) : (e.takeEntry r n).referee = e.referee := by
  obtain ⟨_, _, _, h, -⟩ := Engine.takeEntry_eq r n e
  rw [h]

@[simp] theorem Engine.takeEntry_power (r : Regs) (n : Nat) (e : Engine) : (e.takeEntry r n).power = e.power := by
  obtain ⟨_, _, _, h, -⟩ := Engine.takeEntry_eq r n e
  rw [h]

@[simp] theorem Engine.takeEntry_keys (r : Regs) (n : Nat) (e : Engine) : (e.takeEntry r n).keys = e.keys := by
  obtain ⟨_, _, _, h, -⟩ := Engine.takeEntry_eq r n e
  rw [h]

@[simp] theorem Engine.takeEntry_dbg (r : Regs) (n : Nat) (e : Engine) : (e.takeEntry r n).dbg = e.dbg := by
  obtain ⟨_, _, _, h, -⟩ := Engine.takeEntry_eq r n e
  rw [h]

@[simp] theorem Engine.takeEntry_selfTest (r : Regs) (n : Nat) (e : Engine) : (e.takeEntry r n).selfTest = e.selfTest := by
  obtain ⟨_, _, _, h, -⟩ := Engine.takeEntry_eq r n e
  rw [h]

@[simp] theorem Engine.takeEntry_mem (r : Regs) (n : Nat) (e : Engine) : (e.takeEntry r n).mem = e.mem := by
  obtain ⟨_, _, _, h, -⟩ := Engine.takeEntry_eq r n e
  rw [h]

@[simp] theorem Engine.takeEntry_out (r : Regs) (n : Nat) (e : Engine) : (e.takeEntry r n).out = e.out := by
  obtain ⟨_, _, _, h, -⟩ := Engine.takeEntry_eq r n e
  rw [h]

@[simp] theorem Engine.takeEntry_draws (r : Regs) (n : Nat) (e : Engine) : (e.takeEntry r n).draws = e.draws := by
  obtain ⟨_, _, _, h, -⟩ := Engine.takeEntry_eq r n e
  rw [h]

@[simp] theorem Engine.takeEntry_jobs (r : Regs) (n : Nat) (e : Engine) : (e.takeEntry r n).rings.jobs = e.rings.jobs := by
  obtain ⟨_, _, _, h, hj⟩ := Engine.takeEntry_eq r n e
  rw [h, ← hj]

theorem Engine.startJob_go {r : Regs} {n : Nat} {p : Entry → Bool} {f : Entry → Engine → Engine} {e : Engine} {x : Entry}
    {rest : List Entry} (hr : (e.ring n).ready = x :: rest) (hm : e.mayStart r n = true) (hp : p x = true) :
    e.startJob r n p f = f x (e.takeEntry r n) := by
  simp [Engine.startJob, hr, hm, hp]

theorem Engine.startJob_idle {r : Regs} {n : Nat} {p : Entry → Bool} {f : Entry → Engine → Engine} {e : Engine}
    (h : ∀ x rest, (e.ring n).ready = x :: rest → (e.mayStart r n && p x) = false) : e.startJob r n p f = e := by
  unfold Engine.startJob
  split
  · rfl
  · rename_i x rest hr
    simp [h x rest hr]

theorem Engine.judged_go {k : Kit} {r : Regs} {n : Nat} {x : Entry} {conds : List (Bool × Code)} {go : Engine → Engine} {e : Engine}
    (hb : x.badHeader = false) (h : judge conds = none) : e.judged k r n x conds go = go e := by
  simp [Engine.judged, judge, h, hb]

theorem Engine.judged_refuse {k : Kit} {r : Regs} {n : Nat} {x : Entry} {conds : List (Bool × Code)} {go : Engine → Engine} {e : Engine}
    {c : Code} (h : judge ((x.badHeader, 0x11) :: conds) = some c) : e.judged k r n x conds go = e.refuse k r (x.jobId n) c := by
  unfold Engine.judged
  rw [h]

/-! ### Completions (R266) -/

@[simp] theorem Engine.issueCq_beat (k : Kit) (r : Regs) (n : Nat) (e : Engine) : (e.issueCq k r n).beat = e.beat := by
  unfold Engine.issueCq
  dsimp only
  split
  · rfl
  · split <;> rfl

@[simp] theorem Engine.issueCq_budget (k : Kit) (r : Regs) (n : Nat) (e : Engine) : (e.issueCq k r n).budget = e.budget := by
  unfold Engine.issueCq
  dsimp only
  split
  · rfl
  · split <;> rfl

@[simp] theorem Engine.issueCq_count (k : Kit) (r : Regs) (n : Nat) (e : Engine) : (e.issueCq k r n).count = e.count := by
  unfold Engine.issueCq
  dsimp only
  split
  · rfl
  · split <;> rfl

@[simp] theorem Engine.issueCq_stem (k : Kit) (r : Regs) (n : Nat) (e : Engine) : (e.issueCq k r n).stem = e.stem := by
  unfold Engine.issueCq
  dsimp only
  split
  · rfl
  · split <;> rfl

@[simp] theorem Engine.issueCq_buds (k : Kit) (r : Regs) (n : Nat) (e : Engine) : (e.issueCq k r n).buds = e.buds := by
  unfold Engine.issueCq
  dsimp only
  split
  · rfl
  · split <;> rfl

@[simp] theorem Engine.issueCq_cut (k : Kit) (r : Regs) (n : Nat) (e : Engine) : (e.issueCq k r n).cut = e.cut := by
  unfold Engine.issueCq
  dsimp only
  split
  · rfl
  · split <;> rfl

@[simp] theorem Engine.issueCq_guard (k : Kit) (r : Regs) (n : Nat) (e : Engine) : (e.issueCq k r n).guard = e.guard := by
  unfold Engine.issueCq
  dsimp only
  split
  · rfl
  · split <;> rfl

@[simp] theorem Engine.issueCq_front (k : Kit) (r : Regs) (n : Nat) (e : Engine) : (e.issueCq k r n).front = e.front := by
  unfold Engine.issueCq
  dsimp only
  split
  · rfl
  · split <;> rfl

@[simp] theorem Engine.issueCq_body (k : Kit) (r : Regs) (n : Nat) (e : Engine) : (e.issueCq k r n).body = e.body := by
  unfold Engine.issueCq
  dsimp only
  split
  · rfl
  · split <;> rfl

@[simp] theorem Engine.issueCq_bulb (k : Kit) (r : Regs) (n : Nat) (e : Engine) : (e.issueCq k r n).bulb = e.bulb := by
  unfold Engine.issueCq
  dsimp only
  split
  · rfl
  · split <;> rfl

@[simp] theorem Engine.issueCq_units (k : Kit) (r : Regs) (n : Nat) (e : Engine) : (e.issueCq k r n).units = e.units := by
  unfold Engine.issueCq
  dsimp only
  split
  · rfl
  · split <;> rfl

@[simp] theorem Engine.issueCq_recipes (k : Kit) (r : Regs) (n : Nat) (e : Engine) : (e.issueCq k r n).recipes = e.recipes := by
  unfold Engine.issueCq
  dsimp only
  split
  · rfl
  · split <;> rfl

@[simp] theorem Engine.issueCq_pollen (k : Kit) (r : Regs) (n : Nat) (e : Engine) : (e.issueCq k r n).pollen = e.pollen := by
  unfold Engine.issueCq
  dsimp only
  split
  · rfl
  · split <;> rfl

@[simp] theorem Engine.issueCq_streams (k : Kit) (r : Regs) (n : Nat) (e : Engine) : (e.issueCq k r n).streams = e.streams := by
  unfold Engine.issueCq
  dsimp only
  split
  · rfl
  · split <;> rfl

@[simp] theorem Engine.issueCq_vault (k : Kit) (r : Regs) (n : Nat) (e : Engine) : (e.issueCq k r n).vault = e.vault := by
  unfold Engine.issueCq
  dsimp only
  split
  · rfl
  · split <;> rfl

@[simp] theorem Engine.issueCq_tenants (k : Kit) (r : Regs) (n : Nat) (e : Engine) : (e.issueCq k r n).tenants = e.tenants := by
  unfold Engine.issueCq
  dsimp only
  split
  · rfl
  · split <;> rfl

@[simp] theorem Engine.issueCq_fox (k : Kit) (r : Regs) (n : Nat) (e : Engine) : (e.issueCq k r n).fox = e.fox := by
  unfold Engine.issueCq
  dsimp only
  split
  · rfl
  · split <;> rfl

@[simp] theorem Engine.issueCq_referee (k : Kit) (r : Regs) (n : Nat) (e : Engine) : (e.issueCq k r n).referee = e.referee := by
  unfold Engine.issueCq
  dsimp only
  split
  · rfl
  · split <;> rfl

@[simp] theorem Engine.issueCq_power (k : Kit) (r : Regs) (n : Nat) (e : Engine) : (e.issueCq k r n).power = e.power := by
  unfold Engine.issueCq
  dsimp only
  split
  · rfl
  · split <;> rfl

@[simp] theorem Engine.issueCq_keys (k : Kit) (r : Regs) (n : Nat) (e : Engine) : (e.issueCq k r n).keys = e.keys := by
  unfold Engine.issueCq
  dsimp only
  split
  · rfl
  · split <;> rfl

@[simp] theorem Engine.issueCq_dbg (k : Kit) (r : Regs) (n : Nat) (e : Engine) : (e.issueCq k r n).dbg = e.dbg := by
  unfold Engine.issueCq
  dsimp only
  split
  · rfl
  · split <;> rfl

@[simp] theorem Engine.issueCq_selfTest (k : Kit) (r : Regs) (n : Nat) (e : Engine) : (e.issueCq k r n).selfTest = e.selfTest := by
  unfold Engine.issueCq
  dsimp only
  split
  · rfl
  · split <;> rfl

@[simp] theorem Engine.issueCq_draws (k : Kit) (r : Regs) (n : Nat) (e : Engine) : (e.issueCq k r n).draws = e.draws := by
  unfold Engine.issueCq
  dsimp only
  split
  · rfl
  · split <;> rfl

@[simp] theorem Engine.completeOne_beat (k : Kit) (r : Regs) (id : JobId) (c : Code) (p : Bool) (res : List Byte) (e : Engine) :
    (e.completeOne k r id c p res).beat = e.beat := by
  unfold Engine.completeOne Engine.pushCq
  simp

@[simp] theorem Engine.completeOne_budget (k : Kit) (r : Regs) (id : JobId) (c : Code) (p : Bool) (res : List Byte) (e : Engine) :
    (e.completeOne k r id c p res).budget = e.budget := by
  unfold Engine.completeOne Engine.pushCq
  simp

@[simp] theorem Engine.completeOne_count (k : Kit) (r : Regs) (id : JobId) (c : Code) (p : Bool) (res : List Byte) (e : Engine) :
    (e.completeOne k r id c p res).count = e.count := by
  unfold Engine.completeOne Engine.pushCq
  simp

@[simp] theorem Engine.completeOne_stem (k : Kit) (r : Regs) (id : JobId) (c : Code) (p : Bool) (res : List Byte) (e : Engine) :
    (e.completeOne k r id c p res).stem = e.stem := by
  unfold Engine.completeOne Engine.pushCq
  simp

@[simp] theorem Engine.completeOne_buds (k : Kit) (r : Regs) (id : JobId) (c : Code) (p : Bool) (res : List Byte) (e : Engine) :
    (e.completeOne k r id c p res).buds = e.buds := by
  unfold Engine.completeOne Engine.pushCq
  simp

@[simp] theorem Engine.completeOne_cut (k : Kit) (r : Regs) (id : JobId) (c : Code) (p : Bool) (res : List Byte) (e : Engine) :
    (e.completeOne k r id c p res).cut = e.cut := by
  unfold Engine.completeOne Engine.pushCq
  simp

@[simp] theorem Engine.completeOne_guard (k : Kit) (r : Regs) (id : JobId) (c : Code) (p : Bool) (res : List Byte) (e : Engine) :
    (e.completeOne k r id c p res).guard = e.guard := by
  unfold Engine.completeOne Engine.pushCq
  simp

@[simp] theorem Engine.completeOne_front (k : Kit) (r : Regs) (id : JobId) (c : Code) (p : Bool) (res : List Byte) (e : Engine) :
    (e.completeOne k r id c p res).front = e.front := by
  unfold Engine.completeOne Engine.pushCq
  simp

@[simp] theorem Engine.completeOne_body (k : Kit) (r : Regs) (id : JobId) (c : Code) (p : Bool) (res : List Byte) (e : Engine) :
    (e.completeOne k r id c p res).body = e.body := by
  unfold Engine.completeOne Engine.pushCq
  simp

@[simp] theorem Engine.completeOne_bulb (k : Kit) (r : Regs) (id : JobId) (c : Code) (p : Bool) (res : List Byte) (e : Engine) :
    (e.completeOne k r id c p res).bulb = e.bulb := by
  unfold Engine.completeOne Engine.pushCq
  simp

@[simp] theorem Engine.completeOne_units (k : Kit) (r : Regs) (id : JobId) (c : Code) (p : Bool) (res : List Byte) (e : Engine) :
    (e.completeOne k r id c p res).units = e.units := by
  unfold Engine.completeOne Engine.pushCq
  simp

@[simp] theorem Engine.completeOne_recipes (k : Kit) (r : Regs) (id : JobId) (c : Code) (p : Bool) (res : List Byte) (e : Engine) :
    (e.completeOne k r id c p res).recipes = e.recipes := by
  unfold Engine.completeOne Engine.pushCq
  simp

@[simp] theorem Engine.completeOne_pollen (k : Kit) (r : Regs) (id : JobId) (c : Code) (p : Bool) (res : List Byte) (e : Engine) :
    (e.completeOne k r id c p res).pollen = e.pollen := by
  unfold Engine.completeOne Engine.pushCq
  simp

@[simp] theorem Engine.completeOne_streams (k : Kit) (r : Regs) (id : JobId) (c : Code) (p : Bool) (res : List Byte) (e : Engine) :
    (e.completeOne k r id c p res).streams = e.streams := by
  unfold Engine.completeOne Engine.pushCq
  simp

@[simp] theorem Engine.completeOne_vault (k : Kit) (r : Regs) (id : JobId) (c : Code) (p : Bool) (res : List Byte) (e : Engine) :
    (e.completeOne k r id c p res).vault = e.vault := by
  unfold Engine.completeOne Engine.pushCq
  simp

@[simp] theorem Engine.completeOne_tenants (k : Kit) (r : Regs) (id : JobId) (c : Code) (p : Bool) (res : List Byte) (e : Engine) :
    (e.completeOne k r id c p res).tenants = e.tenants := by
  unfold Engine.completeOne Engine.pushCq
  simp

@[simp] theorem Engine.completeOne_fox (k : Kit) (r : Regs) (id : JobId) (c : Code) (p : Bool) (res : List Byte) (e : Engine) :
    (e.completeOne k r id c p res).fox = e.fox := by
  unfold Engine.completeOne Engine.pushCq
  simp

@[simp] theorem Engine.completeOne_referee (k : Kit) (r : Regs) (id : JobId) (c : Code) (p : Bool) (res : List Byte) (e : Engine) :
    (e.completeOne k r id c p res).referee = e.referee := by
  unfold Engine.completeOne Engine.pushCq
  simp

@[simp] theorem Engine.completeOne_power (k : Kit) (r : Regs) (id : JobId) (c : Code) (p : Bool) (res : List Byte) (e : Engine) :
    (e.completeOne k r id c p res).power = e.power := by
  unfold Engine.completeOne Engine.pushCq
  simp

@[simp] theorem Engine.completeOne_keys (k : Kit) (r : Regs) (id : JobId) (c : Code) (p : Bool) (res : List Byte) (e : Engine) :
    (e.completeOne k r id c p res).keys = e.keys := by
  unfold Engine.completeOne Engine.pushCq
  simp

@[simp] theorem Engine.completeOne_dbg (k : Kit) (r : Regs) (id : JobId) (c : Code) (p : Bool) (res : List Byte) (e : Engine) :
    (e.completeOne k r id c p res).dbg = e.dbg := by
  unfold Engine.completeOne Engine.pushCq
  simp

@[simp] theorem Engine.completeOne_selfTest (k : Kit) (r : Regs) (id : JobId) (c : Code) (p : Bool) (res : List Byte) (e : Engine) :
    (e.completeOne k r id c p res).selfTest = e.selfTest := by
  unfold Engine.completeOne Engine.pushCq
  simp

@[simp] theorem Engine.completeOne_draws (k : Kit) (r : Regs) (id : JobId) (c : Code) (p : Bool) (res : List Byte) (e : Engine) :
    (e.completeOne k r id c p res).draws = e.draws := by
  unfold Engine.completeOne Engine.pushCq
  simp

@[simp] theorem Engine.endDrains_beat (k : Kit) (r : Regs) (e : Engine) : (e.endDrains k r).beat = e.beat := by
  unfold Engine.endDrains
  refine Engine.forEach_keeps (fun e => e.beat) _ (fun d e => ?_) _ _
  dsimp only
  split
  · simp
  · rfl

@[simp] theorem Engine.endDrains_budget (k : Kit) (r : Regs) (e : Engine) : (e.endDrains k r).budget = e.budget := by
  unfold Engine.endDrains
  refine Engine.forEach_keeps (fun e => e.budget) _ (fun d e => ?_) _ _
  dsimp only
  split
  · simp
  · rfl

@[simp] theorem Engine.endDrains_count (k : Kit) (r : Regs) (e : Engine) : (e.endDrains k r).count = e.count := by
  unfold Engine.endDrains
  refine Engine.forEach_keeps (fun e => e.count) _ (fun d e => ?_) _ _
  dsimp only
  split
  · simp
  · rfl

@[simp] theorem Engine.endDrains_stem (k : Kit) (r : Regs) (e : Engine) : (e.endDrains k r).stem = e.stem := by
  unfold Engine.endDrains
  refine Engine.forEach_keeps (fun e => e.stem) _ (fun d e => ?_) _ _
  dsimp only
  split
  · simp
  · rfl

@[simp] theorem Engine.endDrains_buds (k : Kit) (r : Regs) (e : Engine) : (e.endDrains k r).buds = e.buds := by
  unfold Engine.endDrains
  refine Engine.forEach_keeps (fun e => e.buds) _ (fun d e => ?_) _ _
  dsimp only
  split
  · simp
  · rfl

@[simp] theorem Engine.endDrains_cut (k : Kit) (r : Regs) (e : Engine) : (e.endDrains k r).cut = e.cut := by
  unfold Engine.endDrains
  refine Engine.forEach_keeps (fun e => e.cut) _ (fun d e => ?_) _ _
  dsimp only
  split
  · simp
  · rfl

@[simp] theorem Engine.endDrains_guard (k : Kit) (r : Regs) (e : Engine) : (e.endDrains k r).guard = e.guard := by
  unfold Engine.endDrains
  refine Engine.forEach_keeps (fun e => e.guard) _ (fun d e => ?_) _ _
  dsimp only
  split
  · simp
  · rfl

@[simp] theorem Engine.endDrains_front (k : Kit) (r : Regs) (e : Engine) : (e.endDrains k r).front = e.front := by
  unfold Engine.endDrains
  refine Engine.forEach_keeps (fun e => e.front) _ (fun d e => ?_) _ _
  dsimp only
  split
  · simp
  · rfl

@[simp] theorem Engine.endDrains_body (k : Kit) (r : Regs) (e : Engine) : (e.endDrains k r).body = e.body := by
  unfold Engine.endDrains
  refine Engine.forEach_keeps (fun e => e.body) _ (fun d e => ?_) _ _
  dsimp only
  split
  · simp
  · rfl

@[simp] theorem Engine.endDrains_bulb (k : Kit) (r : Regs) (e : Engine) : (e.endDrains k r).bulb = e.bulb := by
  unfold Engine.endDrains
  refine Engine.forEach_keeps (fun e => e.bulb) _ (fun d e => ?_) _ _
  dsimp only
  split
  · simp
  · rfl

@[simp] theorem Engine.endDrains_units (k : Kit) (r : Regs) (e : Engine) : (e.endDrains k r).units = e.units := by
  unfold Engine.endDrains
  refine Engine.forEach_keeps (fun e => e.units) _ (fun d e => ?_) _ _
  dsimp only
  split
  · simp
  · rfl

@[simp] theorem Engine.endDrains_recipes (k : Kit) (r : Regs) (e : Engine) : (e.endDrains k r).recipes = e.recipes := by
  unfold Engine.endDrains
  refine Engine.forEach_keeps (fun e => e.recipes) _ (fun d e => ?_) _ _
  dsimp only
  split
  · simp
  · rfl

@[simp] theorem Engine.endDrains_pollen (k : Kit) (r : Regs) (e : Engine) : (e.endDrains k r).pollen = e.pollen := by
  unfold Engine.endDrains
  refine Engine.forEach_keeps (fun e => e.pollen) _ (fun d e => ?_) _ _
  dsimp only
  split
  · simp
  · rfl

@[simp] theorem Engine.endDrains_streams (k : Kit) (r : Regs) (e : Engine) : (e.endDrains k r).streams = e.streams := by
  unfold Engine.endDrains
  refine Engine.forEach_keeps (fun e => e.streams) _ (fun d e => ?_) _ _
  dsimp only
  split
  · simp
  · rfl

@[simp] theorem Engine.endDrains_tenants (k : Kit) (r : Regs) (e : Engine) : (e.endDrains k r).tenants = e.tenants := by
  unfold Engine.endDrains
  refine Engine.forEach_keeps (fun e => e.tenants) _ (fun d e => ?_) _ _
  dsimp only
  split
  · simp
  · rfl

@[simp] theorem Engine.endDrains_fox (k : Kit) (r : Regs) (e : Engine) : (e.endDrains k r).fox = e.fox := by
  unfold Engine.endDrains
  refine Engine.forEach_keeps (fun e => e.fox) _ (fun d e => ?_) _ _
  dsimp only
  split
  · simp
  · rfl

@[simp] theorem Engine.endDrains_referee (k : Kit) (r : Regs) (e : Engine) : (e.endDrains k r).referee = e.referee := by
  unfold Engine.endDrains
  refine Engine.forEach_keeps (fun e => e.referee) _ (fun d e => ?_) _ _
  dsimp only
  split
  · simp
  · rfl

@[simp] theorem Engine.endDrains_power (k : Kit) (r : Regs) (e : Engine) : (e.endDrains k r).power = e.power := by
  unfold Engine.endDrains
  refine Engine.forEach_keeps (fun e => e.power) _ (fun d e => ?_) _ _
  dsimp only
  split
  · simp
  · rfl

@[simp] theorem Engine.endDrains_keys (k : Kit) (r : Regs) (e : Engine) : (e.endDrains k r).keys = e.keys := by
  unfold Engine.endDrains
  refine Engine.forEach_keeps (fun e => e.keys) _ (fun d e => ?_) _ _
  dsimp only
  split
  · simp
  · rfl

@[simp] theorem Engine.endDrains_dbg (k : Kit) (r : Regs) (e : Engine) : (e.endDrains k r).dbg = e.dbg := by
  unfold Engine.endDrains
  refine Engine.forEach_keeps (fun e => e.dbg) _ (fun d e => ?_) _ _
  dsimp only
  split
  · simp
  · rfl

@[simp] theorem Engine.endDrains_selfTest (k : Kit) (r : Regs) (e : Engine) : (e.endDrains k r).selfTest = e.selfTest := by
  unfold Engine.endDrains
  refine Engine.forEach_keeps (fun e => e.selfTest) _ (fun d e => ?_) _ _
  dsimp only
  split
  · simp
  · rfl

@[simp] theorem Engine.endDrains_draws (k : Kit) (r : Regs) (e : Engine) : (e.endDrains k r).draws = e.draws := by
  unfold Engine.endDrains
  refine Engine.forEach_keeps (fun e => e.draws) _ (fun d e => ?_) _ _
  dsimp only
  split
  · simp
  · rfl

@[simp] theorem Engine.complete_beat (k : Kit) (r : Regs) (id : JobId) (c : Code) (res : List Byte) (e : Engine) :
    (e.complete k r id c res).beat = e.beat := by
  unfold Engine.complete Engine.completeWith
  simp

@[simp] theorem Engine.refuse_beat (k : Kit) (r : Regs) (id : JobId) (c : Code) (e : Engine) : (e.refuse k r id c).beat = e.beat := by
  unfold Engine.refuse
  simp

@[simp] theorem Engine.complete_budget (k : Kit) (r : Regs) (id : JobId) (c : Code) (res : List Byte) (e : Engine) :
    (e.complete k r id c res).budget = e.budget := by
  unfold Engine.complete Engine.completeWith
  simp

@[simp] theorem Engine.refuse_budget (k : Kit) (r : Regs) (id : JobId) (c : Code) (e : Engine) : (e.refuse k r id c).budget = e.budget := by
  unfold Engine.refuse
  simp

@[simp] theorem Engine.complete_count (k : Kit) (r : Regs) (id : JobId) (c : Code) (res : List Byte) (e : Engine) :
    (e.complete k r id c res).count = e.count := by
  unfold Engine.complete Engine.completeWith
  simp

@[simp] theorem Engine.refuse_count (k : Kit) (r : Regs) (id : JobId) (c : Code) (e : Engine) : (e.refuse k r id c).count = e.count := by
  unfold Engine.refuse
  simp

@[simp] theorem Engine.complete_stem (k : Kit) (r : Regs) (id : JobId) (c : Code) (res : List Byte) (e : Engine) :
    (e.complete k r id c res).stem = e.stem := by
  unfold Engine.complete Engine.completeWith
  simp

@[simp] theorem Engine.refuse_stem (k : Kit) (r : Regs) (id : JobId) (c : Code) (e : Engine) : (e.refuse k r id c).stem = e.stem := by
  unfold Engine.refuse
  simp

@[simp] theorem Engine.complete_buds (k : Kit) (r : Regs) (id : JobId) (c : Code) (res : List Byte) (e : Engine) :
    (e.complete k r id c res).buds = e.buds := by
  unfold Engine.complete Engine.completeWith
  simp

@[simp] theorem Engine.refuse_buds (k : Kit) (r : Regs) (id : JobId) (c : Code) (e : Engine) : (e.refuse k r id c).buds = e.buds := by
  unfold Engine.refuse
  simp

@[simp] theorem Engine.complete_cut (k : Kit) (r : Regs) (id : JobId) (c : Code) (res : List Byte) (e : Engine) :
    (e.complete k r id c res).cut = e.cut := by
  unfold Engine.complete Engine.completeWith
  simp

@[simp] theorem Engine.refuse_cut (k : Kit) (r : Regs) (id : JobId) (c : Code) (e : Engine) : (e.refuse k r id c).cut = e.cut := by
  unfold Engine.refuse
  simp

@[simp] theorem Engine.complete_guard (k : Kit) (r : Regs) (id : JobId) (c : Code) (res : List Byte) (e : Engine) :
    (e.complete k r id c res).guard = e.guard := by
  unfold Engine.complete Engine.completeWith
  simp

@[simp] theorem Engine.refuse_guard (k : Kit) (r : Regs) (id : JobId) (c : Code) (e : Engine) : (e.refuse k r id c).guard = e.guard := by
  unfold Engine.refuse
  simp

@[simp] theorem Engine.complete_front (k : Kit) (r : Regs) (id : JobId) (c : Code) (res : List Byte) (e : Engine) :
    (e.complete k r id c res).front = e.front := by
  unfold Engine.complete Engine.completeWith
  simp

@[simp] theorem Engine.refuse_front (k : Kit) (r : Regs) (id : JobId) (c : Code) (e : Engine) : (e.refuse k r id c).front = e.front := by
  unfold Engine.refuse
  simp

@[simp] theorem Engine.complete_body (k : Kit) (r : Regs) (id : JobId) (c : Code) (res : List Byte) (e : Engine) :
    (e.complete k r id c res).body = e.body := by
  unfold Engine.complete Engine.completeWith
  simp

@[simp] theorem Engine.refuse_body (k : Kit) (r : Regs) (id : JobId) (c : Code) (e : Engine) : (e.refuse k r id c).body = e.body := by
  unfold Engine.refuse
  simp

@[simp] theorem Engine.complete_bulb (k : Kit) (r : Regs) (id : JobId) (c : Code) (res : List Byte) (e : Engine) :
    (e.complete k r id c res).bulb = e.bulb := by
  unfold Engine.complete Engine.completeWith
  simp

@[simp] theorem Engine.refuse_bulb (k : Kit) (r : Regs) (id : JobId) (c : Code) (e : Engine) : (e.refuse k r id c).bulb = e.bulb := by
  unfold Engine.refuse
  simp

@[simp] theorem Engine.complete_units (k : Kit) (r : Regs) (id : JobId) (c : Code) (res : List Byte) (e : Engine) :
    (e.complete k r id c res).units = e.units := by
  unfold Engine.complete Engine.completeWith
  simp

@[simp] theorem Engine.refuse_units (k : Kit) (r : Regs) (id : JobId) (c : Code) (e : Engine) : (e.refuse k r id c).units = e.units := by
  unfold Engine.refuse
  simp

@[simp] theorem Engine.complete_recipes (k : Kit) (r : Regs) (id : JobId) (c : Code) (res : List Byte) (e : Engine) :
    (e.complete k r id c res).recipes = e.recipes := by
  unfold Engine.complete Engine.completeWith
  simp

@[simp] theorem Engine.refuse_recipes (k : Kit) (r : Regs) (id : JobId) (c : Code) (e : Engine) : (e.refuse k r id c).recipes = e.recipes := by
  unfold Engine.refuse
  simp

@[simp] theorem Engine.complete_pollen (k : Kit) (r : Regs) (id : JobId) (c : Code) (res : List Byte) (e : Engine) :
    (e.complete k r id c res).pollen = e.pollen := by
  unfold Engine.complete Engine.completeWith
  simp

@[simp] theorem Engine.refuse_pollen (k : Kit) (r : Regs) (id : JobId) (c : Code) (e : Engine) : (e.refuse k r id c).pollen = e.pollen := by
  unfold Engine.refuse
  simp

@[simp] theorem Engine.complete_streams (k : Kit) (r : Regs) (id : JobId) (c : Code) (res : List Byte) (e : Engine) :
    (e.complete k r id c res).streams = e.streams := by
  unfold Engine.complete Engine.completeWith
  simp

@[simp] theorem Engine.refuse_streams (k : Kit) (r : Regs) (id : JobId) (c : Code) (e : Engine) : (e.refuse k r id c).streams = e.streams := by
  unfold Engine.refuse
  simp

@[simp] theorem Engine.complete_tenants (k : Kit) (r : Regs) (id : JobId) (c : Code) (res : List Byte) (e : Engine) :
    (e.complete k r id c res).tenants = e.tenants := by
  unfold Engine.complete Engine.completeWith
  simp

@[simp] theorem Engine.refuse_tenants (k : Kit) (r : Regs) (id : JobId) (c : Code) (e : Engine) : (e.refuse k r id c).tenants = e.tenants := by
  unfold Engine.refuse
  simp

@[simp] theorem Engine.complete_fox (k : Kit) (r : Regs) (id : JobId) (c : Code) (res : List Byte) (e : Engine) :
    (e.complete k r id c res).fox = e.fox := by
  unfold Engine.complete Engine.completeWith
  simp

@[simp] theorem Engine.refuse_fox (k : Kit) (r : Regs) (id : JobId) (c : Code) (e : Engine) : (e.refuse k r id c).fox = e.fox := by
  unfold Engine.refuse
  simp

@[simp] theorem Engine.complete_referee (k : Kit) (r : Regs) (id : JobId) (c : Code) (res : List Byte) (e : Engine) :
    (e.complete k r id c res).referee = e.referee := by
  unfold Engine.complete Engine.completeWith
  simp

@[simp] theorem Engine.refuse_referee (k : Kit) (r : Regs) (id : JobId) (c : Code) (e : Engine) : (e.refuse k r id c).referee = e.referee := by
  unfold Engine.refuse
  simp

@[simp] theorem Engine.complete_power (k : Kit) (r : Regs) (id : JobId) (c : Code) (res : List Byte) (e : Engine) :
    (e.complete k r id c res).power = e.power := by
  unfold Engine.complete Engine.completeWith
  simp

@[simp] theorem Engine.refuse_power (k : Kit) (r : Regs) (id : JobId) (c : Code) (e : Engine) : (e.refuse k r id c).power = e.power := by
  unfold Engine.refuse
  simp

@[simp] theorem Engine.complete_keys (k : Kit) (r : Regs) (id : JobId) (c : Code) (res : List Byte) (e : Engine) :
    (e.complete k r id c res).keys = e.keys := by
  unfold Engine.complete Engine.completeWith
  simp

@[simp] theorem Engine.refuse_keys (k : Kit) (r : Regs) (id : JobId) (c : Code) (e : Engine) : (e.refuse k r id c).keys = e.keys := by
  unfold Engine.refuse
  simp

@[simp] theorem Engine.complete_dbg (k : Kit) (r : Regs) (id : JobId) (c : Code) (res : List Byte) (e : Engine) :
    (e.complete k r id c res).dbg = e.dbg := by
  unfold Engine.complete Engine.completeWith
  simp

@[simp] theorem Engine.refuse_dbg (k : Kit) (r : Regs) (id : JobId) (c : Code) (e : Engine) : (e.refuse k r id c).dbg = e.dbg := by
  unfold Engine.refuse
  simp

@[simp] theorem Engine.complete_selfTest (k : Kit) (r : Regs) (id : JobId) (c : Code) (res : List Byte) (e : Engine) :
    (e.complete k r id c res).selfTest = e.selfTest := by
  unfold Engine.complete Engine.completeWith
  simp

@[simp] theorem Engine.refuse_selfTest (k : Kit) (r : Regs) (id : JobId) (c : Code) (e : Engine) : (e.refuse k r id c).selfTest = e.selfTest := by
  unfold Engine.refuse
  simp

@[simp] theorem Engine.complete_draws (k : Kit) (r : Regs) (id : JobId) (c : Code) (res : List Byte) (e : Engine) :
    (e.complete k r id c res).draws = e.draws := by
  unfold Engine.complete Engine.completeWith
  simp

@[simp] theorem Engine.refuse_draws (k : Kit) (r : Regs) (id : JobId) (c : Code) (e : Engine) : (e.refuse k r id c).draws = e.draws := by
  unfold Engine.refuse
  simp

/-! ### The memory of the body -/

theorem Body.wf_made : Body.made.wf = true := rfl

/-- A stored line keeps the canonical form of the body's memory. -/
theorem Body.wf_setLine (key : Nat) (l : Line) {b : Body} (h : b.wf = true) : (b.setLine key l).wf = true := tabWf_put h

/-- What is not the line that is stored keeps its value. -/
theorem Body.line_setLine_ne {j key : Nat} (hj : j ≠ key) (l : Line) (b : Body) : (b.setLine key l).line j = b.line j := by
  unfold Body.setLine Body.line tabPut
  dsimp only
  split
  · exact tabFind_erase_ne hj b.lines
  · exact tabFind_set_ne hj l b.lines

theorem Body.wf_setBank (p : Nat) (v : Bank) (b : Body) : (b.setBank p v).wf = b.wf := rfl

/-- A line written and verified keeps the canonical form of the body's memory. -/
theorem Engine.storeLine_wf (key : Nat) (l : Line) {e : Engine} (h : e.body.wf = true) : (e.storeLine key l).body.wf = true :=
  Body.wf_setLine key l h

end Sys2Proof.Machine
end

