-- ==== Sys2Proof/Laws/Access.lean ====
section
/-!
SUPPORT. Reading after writing, for every indexed part of the engine, and what an entry taken and a completion leave of a ring.
-/

namespace Sys2Proof.Machine

/-! ### Indexed parts -/

@[simp] theorem Engine.bud_setBud_same (n : Nat) (v : Bud) (e : Engine) : (e.setBud n v).bud n = v := by
  unfold Engine.bud Engine.setBud
  exact tabGet_put_same _ _ _ _

theorem Engine.bud_setBud_ne {m n : Nat} (h : m ≠ n) (v : Bud) (e : Engine) : (e.setBud n v).bud m = e.bud m := by
  unfold Engine.bud Engine.setBud
  exact tabGet_put_ne h _ _

@[simp] theorem Engine.tenant_setTenant_same (n : Nat) (v : Tenant) (e : Engine) : (e.setTenant n v).tenant n = v := by
  unfold Engine.tenant Engine.setTenant
  exact tabGet_put_same _ _ _ _

theorem Engine.tenant_setTenant_ne {m n : Nat} (h : m ≠ n) (v : Tenant) (e : Engine) : (e.setTenant n v).tenant m = e.tenant m := by
  unfold Engine.tenant Engine.setTenant
  exact tabGet_put_ne h _ _

@[simp] theorem Engine.kept_setKept_same (n : Nat) (v : Kept) (e : Engine) : (e.setKept n v).kept n = v := by
  unfold Engine.kept Engine.setKept
  exact tabGet_put_same _ _ _ _

theorem Engine.kept_setKept_ne {m n : Nat} (h : m ≠ n) (v : Kept) (e : Engine) : (e.setKept n v).kept m = e.kept m := by
  unfold Engine.kept Engine.setKept
  exact tabGet_put_ne h _ _

@[simp] theorem Engine.ring_setRing_same (n : Nat) (v : Ring) (e : Engine) : (e.setRing n v).ring n = v := by
  unfold Engine.ring Engine.setRing
  exact tabGet_put_same _ _ _ _

theorem Engine.ring_setRing_ne {m n : Nat} (h : m ≠ n) (v : Ring) (e : Engine) : (e.setRing n v).ring m = e.ring m := by
  unfold Engine.ring Engine.setRing
  exact tabGet_put_ne h _ _

@[simp] theorem Engine.vq_setVq_same (n : Nat) (v : VQueue) (e : Engine) : (e.setVq n v).vq n = v := by
  unfold Engine.vq Engine.setVq
  exact tabGet_put_same _ _ _ _

theorem Engine.vq_setVq_ne {m n : Nat} (h : m ≠ n) (v : VQueue) (e : Engine) : (e.setVq n v).vq m = e.vq m := by
  unfold Engine.vq Engine.setVq
  exact tabGet_put_ne h _ _

@[simp] theorem Engine.vtenant_setVtenant_same (n : Nat) (v : VTenant) (e : Engine) : (e.setVtenant n v).vtenant n = v := by
  unfold Engine.vtenant Engine.setVtenant
  exact tabGet_put_same _ _ _ _

theorem Engine.vtenant_setVtenant_ne {m n : Nat} (h : m ≠ n) (v : VTenant) (e : Engine) : (e.setVtenant n v).vtenant m = e.vtenant m := by
  unfold Engine.vtenant Engine.setVtenant
  exact tabGet_put_ne h _ _

@[simp] theorem Engine.sess_setSess_same (t i : Nat) (v : Session) (e : Engine) : (e.setSess t i v).sess t i = v := by
  unfold Engine.sess Engine.setSess
  exact tabGet_put_same _ _ _ _

@[simp] theorem Session.port_setPort_same (p : Nat) (v : PortSess) (x : Session) : (x.setPort p v).port p = v := by
  unfold Session.port Session.setPort
  exact tabGet_put_same _ _ _ _

@[simp] theorem Engine.stream_setStream_same (n : Nat) (v : Stream) (e : Engine) : (e.setStream n v).stream n = some v := by
  unfold Engine.stream Engine.setStream
  exact tabFind_set_same _ _ _

theorem Engine.stream_setStream_ne {m n : Nat} (h : m ≠ n) (v : Stream) (e : Engine) : (e.setStream n v).stream m = e.stream m := by
  unfold Engine.stream Engine.setStream
  exact tabFind_set_ne h _ _

@[simp] theorem Engine.counter_bump_same (off n : Nat) (e : Engine) : (e.bump off n).counter off = e.counter off + BitVec.ofNat 64 n := by
  unfold Engine.counter Engine.bump
  exact tabGet_put_same _ _ _ _

theorem Engine.counter_bump_ne {m off : Nat} (h : m ≠ off) (n : Nat) (e : Engine) : (e.bump off n).counter m = e.counter m := by
  unfold Engine.counter Engine.bump
  exact tabGet_put_ne h _ _

/-! ### Entries and completions -/

/-- A ring's own fields that taking an entry changes: its burst and its framed entries. -/
theorem Engine.takeEntry_ring (r : Regs) (n : Nat) (e : Engine) :
    (e.takeEntry r n).ring n = { e.ring n with burst := (e.ring n).burst - 1, ready := (e.ring n).ready.tail } := by
  have h : ∀ e : Engine, (e.takeTurn r n).ring n = e.ring n := by
    intro e
    unfold Engine.takeTurn
    split <;> rfl
  have ht : ∀ e : Engine, (e.endTurn n).ring n = e.ring n := by
    intro e
    unfold Engine.endTurn
    refine Engine.when_keeps (fun e => e.ring n) _ _ (fun d => ?_) e
    rfl
  unfold Engine.takeEntry
  simp only [ht, Engine.ring_setRing_same]
  unfold Engine.chargeEntry
  have hb : ∀ (o m : Nat) (e : Engine), (e.bump o m).ring n = e.ring n := fun _ _ _ => rfl
  simp only [hb, Engine.ring_setRing_same]
  have hc : ∀ (e : Engine) (b : Budget), ({ e with budget := b } : Engine).ring n = e.ring n := fun _ _ => rfl
  simp only [hc, h]

/-- Issuing a completion write leaves the completions and the framed entries of every ring. -/
theorem Engine.issueCq_ring (k : Kit) (r : Regs) (m n : Nat) (e : Engine) :
    ((e.issueCq k r m).ring n).cq = (e.ring n).cq ∧ ((e.issueCq k r m).ring n).ready = (e.ring n).ready ∧
      ((e.issueCq k r m).ring n).cqPhase = (e.ring n).cqPhase := by
  unfold Engine.issueCq
  dsimp only
  split
  · exact ⟨rfl, rfl, rfl⟩
  · split
    · exact ⟨rfl, rfl, rfl⟩
    · have hm : ∀ (e : Engine) (a : Nat) (bs : List Byte) (u : MemFor), (e.memWrite k a bs [] 1 u).ring n = e.ring n := fun _ _ _ _ => rfl
      rw [hm]
      by_cases h : n = m
      · subst h
        rw [Engine.ring_setRing_same]
        exact ⟨rfl, rfl, rfl⟩
      · rw [Engine.ring_setRing_ne h]
        exact ⟨rfl, rfl, rfl⟩

/-- A completion is appended to its ring and leaves the framed entries. -/
theorem Engine.completeOne_ring (k : Kit) (r : Regs) (id : JobId) (code : Code) (plan : Bool) (res : List Byte) (n : Nat) (e : Engine) :
    ((e.completeOne k r id code plan res).ring n).ready = (e.ring n).ready ∧
      ∃ more, ((e.completeOne k r id code plan res).ring n).cq = (e.ring n).cq ++ more := by
  unfold Engine.completeOne Engine.pushCq
  dsimp only
  rw [(Engine.issueCq_ring k r id.ring n _).1, (Engine.issueCq_ring k r id.ring n _).2.1]
  have hj : ∀ (e : Engine) (js : List Job), ({ e with rings := { e.rings with jobs := js } } : Engine).ring n = e.ring n := fun _ _ => rfl
  by_cases h : n = id.ring
  · subst h
    simp only [Engine.ring_setRing_same]
    exact ⟨rfl, _, rfl⟩
  · rw [Engine.ring_setRing_ne h, Engine.ring_setRing_ne h]
    exact ⟨rfl, [], by simp only [List.append_nil]; rfl⟩

/-- The completion itself. -/
theorem Engine.completeOne_cq (k : Kit) (r : Regs) (id : JobId) (code : Code) (plan : Bool) (res : List Byte) (e : Engine) :
    ∃ head, ((e.completeOne k r id code plan res).ring id.ring).cq = (e.ring id.ring).cq ++
      [{ bytes := cqBytes id.cmdId code (e.ring id.ring).cqPhase false plan id.index head res, irq := id.irq, entry := some id.index, written := false }] := by
  unfold Engine.completeOne Engine.pushCq
  dsimp only
  rw [(Engine.issueCq_ring k r id.ring id.ring _).1]
  simp only [Engine.ring_setRing_same]
  exact ⟨_, rfl⟩

theorem Engine.endDrains_ring (k : Kit) (r : Regs) (n : Nat) (e : Engine) :
    ((e.endDrains k r).ring n).ready = (e.ring n).ready ∧ ∃ more, ((e.endDrains k r).ring n).cq = (e.ring n).cq ++ more := by
  unfold Engine.endDrains Engine.forEach
  generalize e.vault.drains.filter _ = ds
  induction ds generalizing e with
  | nil => exact ⟨rfl, [], by simp⟩
  | cons d ds ih =>
    rw [List.foldl_cons]
    obtain ⟨h1, m1, h2⟩ := ih (if e.drainAlone d then
      Engine.completeOne k r d.job (((firstFailure d.failures).map fun y => y.2).getD 0) false []
        { e with vault := { e.vault with drains := e.vault.drains.filter fun y => y.job != d.job } } else e)
    rw [h1, h2]
    split
    · obtain ⟨g1, m2, g2⟩ := Engine.completeOne_ring k r d.job (((firstFailure d.failures).map fun y => y.2).getD 0) false [] n
        { e with vault := { e.vault with drains := e.vault.drains.filter fun y => y.job != d.job } }
      rw [g1, g2]
      exact ⟨rfl, m2 ++ m1, by rw [← List.append_assoc]; rfl⟩
    · exact ⟨rfl, m1, rfl⟩

/-- A job's completion stands behind what the completion ring held; only completions of DRAINs may follow it. -/
theorem Engine.complete_cq (k : Kit) (r : Regs) (id : JobId) (code : Code) (res : List Byte) (e : Engine) :
    ∃ head more, ((e.complete k r id code res).ring id.ring).cq = (e.ring id.ring).cq ++
      { bytes := cqBytes id.cmdId code (e.ring id.ring).cqPhase false false id.index head res, irq := id.irq, entry := some id.index, written := false } :: more := by
  unfold Engine.complete Engine.completeWith
  obtain ⟨head, h⟩ := Engine.completeOne_cq k r id code false res e
  obtain ⟨-, more, g⟩ := Engine.endDrains_ring k r id.ring (e.completeOne k r id code false res)
  exact ⟨head, more, by rw [g, h]; simp⟩

theorem Engine.complete_ready (k : Kit) (r : Regs) (id : JobId) (code : Code) (res : List Byte) (n : Nat) (e : Engine) :
    ((e.complete k r id code res).ring n).ready = (e.ring n).ready := by
  unfold Engine.complete Engine.completeWith
  rw [(Engine.endDrains_ring k r n _).1, (Engine.completeOne_ring k r id code false res n e).1]

end Sys2Proof.Machine
end

