-- ==== Sys2Proof/Laws/RegMap.lean ====
section
/-!
SUPPORT. The address map and the reset values agree: a reset value holds RW bits only, and a register file whose listed words do
so has its form.
-/

namespace Sys2Proof.Machine

theorem isInstance_above {base stride n a off : Nat} (hs : 0 < stride) (h : base + a + stride * n ≤ off) : isInstance base stride n a off = false := by
  unfold isInstance instanceOf
  rw [if_neg]
  · rfl
  · rintro ⟨_, hm, hd⟩
    have h0 : off - base - a = stride * ((off - base - a) / stride) := by
      have := Nat.div_add_mod (off - base - a) stride
      omega
    have h1 : stride * ((off - base - a) / stride + 1) ≤ stride * n := Nat.mul_le_mul_left _ hd
    rw [Nat.mul_add] at h1
    omega

/-- Above the last table, a word is one of FOX_SRC or none. -/
theorem rwWord_above (k : Kit) {off : Nat} (h : 0x50400 ≤ off) :
    rwWord k off = match instanceOf 0x50400 4 256 0 off with
      | some s => if foxImplemented k s then some ⟨0x17, 0x0FFFFFE8⟩ else none
      | none => none := by
  unfold rwWord
  simp (disch := omega) only [isInstance_above, if_neg, Bool.false_eq_true, or_self, if_false] <;> rfl

theorem foxDefault_le (s : Nat) : foxDefault s ≤ 4 := by
  unfold foxDefault; split_ifs <;> omega

theorem foxDefault_rw (s : Nat) : foxDefault s &&& 0x17 = foxDefault s := by
  have := foxDefault_le s
  interval_cases foxDefault s <;> rfl

/-- Every reset value holds RW bits only. -/
theorem resetWord_rw (k : Kit) (off : Nat) (i : WordInfo) (h : rwWord k off = some i) :
    (resetWord off).toNat &&& i.rw = (resetWord off).toNat := by
  by_cases h0 : off = 0x2000
  · subst h0
    rw [show rwWord k 0x2000 = rwOnly 0xFFF from rfl] at h
    cases h
    rfl
  by_cases h1 : off = 0x4018
  · subst h1
    rw [show rwWord k 0x4018 = rwOnly 0xFFF from rfl] at h
    cases h
    rfl
  by_cases h2 : off = 0x8004
  · subst h2
    rw [show rwWord k 0x8004 = rwOnly 0x7FF from rfl] at h
    cases h
    rfl
  by_cases h3 : off = 0x800C
  · subst h3
    rw [show rwWord k 0x800C = rwOnly 0xFFFFFFFF from rfl] at h
    cases h
    rfl
  by_cases h4 : off = 0x8010
  · subst h4
    rw [show rwWord k 0x8010 = rwOnly 0xFFFF from rfl] at h
    cases h
    rfl
  by_cases h5 : off = 0x8014
  · subst h5
    rw [show rwWord k 0x8014 = rwOnly 0xFFFFFF from rfl] at h
    cases h
    rfl
  by_cases h6 : off = 0x9004
  · subst h6
    rw [show rwWord k 0x9004 = rwOnly 0x7FF from rfl] at h
    cases h
    rfl
  by_cases h7 : off = 0xC000
  · subst h7
    rw [show rwWord k 0xC000 = rwOnly 0xFFFF from rfl] at h
    cases h
    rfl
  by_cases h8 : off = 0xC004
  · subst h8
    rw [show rwWord k 0xC004 = rwOnly 0x0FFFFFFF from rfl] at h
    cases h
    rfl
  by_cases h9 : off = 0xC008
  · subst h9
    rw [show rwWord k 0xC008 = rwOnly 0x7FF from rfl] at h
    cases h
    rfl
  by_cases h10 : off = 0xC00C
  · subst h10
    rw [show rwWord k 0xC00C = rwOnly 0xFFFF from rfl] at h
    cases h
    rfl
  by_cases h11 : off = 0x10014
  · subst h11
    rw [show rwWord k 0x10014 = rwOnly 0xFFFF from rfl] at h
    cases h
    rfl
  by_cases h12 : off = 0x50004
  · subst h12
    rw [show rwWord k 0x50004 = rwOnly 0xF07 from rfl] at h
    cases h
    rfl
  by_cases h13 : off = 0x5001C
  · subst h13
    rw [show rwWord k 0x5001C = rwOnly 0xF00FFFFF from rfl] at h
    cases h
    rfl
  unfold resetWord
  simp only [if_neg h0, if_neg h1, if_neg h2, if_neg h3, if_neg h4, if_neg h5, if_neg h6, if_neg h7, if_neg h8, if_neg h9, if_neg h10, if_neg h11, if_neg h12, if_neg h13]
  split
  next s hs =>
    have hge : 0x50400 ≤ off := by
      unfold instanceOf at hs; split at hs
      · omega
      · cases hs
    rw [rwWord_above k hge, hs] at h
    dsimp only at h
    split at h
    · cases h
      have := foxDefault_le s
      rw [BitVec.toNat_ofNat, Nat.mod_eq_of_lt (by omega)]
      exact foxDefault_rw s
    · cases h
  next => simp

theorem mem_of_tabFind {α : Type} {k : Nat} {v : α} {t : Tab α} (h : tabFind k t = some v) : (k, v) ∈ t := by
  induction t with
  | nil => cases h
  | cons p t ih =>
    obtain ⟨j, w⟩ := p
    unfold tabFind at h
    split at h
    · next hj => cases h; subst hj; exact List.mem_cons_self
    · exact List.mem_cons_of_mem _ (ih h)

/-- A register file whose tables are canonical and whose listed live words hold RW bits only has its form. -/
theorem Regs.wf_of_listed {k : Kit} {r : Regs} (hl : tabWf resetWord r.live = true) (hs : tabWf resetWord r.shadow = true)
    (h : (r.live.all fun p => match rwWord k p.1 with
      | some i => p.2.toNat &&& i.rw == p.2.toNat
      | none => true) = true) : r.wf k := by
  refine ⟨hl, hs, fun off i hi => ?_⟩
  unfold Regs.word tabGet
  cases hf : tabFind off r.live with
  | none => exact resetWord_rw k off i hi
  | some v =>
    have hm : (off, v) ∈ r.live := mem_of_tabFind hf
    have := List.all_eq_true.mp h _ hm
    simpa [hi] using this

end Sys2Proof.Machine
end

