-- ==== Sys2Proof/Tests/Slice0.lean ====
section
/-!
SUPPORT. Tests of the model on small states: what the checks refuse, what single commands do, and, for every statement with hypotheses,
a state and operands that meet them.
-/



namespace Sys2Proof.Tests

set_option Elab.async false

open Sys2Proof Sys2Proof.Machine

/-- A small kit. -/
def kit : Kit :=
  { buds := 4, regions := 2, linkPorts := 2, memChannels := 1, guardClients := 1, gridCols := 2, gridRows := 2, stemDepth := 4,
    tileRegion := [], scratchLines := [] }

/-- Live words: peer slot 0 of tenant 0 is peer 2 on port 0, this engine is peer 1; ring 0 and vault queue 0 are tenant 0's, of sixteen and 128
lines; host region 0 is tenant 0's. -/
def live : Tab Word :=
  [(0x8100, 0x200), (0xC000, 1), (0xC100, 0x80000002), (0xC104, 1), (0x10000, 0x100000), (0x10008, 0x101000), (0x10010, 0x81080000),
   (0x18000, 0x200000), (0x18008, 0x400), (0x1800C, 0x80000000), (0x30000, 0x210000), (0x30008, 0x212000), (0x30010, 0x81CE0000)]

def regs : Regs := { Regs.reset with live := live, shadow := live }

/-- A started engine: NORTH is the steward, tenant 0 is ATTESTED with both keys. -/
def eng : Engine :=
  { Engine.reset with
    budget := { Engine.reset.budget with entries := 8 }
    rings := { rings := [(0, { Ring.fresh with burst := 8 })], turn := 0, weight := 8, jobs := [] }
    tenants := [(0, { Tenant.none with state := .attested, uid := 5, sealKey := some 1, pollenKey := some 7 })]
    referee := { Engine.reset.referee with steward := some .north, resumed := true }
    units := { Engine.reset.units with noise := .healthy }
    power := { Engine.reset.power with bodyLoaded := true, frontClear := true, noiseOk := true, fwRunning := true, sysReady := true } }

def base : State := { kit := kit, regs := regs, eng := eng, pending := [] }

/-- The started machine with this engine. -/
def withE (f : Engine → Engine) : State := { base with eng := f eng }

/-- A one-line entry of this opcode and these parameter bytes, at the start of 48. -/
def entry (op : Nat) (params : List Byte) : Entry :=
  { opcode := op, fence := false, irq := false, cmdId := 9, index := 0, lines := 1, badHeader := false,
    params := params ++ zeroBytes (48 - params.length) }

/-- The started machine with that entry framed on ring 0, and its engine changed otherwise as `f` says. -/
def framed (x : Entry) (f : Engine → Engine := id) : State :=
  withE fun e => f { e with rings := { e.rings with rings := [(0, { Ring.fresh with burst := 8, ready := [x] })] } }


/-! ### Ill-formed commands: a unit beyond the configured count (R3) -/

theorem smoke_tile : (Instr.tileWrite 4 0 0).wf kit = false ∧ exec (.tileWrite 4 0 0) base = .fault .noSuchUnit := ⟨by decide +kernel, rfl⟩
theorem smoke_port : (Instr.lnkUpRise 2).wf kit = false ∧ exec (.lnkUpRise 2) base = .fault .noSuchUnit := ⟨by decide +kernel, rfl⟩
theorem smoke_link (f : Frame) : (Instr.data (.link 2 f)).wf kit = false ∧ exec (.data (.link 2 f)) base = .fault .noSuchUnit := ⟨rfl, rfl⟩
theorem smoke_channel : (Instr.memWriteResponse 1 5 0).wf kit = false ∧ exec (.memWriteResponse 1 5 0) base = .fault .noSuchUnit :=
  ⟨by decide +kernel, rfl⟩
theorem smoke_client : (Instr.grdCheck 1 0 0).wf kit = false ∧ exec (.grdCheck 1 0 0) base = .fault .noSuchUnit := ⟨by decide +kernel, rfl⟩
theorem smoke_bank : (Instr.bankRetire 272).wf kit = false ∧ exec (.bankRetire 272) base = .fault .noSuchUnit := ⟨by decide +kernel, rfl⟩
theorem smoke_gaps : (Instr.beatLock (List.replicate 15 2500)).wf kit = false ∧
    exec (.beatLock (List.replicate 15 2500)) base = .fault .noSuchUnit := ⟨by decide +kernel, rfl⟩

/-! ### Values worked out by hand from the rules -/

/-- The table gives no row bits. -/
theorem test_no_row_has_bits (nbits w : Nat) : decodeTableWord nbits w = none := rfl

/-- First in, first out: the first of two writes to BEAT_CTRL is overtaken by the second. -/
theorem test_queue_is_first_in_first_out :
    (match step { base with pending := [.registerWrite 0x2000 1, .registerWrite 0x2000 2] } with
      | .next t => (match step t with
        | .next u => u.regs.shadowWord 0x2000 == 2 && u.pending.isEmpty && t.regs.shadowWord 0x2000 == 1
        | _ => false)
      | _ => false) = true := by decide +kernel

/-- R37: beats of 2,000 ns. -/
theorem test_beat_number_of_time : beatOf 0x3E7FF = 127 ∧ beatOf 2000 = 1 ∧ beatOf 1999 = 0 := by decide +kernel

/-- R35: at 2,500 cc the window is 2,436 to 2,563. -/
theorem test_beat_window : inWindow 2500 2436 = true ∧ inWindow 2500 2563 = true ∧ inWindow 2500 2435 = false ∧ inWindow 2500 2564 = false := by
  decide +kernel

/-- R426: the alias of bit 31 of the last word below 0x4000 is the last word of the window. -/
theorem test_alias : aliasOf 0xFFFFC = (0x3FFC, 31) ∧ aliasOf 0x80000 = (0, 0) := by decide +kernel

/-- The check value of CRC-32C over the nine digits, which the polynomial and the inversions of R428 give. -/
theorem test_crc32c : crc32c [0x31, 0x32, 0x33, 0x34, 0x35, 0x36, 0x37, 0x38, 0x39] = 0xE3069283 := by decide +kernel

/-- SHA3-384 of the three letters, the example of FIPS 202. -/
theorem test_sha3_384 : sha3_384 [0x61, 0x62, 0x63] =
    0x256d3728f2edf139f5c77a92ea8cd898b2e49be4f07cda96258cc00fcb73b4f98dadc6e2589f4526c96f5188824901ec := by decide +kernel

/-- AES-256 of the example C.3 of FIPS 197. -/
theorem test_aes256 : aesEncrypt (roundKeys 0x1f1e1d1c1b1a191817161514131211100f0e0d0c0b0a09080706050403020100) 0xffeeddccbbaa99887766554433221100 = 0x8960494b9049fceabf456751cab7a28e := by
  decide +kernel

/-- The signature of "sample" with SHA-384 in RFC 6979, A.2.6, verifies, and no other does. -/
theorem test_ecdsa_p384 :
    let key : BitVec 768 :=
      0x8015d9b72d7d57244ea8ef9ac0c621896708a59367f9dfb9f54ca84b3f1c9db1288b231c3ae0d4fe7344fd2533264720ec3a4e415b4e19a4568618029f427fa5da9a8bc4ae92e02e06aae5286b300c64def8f0ea9055866064a254515480bc13
    let digest : BitVec 384 :=
      0xfe25eeb1772ce4fe0e895b9b4aca3b3112535840f329a0961138bd4b3f60bff37bef962631bec4ae7622c95b5083909a
    let r : BitVec 384 :=
      0x94edbb92a5ecb8aad4736e56c691916b3f88140666ce9fa73d64c4ea95ad133c81a648152e44acf96e36dd1e80fabe46
    let s : BitVec 384 :=
      0x99ef4aeb15f178cea1fe40db2603138f130e740a19624526203b6351d0a3a94fa329c145786e679e7b82c71a38628ac8
    ecdsaVerify key digest r s = true ∧ ecdsaVerify key (digest + 1) r s = false := by decide +kernel

/-- R43: a quarter share of a beat of 2,500 cc is 625 lines; R340: at throttle level 1 three quarters of it. -/
theorem test_share : shareLines 2500 256 = 625 ∧ throttled 1 625 = 468 := by decide +kernel

/-- R372: BEAT_CTRL holds 2,500 after reset, PLN_SELF 0xFFFF. -/
theorem test_reset_values : State.reset.regs.word 0x2000 = 2500 ∧ State.reset.regs.word 0xC000 = 0xFFFF ∧ State.reset.eng.mode = .startUp := by
  decide +kernel

/-- R255: RING_CFG 0x81080000 is an active ring of sixteen lines both ways, unchained, of tenant 0. -/
theorem test_ring_fields :
    regs.ringActive 0 = true ∧ regs.ringChained 0 = false ∧ regs.sqSize 0 = 16 ∧ regs.cqSize 0 = 16 ∧ regs.ringTenant 0 = 0 := by decide +kernel

/-! ### Statements on steps, the queue and the register file -/

theorem base_regs_wf : base.regs.wf base.kit := Regs.wf_of_listed (by decide +kernel) (by decide +kernel) (by decide +kernel)

/-- The base machine with one command waiting. -/
def waits (c : Instr) : State := { base with pending := [c] }

theorem witness_StepKeepsTheKitAndTakesOneCommand : (∃ t, step (waits (.foxAck 0)) = .next t) ∧ base.pending = [] := ⟨⟨_, rfl⟩, rfl⟩

theorem witness_WellFormedCommandsRun :
    (Instr.budArm 3 true).wf base.kit = true ∧ (Instr.budArm 4 true).wf base.kit = false := by decide +kernel

theorem witness_OnlyRegisterCommandsChangeRegisters :
    setsRegs (.foxAck 0) = false ∧ ∃ t, exec (.foxAck 0) base = .next t := ⟨rfl, ⟨_, rfl⟩⟩

theorem witness_StepKeepsTheRegisterFileForm :
    (waits (.commit 0x80000000 false)).regs.wf (waits (.commit 0x80000000 false)).kit ∧
      ∃ t, step (waits (.commit 0x80000000 false)) = .next t := ⟨base_regs_wf, ⟨_, rfl⟩⟩

theorem witness_RegisterWritesEnterTheShadow_words :
    base.eng.cfgOpen = true ∧ (0x2000#20).toNat % 4 = 0 ∧ (0x2000#20).toNat < 0x80000 ∧
      rwWord base.kit (0x2000#20).toNat = some ⟨0xFFF, 0xFFFFF000⟩ := by decide +kernel

/-- The alias of bit 11, the highest RW bit of BEAT_CTRL, with the values 1 and 2. -/
theorem witness_RegisterWritesEnterTheShadow_alias :
    base.eng.cfgOpen = true ∧ 0x2000 % 4 = 0 ∧ 0x2000 < 0x4000 ∧ 11 < 32 ∧ rwWord base.kit 0x2000 = some ⟨0xFFF, 0xFFFFF000⟩ ∧
      bitOf 11 0xFFF = true ∧ (1#32).toNat < 2 ∧ 2 ≤ (2#32).toNat := by decide +kernel

/-- The base machine with one shadow word written. -/
def shadowed (off : Nat) (v : Word) : State :=
  { base with regs := { regs with shadow := tabPut resetWord off v regs.shadow } }

theorem shadowed_regs_wf (off : Nat) (v : Word) : (shadowed off v).regs.wf (shadowed off v).kit :=
  ⟨base_regs_wf.1, tabWf_put base_regs_wf.2.1, base_regs_wf.2.2⟩

theorem witness_CommitAppliesEveryShadow :
    CommitCause (shadowed 0x8004 2) (.commit 0x80000000 false) 1 ∧ (shadowed 0x8004 2).regs.wf (shadowed 0x8004 2).kit ∧
      ((shadowed 0x8004 2).eng.judgeCommit (shadowed 0x8004 2).kit (shadowed 0x8004 2).regs).1 = 0 :=
  ⟨.write _ (by decide +kernel), shadowed_regs_wf .., by decide +kernel⟩

theorem witness_CommitWithAReservedBitIsRefused :
    CommitCause (shadowed 0x2000 0x1000) (.sysCommitIn false) 2 ∧ (shadowed 0x2000 0x1000).regs.wf (shadowed 0x2000 0x1000).kit ∧
      ∃ i, rwWord (shadowed 0x2000 0x1000).kit 0x2000 = some i ∧ (shadowed 0x2000 0x1000).regs.shadowWord 0x2000 &&& i.rsv ≠ 0 :=
  ⟨.strobe _, shadowed_regs_wf .., ⟨_, rfl, by decide +kernel⟩⟩

theorem witness_RefusalKeepsAndDiscardRestoresShadows_nothing :
    CommitCause base (.commit 0x80000000 true) 3 ∧ ∀ off, ¬ Changed base off :=
  ⟨.both _ (by decide +kernel), fun off h => by
    obtain ⟨i, _, h⟩ := h
    exact h (by show (base.regs.word off ^^^ base.regs.word off) &&& _ = 0; simp)⟩

theorem witness_CommitCause :
    CommitCause base (.commit 0xC0000000 false) 1 ∧
      CommitCause { base with regs := { regs with strobeHeld := true } } .heldStrobeCommit 2 :=
  ⟨.writeOut _ (by decide +kernel), .held _ rfl⟩

theorem witness_RefusalKeepsAndDiscardRestoresShadows :
    (CommitCause (shadowed 0x2000 0x1000) (.commit 0x80000000 false) 1 ∧
      ((shadowed 0x2000 0x1000).eng.judgeCommit (shadowed 0x2000 0x1000).kit (shadowed 0x2000 0x1000).regs).1 ≠ 0) ∧
      (shadowed 0x8004 2).eng.cfgOpen = true :=
  ⟨⟨.write _ (by decide +kernel), by decide +kernel⟩, by decide +kernel⟩

/-- The live word that a mismatch of the CRC is measured against, and the check enabled. -/
def crcChecked : State := { base with regs := { regs with live := (0x1008, 1) :: (0x100C, 0) :: live } }

theorem witness_StrobeIsHeldAndCrcPassEnds : base.eng.power.state ≠ 2 ∧ crcChecked.regs.crcCheck = true := by decide +kernel

/-! ### Resets and power states -/

/-- No write is under way; a vault line, and a COMMIT_STATE write, are. -/
theorem witness_ColdResetKeepsWhatIsStored :
    (base.eng.bulb.remap = none ∧ base.eng.bulb.writes = []) ∧
    (let w : BodyWrite := { use := .vault 7 0, line := Line.ofData 5 0 1 false, attempts := 0 }
     let s := withE fun e => { e with bulb := { e.bulb with writes := [w] } }
     s.eng.bulb.remap = none ∧ s.eng.bulb.writes = w :: [] ∧ s.eng.writeKey w.use = some 7 ∧ w.line ≠ Line.empty) := by decide +kernel

theorem witness_FunctionalResetKeepsWhatTheTableKeeps :
    (1 < 2 ∧ 2 ≤ 2) ∧ (base.eng.tenant 1).state = .free ∧ (base.eng.tenant 0).state = .attested ∧ (base.eng.bud 0).state = .absent := by
  decide +kernel

/-- The base machine with its power block changed. -/
def power (f : Power → Power) : State := withE fun e => { e with power := f e.power }

/-- The machine before SYS_READY rises: all six parts are ready. -/
def beforeReady : State := withE fun e =>
  { e with power := { e.power with sysReady := false }, beat := { e.beat with firstLock := true } }

theorem witness_PowerStatesFollowPwrReq_ready : beforeReady.eng.power.sysReady = false ∧ beforeReady.eng.readyBits = 63 := by
  decide +kernel

theorem witness_PowerStatesFollowPwrReq_request :
    base.eng.power.sysReady = true ∧ base.eng.power.state = 0 ∧ base.eng.power.entering = false := by decide +kernel

theorem witness_PowerStatesFollowPwrReq_entry : let s := power fun p => { p with req := 2 }
    s.eng.power.sysReady = true ∧ (s.eng.power.req = 1 ∨ (s.eng.power.req = 2 ∧ s.eng.pollen.sess = [])) ∧ s.eng.power.state = 0 ∧
      s.eng.power.exiting = false ∧ s.eng.power.entering = false ∧ s.eng.idle s.regs = true := by decide +kernel

theorem witness_PowerStatesFollowPwrReq_entered : let s := power fun p => { p with req := 2, entering := true }
    s.eng.power.entering = true ∧ s.eng.power.req = 2 := by decide +kernel

theorem witness_PowerStatesFollowPwrReq_exit : (power fun p => { p with state := 1, exiting := true }).eng.power.exiting = true := by
  decide +kernel

theorem witness_PowerStatesFollowPwrReq_reversal : let s := power fun p => { p with req := 1, entering := true }
    s.eng.power.sysReady = true ∧ (if (3 : BitVec 2) = 3 then 0 else (3 : BitVec 2)) ≠ s.eng.power.req ∧ s.eng.power.entering = true := by
  decide +kernel

theorem witness_PowerStatesFollowPwrReq_wake : let s := power fun p => { p with req := 2, state := 2 }
    s.eng.power.sysReady = true ∧ (if (0 : BitVec 2) = 3 then 0 else (0 : BitVec 2)) ≠ s.eng.power.req ∧ s.eng.power.entering = false ∧
      s.eng.power.state ≠ 0 ∧ s.eng.power.exiting = false := by decide +kernel

/-! ### Faults and the referee -/

theorem witness_FaultEventsRaiseTheirSources : base.eng.referee.steward ≠ some .south := by decide +kernel

/-- The base machine with Foxglove changed. -/
def fox (f : Fox → Fox) : State := withE fun e => { e with fox := f e.fox }

theorem witness_AcknowledgementAndRecovery :
    (base.eng.cfgOpen = true ∧ (fox fun x => { x with fatalDue := true }).eng.fox.fatalDue = true ∧
      ∀ n, (fox fun x => { x with fatalDue := true }).eng.referee.fw ≠ .soak n) ∧
    (let s := withE fun e => { e with fox := { e.fox with fatalDue := true }, referee := { e.referee with fw := .soak 7 } }
     s.eng.fox.fatalDue = true ∧ s.eng.referee.fw = .soak 7) := ⟨⟨by decide +kernel, by decide +kernel, nofun⟩, by decide +kernel⟩

/-- Another source of the class of CTRL_MEM_CE is PENDING. -/
def classRaised : State := fox fun x => { x with srcs := [(0x07, { pending := true, sev := 3 })] }

/-- The severity of CTRL_MEM_CE is URGENT, and it may become FATAL. -/
def urgentCe : State := { classRaised with regs := { regs with live := live ++ [(0x50418, 0x13)] } }

theorem witness_RaisesOfAPendingClassEscalate :
    classPending base.regs 0x06 base.eng.fox = false ∧
      (classPending classRaised.regs 0x06 classRaised.eng.fox = true ∧ 1 ≤ classRaised.regs.foxSev 0x06 ∧ classRaised.regs.foxSev 0x06 ≤ 2) ∧
      (classPending urgentCe.regs 0x06 urgentCe.eng.fox = true ∧ urgentCe.regs.foxSev 0x06 = 3 ∧ urgentCe.regs.fatalOk 0x06 = true) := by
  decide +kernel

/-- The base machine with the referee changed. -/
def ref (f : Referee → Referee) : State := withE fun e => { e with referee := f e.referee }

theorem witness_LostHalvesAreReplaced_heartbeat :
    base.eng.power.state ≠ 2 ∧ base.eng.referee.steward = some .north ∧ base.eng.referee.steward ≠ some .south := by decide +kernel

/-- NORTH has missed the four heartbeats of HB_LIMIT. -/
def missed (ready : Bool) : State := ref fun x => { x with missNorth := 4, standbyReady := ready }

theorem witness_LostHalvesAreReplaced_steward (ready : Bool) :
    (missed ready).eng.referee.steward = some .north ∧ (missed ready).regs.hbLimit ≤ (missed ready).eng.referee.miss .north ∧
      (missed ready).eng.power.state ≠ 2 ∧ (∀ n, (missed ready).eng.referee.fw ≠ .soak n) ∧ (missed ready).eng.referee.standbyReady = ready := by
  cases ready <;> exact ⟨by decide +kernel, by decide +kernel, by decide +kernel, nofun, rfl⟩

/-- The standby has a copy of the scheduler state, and has none. -/
theorem witness_LostHalvesAreReplaced_mirror : let m : Mirror := { turn := 3, weight := 1, streamTurn := 0, creditTurn := [], arbs := [] }
    (ref fun x => { x with mirror := some m }).eng.referee.mirror = some m ∧ (missed true).eng.referee.mirror = none := by decide +kernel

theorem witness_LostHalvesAreReplaced_standby : let s := ref fun x => { x with missSouth := 4, standbyReady := true }
    s.eng.referee.steward = some .north ∧ s.eng.referee.standbyReady = true ∧ s.regs.hbLimit ≤ s.eng.referee.miss (halfOther .north) ∧
      s.eng.power.state ≠ 2 := by decide +kernel

theorem witness_HandoverAndResynchronisation : let s := ref fun x => { x with standbyReady := true, handover := true, edgeDue := true }
    s.eng.power.state ≠ 2 ∧ s.eng.cfgOpen = true ∧ (∀ n, s.eng.referee.fw ≠ .soak n) ∧ s.eng.referee.steward = some .north ∧
      s.eng.referee.handover = true ∧ s.eng.referee.standbyReady = true ∧ s.eng.referee.edgeDue = true ∧ s.eng.referee.fw = .none :=
  ⟨by decide +kernel, by decide +kernel, nofun, by decide +kernel⟩

theorem witness_HandoverAndResynchronisation_resync : let s := ref fun x => { x with resync := some 250000 }
    s.eng.referee.steward = some .north ∧ s.eng.referee.standbyReady = false ∧ s.eng.referee.resync.isSome = true ∧
      s.eng.referee.fw = .none ∧ s.eng.referee.resync = some 250000 ∧ 250000 ≤ 250000 := by decide +kernel

theorem witness_FirmwareUpdateRunsAndEnds_standby : let s := ref fun x => { x with fw := .restarting 250000 }
    s.eng.referee.steward = some .north ∧ s.eng.referee.fw = .restarting 250000 ∧ s.eng.referee.standbyReady = false ∧ 250000 ≤ 250000 := by
  decide +kernel

theorem witness_FirmwareUpdateRunsAndEnds_edge :
    let s := ref fun x => { x with fw := .restarting 3, handover := true, standbyReady := true, edgeDue := true }
    s.eng.referee.steward = some .north ∧ s.eng.referee.fw = .restarting 3 ∧ s.eng.referee.handover = true ∧
      s.eng.referee.standbyReady = true ∧ s.eng.referee.edgeDue = true := by decide +kernel

theorem witness_FirmwareUpdateRunsAndEnds_soak : (ref fun x => { x with fw := .soak 0, fwSvn := 4 }).eng.referee.fw = .soak 0 := by
  decide +kernel


/-! ### The beat -/

def edgeIn (cc : Nat) : EdgeInput :=
  { cc := cc, sysTime := 0x123456789, temp := 25, vdd := 900, vaonLow := false, vaonHigh := false, upsets := {}, mirrorOk := true }

/-- The base machine with the beat changed. -/
def beat (f : Beat → Beat) : State := withE fun e => { e with beat := f e.beat }

def locked : State := beat fun b => { b with mode := .locked }

/-- The last place of the window of R35, and a machine in P2. -/
theorem witness_BeatNumberRisesAtEveryEdge :
    (locked.eng.edgeAt 2563 = true ∧ locked.eng.power.state ≠ 2) ∧ (power fun p => { p with state := 2 }).eng.power.state = 2 := by
  decide +kernel

theorem witness_BeatNumberRisesAtEveryEdge_clamped :
    locked.eng.clampAt true 2436 = true ∧ locked.eng.clampAt false 2563 = true ∧ locked.eng.beat.firstEdgeDue = false := by decide +kernel

theorem witness_BeatModesAndThrottleFall_lock :
    (List.replicate 16 2436).length = 16 ∧ base.eng.beat.mode ≠ .locked ∧ base.eng.power.state ≠ 2 ∧
      ∀ g ∈ List.replicate 16 2436, base.eng.beat.cc - 64 ≤ g ∧ g ≤ base.eng.beat.cc + 63 := by decide +kernel

theorem witness_BeatModesAndThrottleFall_freeRun : let s := beat fun b => { b with mode := .locked, clampRun := 64 }
    s.eng.beat.mode = .locked ∧ 64 ≤ s.eng.beat.clampRun.toNat := by decide +kernel

theorem witness_BeatModesAndThrottleFall_throttle : let s := power fun p => { p with cooler := 500, level := 1 }
    500 ≤ s.eng.power.cooler ∧ 0 < s.eng.power.level := by decide +kernel

/-! ### Buds and the stem -/

/-- A broadcast that names tenant 0. -/
def bc (code : BitVec 4) : Broadcast := { code := code, arg := 0 }

/-- Four present buds, two of tenant 0 and two of tenant 1, and this broadcast on its way to them; the bud of tile 1 is changed as `f`
says. -/
def budded (code : BitVec 4) (f : Bud → Bud) : State := withE fun e =>
  let b : Bud := { Bud.none with state := .idle }
  { e with buds := [(0, b), (1, f b), (2, { b with tenant := 1 }), (3, { b with tenant := 1 })]
           stem := { e.stem with issued := [bc code] } }

theorem hears_budded (code : BitVec 4) (f : Bud → Bud) (hs : (f { Bud.none with state := .idle }).state ≠ .absent)
    (hn : (f { Bud.none with state := .idle }).seen = 0) : Hears (budded code f) 1 code 0 := by
  refine ⟨by rfl, hs, ?_⟩
  have hb : (budded code f).eng.bud 1 = f { Bud.none with state := .idle } := rfl
  rw [hb, hn]
  rfl

theorem witness_BroadcastsMoveTheirTenantsBuds_arm :
    ((budded bcArm id).eng.bud 1).tenant = (0 : BitVec 64).setWidth 4 ∧ Hears (budded bcArm id) 1 bcArm 0 ∧
      ((budded bcArm id).eng.bud 1).state = .idle := ⟨by rfl, hears_budded _ _ nofun rfl, by rfl⟩

theorem witness_BroadcastsMoveTheirTenantsBuds_disarm :
    ((budded bcDisarm id).eng.bud 1).tenant = (0 : BitVec 64).setWidth 4 ∧ Hears (budded bcDisarm id) 1 bcDisarm 0 :=
  ⟨by rfl, hears_budded _ _ nofun rfl⟩

theorem witness_BroadcastsMoveTheirTenantsBuds_release : let s := budded bcRelease fun b => { b with state := .drained }
    (s.eng.bud 1).tenant = (0 : BitVec 64).setWidth 4 ∧ Hears s 1 bcRelease 0 ∧ (s.eng.bud 1).state = .drained :=
  ⟨by rfl, hears_budded _ _ nofun rfl, by rfl⟩

theorem witness_BroadcastsMoveTheirTenantsBuds_scrub :
    ((budded bcScrub id).eng.bud 1).tenant = (0 : BitVec 64).setWidth 4 ∧ Hears (budded bcScrub id) 1 bcScrub 0 :=
  ⟨by rfl, hears_budded _ _ nofun rfl⟩

theorem witness_BroadcastsMoveTheirTenantsBuds_parity :
    HearsBy (.budArm 1 false) 1 bcArm false ∧ Hears (budded bcArm id) 1 bcArm 0 ∧ (budded bcArm id).eng.cut.phase ≠ .pause :=
  ⟨.arm .., hears_budded _ _ nofun rfl, nofun⟩

theorem witness_BudsFreezeResumeAndLatch_freeze : let s := budded bcFreeze fun b => { b with state := .armed }
    Hears s 1 bcFreeze 0 ∧ (s.eng.bud 1).state = .armed ∧ (s.eng.bud 1).tenant = (0 : BitVec 64).setWidth 4 :=
  ⟨hears_budded _ _ nofun rfl, by rfl, by rfl⟩

/-- A cut of tenant 0 to host memory in this phase; it covers these tiles. -/
def running (tiles : List Nat) : Running :=
  { params := { step := 10, ranges := 0, recipeSet := 0, replicas := 1, dest := 1, hostBase := 0x300000, hostPages := 0x40, glxPages := 0,
                g0 := 0, g1 := 0 }
    tenant := 0, job := some { ring := 0, cmdId := 9, index := 0, irq := false }, plan := false, anyStep := false, xtsEpoch := 0, epoch := 1,
    prevEpoch := 0, slot := false, freezeTime := 0, freezeBeat := 0, tiles := tiles, sources := [], rooms := [], image := [], held := [],
    shards := [], dests := [], manifest := [], record := [], waitBody := false, resumeAt := 0 }

/-- That state with a cut in this phase. -/
def cutting (phase : CutPhase) (run : Running) (s : State) : State :=
  { s with eng := { s.eng with cut := { s.eng.cut with phase := phase, run := some run } } }

theorem witness_BudsFreezeResumeAndLatch_resume : let s := cutting .pause (running [1]) (budded bcResume fun b => { b with state := .frozen })
    Hears s 1 bcResume 0 ∧ (s.eng.bud 1).tenant = (0 : BitVec 64).setWidth 4 ∧ s.eng.cut.run = some (running [1]) ∧
      s.eng.cut.phase = .pause ∧ (running [1]).tiles = [1] ∧ (running [1]).resumeAt ≤ (s.eng.bud 1).seen + 1 :=
  ⟨⟨by rfl, nofun, by rfl⟩, by rfl, by rfl, by rfl, by rfl, by decide +kernel⟩

theorem witness_BudsFreezeResumeAndLatch_beat : Hears (budded bcBeat id) 1 bcBeat 0 := hears_budded _ _ nofun rfl

/-- A resumed bud with `n` lines in its copy-before-write buffer, with that line drained. -/
def frozen (n : Nat) (drained : BitVec 1024) : State := budded bcBeat fun b =>
  { b with state := .frozen, resumed := true, drained := drained, buffer := List.replicate n { kind := .cbw, line := 7, data := 3 } }

/-- Line 1023, the last of the tile, with three, with four lines in the buffer, and drained; and a write that comes before RESUME. -/
theorem witness_TileWritesCopyBeforeWrite :
    (let s := frozen 3 0
     s.kit.hasTile 1 = true ∧ (s.eng.bud 1).state = .frozen ∧ (s.eng.bud 1).resumed = true ∧ (1023#10).toNat < s.kit.linesOf 1 ∧
      (s.eng.bud 1).drained.getLsbD (1023#10).toNat = false ∧ (s.eng.bud 1).buffer.length < 4) ∧
    (let s := frozen 4 0
     (s.eng.bud 1).state = .frozen ∧ (s.eng.bud 1).resumed = true ∧ (1023#10).toNat < s.kit.linesOf 1 ∧
      (s.eng.bud 1).drained.getLsbD (1023#10).toNat = false ∧ 4 ≤ (s.eng.bud 1).buffer.length) ∧
    (let s := frozen 0 (1 <<< 1023)
     (s.eng.bud 1).state = .frozen ∧ (s.eng.bud 1).resumed = true ∧ (s.eng.bud 1).drained.getLsbD (1023#10).toNat = true) ∧
    (let s := budded bcBeat fun b => { b with state := .frozen }
     (s.eng.bud 1).state = .frozen ∧ (s.eng.bud 1).resumed = false ∧ (s.eng.bud 1).earlyHeld = false ∧ (1023#10).toNat < s.kit.linesOf 1 ∧
      (s.eng.bud 1).drained.getLsbD (1023#10).toNat = false ∧ (s.eng.bud 1).buffer.length < 4) := by
  decide +kernel

theorem witness_DrainReadsTakeLinesInOrder_context :
    let s := budded bcBeat fun b => { b with state := .frozen, latch := [{ kind := .context, line := 0, data := 5 }] }
    s.kit.hasTile 1 = true ∧ (s.eng.bud 1).state = .frozen ∧ (s.eng.bud 1).up.length < 2 ∧
      (s.eng.bud 1).latch = { kind := .context, line := 0, data := 5 } :: [] := by decide +kernel

theorem witness_DrainReadsTakeLinesInOrder_lines :
    let s := budded bcBeat fun b => { b with state := .frozen, drained := 3, up := [{ kind := .drain, line := 1, data := 5 }] }
    s.kit.hasTile 1 = true ∧ (s.eng.bud 1).state = .frozen ∧ (s.eng.bud 1).up.length < 2 ∧ (s.eng.bud 1).latch = [] ∧ 2 < 1024 ∧
      2 < s.kit.linesOf 1 ∧ (s.eng.bud 1).drained.getLsbD 2 = false ∧
      ∀ m, m < 2 → m < s.kit.linesOf 1 → (s.eng.bud 1).drained.getLsbD m = true := by decide +kernel

theorem witness_TileConfigurationsMakeAndUnmakeBuds_load :
    base.kit.hasTile 3 = true ∧ (base.eng.bud 3).state = .absent ∧ 0 ≤ base.eng.stem.issued.length ∧ base.eng.cut.run = none := by
  decide +kernel

theorem witness_TileConfigurationsMakeAndUnmakeBuds_reload : let s := cutting .armed (running []) (budded bcBeat id)
    s.kit.hasTile 1 = true ∧ (s.eng.bud 1).state ≠ .absent ∧ s.eng.cut.run.isSome = true ∧ s.eng.cut.phase = .armed := by decide +kernel

theorem witness_TileConfigurationsMakeAndUnmakeBuds_frozen :
    let s := cutting .drain (running [1]) (budded bcBeat fun b => { b with state := .frozen })
    s.eng.cut.run = some (running [1]) ∧ s.eng.cut.phase ≠ .armed ∧ (s.eng.bud 1).state = .frozen ∧ (running [1]).tiles.contains 1 = true := by
  decide +kernel

/-- One copy-before-write line and one drained line wait at the bud of tile 1. -/
def upward : State := budded bcBeat fun b =>
  { b with state := .frozen, buffer := [{ kind := .cbw, line := 7, data := 3 }], up := [{ kind := .drain, line := 1, data := 5 }] }

theorem witness_StemRootsTakeLinesAndAcknowledgements_lines :
    upward.kit.hasTile 1 = true ∧ (upward.eng.bud 1).nextUp = some { kind := .cbw, line := 7, data := 3 } ∧
      upward.eng.upRoom upward.kit upward.regs 1 { kind := .cbw, line := 7, data := 3 } = true ∧ upward.eng.cut.run = none ∧
      (upward.eng.bud 1).buffer ≠ [] := by decide +kernel

/-- Acknowledgements of FREEZE, SCRUB and BEAT, and one that may be poisoned. -/
theorem witness_StemRootsTakeLinesAndAcknowledgements_acks (code : BitVec 4) (bad : Bool) :
    let a : BudAck := { code := code, poisoned := bad, beat := 0, counts := ⟨1, 2, 3⟩ }
    let s := budded bcBeat fun b => { b with acks := [a] }
    s.kit.hasTile 1 = true ∧ (s.eng.bud 1).acks = a :: [] ∧ a.poisoned = bad ∧ foxImplemented s.kit (0x80 + s.kit.regionOf 1) = true :=
  ⟨show kit.hasTile 1 = true by decide +kernel, by rfl, rfl, show foxImplemented kit (0x80 + kit.regionOf 1) = true by decide +kernel⟩

theorem witness_StemRootsTakeLinesAndAcknowledgements_cut : let s := cutting .drain (running [1]) upward
    s.kit.hasTile 1 = true ∧ (s.eng.bud 1).nextUp = some { kind := .cbw, line := 7, data := 3 } ∧
      s.eng.upRoom s.kit s.regs 1 { kind := .cbw, line := 7, data := 3 } = true ∧ s.eng.cut.run = some (running [1]) ∧
      (running [1]).tiles.contains 1 = true ∧ s.eng.cut.phase ≠ .armed := by decide +kernel

/-! ### The cut and the guard -/

/-- A CUT of tenant 0 to host memory for pulse 10: REPLICAS 1, DEST 1, 64 pages at 0x300000. -/
def cutEntry : Entry :=
  { entry 1 [] with lines := 2, params := natLE 8 10 ++ zeroBytes 8 ++ [0, 0, 5] ++ zeroBytes 5 ++ natLE 8 0x300000 ++ natLE 4 0x40 ++ zeroBytes 76 }

/-- Four idle buds and an empty binding set for tenant 0; no bud is of tenant 0, so that a cut of it takes no tile. -/
def cuttable (e : Engine) : Engine :=
  let b : Bud := { Bud.none with state := .idle, tenant := 1 }
  { e with buds := [(0, b), (1, b), (2, b), (3, b)], recipes := { e.recipes with sets := [(0, { tenant := 0, entries := [] })] } }

def cutAsked : State := framed cutEntry cuttable

theorem witness_CutJobArms :
    Starts cutAsked 0 1 cutEntry ∧ Attested cutAsked 0 ∧
      NoneHolds ((taken cutAsked 0).cutConds cutAsked.kit cutAsked.regs (cutAsked.regs.ringTenant 0) (cutParamsOf cutEntry.params)) ∧
      cutParamsRsv cutEntry.params = false ∧ (taken cutAsked 0).stepPast (cutParamsOf cutEntry.params) = false ∧
      (taken cutAsked 0).mode ≠ .recovery ∧ cutAsked.eng.cut.run = none :=
  ⟨⟨⟨_, rfl⟩, by decide +kernel, by rfl, by rfl⟩, ⟨by decide +kernel, by decide +kernel⟩, by unfold NoneHolds; decide +kernel,
    by decide +kernel, by decide +kernel, by decide +kernel, by decide +kernel⟩

def armed : State := cutting .armed (running []) (withE cuttable)

theorem witness_PulseOfAnArmedCutFreezes :
    armed.eng.power.sysReady = true ∧ armed.eng.power.state ≠ 2 ∧ armed.eng.cut.phase = .armed ∧ armed.eng.cut.run = some (running []) ∧
      armed.eng.absent armed.kit = 0 ∧ ((running []).anyStep = true ∨ 10 = (running []).params.step) := by decide +kernel

theorem witness_OtherPulsesAndTimeoutsEndCuts_pulses :
    beforeReady.eng.power.sysReady = false ∧ (base.eng.power.sysReady = true ∧ base.eng.cut.phase ≠ .pause) ∧
      (power fun p => { p with state := 2 }).eng.power.state = 2 ∧ base.eng.cut.run = none ∧
      (cutting .drain (running []) base).eng.cut.phase ≠ .armed := by decide +kernel

/-- Pulse 9 is below S, pulse 11 is past it; a machine with no bud has four ABSENT ones. -/
theorem witness_OtherPulsesAndTimeoutsEndCuts_armed :
    armed.eng.power.sysReady = true ∧ armed.eng.cut.phase = .armed ∧ armed.eng.absent armed.kit = 0 ∧ (running []).anyStep = false ∧
      (9#64).toNat < (running []).params.step.toNat ∧ (running []).params.step.toNat < (11#64).toNat ∧
      0 < (cutting .armed (running []) base).eng.absent base.kit := by decide +kernel

theorem witness_OtherPulsesAndTimeoutsEndCuts_freeze : let s := cutting .pause (running [1]) (budded bcFreeze id)
    s.eng.cut.run = some (running [1]) ∧ (s.eng.cut.phase = .pause ∨ s.eng.cut.phase = .drain) ∧ 1 < s.kit.regions ∧
      s.eng.frozenShort s.kit (running [1]) 1 = true := by decide +kernel

/-- The base machine with the cut changed. -/
def cutState (f : Cut → Cut) : State := withE fun e => { e with cut := f e.cut }

theorem witness_OtherPulsesAndTimeoutsEndCuts_plan : let s := cutState fun c => { c with planActive := true, planWaits := true }
    s.eng.cut.planActive = true ∧ s.eng.cut.planLeft = 0 ∧ s.eng.cut.planWaits = true ∧ s.eng.cut.run = none := by decide +kernel

/-- The plan of tenant 0 is enabled, with a deadline of 5 beats. -/
def planned (s : State) : State := { s with regs := { regs with live := (0x4020, 0x80000005) :: live } }

theorem witness_PreemptionNoticeArmsThePlansCut_arms :
    let s := planned (withE fun e => { cuttable e with cut := { e.cut with template := [(0, (running []).params)] } })
    let plan : Cut := { s.eng.cut with planActive := true, planTenant := s.regs.planTenant, planSource := 1, planLeft := s.regs.planDeadline }
    s.eng.power.state = 0 ∧ s.eng.power.entering = false ∧ s.regs.planEnable = true ∧ s.eng.cut.planActive = false ∧
      s.eng.cut.run = none ∧ tabFind s.regs.planTenant.toNat s.eng.cut.template = some (running []).params ∧
      NoneHolds (({ s.eng with cut := plan } : Engine).cutConds s.kit s.regs s.regs.planTenant (running []).params) := by
  unfold NoneHolds; decide +kernel

theorem witness_PreemptionNoticeArmsThePlansCut_others :
    base.regs.planEnable = false ∧ (planned base).regs.planEnable = true ∧ (planned base).eng.cut.run = none ∧
      tabFind (planned base).regs.planTenant.toNat (planned base).eng.cut.template = none ∧
      (planned armed).eng.cut.run = some (running []) ∧ (running []).tenant = (planned armed).regs.planTenant ∧
      (planned (cutting .drain { running [] with tenant := 1 } base)).regs.planTenant ≠ 1 ∧
      (planned (cutting .drain { running [] with tenant := 1 } base)).eng.cut.phase ≠ .armed := by decide +kernel

/-- Two granules of tenant 0 from 64 MiB on, armed; the bit of the second one says drained. -/
def ranged : State := withE fun e =>
  let w : Range := { base := 64, granules := 2, owner := 0, cls := 3, coords := [], armed := true, parity := true, flag := false, flipped := [1] }
  { e with guard := { e.guard with ranges := [(5, w)] } }

/-- The line at the start of 64 MiB, the last line of the next granule, and a line that no range holds. -/
theorem witness_GuardHoldsUndrainedGranules :
    ranged.kit.hasClient 0 = true ∧ ranged.eng.grdReady ranged.kit 0 = true ∧
      (ranged.eng.guard.find (64 * (0x100000#58).toNat) = some (5, 0) ∧ (ranged.eng.range 5).isSome = true ∧
        ((ranged.eng.range 5).map fun g => (g.armed, g.bit 0 == g.parity)) = some (true, false) ∧ ranged.eng.guard.gran 5 0 = none) ∧
      (ranged.eng.guard.find (64 * (0x107FFF#58).toNat) = some (5, 1) ∧ ((ranged.eng.range 5).map fun g => g.bit 1 == g.parity) = some true) ∧
      ranged.eng.guard.find (64 * (0x108000#58).toNat) = none := by decide +kernel

/-- Two holds of the client are outstanding; then a hot granule whose chunk 0 is in the front. -/
theorem witness_GuardHoldsUndrainedGranules_others :
    (let s : State := { ranged with eng := { ranged.eng with guard := { ranged.eng.guard with
        holds := List.replicate 2 { client := 0, htag := 1, range := 5, granule := 0, chunk := 0 } } } }
     s.kit.hasClient 0 = true ∧ s.eng.grdReady s.kit 0 = false) ∧
    (let x : Gran := { range := 5, granule := 0, hot := true, prio1 := true, start := 0, chunks := [0] }
     let s : State := { ranged with eng := { ranged.eng with guard := { ranged.eng.guard with grans := [x] } } }
     s.eng.grdReady s.kit 0 = true ∧ s.eng.guard.gran 5 0 = some x ∧ x.hot = true ∧ 64 * (0x100000#58).toNat / 4096 % 256 ∈ x.chunks) := by
  decide +kernel

/-! ### Spares, self-test, the noise source -/

/-- A SPARE_CTRL value with GO: KIND 2 is an encoder lane. -/
theorem witness_SpareControlReplacesUnits_lane :
    base.eng.cfgOpen = true ∧ (0x8200003F#32).getLsbD 31 = true ∧ bits 27 24 (0x8200003F#32).toNat ≠ 1 ∧
      ∃ u p rest, spareKind (bits 27 24 (0x8200003F#32).toNat) = some u ∧ bits 8 0 (0x8200003F#32).toNat < u.logical ∧
        (base.eng.units.at u (bits 8 0 (0x8200003F#32).toNat)).withdrawn = false ∧ freeSpares u base.eng.units base.eng.body = p :: rest ∧
        u.logical ≤ bits 8 0 (0x820001FF#32).toNat :=
  ⟨by decide +kernel, by decide +kernel, by decide +kernel, ⟨_, _, _, rfl, by decide +kernel, by decide +kernel, rfl, by decide +kernel⟩⟩

/-- Every spare lane is BAD. -/
theorem witness_SpareControlReplacesUnits_noSpare :
    let s := withE fun e => { e with body := { e.body with badEnc := List.range 100 } }
    ∃ u, spareKind (bits 27 24 (0x8200003F#32).toNat) = some u ∧ bits 8 0 (0x8200003F#32).toNat < u.logical ∧
      freeSpares u s.eng.units s.eng.body = [] := ⟨_, rfl, by decide +kernel, by decide +kernel⟩

/-- KIND 9 names nothing; KIND 1 is a bank: 0x1FF is beyond the last one, 0xFF is the last one. -/
theorem witness_SpareControlReplacesUnits_bank :
    (0x1FF#32).getLsbD 31 = false ∧ (bits 27 24 (0x89000000#32).toNat ≠ 1 ∧ spareKind (bits 27 24 (0x89000000#32).toNat) = none) ∧
      (bits 27 24 (0x810001FF#32).toNat = 1 ∧ 256 ≤ bits 8 0 (0x810001FF#32).toNat) ∧
      (bits 27 24 (0x810000FF#32).toNat = 1 ∧ bits 8 0 (0x810000FF#32).toNat < 256 ∧ base.eng.bulb.remap = none ∧
        base.eng.body.logicalOf (base.eng.body.map 255) = some 255 ∧
        base.eng.body.leastWritten (base.eng.body.banksIn .free) = some 256) := by decide +kernel

/-- A running retirement; and no bank FREE, with a rotation running at most. -/
theorem witness_SpareControlReplacesUnits_bankBusy :
    (let s := withE fun e => { e with bulb := { e.bulb with remap := some { logical := 1, source := 1, target := 256, pointer := 0, retire := true } } }
     ∃ m, s.eng.bulb.remap = some m ∧ m.retire = true) ∧
    (let s := withE fun e => { e with body := { e.body with banks := (List.range 16).map fun i => (256 + i, { Bank.made 256 with state := .worn }) } }
     s.eng.body.freeBanks = 0 ∧ ∀ m, s.eng.bulb.remap = some m → m.retire = false) :=
  ⟨⟨_, rfl, rfl⟩, by decide +kernel, nofun⟩

/-- The base machine with tenant 0's slot FREE. -/
def unowned : State := withE fun e => { e with tenants := [] }

theorem witness_SelfTestsAndNoiseTestsRun_starts :
    ((0x80000003#32).toNat % 16, Instr.stemLoop 0x80000003) ∈
        [(1, Instr.frontMarch 0x80000003), (2, .pipelineKat 0x80000003), (3, .stemLoop 0x80000003)] ∧
      unowned.eng.cfgOpen = true ∧ (0x80000003#32).getLsbD 31 = true ∧ unowned.eng.selfTest.running = false ∧ unowned.eng.allFree = true ∧
      unowned.eng.idle unowned.regs = true ∧ base.eng.allFree = false := by decide +kernel

theorem witness_SelfTestsAndNoiseTestsRun_ends :
    (let s := withE fun e => { e with selfTest := { running := true, ctrl := 2, last := 2, code := 0 } }
     s.eng.selfTest.running = true ∧
      (s.eng.selfTest.last.toNat, (0x45 : Code)) ∈ [(1, 0), (1, 0x20), (2, 0), (2, 0x23), (2, 0x45), (3, 0), (3, 0x21)]) ∧
    (power fun p => { p with noiseOk := false }).eng.power.noiseOk = false ∧
    (let s := withE fun e => { e with units := { e.units with noise := .failed } }
     s.eng.power.noiseOk = true ∧ s.eng.units.noise = .failed) := by decide +kernel

/-! ### The body -/

/-- Write-backs that wait: this one first. -/
def writing (u : BodyFor) (attempts : Nat) : State := withE fun e =>
  { e with bulb := { e.bulb with writes := [{ use := u, line := Line.ofData 5 0 1 false, attempts := attempts }] } }

theorem witness_BodyWritesAreVerifiedOrRetried :
    ((writing (.vault 0 3) 2).eng.bulb.writes = { use := .vault 0 3, line := Line.ofData 5 0 1 false, attempts := 2 } :: [] ∧ 2 < 3 ∧
      Line.ofData 5 0 1 false ≠ Line.empty) ∧ ((writing (.vault 0 3) 3).eng.bulb.writes.map fun w => (w.use, w.attempts)) = [(.vault 0 3, 3)] ∧
    ((writing (.copy 3) 0).eng.bulb.writes.map fun w => w.use) = [.copy 3] ∧
    (let s := cutting .commit (running []) (writing (.commitState 0) 0)
     (s.eng.bulb.writes.map fun w => w.use) = [.commitState 0] ∧ s.eng.cut.run = some (running [])) := by decide +kernel

/-- The base machine with physical bank 7 this often written. -/
def worn (n : Dword) : State := withE fun e => { e with body := { e.body with banks := [(7, { Bank.made 7 with writes := n })] } }

theorem witness_BanksAreRetiredAndCalibrated_retire : let s := worn (2 ^ 63)
    7 < 272 ∧ (s.eng.body.bank 7).state = .inUse ∧ s.eng.retireDue s.regs 7 = true ∧ s.eng.body.logicalOf 7 = some 7 ∧
      s.eng.body.leastWritten (s.eng.body.banksIn .free) = some 256 ∧ s.eng.bulb.remap = none := by decide +kernel

theorem witness_BanksAreRetiredAndCalibrated_worn :
    let spares : Tab Bank := (List.range 16).map fun i => (256 + i, { Bank.made 256 with state := .retired })
    let s := withE fun e => { e with body := { e.body with banks := (7, { Bank.made 7 with writes := 2 ^ 63 }) :: spares } }
    (s.eng.body.bank 7).state = .inUse ∧ s.eng.retireDue s.regs 7 = true ∧ s.eng.body.logicalOf 7 = some 7 ∧
      s.eng.body.banksIn .free = [] := by decide +kernel

theorem witness_BanksAreRetiredAndCalibrated_rotate : let s := worn (2 ^ 40 + 1)
    s.eng.bulb.remap = none ∧ s.eng.body.mostWritten (s.eng.body.banksIn .inUse) = some 7 ∧
      s.eng.body.leastWritten (s.eng.body.banksIn .free) = some 256 ∧ s.eng.body.logicalOf 7 = some 7 ∧
      s.regs.rotateGap * 2 ^ 32 < (s.eng.body.bank 7).writes.toNat - (s.eng.body.bank 256).writes.toNat := by decide +kernel

theorem witness_BanksAreRetiredAndCalibrated_switch :
    let m : Remap := { logical := 7, source := 7, target := 256, pointer := 131072, retire := true }
    (withE fun e => { e with bulb := { e.bulb with remap := some m } }).eng.bulb.remap = some m ∧ bankLines ≤ m.pointer ∧
      m.source ≠ m.target := by decide +kernel

/-- Bank 7 is due while a rotation runs, and while bank 3 is being retired. -/
theorem witness_BanksAreRetiredAndCalibrated_others :
    let remapped (old : Remap) : State := { worn (2 ^ 63) with eng := { (worn (2 ^ 63)).eng with bulb := { eng.bulb with remap := some old } } }
    (let old : Remap := { logical := 9, source := 9, target := 260, pointer := 5, retire := false }
     (remapped old).eng.bulb.remap = some old ∧ old.retire = false ∧ ((remapped old).eng.body.bank 7).state = .inUse ∧
      (remapped old).eng.retireDue regs 7 = true) ∧
    (let old : Remap := { logical := 3, source := 3, target := 260, pointer := 5, retire := true }
     (remapped old).eng.bulb.remap = some old ∧ old.retire = true ∧ old.source ≠ 7 ∧ (remapped old).eng.bulb.due.contains 7 = false ∧
      (remapped old).eng.body.leastWritten ((remapped old).eng.body.banksIn .free) = some 256) := by decide +kernel

/-- The first and the last access of the pass to bank 271, in an even beat that has the cycles for it. -/
theorem witness_BanksAreRetiredAndCalibrated_pass :
    let o : CalOutcome := { bank := 271, step := 3, failed := true }
    let calibrating (pos : Nat) : State := withE fun e =>
      { e with bulb := { e.bulb with cal := some { outcomes := [o], pos := pos } }, budget := { e.budget with bulb := 5000 } }
    (let s := calibrating 0
     s.eng.bulb.cal = some { outcomes := [o], pos := 0 } ∧ s.eng.beat.num.getLsbD 0 = false ∧ writeCc s.eng.beat.cc ≤ s.eng.budget.bulb ∧ 0 < 2176) ∧
    (let c : Calibration := { outcomes := [o], pos := 2175 }
     (calibrating 2175).eng.bulb.cal = some c ∧ c.pos < 2176 ∧ c.pos % 8 = 7 ∧ (c.outcomes.find? fun x => x.bank == c.pos / 8) = some o) := by
  decide +kernel

theorem witness_BanksAreRetiredAndCalibrated_window : let s := beat fun b => { b with sinceWindow := 43200000000, sinceCal := 500000 }
    43200000000 ≤ s.eng.beat.sinceWindow ∧ 500000 ≤ s.eng.beat.sinceCal ∧ ({ bank := 271, step := 3, failed := true } : CalOutcome).bank < 272 := by
  decide +kernel

/-! ### Rings -/

/-- The base machine with ring 0 changed. -/
def ring (f : Ring → Ring) : State := withE fun e => { e with rings := { e.rings with rings := [(0, f { Ring.fresh with burst := 8 })] } }

def ahead (s : State) (x : Nat) : Nat := (x + s.regs.sqSize 0 - (s.eng.ring 0).sqHeadNow (s.regs.sqSize 0)) % s.regs.sqSize 0

/-- Tail 1, the last one, one beyond the ring, one behind the tail, and a ring that is not active. -/
theorem witness_DoorbellsMoveTheRingPointers_submission :
    base.eng.cfgOpen = true ∧ base.regs.ringActive 0 = true ∧ base.regs.sqSize 0 = 16 ∧ base.regs.ringActive 1 = false ∧
      base.regs.sqSize 0 ≤ (16#32).toNat ∧ ((15#32).toNat < base.regs.sqSize 0 ∧ ahead base (base.eng.ring 0).tail ≤ ahead base 15) ∧
      (let s := ring fun g => { g with tail := 3 }; ahead s 2 < ahead s (s.eng.ring 0).tail) ∧
      base.eng.power.state = 0 ∧ base.eng.power.entering = false := by decide +kernel

/-- A DRAIN entry in one line, with PHASE 1. -/
def drainLine : LineData := 0x10102

theorem witness_DoorbellsMoveTheRingPointers_framed :
    base.regs.ringActive 0 = true ∧ base.regs.ringChained 0 = false ∧ 2 ≤ base.regs.sqSize 0 ∧ (base.eng.ring 0).tail < base.regs.sqSize 0 ∧
      (1#32).toNat = ((base.eng.ring 0).tail + 1) % base.regs.sqSize 0 ∧ ahead base (base.eng.ring 0).tail ≤ ahead base 1 ∧
      (base.eng.ring 0).fetch = (base.eng.ring 0).tail ∧ (base.eng.ring 0).chain = [] ∧ (base.eng.ring 0).failing = none ∧
      (base.eng.ring 0).phaseWait = none ∧
      base.eng.canFetch base.regs 0 = true ∧ (headerOf drainLine).phase = (base.eng.ring 0).phase ∧ (headerOf drainLine).lines = 1 ∧
      jobShape (headerOf drainLine).opcode = some (0, 1) := by decide +kernel

/-- Two completions stand in the ring, one of them written: head 1 frees it, head 2 is too far, head 16 is beyond the ring. -/
theorem witness_DoorbellsMoveTheRingPointers_completion :
    let s := ring fun g => { g with cq := [{ bytes := [], irq := false, entry := some 0, written := true }, { bytes := [], irq := false, entry := some 1, written := false }] }
    let freed (t : Nat) : Nat := (t + s.regs.cqSize 0 - (s.eng.ring 0).cqHead) % s.regs.cqSize 0
    s.regs.cqSize 0 = 16 ∧ (1 < s.regs.cqSize 0 ∧ freed 1 ≤ ((s.eng.ring 0).cq.filter fun c => c.written).length) ∧
      ((s.eng.ring 0).cq.filter fun c => c.written).length < freed 2 ∧ s.regs.cqSize 0 ≤ 16 := by decide +kernel

/-- A line with PHASE 0 where 1 is expected, after 14 and after 15 re-reads, and one with PHASE 1; the last read was in this beat, or before. -/
theorem witness_RingServiceGoesOn_phase (n : Nat) : let s := ring fun g => { g with phaseWait := some n, tail := 1, phaseBeat := 1 }
    (s.eng.ring 0).phaseWait = some n ∧ (s.eng.ring 0).phaseBeat ≠ s.eng.beat.num ∧
      (ring fun g => { g with phaseWait := some n, tail := 1 }).eng.beat.num = ((ring fun g => { g with phaseWait := some n, tail := 1 }).eng.ring 0).phaseBeat ∧
      s.eng.phaseBad s.regs 0 (.ok 0x10002) = true ∧ s.eng.phaseBad s.regs 0 (.ok drainLine) = false ∧
      14 + 1 < 16 ∧ 16 ≤ 15 + 1 := by
  refine ⟨by rfl, show (1 : Dword) ≠ 0 by decide, by rfl, ?_, ?_, by decide, by decide⟩
  · show ((regs.ringChained 0 || true) && (headerOf 0x10002).phase != true) = true
    decide +kernel
  · show ((regs.ringChained 0 || true) && (headerOf drainLine).phase != true) = false
    decide +kernel

theorem witness_RingServiceGoesOn_completion : let s := ring fun g => { g with cqOut := some (0x101000, zeroBytes 32), cqFailed := true }
    (s.eng.ring 0).cqOut = some (0x101000, zeroBytes 32) ∧ (s.eng.ring 0).cqFailed = true := by decide +kernel

theorem witness_RingServiceGoesOn_waiting : let s := ring fun g => { g with waiting := [.halt 9 0 0x300000 4 3, .plan 0 [1]] }
    s.regs.ringActive 0 = true ∧ s.eng.cqFree s.regs 0 = true ∧
      ((s.eng.ring 0).waiting.find? fun w => w.isHalt) = some (.halt 9 0 0x300000 4 3) ∧
      ((s.eng.ring 0).waiting.find? fun w => !w.isHalt) = some (.plan 0 [1]) := by decide +kernel

theorem witness_RingServiceGoesOn_fence : let x : Entry := { entry 2 [] with fence := true }
    (framed x).eng.fenceMet 0 = true ∧ (framed x).eng.ring 0 = { Ring.fresh with burst := 8, ready := [x] } ∧ x.fence = true ∧
      (let j : Job := { id := { ring := 0, cmdId := 8, index := 0, irq := false }, tenant := some 0, kind := .drain }
       let s := framed x fun e => { e with rings := { e.rings with jobs := [j] } }
       s.eng.fenceMet 0 = false) := by decide +kernel

theorem starts_framed (x : Entry) (f : Engine → Engine) (op : Nat)
    (h : (∃ rest, ((framed x f).eng.ring 0).ready = x :: rest) ∧ (framed x f).eng.mayStart (framed x f).regs 0 = true)
    (ho : x.opcode = op) (hb : x.badHeader = false) : Starts (framed x f) 0 op x := ⟨h.1, h.2, ho, hb⟩

/-- Ring 0 is tenant 0's, whose slot is FREE, and its entry is a DRAIN. -/
theorem witness_JobsOfFreeSlotsAreRefused : let s := framed (entry 2 []) fun e => { e with tenants := [] }
    ringJob (.drain 0) = some (0, fun x => x.opcode == 2) ∧ Starts s (0#8).toNat (entry 2 []).opcode (entry 2 []) ∧
      ((entry 2 []).opcode == 2) = true ∧ (s.eng.tenant (s.regs.ringTenant (0#8).toNat).toNat).state = .free :=
  ⟨rfl, starts_framed _ _ _ ⟨⟨_, rfl⟩, by decide +kernel⟩ rfl rfl, rfl, by decide +kernel⟩

/-- RING_CREATE for tenant 0: SQ at 0x240000, CQ at 0x241000, 16 lines each, weight 3, burst 4; then one with weight 0. -/
def createEntry (weight : Byte) : Entry :=
  entry 0x0C (natLE 8 0x240000 ++ natLE 8 0x241000 ++ [4, 4, 0, 0, weight, 4])

theorem witness_RingCreateMakesTheLowestFreeRing :
    Starts (framed (createEntry 3)) 0 0x0C (createEntry 3) ∧
      NoneHolds ((taken (framed (createEntry 3)) 0).ringConds (framed (createEntry 3)).regs 0 (createEntry 3)) ∧
      (framed (createEntry 3)).regs.freeRing = some 1 ∧
      judge ((taken (framed (createEntry 0)) 0).ringConds (framed (createEntry 0)).regs 0 (createEntry 0)) = some 0x11 :=
  ⟨starts_framed _ _ _ ⟨⟨_, rfl⟩, by decide +kernel⟩ rfl rfl, by unfold NoneHolds; decide +kernel, by decide +kernel, by decide +kernel⟩

/-! ### Tenants -/

/-- ADMIT of TENANT_UID 77. -/
def admitEntry : Entry := entry 7 ([1] ++ zeroBytes 23 ++ natLE 16 77)

theorem witness_AdmitTakesTheLowestFreeSlot :
    (0#8).toNat = 0 ∧ Starts (framed admitEntry) 0 7 admitEntry ∧ isKeyBind 1 admitEntry = true ∧ leAt 24 16 admitEntry.params ≠ 0 ∧
      zeroAt 1 23 admitEntry.params = true ∧ zeroAt 40 8 admitEntry.params = true ∧ (framed admitEntry).eng.freeSlot = some 1 ∧
      (framed admitEntry).eng.uidHeld (leAt 24 16 admitEntry.params) = false ∧ (framed admitEntry).eng.selfTest.running = false ∧
      ((framed admitEntry).eng.kept 1).owner ≠ BitVec.ofNat 128 (leAt 24 16 admitEntry.params) :=
  ⟨rfl, starts_framed _ _ _ ⟨⟨_, rfl⟩, by decide +kernel⟩ rfl rfl, by decide +kernel⟩

theorem witness_AdmitTakesTheLowestFreeSlot_owner :
    let s := framed admitEntry fun e => { e with body := { e.body with kept := [(1, { Kept.made with owner := 77 })] } }
    Starts s 0 7 admitEntry ∧ s.eng.freeSlot = some 1 ∧ s.eng.uidHeld 77 = false ∧
      (s.eng.kept 1).owner = BitVec.ofNat 128 (leAt 24 16 admitEntry.params) :=
  ⟨starts_framed _ _ _ ⟨⟨_, rfl⟩, by decide +kernel⟩ rfl rfl, by decide +kernel⟩

/-- RELEASE of slot 0. -/
def releaseEntry : Entry := entry 7 [2, 0]

theorem witness_ReleaseEmptiesTheSlot :
    (0#8).toNat = 0 ∧ Starts (framed releaseEntry) 0 7 releaseEntry ∧ isKeyBind 2 releaseEntry = true ∧ leAt 1 1 releaseEntry.params = 0 ∧
      0 < 16 ∧ zeroAt 2 46 releaseEntry.params = true ∧ ((framed releaseEntry).eng.tenant 0).state ≠ .free ∧
      ((framed releaseEntry).eng.tenant 0).releasing = none :=
  ⟨rfl, starts_framed _ _ _ ⟨⟨_, rfl⟩, by decide +kernel⟩ rfl rfl, by decide +kernel⟩

/-- The base machine with tenant 0's slot changed. -/
def slot0 (f : Tenant → Tenant) : State := withE fun e => { e with tenants := [(0, f (e.tenant 0))] }

/-- Slot 1 is FREE; slot 0 is not, with and without a session and an exchange; the noise source is healthy, and has failed. -/
theorem witness_ResponderAnswersTheSubset :
    (base.eng.tenant (1#4).toNat).state = .free ∧ ((base.eng.tenant (0#4).toNat).state ≠ .free ∧ (base.eng.tenant (0#4).toNat).releasing = none) ∧
      base.eng.units.noise = .healthy ∧ (withE fun e => { e with units := { e.units with noise := .failed } }).eng.units.noise ≠ .healthy ∧
      ((slot0 fun x => { x with exchanging := true }).eng.tenant 0).exchanging = true ∧ (base.eng.tenant 0).exchanging = false ∧
      ((slot0 fun x => { x with session := true }).eng.tenant 0).session = true ∧ (base.eng.tenant 0).session = false := by decide +kernel

/-- The TENANT_UID of the slot is the one that the leaf key 3 names. -/
theorem witness_ResponderAnswersTheSubset_finish :
    let s := slot0 fun x => { x with exchanging := true, uid := (sha3_384 (natLE 96 (3#768).toNat)).setWidth 128 }
    (s.eng.tenant 0).state ≠ .free ∧ (s.eng.tenant 0).exchanging = true ∧
      (sha3_384 (natLE 96 (3#768).toNat)).setWidth 128 = (s.eng.tenant 0).uid := ⟨nofun, rfl, rfl⟩

/-- SPDM of a 64-byte request at 0x250000, with the response at 0x251000. Whether the response has bytes is open; one of the two
clauses applies. -/
def spdmEntry : Entry := entry 7 ([3, 0] ++ natLE 2 64 ++ zeroBytes 4 ++ natLE 8 0x250000 ++ natLE 8 0x251000)

theorem witness_ResponderAnswersTheSubset_relayed : let x := spdmEntry
    let s := framed x
    Starts s 0 7 x ∧ (s.eng.tenant (s.regs.ringTenant 0).toNat).state ≠ .free ∧ (s.eng.tenant (s.regs.ringTenant 0).toNat).releasing = none ∧
      leAt 0 1 x.params = 3 ∧ leAt 1 1 x.params = 0 ∧ 1 ≤ leAt 2 2 x.params ∧ leAt 2 2 x.params ≤ 4096 ∧ zeroAt 4 4 x.params = true ∧
      zeroAt 24 24 x.params = true ∧ leAt 8 8 x.params % 64 = 0 ∧ leAt 16 8 x.params % 64 = 0 ∧
      s.regs.inRegions (s.regs.ringTenant 0).toNat (leAt 8 8 x.params) (leAt 2 2 x.params) = true ∧
      s.regs.inRegions (s.regs.ringTenant 0).toNat (leAt 16 8 x.params) 4096 = true ∧ s.eng.mayRespond .getVersion = true :=
  ⟨starts_framed _ _ _ ⟨⟨_, rfl⟩, by decide +kernel⟩ rfl rfl, by decide +kernel⟩

theorem witness_KeyMessagesBindKeysAndPolicy :
    ((base.eng.tenant 0).state ≠ .free ∧ (base.eng.tenant 0).releasing = none ∧ (base.eng.tenant 0).session = false) ∧
    (let s := slot0 fun x => { x with session := true }
     (s.eng.tenant 0).state ≠ .free ∧ (s.eng.tenant 0).session = true ∧ s.eng.sealInUse 0 = false ∧ s.regs.sealedMode = false) ∧
    4 < (5#8).toNat ∧ ((0#512).extractLsb' 0 256 : BitVec 256) = (0#512).extractLsb' 256 256 ∧
    ((9#512).extractLsb' 0 256 : BitVec 256) ≠ (9#512).extractLsb' 256 256 ∧ ((9#512).extractLsb' 256 256 : BitVec 256) = 0 ∧ (7#32).toNat < 8 ∧
    ((15#32).toNat < 16 ∧ ({ regs with live := live ++ [(0x40400, 1)] } : Regs).sealedMode = true) := by decide +kernel

/-! ### Jobs of the service -/

/-- One coordinate record: one unit of rank 1 in dimension 0, of extent 1. -/
def coordBytes : List Byte := zeroBytes 16 ++ natLE 8 1 ++ [1] ++ zeroBytes 7 ++ natLE 8 1 ++ zeroBytes 88 ++ natLE 8 1 ++ zeroBytes 56

/-- GUARD_ADD of one granule at 3 MiB, class 7, one record at 0x260000. -/
def guardEntry : Entry := entry 0x0A (natLE 8 0x300000 ++ natLE 4 1 ++ [7] ++ zeroBytes 3 ++ natLE 8 0x260000 ++ natLE 4 1)

theorem witness_GuardRangesAreAddedAndRemoved_add : let x := guardEntry
    let s := framed x
    Attested s 0 ∧ Starts s 0 0x0A x ∧ (1 ≤ leAt 8 4 x.params ∧ leAt 8 4 x.params ≤ 262144 ∧ 3 ≤ leAt 12 1 x.params ∧ leAt 12 1 x.params ≤ 7) ∧
      (1 ≤ leAt 24 4 x.params ∧ leAt 24 4 x.params ≤ 4096 ∧ zeroAt 13 3 x.params = true ∧ zeroAt 28 20 x.params = true) ∧
      (∀ w ∈ s.eng.guard.ranges, granulesMeet (leAt 0 8 x.params / 2 ^ 20) (leAt 8 4 x.params) w.2 = false) ∧
      (leAt 0 8 x.params % 2 ^ 20 = 0 ∧ leAt 16 8 x.params % 64 = 0 ∧ s.regs.inRegions 0 (leAt 0 8 x.params) (leAt 8 4 x.params * 2 ^ 20) = true ∧
        s.regs.inRegions 0 (leAt 16 8 x.params) (192 * leAt 24 4 x.params) = true) ∧
      (s.eng.mode ≠ .recovery ∧ s.eng.guard.ranges.length < 64 ∧ s.eng.beat.sealed = false ∧ tlistBad (leAt 24 4 x.params) coordBytes = false) ∧
      0 < 64 ∧ s.eng.range 0 = none ∧ ∀ m, m < 0 → s.eng.range m ≠ none :=
  ⟨⟨by decide +kernel, by decide +kernel⟩, starts_framed _ _ _ ⟨⟨_, rfl⟩, by decide +kernel⟩ rfl rfl, by decide +kernel⟩

/-- GUARD_REMOVE of range 5. -/
def guardRemoveEntry : Entry := entry 0x0B [5]

def guardOwned (e : Engine) : Engine :=
  let w : Range := { base := 64, granules := 2, owner := 0, cls := 3, coords := [], armed := false, parity := true, flag := true, flipped := [] }
  { e with guard := { e.guard with ranges := [(5, w)] } }

theorem witness_GuardRangesAreAddedAndRemoved_remove : let x := guardRemoveEntry
    let s := framed x guardOwned
    Attested s 0 ∧ Starts s 0 0x0B x ∧ leAt 0 1 x.params < 64 ∧ ((s.eng.range (leAt 0 1 x.params)).map fun w => w.owner) = some (s.regs.ringTenant 0) ∧
      zeroAt 1 15 x.params = true ∧ s.eng.rangeBusy (leAt 0 1 x.params) = false :=
  ⟨⟨by decide +kernel, by decide +kernel⟩, starts_framed _ _ _ ⟨⟨_, rfl⟩, by decide +kernel⟩ rfl rfl, by decide +kernel⟩

theorem attested_framed (x : Entry) : Attested (framed x) 0 :=
  ⟨show (eng.tenant (regs.ringTenant 0).toNat).state = .attested by decide +kernel,
    show (eng.tenant (regs.ringTenant 0).toNat).releasing = none by decide +kernel⟩

theorem witness_ServiceJobsDoTheirWork_drain : Attested (framed (entry 2 [])) 0 ∧ Starts (framed (entry 2 [])) 0 2 (entry 2 []) :=
  ⟨attested_framed _, starts_framed _ _ _ ⟨⟨_, rfl⟩, by decide +kernel⟩ rfl rfl⟩

/-- SCRUB of both slots of a body that holds nothing. -/
theorem witness_ServiceJobsDoTheirWork_scrub : let x := entry 8 [3]
    let s := framed x
    Attested s 0 ∧ Starts s 0 8 x ∧ slotsNamed (leAt 0 1 x.params) = [false, true] ∧ 1 ≤ leAt 0 1 x.params ∧ leAt 0 1 x.params ≤ 3 ∧
      zeroAt 1 15 x.params = true ∧ s.regs.bodyBanks 0 ≠ 0 ∧ s.eng.cut.run = none ∧ s.eng.bulb.copies = [] ∧
      (∀ b, (taken s 0).bodyRead 0 b = false) ∧ (∀ key, (s.eng.body.upset key).fails < 4) ∧
      ∀ off len, (taken s 0).foreign s.regs 0 off len = false := by
  refine ⟨attested_framed _, starts_framed _ _ _ ⟨⟨_, rfl⟩, by decide +kernel⟩ rfl rfl, by decide +kernel, by decide +kernel, by decide +kernel,
    by decide +kernel, by decide +kernel, rfl, rfl, by decide +kernel, fun key => (by decide : 0 < 4), fun off len => ?_⟩
  unfold Engine.foreign
  rw [List.any_eq_false]
  intro n _
  have : (taken (framed (entry 8 [3])) 0).partRead (framed (entry 8 [3])).regs (0 : TenantNo).toNat n = none := rfl
  rw [this]
  simp

/-- TELEMETRY of the first counter of the window to 0x300000. -/
def telemetryEntry : Entry := entry 9 (natLE 8 0x300000 ++ natLE 4 0x60000 ++ natLE 4 8)

theorem witness_ServiceJobsDoTheirWork_telemetry : let s := framed telemetryEntry
    Attested s 0 ∧ Starts s 0 9 telemetryEntry ∧ NoneHolds ((taken s 0).telemetryConds s.regs 0 telemetryEntry.params) :=
  ⟨attested_framed _, starts_framed _ _ _ ⟨⟨_, rfl⟩, by decide +kernel⟩ rfl rfl, by unfold NoneHolds; decide +kernel⟩

/-- A session of tenant 0 with peer slot 0 that is KEYED over port 0. -/
def keyed (e : Engine) : Engine :=
  let ps : PortSess := { PortSess.fresh with limitIn := 64 }
  let v : Session := { Session.none with state := .keyed, id := 3, key := 11, live := 1, pages := 64, ports := [(0, ps)] }
  { e with pollen := { e.pollen with portUp := 1, sess := [(0, v)] } }

/-- ADMIN_SEND of a notice to peer 2. -/
def adminEntry : Entry := entry 0x0D [1, 0, 2, 0]

theorem witness_ServiceJobsDoTheirWork_admin : let x := adminEntry
    let s := framed x keyed
    Attested s 0 ∧ Starts s 0 0x0D x ∧ leAt 0 1 x.params = 1 ∧ zeroAt 1 1 x.params = true ∧ zeroAt 4 12 x.params = true ∧
      peerSlot s.regs 0 (leAt 2 2 x.params) = some 0 ∧ (s.eng.sess 0 0).state = .keyed ∧ lowestPort (s.eng.sess 0 0).live = some 0 :=
  ⟨⟨by decide +kernel, by decide +kernel⟩, starts_framed _ _ _ ⟨⟨_, rfl⟩, by decide +kernel⟩ rfl rfl, by decide +kernel⟩

/-! ### Recipes -/

/-- The image of a recipe of class 3: GATHER, SEAL, DIGEST, SCATTER. -/
def image : List Byte := natLE 12 0x30401 ++ natLE 4 1002596528 ++ natLE 16 1 ++ natLE 16 5 ++ natLE 16 6 ++ natLE 16 7

set_option maxRecDepth 100000 in
theorem witness_RecipeJobsKeepTheStore_load : let x := entry 6 ([1] ++ zeroBytes 7 ++ natLE 8 0x300000 ++ natLE 4 80)
    let s := framed x
    let p := loadParamsOf x.params
    Attested s 0 ∧ Starts s 0 6 x ∧ (p.rsv = false ∧ p.op = 1 ∧ p.index = 0 ∧ p.addr % 64 = 0 ∧ s.regs.inRegions 0 p.addr p.len = true) ∧
      (∀ q ∈ imageConds p.len image, q.1 = false) ∧ 0 < 1024 ∧ s.eng.recipe 0 = none ∧ (∀ m, m < 0 → s.eng.recipe m ≠ none) ∧
      s.eng.beat.sealed = false :=
  ⟨attested_framed _, starts_framed _ _ _ ⟨⟨_, rfl⟩, by decide +kernel⟩ rfl rfl, by decide +kernel⟩

/-- The store with that recipe at index 4, and binding set 2 of tenant 0. -/
def stored (e : Engine) : Engine :=
  { e with recipes := { held := [(4, recipeOf 0 image)], sets := [(2, { tenant := 0, entries := [] })] } }

theorem witness_RecipeJobsKeepTheStore_unload : let x := entry 6 ([2, 0] ++ natLE 2 4)
    let s := framed x stored
    let p := loadParamsOf x.params
    Attested s 0 ∧ Starts s 0 6 x ∧ p.rsv = false ∧ p.op = 2 ∧ p.addr = 0 ∧ p.len = 0 ∧ s.eng.recipe p.index = some (recipeOf 0 image) ∧
      (recipeOf 0 image).tenant = s.regs.ringTenant 0 ∧ s.eng.recipeBusy p.index = false :=
  ⟨⟨by decide +kernel, by decide +kernel⟩, starts_framed _ _ _ ⟨⟨_, rfl⟩, by decide +kernel⟩ rfl rfl, by decide +kernel⟩

/-- A binding of class 3 to recipe 4. -/
def bindImage : List Byte := zeroBytes 6 ++ natLE 2 0x8004 ++ zeroBytes 24

theorem witness_RecipeJobsKeepTheStore_bind : let x := entry 6 ([3, 0] ++ natLE 2 1023 ++ zeroBytes 4 ++ natLE 8 0x300000 ++ natLE 4 32)
    let s := framed x stored
    let p := loadParamsOf x.params
    Attested s 0 ∧ Starts s 0 6 x ∧ p.rsv = false ∧ p.op = 3 ∧ p.addr % 64 = 0 ∧ s.regs.inRegions 0 p.addr p.len = true ∧ p.len = 32 ∧
      s.eng.setForeign 0 p.index = false ∧ s.eng.setBusy p.index = false ∧ ∀ q ∈ s.eng.bindConds 0 bindImage, q.1 = false :=
  ⟨⟨by decide +kernel, by decide +kernel⟩, starts_framed _ _ _ ⟨⟨_, rfl⟩, by decide +kernel⟩ rfl rfl, by decide +kernel⟩

theorem witness_RecipeJobsKeepTheStore_unbind : let x := entry 6 ([4, 0] ++ natLE 2 2)
    let s := framed x stored
    let p := loadParamsOf x.params
    Attested s 0 ∧ Starts s 0 6 x ∧ p.rsv = false ∧ p.op = 4 ∧ p.addr = 0 ∧ p.len = 0 ∧
      tabFind p.index s.eng.recipes.sets = some { tenant := 0, entries := [] } ∧ s.eng.setBusy p.index = false :=
  ⟨⟨by decide +kernel, by decide +kernel⟩, starts_framed _ _ _ ⟨⟨_, rfl⟩, by decide +kernel⟩ rfl rfl, by decide +kernel⟩

/-! ### Streams and restores -/

/-- A descriptor of 64 element lines at 3 MiB, the coded side at 0x340000, of BYTES, for recipe 4; `fence` is bit 3 of byte 80. -/
def descrBytes (fence : Bool) : List Byte :=
  natLE 8 0x300000 ++ natLE 8 0x340000 ++ natLE 4 64 ++ [1, 0, 0, 0, 1, 0, 0, 0, 1, 0, 0, 0, 1, 0, 0, 0, 1, 0, 0, 0] ++ zeroBytes 40 ++
    [if fence then 9 else 1, 0] ++ natLE 2 2 ++ natLE 2 1 ++ [4, 0] ++ natLE 8 1000 ++ natLE 4 4 ++ natLE 4 7 ++ zeroBytes 24

/-- The same for a REFILL, which names no recipe. -/
def refillBytes : List Byte :=
  natLE 8 0x300000 ++ natLE 8 0x340000 ++ natLE 4 64 ++ [1, 0, 0, 0, 1, 0, 0, 0, 1, 0, 0, 0, 1, 0, 0, 0, 1, 0, 0, 0] ++ zeroBytes 40 ++
    [1, 0x40] ++ natLE 2 2 ++ natLE 2 1 ++ [4, 0] ++ natLE 8 1000 ++ zeroBytes 4 ++ natLE 4 7 ++ zeroBytes 24

/-- An entry of three lines. -/
def longEntry (op : Nat) (params : List Byte) : Entry := { entry op [] with lines := 3, params := params ++ zeroBytes 48 }

/-- The store with a recipe of class 8 at index 4. -/
def spillStore (e : Engine) : Engine := { e with recipes := { e.recipes with held := [(4, { recipeOf 0 image with cls := 8 })] } }

/-- The stream that a SPILL of that descriptor would hold; `layer` is another one's. -/
def older (layer : Nat) : Stream :=
  { tenant := 0, job := { ring := 0, cmdId := 3, index := 0, irq := false }, spill := true, descr := { descrOf (descrBytes false) with layer := layer }
    steps := [], fmt := .si8, rate := 1, sealed := false, xtsEpoch := 0, seed := none, state := .running, cause := 0, order := 0, elemLines := 2
    scaleLines := 0, escLines := 0, toRead := [], reading := 0, got := [], table := none, made := [], out := [], toWrite := []
    reads := 0, writes := 0, position := 0, haltWrite := false, code := 0, failing := 0 }

/-- The streams with this one held as number 3. -/
def holding (v : Stream) (e : Engine) : Engine := { e with streams := { e.streams with held := [(3, v)], nextOrder := 1 } }

/-- A SPILL that waits on its fence: a stream of layer 1 is held. -/
theorem witness_AcceptedStreamJobsAreHeld_spill : let x := longEntry 4 (descrBytes true)
    let s := framed x fun e => holding (older 1) (spillStore e)
    Attested s 0 ∧ (∃ rest, s.eng.freeNumbers 1 = 0 :: rest) ∧ Starts s 0 4 x ∧ NoneHolds ((taken s 0).spillConds s.regs (s.regs.ringTenant 0) x.params) ∧
      (descrOf x.params).fence = true ∧ s.eng.fenceHolds (s.regs.ringTenant 0) (descrOf x.params).layer s.eng.streams.nextOrder = true :=
  ⟨⟨by decide +kernel, by decide +kernel⟩, ⟨[], by decide +kernel⟩, starts_framed _ _ _ ⟨⟨_, rfl⟩, by decide +kernel⟩ rfl rfl,
    by unfold NoneHolds; decide +kernel, by decide +kernel⟩

theorem witness_AcceptedStreamJobsAreHeld_refill : let x := longEntry 5 refillBytes
    let s := framed x
    Attested s 0 ∧ (∃ rest, s.eng.freeNumbers 1 = 0 :: rest) ∧ Starts s 0 5 x ∧ NoneHolds ((taken s 0).refillConds s.regs (s.regs.ringTenant 0) x.params) :=
  ⟨attested_framed _, ⟨[], by decide +kernel⟩, starts_framed _ _ _ ⟨⟨_, rfl⟩, by decide +kernel⟩ rfl rfl, by unfold NoneHolds; decide +kernel⟩

/-- A RESTORE with the plan of `len` bytes at 0x300000 and `n` streams. -/
def restoreEntry (len : Nat) (n : Byte) : Entry := entry 3 (natLE 8 0x300000 ++ natLE 4 len ++ [n])

theorem witness_AcceptedStreamJobsAreHeld_restore : let s := framed (restoreEntry 448 0)
    Attested s 0 ∧ Starts s 0 3 (restoreEntry 448 0) ∧
      judge ((taken s 0).restoreConds s.regs (s.regs.ringTenant 0) (restoreEntry 448 0).params) = some 0x11 :=
  ⟨attested_framed _, starts_framed _ _ _ ⟨⟨_, rfl⟩, by decide +kernel⟩ rfl rfl, by decide +kernel⟩

/-- A plan of one source, slot B of the body of tenant 0, in group 0, and one GRID target, for step 10. -/
def planBytes (crc : Nat) : List Byte :=
  natLE 4 0x4E414C50 ++ natLE 2 1 ++ natLE 2 1 ++ natLE 8 10 ++ zeroBytes 44 ++ natLE 4 crc ++
    zeroBytes 128 ++ (zeroBytes 8 ++ [1] ++ zeroBytes 247)

/-- The groups of a plan, with the data that its locations answer with, as RESTORE of ring 0 makes them. -/
def planGroups (s : State) (bs : List Byte) (locs : List LocationData) : List Group :=
  groupsOf (planOf bs) ((planOf bs).sources.mapIdx fun i y =>
    (taken s 0).location s.regs (s.regs.ringTenant 0) y ((locs[i]?).getD { reach := 0, slotA := ⟨[], []⟩, slotB := ⟨[], []⟩ }))

/-- The codes of reaching its locations, in the order of their groups. -/
def planReach (s : State) (bs : List Byte) (locs : List LocationData) : List Code :=
  ((List.range 64).flatMap fun g => ((planOf bs).sources.mapIdx fun i y => (i, y)).filter fun z => z.2.group == g).map fun z =>
    (taken s 0).reachCode s.regs (s.regs.ringTenant 0) z.2 ((locs[z.1]?).getD { reach := 0, slotA := ⟨[], []⟩, slotB := ⟨[], []⟩ })

set_option maxRecDepth 100000 in
theorem planBytes_ok : ∀ q ∈ planConds regs 0 448 (planBytes 3954071534), q.1 = false := by decide +kernel

set_option maxRecDepth 100000 in
/-- The slots of that source hold nothing, so the plan fails on its group. -/
theorem witness_AcceptedStreamJobsAreHeld_plan : let x := restoreEntry 448 1
    let s := framed x
    Attested s 0 ∧ Starts s 0 3 x ∧ NoneHolds ((taken s 0).restoreConds s.regs (s.regs.ringTenant 0) x.params) ∧
      NoneHolds (planConds s.regs (s.regs.ringTenant 0) (leAt 8 4 x.params) (planBytes 3954071534)) ∧
      phase2 s.kit s.regs (s.regs.ringTenant 0) (s.eng.mode != .normal) (planReach s (planBytes 3954071534) []) (planOf (planBytes 3954071534))
        (planGroups s (planBytes 3954071534) []) = some (none, 0x25) :=
  ⟨attested_framed _, starts_framed _ _ _ ⟨⟨_, rfl⟩, by decide +kernel⟩ rfl rfl, by unfold NoneHolds; decide +kernel, planBytes_ok,
    by decide +kernel⟩

theorem witness_StreamsAdvance_fence :
    let v : Stream := { older 1 with state := .fenced }
    let s := withE fun e => holding v e
    s.eng.stream 3 = some v ∧ v.state = .fenced ∧ s.eng.scheduling = true ∧ s.eng.fenceHolds v.tenant v.descr.layer v.order = false := by decide +kernel

/-- A halted stream, and one that a request has failed for meanwhile. -/
theorem witness_StreamsAdvance_halted : ∀ failing ∈ [0, (0x27 : Code)],
    let v : Stream := { older 1 with state := .halted, failing := failing }
    let s := withE fun e => holding v e
    s.eng.stream 3 = some v ∧ v.state = .halted ∧ s.eng.scheduling = true ∧ s.eng.cfgOpen = true ∧ (0x80000003#32).getLsbD 31 = true ∧
      (0x80000003#32).toNat % 512 = 3 ∧ v.failing = failing := by decide +kernel

/-- The base machine with this stream held as number 3, and eight lines of each MEM budget left. -/
def streaming (v : Stream) : State := withE fun e =>
  { holding v e with budget := { e.budget with streamRead := [(0, 8)], streamWrite := [(0, 8)], memRead := [(0, 8)], memWrite := [(0, 8)] } }

/-- The winner reads its first line; it has nothing to write. -/
theorem witness_StreamsAdvance_read :
    let v : Stream := { older 1 with toRead := [0, 1] }
    let s := streaming v
    s.eng.stream 3 = some v ∧ s.eng.scheduling = true ∧ v.state = .running ∧ s.eng.streamWriteCause s.kit v ≠ some 0 ∧
      s.eng.streamReadCause s.kit s.regs v = some 0 ∧ s.eng.winner s.kit s.regs = some 3 := by decide +kernel

/-- What the stream writes next. -/
def outWaits (v : Stream) : Stream :=
  { v with made := [0], out := [(0, { data := 5, poison := false }), (1, { data := 5, poison := false })], toWrite := [0, 1] }

theorem witness_StreamsAdvance_write : let v := outWaits (older 1)
    let s := streaming v
    s.eng.stream 3 = some v ∧ s.eng.scheduling = true ∧ v.state = .running ∧ s.eng.streamWriteCause s.kit v = some 0 ∧
      s.eng.winner s.kit s.regs = some 3 := by decide +kernel

/-- Stream 2, whose turn has not come before that of stream 3, wins. -/
theorem witness_StreamsAdvance_loser : let v := outWaits (older 1)
    let s : State := withE fun e =>
      { e with streams := { e.streams with held := [(2, v), (3, v)], nextOrder := 1, turn := 1 }
               budget := { e.budget with streamRead := [(0, 8)], streamWrite := [(0, 8)], memRead := [(0, 8)], memWrite := [(0, 8)] } }
    s.eng.stream 3 = some v ∧ s.eng.scheduling = true ∧ v.state = .running ∧ s.eng.streamWriteCause s.kit v = some 0 ∧
      s.eng.winner s.kit s.regs = some 2 := by decide +kernel

/-- Nothing is left of the beat's MEM budget, and nothing waits for a lane. -/
theorem witness_StreamsAdvance_cause : let v := outWaits (older 1)
    let s := withE fun e => holding v e
    s.eng.stream 3 = some v ∧ s.eng.scheduling = true ∧ v.state = .running ∧ s.eng.streamReadCause s.kit s.regs v = none ∧
      s.eng.streamWriteCause s.kit v = some 7 ∧ ∀ i, i < v.chunks → i ∉ v.made → s.eng.chunkStaged 3 i v = false := by
  refine ⟨by decide +kernel, by decide +kernel, rfl, by decide +kernel, by decide +kernel, fun i hi hm => absurd ?_ hm⟩
  have h : (outWaits (older 1)).chunks = 1 := by decide +kernel
  rw [h] at hi
  have : i = 0 := by omega
  subst this
  exact List.mem_singleton.mpr rfl

/-- The steps of a recipe that codes SI8 at rate 1. -/
def codedSteps : List StepAt :=
  [{ stream := 0, step := .gather .si8 0 0 0 }, { stream := 0, step := .code 1 }, { stream := 0, step := .scatter 0 }]

/-- Both source lines have been read: the table is made, and then a lane takes the chunk. -/
theorem witness_StreamsAdvance_codec :
    let got : Tab MemBeat := [(0, { data := 5, poison := false }), (1, { data := 6, poison := false })]
    let v : Stream := { older 1 with got := got, steps := codedSteps }
    let w : Stream := { v with table := some (codeLengths 8 [5, 6]), seed := some 0 }
    v.table = none ∧ (rateGeom v.rate).isSome = true ∧ v.state = .running ∧ v.spill = true ∧ needsDraw v.steps = false ∧
      (∀ i ∈ v.needs (v.planeDep (min 63 (v.shape.planeLines v.units - 1))), (tabFind i v.got).isSome = true) ∧
      (let s := withE fun e => holding w e
       s.eng.units.idleLane .enc [0] = some 1 ∧ s.eng.laneWinner true = some 3 ∧ s.eng.wantsLane true 3 = some 0 ∧
        s.eng.units.idleLane .enc (List.range 64) = none) := by decide +kernel

/-- A REFILL whose table line is staged: one that has no code lengths. -/
theorem witness_StreamsAdvance_refill :
    let f : FrontLine := { part := .stream, key := .stream 3 0, line := Line.ofData 5 0 8 false, dirty := false, region := 0, ver := 0, flips := [], place := 0 }
    let v : Stream := { older 1 with spill := false }
    let s := withE fun e => { holding v e with front := { e.front with lines := [f] } }
    s.eng.stream 3 = some v ∧ v.table = none ∧ (rateGeom v.rate).isSome = true ∧ v.state = .running ∧ tabFind 0 v.got = none ∧
      s.eng.front.find (.stream 3 0) = some f ∧ (∀ l ∈ s.eng.front.lines, l.key = .stream 3 0 → l.flips = []) ∧ f.line.poison = false ∧
      readTable v.fmt v.rate (v.unseal (s.eng.sealKey v.tenant) 0 { data := f.line.data, poison := false }).data = none ∧
      (readTable v.fmt v.rate (v.unseal (s.eng.sealKey v.tenant) 0
        { data := tableLine .si8 1 (codeLengths 8 [5, 6]) 2, poison := false }).data).isSome = true := by
  refine ⟨by decide +kernel, rfl, by decide +kernel, rfl, rfl, by decide +kernel, by decide +kernel, rfl, by decide +kernel, by decide +kernel⟩

/-- Chunk 0 of the first source of a cut waits for a lane. -/
theorem witness_StreamsAdvance_cut : let src : Source :=
      { kind := .tile 0 true, shard := 0, cls := 1, steps := codedSteps, lines := 4, mainOff := 0, resOff := 0, seed := 0, coords := [], got := [],
        arrived := 4, coded := 0, run := none }
    let s := cutting .drain { running [] with sources := [src] } base
    (s.eng.cut.run.map fun run => run.sources) = some [src] ∧ src.waitsLane = true ∧ src.coded = 0 ∧ s.eng.units.idleLane .enc [] = some 0 := by
  decide +kernel

/-- A restore with an entry that waits, and a free stream number. -/
def restoring (y : RestoreEntry) : Restore :=
  { job := { ring := 0, cmdId := 3, index := 0, irq := false }, tenant := 0, order := 0, numbers := [0], groups := [], entries := [y], commits := []
    ending := false }

/-- A target entry that names nothing. -/
def noTarget : PlanEntry :=
  { tensorId := 0, grid := true, rank := 1, exact_ := false, layout := 0, fmt := 0, dst0 := 0, dst1 := 0, gshape := [], sstart := [], slen := []
    rsv := false }

theorem witness_StreamsAdvance_restore : let y := restoring (waitingEntry 0 noTarget)
    let s := withE fun e => { e with streams := { e.streams with restores := [y] } }
    s.eng.streams.restores[0]? = some y ∧ y.freeNumber = some 0 ∧ (∃ z ∈ y.entries, z.state = .waiting) ∧ s.eng.scheduling = true :=
  ⟨by decide +kernel, by decide +kernel, ⟨_, .head _, rfl⟩, by decide +kernel⟩

/-! ### MEM responses -/

/-- The base machine with this request outstanding, with tag 5. -/
def asked (isWrite : Bool) (use : MemFor) (f : Engine → Engine) : State := withE fun e =>
  f { e with mem := { reqs := [{ channel := 0, tag := 5, isWrite := isWrite, addr := 0x300000, lines := 2, prio := 1, use := use }], lastTag := 5 } }

theorem witness_MemResponsesReachWhoAsked_none :
    base.kit.hasChannel 0 = true ∧ base.eng.mem.find 0 5 false = none ∧ base.eng.mem.find 0 5 true = none := by decide +kernel

theorem witness_MemResponsesReachWhoAsked_read :
    let v : Stream := { older 1 with reading := 2, reads := 1 }
    let s := asked false (.streamRead 3 [0, 1]) (holding v)
    s.kit.hasChannel 0 = true ∧ ((s.eng.mem.find 0 5 false).map fun q => (q.use, q.lines)) = some (.streamRead 3 [0, 1], 2) ∧
      s.eng.stream 3 = some v ∧ [0, 1].Nodup ∧ v.state = .running := by decide +kernel

/-- The same stream halted by another request, and one whose write is outstanding. -/
theorem witness_MemResponsesReachWhoAsked_halt :
    (let v : Stream := { older 1 with reading := 2, reads := 1, state := .halted }
     let s := asked false (.streamRead 3 [0, 1]) (holding v)
     ((s.eng.mem.find 0 5 false).map fun q => q.use) = some (.streamRead 3 [0, 1]) ∧ s.eng.stream 3 = some v ∧ v.state = .halted) ∧
    (let v : Stream := { outWaits (older 1) with toWrite := [], writes := 1 }
     let s := asked true (.streamWrite 3 [0, 1]) (holding v)
     ((s.eng.mem.find 0 5 true).map fun q => q.use) = some (.streamWrite 3 [0, 1]) ∧ s.eng.stream 3 = some v ∧ v.state = .running) := by
  decide +kernel

theorem witness_MemResponsesReachWhoAsked_completion : let s := asked true (.completion 0) id
    ((s.eng.mem.find 0 5 true).map fun q => q.use) = some (.completion 0) ∧ (0x25 : Code) ≠ 0 := by decide +kernel

theorem witness_MemResponsesReachWhoAsked_job :
    let id_ : JobId := { ring := 0, cmdId := 9, index := 0, irq := false }
    let j : Job := { id := id_, tenant := some 0, kind := .wait [1] }
    let s := asked true (.job id_) fun e => { e with rings := { e.rings with jobs := [j] } }
    ∃ q, s.eng.mem.find 0 5 true = some q ∧ q.use = .job id_ ∧ ((s.eng.mem.remove q).reqs.any fun y => y.use == MemFor.job id_) = false ∧
      (s.eng.rings.jobs.find? fun y => y.id == id_) = some j ∧ j.kind = .wait [1] :=
  ⟨_, rfl, rfl, by decide +kernel, by decide +kernel, rfl⟩

/-! A checkpoint without shards, in slot A of a host region: its commit record, which the key below signed, and its manifest. -/

/-- A P-384 public key: six times the base point. -/
def signer : BitVec 768 :=
  0x9766a4cb3f8b1c21be6dda6c14f1575b2c95352644f774c99864f613715441604c45b8d84e165311733a408d3f0f934627be1acd064d2b2226fe0d26f2d15d3c33ebcbb7f0f5da51cbd41f26257383021317d7202ff30e50937f0854e35c5df

/-- A commit record of step 10, epoch 1, with a manifest of 256 bytes. -/
def recordBytes : List Byte :=
  natLE 4 0x4346534B ++ [1, 0, 0, 0] ++ natLE 8 10 ++ natLE 8 1 ++ zeroBytes 8 ++ natLE 8 256 ++
    natLE 32 0xebdc579599fe63315fd061bd61630ad9dce0feb4dc4ebd7b46700cbc8ab593ec ++ natLE 16 0x8f9eb9a63e0b9dc014cd799b5cb0afb2 ++ zeroBytes 8 ++
    natLE 48 0xa669c5563bd67eec678d29d6ef4fde864f372d90b79b9e88931d5c29291238cced8e85ab507bf91aa9cb2d13186658fb ++
    natLE 48 0xf78e73fa34f394d9122b95ce2c8a625c8c5670589ffa2684ccf4aedaf002dd1f7a0218b1b183d593941d1bced5f49b6b ++ zeroBytes 56 ++
    natLE 4 0x4546534B ++ natLE 4 3687664789

/-- A manifest of step 10, epoch 1 and this grid, with no shard. -/
def manifestBytes : List Byte :=
  natLE 4 0x4D46534B ++ [1, 0] ++ natLE 2 4 ++ natLE 8 10 ++ natLE 8 1 ++ zeroBytes 6 ++ natLE 2 64 ++ zeroBytes 44 ++ natLE 2 2 ++ natLE 2 2 ++
    zeroBytes 172 ++ natLE 4 3315734210

/-- What the host region of that location holds. -/
def checkpointData : LocationData :=
  { reach := 0, slotA := ⟨recordBytes ++ zeroBytes 3840 ++ manifestBytes, []⟩, slotB := ⟨[], []⟩ }

/-- A plan of that one location, slot A of 2 pages at 0x300000, in group 0, and one GRID target, for step 10. -/
def restorePlan : List Byte :=
  natLE 4 0x4E414C50 ++ natLE 2 1 ++ natLE 2 1 ++ natLE 8 10 ++ zeroBytes 44 ++ natLE 4 1439483242 ++
    ([1, 1] ++ zeroBytes 6 ++ natLE 8 0x300000 ++ natLE 4 2 ++ zeroBytes 12 ++ natLE 96 signer.toNat) ++
    (zeroBytes 8 ++ [1] ++ zeroBytes 7 ++ natLE 8 0x320000 ++ natLE 8 4096 ++ zeroBytes 224)

set_option maxRecDepth 100000 in
theorem restorePlan_ok : ∀ q ∈ planConds regs 0 448 restorePlan, q.1 = false := by decide +kernel

set_option maxRecDepth 100000 in
theorem witness_AcceptedStreamJobsAreHeld_accepted : let x := restoreEntry 448 1
    let s := framed x
    Attested s 0 ∧ Starts s 0 3 x ∧ NoneHolds ((taken s 0).restoreConds s.regs (s.regs.ringTenant 0) x.params) ∧
      NoneHolds (planConds s.regs (s.regs.ringTenant 0) (leAt 8 4 x.params) restorePlan) ∧
      phase2 s.kit s.regs (s.regs.ringTenant 0) (s.eng.mode != .normal) (planReach s restorePlan [checkpointData]) (planOf restorePlan)
        (planGroups s restorePlan [checkpointData]) = none :=
  ⟨attested_framed _, starts_framed _ _ _ ⟨⟨_, rfl⟩, by decide +kernel⟩ rfl rfl, by unfold NoneHolds; decide +kernel, restorePlan_ok,
    by decide +kernel⟩

/-! ### Pollen -/

/-- This frame of peer 2 for session 3, before its checks; and a frame whose CRC is its own but whose TAG is not asked about. -/
def frameOf (type : BitVec 8) (self : BitVec 16) (seq : Word) (body : BitVec 320) : Frame :=
  { Frame.bare type body with srcPeer := 2, dstPeer := self, sessionId := 3, seq := seq }

/-- A frame that is closed under the key which the engine finds for it passes every check. -/
theorem checkFrame_close {e : Engine} {r : Regs} {port t i : Nat} {f : Frame} {key : BitVec 256} (hp : f.payload.length = f.lines.toNat)
    (hf : f.formOk = true) (hr : r.self ≠ 0xFFFF) (hd : f.dstPeer.toNat = r.self) (hm : e.matchFrame r (f.close key) = some (t, i, key)) :
    e.checkFrame r port (f.close key) = .inl (t, i) := by
  have h1 : ¬ ((f.close key).crc ≠ (f.close key).crcOf ∨ (f.close key).payload.length ≠ (f.close key).lines.toNat) := by
    rintro (h | h)
    · exact h rfl
    · exact h hp
  have h2 : (f.close key).formOk = true := hf
  have h3 : ¬ (r.self = 0xFFFF ∨ (f.close key).dstPeer.toNat ≠ r.self) := by
    rintro (h | h)
    · exact hr h
    · exact h hd
  have h4 : (f.close key).tag = (f.close key).tagOf key := rfl
  unfold Engine.checkFrame
  rw [if_neg h1, h2, if_neg h3, hm]
  simp only [Bool.not_true, Bool.false_eq_true, if_false, if_pos h4]

/-- A session with peer 2 is KEYED, and port 0 is up. -/
def linked : State := withE keyed

/-- The same with a setup of session 3 in progress, seen by the peer with the higher number. -/
def settingUp (state : SessState) : State :=
  withE fun e => (keyed e).setSess 0 0 { (keyed e).sess 0 0 with newSetup := true, newId := 3, newNonceI := 8, newKey := 12, state := state }

/-- This engine is peer 5, so that peer 2 initiates. -/
def responder (s : State) : State := { s with regs := { regs with live := tabSet 0xC000 5 live } }

/-- A frame of each type that needs no setup; the ADMIN frame carries kind 1. -/
def peerFrame (type : BitVec 8) : Frame := (frameOf type 1 0 (if type = ftAdmin then 1 else 0)).close 11

theorem accepted (type : BitVec 8) (h : type ∈ [ftAck, ftCredit, ftNak, ftClose, ftProbe, ftProbeReply, ftAdmin]) :
    linked.eng.checkFrame linked.regs 0 (peerFrame type) = .inl (0, 0) :=
  checkFrame_close rfl (by revert type; decide +kernel) (by decide +kernel) (show (1#16).toNat = regs.self by decide +kernel)
    (by revert type; decide +kernel)

/-- The frame with another CRC than its own. -/
def spoilt (f : Frame) : Frame := { f with crc := f.crcOf + 1 }

theorem spoilt_crc (f : Frame) : (spoilt f).crc ≠ (spoilt f).crcOf := by
  intro h
  have h' : f.crcOf + 1 = f.crcOf := h
  generalize f.crcOf = x at h'
  bv_omega

/-- A sound frame that is addressed to another engine is a stranger's. -/
theorem checkFrame_stranger {e : Engine} {r : Regs} {port : Nat} {f : Frame} {key : BitVec 256} (hp : f.payload.length = f.lines.toNat)
    (hf : f.formOk = true) (hd : f.dstPeer.toNat ≠ r.self) : e.checkFrame r port (f.close key) = .inr (.stranger port) := by
  have h1 : ¬ ((f.close key).crc ≠ (f.close key).crcOf ∨ (f.close key).payload.length ≠ (f.close key).lines.toNat) := by
    rintro (h | h)
    · exact h rfl
    · exact h hp
  have h2 : (f.close key).formOk = true := hf
  have h3 : r.self = 0xFFFF ∨ (f.close key).dstPeer.toNat ≠ r.self := Or.inr hd
  unfold Engine.checkFrame
  rw [if_neg h1, h2, if_pos h3]
  rfl

/-- Frames that end the checks in their order: a wrong CRC, and another addressee. -/
theorem witness_FramesAreCheckedAndCarriedOut_drops :
    (linked.kit.hasPort 0 = true ∧ linked.eng.listening 0 = true ∧ base.eng.listening 0 = false) ∧
    ((spoilt (peerFrame ftAck)).crc ≠ (spoilt (peerFrame ftAck)).crcOf ∧
      (ftAck, Instr.ack 0 (spoilt (peerFrame ftAck))) ∈ frameCommands 0 (spoilt (peerFrame ftAck))) ∧
    linked.eng.checkFrame linked.regs 0 ((frameOf ftAck 9 0 0).close 11) = .inr (.stranger 0) :=
  ⟨by decide +kernel, ⟨spoilt_crc _, by simp [frameCommands]⟩,
    checkFrame_stranger rfl (by decide +kernel) (show (9#16).toNat ≠ regs.self by decide +kernel)⟩

/-- Port 0 has met 64 strangers in this beat, and another comes. -/
theorem witness_FramesAreCheckedAndCarriedOut_strangers :
    let s : State := { linked with eng := { linked.eng with pollen := { linked.eng.pollen with strangers := [(0, 64)] } } }
    s.eng.listening 0 = true ∧ s.eng.strangersAt 0 = 64 ∧ (∀ x ∈ s.eng.pollen.strangers, x.2 ≤ 64) ∧
      s.eng.checkFrame s.regs 0 ((frameOf ftAck 9 0 0).close 11) = .inr (.stranger 0) :=
  ⟨by decide +kernel, by decide +kernel, by decide +kernel,
    checkFrame_stranger rfl (by decide +kernel) (show (9#16).toNat ≠ regs.self by decide +kernel)⟩

theorem witness_FramesAreCheckedAndCarriedOut_session :
    linked.kit.hasPort 0 = true ∧ linked.eng.listening 0 = true ∧
      (∀ type ∈ [ftAck, ftCredit, ftNak, ftClose, ftProbe, ftProbeReply, ftAdmin],
        linked.eng.checkFrame linked.regs 0 (peerFrame type) = .inl (0, 0)) ∧
      (linked.eng.sess 0 0).live.getLsbD 0 = true ∧ (peerFrame ftAdmin).seq = ((linked.eng.sess 0 0).port 0).expect ∧
      linked.eng.power.state = 0 ∧ linked.eng.power.entering = false ∧ (peerFrame ftAdmin).body.extractLsb' 0 8 = 1 :=
  ⟨by decide +kernel, by decide +kernel, accepted, by decide +kernel, rfl, by decide +kernel, by decide +kernel, by decide +kernel⟩

/-- An OPEN of peer 2, which names the Pollen key of tenant 0. -/
theorem witness_FramesAreCheckedAndCarriedOut_open : let s := responder linked
    s.eng.listening 0 = true ∧ s.eng.checkFrame s.regs 0 ((frameOf ftOpen 5 0 0).close 7) = .inl (0, 0) ∧
      (s.eng.tenant 0).pollenKey = some 7 ∧ initiates s.regs 0 0 = false ∧ s.eng.units.noise = .healthy ∧ s.regs.self ≠ 0xFFFF :=
  ⟨by decide +kernel, checkFrame_close rfl (by decide +kernel) (by decide +kernel) (by decide +kernel) (by decide +kernel), by decide +kernel,
    by decide +kernel, by decide +kernel, by decide +kernel⟩

/-- The same OPEN while the noise source is not healthy. -/
theorem witness_FramesAreCheckedAndCarriedOut_wait :
    let s : State := { responder linked with eng := { linked.eng with units := { linked.eng.units with noise := .failed } } }
    s.eng.listening 0 = true ∧ s.eng.checkFrame s.regs 0 ((frameOf ftOpen 5 0 0).close 7) = .inl (0, 0) ∧
      (s.eng.tenant 0).pollenKey = some 7 ∧ initiates s.regs 0 0 = false ∧ s.eng.units.noise ≠ .healthy :=
  ⟨by decide +kernel, checkFrame_close rfl (by decide +kernel) (by decide +kernel) (by decide +kernel) (by decide +kernel), by decide +kernel,
    by decide +kernel, by decide +kernel⟩

/-- An ACCEPT of peer 2 to the setup of session 3. -/
theorem witness_FramesAreCheckedAndCarriedOut_accept : let s := settingUp .opening
    let f := (frameOf ftAccept 1 0 0).close (sessionKey 7 8 0 1 2 3)
    s.eng.listening 0 = true ∧ s.eng.checkFrame s.regs 0 f = .inl (0, 0) ∧ (s.eng.tenant 0).pollenKey = some 7 ∧
      (s.eng.sess 0 0).newSetup = true ∧ initiates s.regs 0 0 = true :=
  ⟨by decide +kernel, checkFrame_close rfl (by decide +kernel) (by decide +kernel) (by decide +kernel) rfl, by decide +kernel,
    by decide +kernel, by decide +kernel⟩

/-- A CONFIRM of peer 2. -/
theorem witness_FramesAreCheckedAndCarriedOut_confirm : let s := responder (settingUp .opening)
    let f := (frameOf ftConfirm 5 0 0).close 12
    s.eng.listening 0 = true ∧ s.eng.checkFrame s.regs 0 f = .inl (0, 0) ∧ ((s.eng.sess 0 0).newSetup = true ∧ (s.eng.sess 0 0).drawWait = none) ∧
      initiates s.regs 0 0 = false ∧ (s.eng.sess 0 0).state ≠ .keyed :=
  ⟨by decide +kernel, checkFrame_close rfl (by decide +kernel) (by decide +kernel) (by decide +kernel) (by decide +kernel), by decide +kernel,
    by decide +kernel, by decide +kernel⟩

/-- The linked machine with the session changed. -/
def session (f : Session → Session) : State := withE fun e => (keyed e).setSess 0 0 (f ((keyed e).sess 0 0))

theorem witness_SessionTimersAndPortsAct_open :
    (let s := session fun _ => Session.none
     s.eng.maySetup s.regs 0 0 = true ∧ (s.eng.sess 0 0).state = .none ∧ (s.eng.tenant 0).pollenKey = some 7 ∧
      lowestPort (s.eng.upMask (s.regs.peerMask 0 0)) = some 0 ∧ s.eng.units.noise = .healthy) ∧
    (let s := session fun v => { v with newSetup := true, openBeats := 64 }
     s.eng.maySetup s.regs 0 0 = true ∧ (s.eng.sess 0 0).newSetup = true ∧ 64 ≤ (s.eng.sess 0 0).openBeats) := by decide +kernel

theorem witness_SessionTimersAndPortsAct_rekey : let s := session fun v => v.setPort 0 { PortSess.fresh with nextSeq := 0x7FFF0000 }
    (s.eng.sess 0 0).state = .keyed ∧ (s.eng.sess 0 0).seqHigh = true := by decide +kernel

theorem witness_SessionTimersAndPortsAct_retransmit :
    let x : TxFrame := { seq := some 4, frame := Frame.bare ftAdmin 1, retries := 0 }
    let s := session fun v => v.setPort 0 { PortSess.fresh with unacked := [x] }
    s.kit.hasPort 0 = true ∧ ((s.eng.sess 0 0).port 0).unacked = x :: [] := by decide +kernel

theorem witness_SessionTimersAndPortsAct_control : let s := session fun v => v.setPort 0 { PortSess.fresh with owed := 1 }
    s.kit.hasPort 0 = true ∧ 0 < ((s.eng.sess 0 0).port 0).owed ∧ s.eng.canSend s.regs = true ∧ (s.eng.sess 0 0).state = .keyed ∧
      (s.eng.sess 0 0).live.getLsbD 0 = true ∧ s.eng.granted 0 + 64 ≤ s.regs.inboundLines ∧ s.eng.promised s.kit + 64 ≤ Part.size .vault ∧
      (s.eng.creditNext 0).getD (16 * 0 + 0) = 16 * 0 + 0 := by decide +kernel

theorem witness_SessionTimersAndPortsAct_peer :
    (let s := session fun v => { v with sinceRx := 16 }
     (s.eng.sess 0 0).state = .keyed ∧ s.regs.probeInterval = 16 ∧ s.regs.probeInterval ≤ (s.eng.sess 0 0).sinceRx ∧ s.eng.canSend s.regs = true) ∧
    (let s := session fun v => { v with sinceRx := 64 }
     ∃ x, 4 * s.regs.probeInterval ≤ (s.eng.sess 0 0).sinceRx ∧
      (s.eng.pollen.sess.filter fun y => s.regs.peerId (y.1 / 16) (y.1 % 16) == s.regs.peerId 0 0) = [x] ∧ x.1 = 16 * 0 + 0) :=
  ⟨by decide +kernel, ⟨_, by decide +kernel, rfl, rfl⟩⟩

/-- Port 0 falls and rises with one KEYED session, and with none. -/
theorem witness_SessionTimersAndPortsAct_ports :
    (∃ x, (linked.eng.pollen.sess.filter fun y => y.2.state == .keyed) = [x] ∧
      (BitVec.ofNat 48 (linked.regs.peerMask (x.1 / 16) (x.1 % 16))).getLsbD 0 = true) ∧
    linked.kit.hasPort 0 = true ∧ (∀ x ∈ base.eng.pollen.sess, x.2.state ≠ .keyed) :=
  ⟨⟨_, rfl, by decide +kernel⟩, by decide +kernel, by decide +kernel⟩

/-! ### The vault -/

/-- The base machine with this packet in the IN window of host queue 0. -/
def queued (p : Packet) (f : Engine → Engine := id) : State := withE fun e =>
  f { e with vault := { e.vault with queues := [(0, { VQueue.fresh with packets := [p], inTail := 1, inFetch := 1 })] } }

/-- A CMD with tag 6. -/
def cmdPacket (op len arg : Nat) (payload : List MemBeat) : Packet :=
  { hdr := (mkHdr ptCmd 6 op 0 len 0 arg).word, payload := payload, rsv := false }

/-- The queue may take the packet `p`. -/
def served (p : Packet) (f : Engine → Engine) : Bool :=
  let s := queued p f
  let h := vaultHdrOf p.hdr
  h.type == ptCmd && s.regs.vqActive 0 && s.eng.scheduling && decide ((if movesIn h.opcode then 2 else 1) ≤ s.eng.outFree s.regs 0)

theorem offered_of {p : Packet} {f : Engine → Engine} (h : served p f = true) (hq : ((queued p f).eng.vq 0).packets = [p] := by rfl) :
    Offered (queued p f) 0 p (vaultHdrOf p.hdr) := by
  simp only [served, Bool.and_eq_true, beq_iff_eq, decide_eq_true_eq] at h
  exact ⟨⟨_, hq⟩, rfl, h.1.1.1, h.1.1.2, h.1.2, h.2⟩

/-- Nothing waits in the host queue, and no credit has been used. -/
theorem outClear_queued (p : Packet) : OutClear (queued p) 0 0 :=
  ⟨by show ∀ c ∈ ([] : List VCmd), c.answer = none; nofun, by show ∀ w ∈ VTenant.fresh.weights, 0 < w; decide +kernel,
    by show VArb.fresh.credit.length = 3; decide +kernel, by show ∀ x ∈ VArb.fresh.credit, -4096 ≤ x; decide +kernel⟩

/-- Every opcode of a host queue, on a body that holds nothing and a front without dirty lines. -/
theorem witness_HostCommandsAreServed_accepted :
    ∀ p ∈ [cmdPacket opWrite 64 0 [], cmdPacket opFwDownload 64 0 [], cmdPacket opGetFeature 0 1 [], cmdPacket opSetFeature 0 (2 + 2 ^ 32) [],
        cmdPacket opIdentify 256 0 [], cmdPacket opGetLog 1024 0x102 [], cmdPacket opRead 64 0 [], cmdPacket opFlush 0 0 [],
        cmdPacket opVerify 64 0 [{ data := 5, poison := false }]],
      Offered (queued p) 0 p (vaultHdrOf p.hdr) ∧ NoneHolds (cmdConds (queued p) 0 p (vaultHdrOf p.hdr)) ∧ OutClear (queued p) 0 0 ∧
        (queued p).regs.vqTenant 0 = 0 ∧ Settled (queued p) := by
  intro p hp
  refine ⟨offered_of ?_, ?_, outClear_queued p, by show regs.vqTenant 0 = 0; decide +kernel, rfl, rfl, fun m c hc => ?_⟩
  · revert p; decide +kernel
  · unfold NoneHolds; revert p; decide +kernel
  · exfalso
    revert hc
    unfold Engine.vq tabGet
    show c ∈ ((tabFind m [(0, ({ VQueue.fresh with packets := [p], inTail := 1, inFetch := 1 } : VQueue))]).getD VQueue.fresh).cmds → False
    by_cases h : m = 0
    · subst h; show c ∈ ([] : List VCmd) → False; nofun
    · have : tabFind m [(0, ({ VQueue.fresh with packets := [p], inTail := 1, inFetch := 1 } : VQueue))] = none := by
        unfold tabFind
        simp [Ne.symm h]
      rw [this]; show c ∈ ([] : List VCmd) → False; nofun

/-- Their data fits into the OUT window, and the line read is clean. -/
theorem witness_HostCommandsAreServed_fits :
    (let p := cmdPacket opIdentify 256 0 []
     let s := queued p
     OutFits s 0 (vaultHdrOf p.hdr) (plainBeats (s.eng.identifyData s.regs 0 (s.eng.newCmd 0 none (vaultHdrOf p.hdr))))) ∧
    (let p := cmdPacket opGetLog 1024 0x102 []
     let s := queued p
     OutFits s 0 (vaultHdrOf p.hdr) (plainBeats (s.eng.logPage 0 2))) ∧
    (let p := cmdPacket opRead 64 0 []
     let s := queued p
     ReadsClean s 0 0 ∧ lineRange 0 64 = [0] ∧ OutFits s 0 (vaultHdrOf p.hdr) [{ data := 5, poison := false }] ∧
      s.eng.partRead s.regs 0 0 = none ∧ (s.eng.body.upset (s.eng.partKey s.regs 0 0)).flips = [] ∧ Line.empty.poison = false) :=
  ⟨⟨by decide +kernel, by decide +kernel⟩, ⟨by decide +kernel, by decide +kernel⟩, rfl, by decide +kernel, ⟨by decide +kernel, by decide +kernel⟩,
    by decide +kernel, rfl, rfl⟩

/-- A READ of no byte. -/
theorem witness_HostCommandsAreServed_refused : let p := cmdPacket opRead 0 0 []
    Offered (queued p) 0 p (vaultHdrOf p.hdr) ∧ (opRead, Instr.read (.host 0) [] {}) ∈ vaultCommands 0 ∧
      (vaultHdrOf p.hdr).opcode = opRead ∧ judge (cmdConds (queued p) 0 p (vaultHdrOf p.hdr)) = some 0x11 :=
  ⟨offered_of (by decide +kernel), .tail _ (.head _), by decide +kernel, by decide +kernel⟩

/-- An image of version 4 without a payload, which that key signed. -/
def fwImage : List Byte :=
  natLE 4 0x57464852 ++ natLE 4 0 ++ natLE 4 4 ++ zeroBytes 4 ++ natLE 96 signer.toNat ++
    natLE 48 0x99056e27da7b998da1eeec2904816c57fe935ed5837c37456c9fd14892d3f8c4749b66e3afb81d626356f3b55b4ddd8 ++
    natLE 48 0xb310a0d7dc2228750dae8fb941113ad432e1f9bec0383b4405d2a85a09198e71af5aa72d20b58b9832a0aeb964fe0e4b ++ zeroBytes 48

/-- The image staged, and the digest of its key fused. -/
def fwStaged (e : Engine) : Engine :=
  { e with vault := { e.vault with staging := fwImage }
           keys := { e.keys with fwDigest := some 0x855b6d7c09ee6e113a2548fb5e06e74cdb7044febcadc4d9629050ed87cf1e9b8f9eb9a63e0b9dc014cd799b5cb0afb2 } }

/-- FW_COMMIT of both kinds: of nothing staged, and of an image that is authentic; one of no kind is refused. -/
theorem witness_FirmwareIsCommitted : ∀ arg ∈ [1, 2], let p := cmdPacket opFwCommit 0 arg []
    (Offered (queued p) 0 p (vaultHdrOf p.hdr) ∧ NoneHolds (cmdConds (queued p) 0 p (vaultHdrOf p.hdr)) ∧ OutClear (queued p) 0 0 ∧
      (vaultHdrOf p.hdr).arg = arg ∧ (withE id).eng.authentic (queued p).eng.vault.staging = false) ∧
    (let s := queued p fwStaged
     Offered s 0 p (vaultHdrOf p.hdr) ∧ NoneHolds (cmdConds s 0 p (vaultHdrOf p.hdr)) ∧ OutClear s 0 0 ∧
      s.eng.authentic s.eng.vault.staging = true) := by
  intro arg ha
  refine ⟨⟨offered_of ?_, ?_, outClear_queued _, ?_, by show (withE id).eng.authentic [] = false; decide +kernel⟩, offered_of ?_, ?_, ?_,
    by show (withE fwStaged).eng.authentic fwImage = true; decide +kernel⟩
  · revert arg; decide +kernel
  · unfold NoneHolds; revert arg; decide +kernel
  · revert arg; decide +kernel
  · revert arg; decide +kernel
  · unfold NoneHolds; revert arg; decide +kernel
  · exact ⟨by show ∀ c ∈ ([] : List VCmd), c.answer = none; nofun, by show ∀ w ∈ VTenant.fresh.weights, 0 < w; decide +kernel,
      by show VArb.fresh.credit.length = 3; decide +kernel, by show ∀ x ∈ VArb.fresh.credit, -4096 ≤ x; decide +kernel⟩

theorem witness_FirmwareIsCommitted_refused : let p := cmdPacket opFwCommit 0 3 []
    Offered (queued p) 0 p (vaultHdrOf p.hdr) ∧ (vaultHdrOf p.hdr).opcode = opFwCommit ∧ (vaultHdrOf p.hdr).arg = 3 ∧
      judge (cmdConds (queued p) 0 p (vaultHdrOf p.hdr)) = some 0x11 :=
  ⟨offered_of (by decide +kernel), by decide +kernel, by decide +kernel, by decide +kernel⟩

/-- Host queue 0 is active, queue 1 is not; the last line of the window is visible, the first beyond it is not. -/
theorem witness_VaultDoorbellsAndResets_doorbells :
    (base.eng.cfgOpen = true ∧ base.regs.vqActive 1 = false ∧ base.regs.vqActive 0 = true ∧ base.regs.inSize 0 = 128 ∧ 128 ≤ (128#32).toNat ∧
      ((127#32).toNat < base.regs.inSize 0 ∧
        ((base.eng.vq 0).inTail + base.regs.inSize 0 - base.eng.inHead base.regs 0) % base.regs.inSize 0 ≤
          ((127#32).toNat + base.regs.inSize 0 - base.eng.inHead base.regs 0) % base.regs.inSize 0) ∧
      base.eng.power.state = 0 ∧ base.eng.power.entering = false) ∧
    (let s := withE fun e => { e with vault := { e.vault with queues := [(0, { VQueue.fresh with outTail := 1 })] } }
     (1#32).toNat < s.regs.outSize 0 ∧ ((1#32).toNat + s.regs.outSize 0 - (s.eng.vq 0).outHead) % s.regs.outSize 0 ≤ s.eng.outUnreleased s.regs 0 ∧
      s.eng.outUnreleased s.regs 0 < (2 + s.regs.outSize 0 - (s.eng.vq 0).outHead) % s.regs.outSize 0 ∧ (s.eng.vq 0).cmds = [] ∧
      (s.eng.vq 0).unread = []) := by decide +kernel

/-- The header line of a packet without payload becomes visible. -/
theorem witness_VaultDoorbellsAndResets_packet : let v := base.eng.vq 0
    v.phaseWait = none ∧ v.chain = [] ∧ v.inFetch < base.regs.inSize 0 ∧ 1 < base.regs.inSize 0 ∧
      (1#32).toNat = (v.inFetch + 1) % base.regs.inSize 0 ∧ (1#512).getLsbD 0 = v.inPhase ∧ lineCount 1 = 0 := by decide +kernel

/-- A host queue that waits on the PHASE of its next line; 15 is its last wait. -/
theorem witness_VaultDoorbellsAndResets_phase : ∀ n ∈ [0, 14],
    let s := withE fun e => { e with vault := { e.vault with queues := [(0, { VQueue.fresh with inTail := 1, phaseWait := some n })] } }
    (s.eng.vq 0).phaseWait = some n ∧ (s.eng.vq 0).phaseBeat = s.eng.beat.num ∧ (0#512).getLsbD 0 ≠ (s.eng.vq 0).inPhase ∧ n + 1 < 16 ∧
      (let s : State := { s with eng := { s.eng with beat := { s.eng.beat with num := 7 } } }
       (s.eng.vq 0).phaseWait = some n ∧ (s.eng.vq 0).phaseBeat ≠ s.eng.beat.num) := by decide +kernel

/-- A reset of host queue 0, and of the link queue of port 0. -/
theorem witness_VaultDoorbellsAndResets_reset : ∀ q ∈ [0, 16], let value : Word := BitVec.ofNat 32 (2 ^ 31 + q)
    base.eng.cfgOpen = true ∧ value.getLsbD 31 = true ∧ bits 30 6 value.toNat = 0 ∧ (base.eng.vq (value.toNat % 64)).resetting = false ∧
      (value.toNat % 64 < 16 ∨ (16 ≤ value.toNat % 64 ∧ value.toNat % 64 < 16 + base.kit.linkPorts ∧ (base.eng.vq (value.toNat % 64)).cmds = [])) := by
  decide +kernel

/-- A WRITE of tenant 0 with two lines. -/
def writeCmd (session : Option Nat) : VCmd :=
  { tag := 6, opcode := opWrite, flags := 0, tenant := 0, session := session, offset := 0, len := 128, arg := 0, ready := false, staged := []
    waiting := false, waits := [], failures := [], verify := none, toSend := [], answer := none, age := 64, order := 0, serving := false
    clear := [] }

/-- The base machine with the vault queue `n` holding these packets and this command. -/
def holdsCmd (n : Nat) (ps : List Packet) (c : VCmd) : State := withE fun e =>
  { e with vault := { e.vault with queues := [(n, { VQueue.fresh with packets := ps, cmds := [c], inTail := 2, inFetch := 2 })] } }

theorem witness_VaultExchangesMove_ready : let s := holdsCmd 0 [] (writeCmd none)
    let c := writeCmd none
    ((s.eng.vq (0#6).toNat).cmds.find? fun x => x.tag == c.tag && movesIn x.opcode && !x.ready && x.answer.isNone) = some c ∧ c.session = none ∧
      ((s.eng.chooseCmd (arbVault c.tenant.toNat) c.tenant (s.eng.waitingWrites c.tenant)).map fun y => y.1) = some (s.eng.candidate 0 c) ∧
      s.eng.vaultRoom s.regs c.tenant (c.len / 64) = true := by decide +kernel

/-- The session of the command is gone, or is there, and the command has waited four probe intervals. -/
theorem witness_VaultExchangesMove_timeout :
    let s := holdsCmd 16 [] (writeCmd (some 0))
    let c := writeCmd (some 0)
    ((s.eng.vq (16#6).toNat).cmds.find? fun x => x.tag == c.tag && x.session.isSome) = some c ∧ c.session = some 0 ∧
      4 * s.regs.probeInterval ≤ c.age ∧ s.eng.sessionLive 16 c = false ∧ (keyed s.eng).sessionLive 16 c = true := by decide +kernel

/-- DATA of one line at the offset `off`; the last of its command when `last` is 1. -/
def dataPacket (off last : Nat) : Packet :=
  { hdr := (mkHdr ptData 6 opWrite (8 * last) 0 off 0).word, payload := [{ data := 5, poison := false }], rsv := false }

/-- In place with one more line to come, and out of place. -/
theorem witness_VaultExchangesMove_data : let c : VCmd := { writeCmd none with ready := true }
    let s := holdsCmd 0 [dataPacket 0 0] c
    (s.eng.vq 0).packets = dataPacket 0 0 :: [] ∧ s.regs.vqActive 0 = true ∧ s.eng.scheduling = true ∧ (vaultHdrOf (dataPacket 0 0).hdr).type = ptData ∧
      ((s.eng.vq 0).cmds.find? fun x => x.tag == (vaultHdrOf (dataPacket 0 0).hdr).tag) = some c ∧ c.ready = true ∧ c.waiting = false ∧
      c.answer = none ∧ (dataPacket 0 0).payload ≠ [] ∧ (vaultHdrOf (dataPacket 0 0).hdr).offset = c.offset + 64 * c.staged.length ∧
      64 * (c.staged.length + (dataPacket 0 0).payload.length) < c.len ∧ (vaultHdrOf (dataPacket 0 0).hdr).last = false ∧
      (vaultHdrOf (dataPacket 64 0).hdr).offset ≠ c.offset + 64 * c.staged.length ∧ c.session = none := by decide +kernel

/-- The last line of a WRITE and of a download, whose way out is clear. -/
theorem witness_VaultExchangesMove_last : ∀ op ∈ [opWrite, opFwDownload],
    let c : VCmd := { writeCmd none with opcode := op, ready := true, staged := [{ data := 4, poison := false }] }
    let s := holdsCmd 0 [dataPacket 64 1] c
    ((s.eng.vq 0).cmds.find? fun x => x.tag == (vaultHdrOf (dataPacket 64 1).hdr).tag) = some c ∧
      (vaultHdrOf (dataPacket 64 1).hdr).offset = c.offset + 64 * c.staged.length ∧
      64 * (c.staged ++ (dataPacket 64 1).payload).length = c.len ∧ (vaultHdrOf (dataPacket 64 1).hdr).last = true ∧ c.opcode = op ∧
      bitOf 2 c.flags = false ∧ s.eng.front.anyDirty = false ∧
      ((∀ x ∈ (s.eng.vq 0).cmds, x.answer = none) ∧ (∀ w ∈ (s.eng.vtenant 0).weights, 0 < w) ∧
        let a := tabGet (fun _ => VArb.fresh) (arbOut 0) s.eng.vault.arbs
        a.credit.length = 3 ∧ ∀ x ∈ a.credit, -4096 ≤ x) := by decide +kernel

/-- A VAULT frame of peer 2 that carries this packet header. -/
def vaultFrameOf (h : VaultHdr) : Frame := (frameOf ftVault 1 0 (bodyOf h.word 0)).close 11

/-- The linked machine with a cut of tenant 0, and an exchange with tag 6 under way. -/
def exchanging (use : XchgFor) : State :=
  let x : Xchg := { tenant := 0, slot := 0, port := 0, tag := 6, use := use, dataSent := false }
  cutting .drain (running []) (withE fun e => { keyed e with pollen := { (keyed e).pollen with xchgs := [x] } })

/-- A VAULT frame of peer 2 is accepted in this machine: what is asked of it beside its TAG and its CRC, which are its own. -/
def vaultFrameOk (h : VaultHdr) (s : State) : Bool :=
  let f := frameOf ftVault 1 0 (bodyOf h.word 0)
  s.kit.hasPort 0 && s.eng.listening 0 && s.eng.power.state == 0 && !s.eng.power.entering && f.formOk && s.regs.self != 0xFFFF &&
    f.dstPeer.toNat == s.regs.self && decide (s.eng.matchFrame s.regs (f.close 11) = some (0, 0, 11)) &&
    f.seq == ((s.eng.sess 0 0).port 0).expect && decide (f.lines.toNat ≤ (((s.eng.sess 0 0).port 0).limitOut - ((s.eng.sess 0 0).port 0).charged).toNat)

theorem vaultFrame_of {h : VaultHdr} {s : State} (hs : vaultFrameOk h s = true) : VaultFrameOf s 0 0 0 (vaultFrameOf h) := by
  simp only [vaultFrameOk, Bool.and_eq_true, beq_iff_eq, bne_iff_ne, ne_eq, decide_eq_true_eq, Bool.not_eq_true'] at hs
  obtain ⟨⟨⟨⟨⟨⟨⟨⟨⟨h1, h2⟩, h3⟩, h4⟩, h5⟩, h6⟩, h7⟩, h8⟩, h9⟩, h10⟩ := hs
  exact ⟨h1, h2, h3, h4, rfl, checkFrame_close rfl h5 h6 h7 h8, h9, h10⟩

/-- RESP with 0x00 and with a failure, and XFER_RDY, for the clearing of a cut; RESP for what an ended job left, and for nothing. -/
theorem witness_VaultExchangesMove_exchange : ∀ z ∈ [(ptResp, 0), (ptResp, 0x26), (ptXferRdy, 0)], let h : VaultHdr := { mkHdr z.1 6 opWrite 0 0 0 0 with code := BitVec.ofNat 8 z.2 }
    (let s := exchanging (.cut .clear)
     vaultFrameOk h s = true ∧ (vaultHdrOf (frameOf ftVault 1 0 (bodyOf h.word 0)).bodyLo).type = z.1 ∧ (vaultHdrOf (frameOf ftVault 1 0 (bodyOf h.word 0)).bodyLo).code.toNat = z.2 ∧
      ((s.eng.xchgOf 0 0 0 (vaultHdrOf (frameOf ftVault 1 0 (bodyOf h.word 0)).bodyLo).tag).map fun x => (x.use, x.dataSent)) = some (.cut .clear, false) ∧
      s.eng.cut.run = some (running [])) ∧
    (let u : XchgFor := .closing (some { ring := 0, cmdId := 9, index := 0, irq := false }) 0x21 false []
     let s := exchanging u
     vaultFrameOk h s = true ∧ ((s.eng.xchgOf 0 0 0 6).map fun x => x.use) = some u) ∧
    (let s := exchanging .over
     vaultFrameOk h s = true ∧ ((s.eng.xchgOf 0 0 0 6).map fun x => x.use) = some .over) := by decide +kernel

/-- RESP and XFER_RDY that answer nothing, in a queue without commands and in one with a command of that tag. -/
theorem witness_VaultExchangesMove_stray : ∀ type ∈ [ptResp, ptXferRdy], let h : VaultHdr := mkHdr type 6 opWrite 0 0 0 0
    (vaultFrameOk h linked = true ∧ linked.eng.xchgOf 0 0 0 (vaultHdrOf (frameOf ftVault 1 0 (bodyOf h.word 0)).bodyLo).tag = none ∧ (linked.eng.vq 16).cmds = []) ∧
    (let s : State := { linked with eng := { keyed (holdsCmd 16 [] (writeCmd (some 0))).eng with draws := 0 } }
     vaultFrameOk h s = true ∧ s.eng.xchgOf 0 0 0 (vaultHdrOf (frameOf ftVault 1 0 (bodyOf h.word 0)).bodyLo).tag = none ∧
      ((s.eng.vq 16).cmds.find? fun c => c.tag == (vaultHdrOf (frameOf ftVault 1 0 (bodyOf h.word 0)).bodyLo).tag && c.session == some (16 * 0 + 0)) = some (writeCmd (some 0)) ∧
      (writeCmd (some 0)).answer = none) := by decide +kernel

/-- The linked machine with window 0, of one page, for peer 2 of tenant 0. -/
def windowed : State := { linked with regs := { regs with live := tabSet 0xE408 1 (tabSet 0xE40C 0x80000002 live) } }

/-- CMDs of frames: of each row that frames carry, and of no row. The last is refused; no steward may be there. -/
theorem witness_VaultExchangesMove_command : ∀ z ∈ [(opWrite, 64), (opRead, 64), (opFlush, 0), (opIdentify, 256), (9, 0)],
    let h : VaultHdr := mkHdr ptCmd 6 z.1 0 z.2 0 0
    let got := vaultHdrOf (frameOf ftVault 1 0 (bodyOf h.word 0)).bodyLo
    let conds := (false, 0x11) :: fieldConds got [] ++ windowed.eng.stateConds windowed.regs 16 0 (some 0) got
    vaultFrameOk h windowed = true ∧ got.type = ptCmd ∧ got.opcode = z.1 ∧ windowed.eng.mayServe = true ∧
      (if z.1 = 9 then opDefined got.opcode = false ∧ judge conds = some 0x10 else ∀ p ∈ conds, p.1 = false) ∧
      (let s : State := { windowed with eng := { windowed.eng with referee := { windowed.eng.referee with steward := none } } }
       vaultFrameOk h s = true ∧ s.eng.mayServe = false) := by decide +kernel

/-! ### The KEY port and the DBG port -/

/-- A machine whose slots are all FREE, with these fuses and buffers. -/
def fuses (ks : Keys) : State := { unowned with eng := { unowned.eng with keys := ks } }

def blank : Keys := { identity := none, chain := [], chainLocked := false, fwWords := [], fwDigest := none }

/-- Nothing set; everything set; and the buffers at their last free word and full. -/
theorem witness_KeyCommandsSetTheFusesOnce :
    (base.eng.cfgOpen = true ∧ base.eng.allFree = false) ∧
    (let s := fuses blank
     s.eng.cfgOpen = true ∧ s.eng.allFree = true ∧ s.eng.keys.identity = none ∧ s.eng.units.noise = .healthy ∧ s.eng.keys.chainLocked = false ∧
      s.eng.keys.fwDigest = none) ∧
    (let s := fuses { blank with chain := List.replicate 1023 1, fwWords := List.replicate 11 1 }
     s.eng.cfgOpen = true ∧ s.eng.keys.chain.length < 1024 ∧ s.eng.keys.fwWords.length < 12) ∧
    (let s := fuses { blank with chain := List.replicate 1024 1, fwWords := List.replicate 12 1 }
     s.eng.cfgOpen = true ∧ s.eng.keys.fwDigest = none ∧ 12 ≤ s.eng.keys.fwWords.length ∧ 1024 ≤ s.eng.keys.chain.length) ∧
    (let s : State := { unowned with eng := { unowned.eng with keys := blank, units := { unowned.eng.units with noise := .failed } } }
     s.eng.cfgOpen = true ∧ s.eng.allFree = true ∧ s.eng.keys.identity = none ∧ s.eng.units.noise ≠ .healthy) ∧
    (let s := fuses { identity := some 1, chain := [], chainLocked := true, fwWords := [], fwDigest := some 2 }
     s.eng.keys.identity.isSome = true ∧ s.eng.keys.chainLocked = true ∧ s.eng.keys.fwDigest.isSome = true ∧ (23#32).toNat ≤ 23 ∧
      23 < (24#32).toNat) := by decide +kernel

theorem witness_FusesStayAsTheyAreSet :
    let s : State := { fuses { identity := some 1, chain := [3], chainLocked := true, fwWords := [], fwDigest := some 2 } with
      pending := [.certWord true 5] }
    (∃ t, step s = .next t) ∧ s.eng.keys.identity = some 1 ∧ s.eng.keys.chainLocked = true ∧ s.eng.keys.fwDigest = some 2 :=
  ⟨⟨_, rfl⟩, rfl, rfl, rfl⟩


/-- Reads of a word that no register has, of COMMIT's status, and of BODY_PART of tenant 0, without and with its consent. -/
theorem witness_DebugPortAsksForConsent_reads :
    (let dr : BitVec 56 := (0x1000C#20).setWidth 56 <<< 35
     dr.getLsbD 55 = false ∧ dr.extractLsb' 35 20 = 0x1000C#20) ∧
    base.eng.cfgOpen = true ∧ cfgRead base.kit base.regs base.eng 2 = none ∧
    (cfgRead base.kit base.regs base.eng 0x2000 = some 0x9C4 ∧ wordTenant base.regs base.eng 0x2000 = none) ∧
    (cfgRead base.kit base.regs base.eng 0x8100 = some 0x200 ∧ wordTenant base.regs base.eng 0x8100 = some 0 ∧
      (base.eng.tenant 0).policy.getLsbD 1 = false ∧ ((slot0 fun x => { x with policy := 2 }).eng.tenant 0).policy.getLsbD 1 = true) := by
  decide +kernel

theorem witness_DebugPortAsksForConsent_writes :
    let dr : BitVec 56 := (1#56 <<< 55) ||| ((0x2000#20).setWidth 56 <<< 35) ||| ((0x9C5#32).setWidth 56 <<< 3)
    base.eng.cfgOpen = true ∧ dr.getLsbD 55 = true ∧ dr.extractLsb' 35 20 = 0x2000#20 ∧ (0x2000#20).toNat % 4 = 0 ∧ (0x2000#20).toNat < 0x80000 ∧
      rwWord base.kit (0x2000#20).toNat = some ⟨0xFFF, 0xFFFFF000⟩ ∧ unowned.eng.allFree = true ∧ base.eng.allFree = false := by decide +kernel

end Sys2Proof.Tests
end

/-!
PROOFS. How every command acts: on the engine alone or on the register file too, and only when the units that it names exist (O3); and the
form of the register file, which every command keeps (O6).
-/

namespace Sys2Proof.Machine

/-! ### How a command acts on the state -/

/-- The outcome changes the engine alone; it is a fault exactly when `ok` does not hold. -/
def ActsOnEngine (ok : Bool) (s : State) (o : Out) : Prop :=
  ∃ e : Engine, o = s.needs ok fun s => .next { s with eng := e }

/-- The outcome may change the register file, whose form it keeps, and the engine; it is no fault. -/
def ActsOnRegs (s : State) (o : Out) : Prop :=
  ∃ (r : Regs) (e : Engine), o = .next { s with regs := r, eng := e } ∧ (s.regs.wf s.kit → r.wf s.kit)

theorem actsOnEngine_next (s : State) : ActsOnEngine true s (.next s) := ⟨s.eng, rfl⟩

theorem actsOnEngine_effCfg (f : Kit → Regs → Engine → Engine) (s : State) : ActsOnEngine true s (s.effCfg f) := ⟨_, rfl⟩

theorem actsOnEngine_needs (ok : Bool) (f : Kit → Regs → Engine → Engine) (s : State) :
    ActsOnEngine ok s (s.needs ok fun s => s.eff f) := ⟨_, rfl⟩

theorem actsOnEngine_when {c : Bool} {s : State} {o : Out} (h : ActsOnEngine true s o) :
    ActsOnEngine true s (if c then o else .next s) := by
  cases c
  · exact actsOnEngine_next s
  · exact h

theorem actsOnRegs_effRegs {f : Kit → Regs → Engine → Regs × Engine} (s : State) (h : s.regs.wf s.kit → (f s.kit s.regs s.eng).1.wf s.kit) :
    ActsOnRegs s (s.effRegs f) := ⟨_, _, rfl, h⟩

theorem actsOnRegs_when {c : Prop} [Decidable c] {s : State} {o : Out} (h : ActsOnRegs s o) : ActsOnRegs s (if c then o else .next s) := by
  split
  · exact h
  · exact ⟨s.regs, s.eng, rfl, id⟩

/-! ### The form of the live words -/

/-- A table of live words has its form: it is canonical, and every word holds RW bits only. -/
def LiveForm (k : Kit) (t : Tab Word) : Prop :=
  tabWf resetWord t = true ∧ ∀ off i, rwWord k off = some i → (tabGet resetWord off t).toNat &&& i.rw = (tabGet resetWord off t).toNat

theorem Regs.wf_iff {k : Kit} {r : Regs} : r.wf k ↔ LiveForm k r.live ∧ tabWf resetWord r.shadow = true := by
  unfold Machine.Regs.wf LiveForm
  exact ⟨fun ⟨hl, hs, hw⟩ => ⟨⟨hl, hw⟩, hs⟩, fun ⟨⟨hl, hw⟩, hs⟩ => ⟨hl, hs, hw⟩⟩

theorem LiveForm.put {k : Kit} {t : Tab Word} {o : Nat} {v : Word} (h : LiveForm k t)
    (hv : ∀ i, rwWord k o = some i → v.toNat &&& i.rw = v.toNat) : LiveForm k (tabPut resetWord o v t) := by
  refine ⟨tabWf_put h.1, fun off i hi => ?_⟩
  by_cases ho : off = o
  · subst ho
    rw [tabGet_put_same]
    exact hv i hi
  · rw [tabGet_put_ne ho]
    exact h.2 off i hi

theorem LiveForm.erase {k : Kit} {t : Tab Word} (o : Nat) (h : LiveForm k t) : LiveForm k (tabErase o t) := by
  refine ⟨tabWf_erase h.1, fun off i hi => ?_⟩
  unfold tabGet
  by_cases ho : off = o
  · subst ho
    rw [tabFind_erase_same]
    exact resetWord_rw k off i hi
  · rw [tabFind_erase_ne ho]
    exact h.2 off i hi

theorem tabFind_filter_key {α : Type} (p : Nat → Bool) (k : Nat) (t : Tab α) :
    tabFind k (t.filter fun x => p x.1) = if p k then tabFind k t else none := by
  induction t with
  | nil => simp
  | cons x t ih =>
    obtain ⟨j, v⟩ := x
    by_cases hj : j = k
    · subst hj
      cases hp : p j <;> simp [tabFind, hp, ih]
    · cases hp : p j <;> simp [tabFind, hp, ih, hj]

theorem LiveForm.filter {k : Kit} {t : Tab Word} (p : Nat → Bool) (h : LiveForm k t) : LiveForm k (t.filter fun x => p x.1) := by
  refine ⟨tabWf_filter h.1, fun off i hi => ?_⟩
  unfold tabGet
  rw [tabFind_filter_key]
  split
  · exact h.2 off i hi
  · exact resetWord_rw k off i hi

theorem liveForm_nil (k : Kit) : LiveForm k [] := ⟨rfl, resetWord_rw k⟩

/-! ### The operations of the register file keep its form -/

theorem Regs.wf_reset (k : Kit) : Regs.reset.wf k := Regs.wf_iff.mpr ⟨liveForm_nil k, rfl⟩

theorem Regs.wf_setShadow {k : Kit} {r : Regs} (off : Nat) (v : Word) (h : r.wf k) : (r.setShadow off v).wf k := by
  obtain ⟨hl, hs⟩ := Regs.wf_iff.mp h
  exact Regs.wf_iff.mpr ⟨hl, tabWf_put hs⟩

theorem Regs.wf_discard {k : Kit} {r : Regs} (h : r.wf k) : r.discard.wf k := by
  obtain ⟨hl, -⟩ := Regs.wf_iff.mp h
  exact Regs.wf_iff.mpr ⟨hl, hl.1⟩

theorem Regs.wf_outcome {k : Kit} {r : Regs} (source : BitVec 2) (code : Code) (off : Nat) (h : r.wf k) : (r.outcome source code off).wf k := h

/-- An event that sets a word (R421) keeps the form when it sets RW bits only. -/
theorem Regs.wf_setBoth {k : Kit} {r : Regs} {off v : Nat} (h : r.wf k)
    (hv : ∀ i, rwWord k off = some i → v % 2 ^ 32 &&& i.rw = v % 2 ^ 32) : (r.setBoth off v).wf k := by
  obtain ⟨hl, hs⟩ := Regs.wf_iff.mp h
  refine Regs.wf_iff.mpr ⟨hl.put fun i hi => ?_, tabWf_put hs⟩
  rw [BitVec.toNat_ofNat]
  exact hv i hi

theorem Regs.wf_resetBoth {k : Kit} {r : Regs} (offs : List Nat) (h : r.wf k) : (r.resetBoth offs).wf k := by
  obtain ⟨hl, hs⟩ := Regs.wf_iff.mp h
  exact Regs.wf_iff.mpr ⟨List.foldlRecOn (motive := LiveForm k) offs _ hl fun _ ht o _ => ht.erase o,
    List.foldlRecOn (motive := fun t => tabWf resetWord t = true) offs _ hs fun _ ht _ _ => tabWf_erase ht⟩

theorem Regs.wf_fnReset {k : Kit} {r : Regs} (h : r.wf k) : r.fnReset.wf k := by
  obtain ⟨hl, hs⟩ := Regs.wf_iff.mp h
  exact Regs.wf_iff.mpr ⟨hl.filter fun o => o == 0x2000, tabWf_filter hs⟩

theorem Regs.shadowWord_lt (r : Regs) (off : Nat) : r.shadowWord off < 2 ^ 32 := BitVec.isLt _

/-- A commit takes the RW bits of the shadow alone (R416). -/
theorem Regs.wf_proposed {k : Kit} {r : Regs} (h : r.wf k) : (r.proposed k).wf k := by
  obtain ⟨hl, hs⟩ := Regs.wf_iff.mp h
  refine Regs.wf_iff.mpr ⟨List.foldlRecOn (motive := LiveForm k) _ _ hl fun t ht off _ => ?_, hs⟩
  split
  case h_1 i hi =>
    refine ht.put fun j hj => ?_
    obtain rfl : i = j := Option.some.inj (hi.symm.trans hj)
    have hlt : r.shadowWord off &&& i.rw < 2 ^ 32 := Nat.lt_of_le_of_lt Nat.and_le_left (r.shadowWord_lt off)
    rw [BitVec.toNat_ofNat, Nat.mod_eq_of_lt hlt, Nat.and_assoc, Nat.and_self]
  case h_2 => exact ht

theorem Regs.wf_applied {k : Kit} {r : Regs} (h : r.wf k) : (r.applied k).wf k := Regs.wf_proposed h

/-! ### RING_CREATE and VQ_RESET write RW bits only -/

theorem isInstance_below {base stride n a off : Nat} (h : off < base + a) : isInstance base stride n a off = false := by
  unfold isInstance instanceOf
  rw [if_neg fun hc => by omega]
  rfl

theorem lowestFrom_range {p : Nat → Bool} {k fuel n : Nat} (h : lowestFrom p k fuel = some n) : k ≤ n ∧ n < k + fuel := by
  induction fuel generalizing k with
  | zero => cases h
  | succ fuel ih =>
    unfold lowestFrom at h
    split at h
    · cases h
      omega
    · have := ih h
      omega

/-- Among the words of rings 1 to 255, RING_WRR alone holds an RW field (R275, 11_rings). -/
theorem rwWord_ring (k : Kit) {off : Nat} (h1 : 0x10040 ≤ off) (h2 : off < 0x14000) :
    rwWord k off = if isInstance 0x10000 0x40 256 0x14 off then rwOnly 0xFFFF else none := by
  have hfox : instanceOf 0x50400 4 256 0 off = none := by
    unfold instanceOf
    rw [if_neg (by omega)]
  unfold rwWord
  rw [hfox]
  simp (disch := omega) only [isInstance_above, isInstance_below, if_neg, Bool.false_eq_true, or_self, if_false]

/-- No configuration word of a ring other than ring 0 holds an RW field (R275). -/
theorem rwWord_ringCfg (k : Kit) {n x : Nat} (h1 : 1 ≤ n) (h2 : n < 256) (hx : x ∈ [0, 4, 8, 0xC, 0x10]) : rwWord k (ringOff n + x) = none := by
  have hle : x ≤ 0x10 := by
    simp only [List.mem_cons, List.not_mem_nil, or_false] at hx
    omega
  unfold ringOff
  rw [rwWord_ring k (by omega) (by omega), if_neg]
  unfold isInstance instanceOf
  rw [if_neg (by omega)]
  exact Bool.false_ne_true

/-- RING_WRR of a ring holds two bytes (11_rings). -/
theorem rwWord_ringWrr (k : Kit) {n : Nat} (h1 : 1 ≤ n) (h2 : n < 256) : rwWord k (ringOff n + 0x14) = rwOnly 0xFFFF := by
  unfold ringOff
  rw [rwWord_ring k (by omega) (by omega), if_pos]
  unfold isInstance instanceOf
  rw [if_pos (by omega)]
  rfl

theorem leAt_byte_lt (off : Nat) (bs : List Byte) : leAt off 1 bs < 256 := by
  unfold leAt slice
  cases bs.drop off with
  | nil => exact Nat.zero_lt_succ _
  | cons b l =>
    have := b.isLt
    simp [leNat]
    omega

theorem Regs.wf_createRing {k : Kit} {r : Regs} {n : Nat} {p : RingParams} (h1 : 1 ≤ n) (h2 : n < 256) (hw : p.weight < 256) (hb : p.burst < 256)
    (h : r.wf k) : (r.createRing n p).wf k := by
  have hcfg {r : Regs} {x : Nat} (v : Nat) (hx : x ∈ [0, 4, 8, 0xC, 0x10]) (h : r.wf k) : (r.setBoth (ringOff n + x) v).wf k :=
    Regs.wf_setBoth h fun i hi => by rw [rwWord_ringCfg k h1 h2 hx] at hi; cases hi
  have hwrr {r : Regs} (h : r.wf k) : (r.setBoth (ringOff n + 0x14) (256 * p.weight + p.burst)).wf k :=
    Regs.wf_setBoth h fun i hi => by
      rw [rwWord_ringWrr k h1 h2] at hi
      cases hi
      rw [Nat.mod_eq_of_lt (by omega)]
      exact Nat.and_two_pow_sub_one_of_lt_two_pow (n := 16) (by omega)
  exact hwrr <| hcfg (x := 0x10) _ (by decide) <| hcfg (x := 0xC) _ (by decide) <| hcfg (x := 8) _ (by decide) <|
    hcfg (x := 4) _ (by decide) <| hcfg (x := 0) _ (by decide) h

/-- A word that holds the bits of a mask alone still does when its high bits are cleared. -/
theorem and_mask_mod {v m n : Nat} (h : v &&& m = v) : v % 2 ^ n &&& m = v % 2 ^ n := by
  rw [← Nat.and_two_pow_sub_one_eq_mod, Nat.and_right_comm, h]

theorem Engine.wf_vqResetWrite {k : Kit} {r : Regs} (value : Word) (e : Engine) (h : r.wf k) : (e.vqResetWrite k r value).1.wf k := by
  unfold Engine.vqResetWrite
  dsimp only
  split
  · exact h
  · split
    · refine Regs.wf_setBoth h fun i hi => ?_
      exact and_mask_mod (and_mask_mod (h.2.2 _ i hi))
    · exact h

/-! ### The writes of the window keep the form -/

theorem Engine.wf_commit {k : Kit} {r : Regs} (source : BitVec 2) (e : Engine) (h : r.wf k) : (e.commit k source r).1.wf k := by
  unfold Engine.commit
  dsimp only
  split
  · exact Regs.wf_applied h
  · exact Regs.wf_outcome _ _ _ h

theorem Engine.wf_cmtWrite {k : Kit} {r : Regs} (value : Word) (strobe : Bool) (e : Engine) (h : r.wf k) :
    (e.cmtWrite k r value strobe).regs.wf k := by
  unfold Engine.cmtWrite
  dsimp only
  split
  · split
    · exact Engine.wf_commit 2 e h
    · exact h
  · split
    · exact Engine.wf_commit _ _ h
    · split
      · exact Regs.wf_discard h
      · exact h

/-- Of the RWL words VQ_RESET alone changes registers (R309). -/
theorem Engine.rwlWrite_regs {k : Kit} {r : Regs} {off : Nat} {value : Word} {e : Engine} {x : WriteDone}
    (hx : e.rwlWrite k r off value = some x) : x.regs = r ∨ x.regs = (e.vqResetWrite k r value).1 := by
  unfold Engine.rwlWrite at hx
  dsimp only at hx
  by_cases hq : off = 0x30800
  · subst hq
    cases hx
    exact .inr rfl
  · rw [if_neg hq] at hx
    left
    repeat' split at hx
    all_goals cases hx
    all_goals rfl

theorem Engine.wf_wordWrite {k : Kit} {r : Regs} (off : Nat) (value : Word) (e : Engine) (h : r.wf k) : (e.wordWrite k r off value).regs.wf k := by
  unfold Engine.wordWrite
  split
  · exact Engine.wf_cmtWrite value false e h
  · split
    · exact Regs.wf_setShadow off value h
    · split
      next x hx =>
        rcases Engine.rwlWrite_regs hx with hr | hr <;> rw [hr]
        · exact h
        · exact Engine.wf_vqResetWrite value e h
      next => split <;> exact h

theorem Engine.wf_bitWrite {k : Kit} {r : Regs} (off b : Nat) (v : Bool) (e : Engine) (h : r.wf k) : (e.bitWrite k r off b v).regs.wf k := by
  unfold Engine.bitWrite
  split
  next i hi =>
    split
    · exact Regs.wf_setShadow _ _ h
    · exact h
  next =>
    split
    · split
      · exact Engine.wf_cmtWrite _ false e h
      · exact h
    · split
      · split <;> exact h
      · split <;> exact h

theorem Engine.wf_cfgWrite {k : Kit} {r : Regs} (addr : Nat) (value : Word) (e : Engine) (h : r.wf k) : (e.cfgWrite k r addr value).regs.wf k := by
  unfold Engine.cfgWrite
  split
  · exact h
  · split
    · exact Engine.wf_wordWrite addr value e h
    · split
      · exact h
      · exact Engine.wf_bitWrite _ _ _ e h

/-! ### How every command acts -/

theorem actsOnRegs_cfgPort (addr : Nat) (value : Word) (s : State) : ActsOnRegs s (s.cfgPort addr value) := by
  refine actsOnRegs_effRegs s fun h => ?_
  split
  · exact Engine.wf_cfgWrite addr value _ h
  · exact h

theorem actsOnRegs_ringCreate (ring : BitVec 8) (s : State) : ActsOnRegs s (execRingCreate ring s) := by
  refine actsOnRegs_effRegs s fun h => ?_
  dsimp only
  split
  · exact h
  · split
    · exact h
    · split
      next x rest _ _ m hj hm =>
        have := lowestFrom_range hm
        exact Regs.wf_createRing (by omega) (by omega) (leAt_byte_lt _ _) (leAt_byte_lt _ _) h
      · exact h
      · exact h

theorem actsOnRegs_keyBindRelease (ring : BitVec 8) (s : State) : ActsOnRegs s (execKeyBindRelease ring s) := by
  refine actsOnRegs_effRegs s fun h => ?_
  dsimp only
  split
  · split
    · exact Regs.wf_resetBoth _ h
    · exact h
  · exact h

theorem actsOnRegs_vqReset (value : Word) (s : State) : ActsOnRegs s (execVqReset value s) := by
  refine actsOnRegs_effRegs s fun h => ?_
  split
  · exact Engine.wf_vqResetWrite value _ h
  · exact h

theorem actsOnRegs_commit (value : Word) (strobe : Bool) (s : State) : ActsOnRegs s (execCommit value strobe s) := by
  refine actsOnRegs_effRegs s fun h => ?_
  split
  · exact Engine.wf_cmtWrite value strobe _ h
  · split
    · exact Engine.wf_commit 2 _ h
    · exact h

theorem actsOnRegs_sysCommitIn (during : Bool) (s : State) : ActsOnRegs s (execSysCommitIn during s) := by
  refine actsOnRegs_effRegs s fun h => ?_
  split
  · exact h
  · exact Engine.wf_commit 2 _ h

theorem actsOnRegs_heldStrobeCommit (s : State) : ActsOnRegs s (execHeldStrobeCommit s) := by
  refine actsOnRegs_effRegs s fun h => ?_
  split
  · exact Engine.wf_commit (r := { s.regs with strobeHeld := false }) 2 _ h
  · exact h

/-- A CRC pass writes its result beside the tables (R429). -/
theorem Engine.wf_crcPass {k : Kit} {r : Regs} (e : Engine) (h : r.wf k) : (e.crcPass k r).1.wf k := by
  obtain ⟨v, m, hr⟩ : ∃ v m, (e.crcPass k r).1 = { r with crcLive := v, passValid := true, mismatch := m } := ⟨_, _, rfl⟩
  rw [hr]
  exact h

theorem actsOnRegs_cfgCrcPassEnd (s : State) : ActsOnRegs s (execCfgCrcPassEnd s) := by
  refine actsOnRegs_effRegs s fun h => ?_
  split
  · exact h
  · exact Engine.wf_crcPass _ h

theorem actsOnRegs_rstColdN (s : State) : ActsOnRegs s (execRstColdN s) := actsOnRegs_effRegs s fun _ => Regs.wf_reset s.kit

theorem actsOnRegs_rstFnN (cycles : Nat) (s : State) : ActsOnRegs s (execRstFnN cycles s) := by
  refine actsOnRegs_effRegs s fun h => ?_
  split
  · exact Regs.wf_fnReset h
  · exact h

theorem actsOnRegs_cfgAccess (dr : BitVec 56) (s : State) : ActsOnRegs s (execCfgAccess dr s) := by
  refine actsOnRegs_effRegs s fun h => ?_
  dsimp only
  split
  · exact h
  · split
    · exact Engine.wf_cfgWrite _ _ _ h
    · exact h

/-- A command that is not in `setsRegs` acts on the engine alone, and faults exactly when a unit that it names does not exist. -/
theorem exec_actsOnEngine (c : Instr) (s : State) (h : setsRegs c = false) : ActsOnEngine (c.wf s.kit) s (exec c s) := by
  cases c
  case cut | drain | restore | restoreEntryStart | spill | refill | recipeLoad | unload | bind | unbind | keyBindAdmit | keyBindSpdm |
    scrub | telemetry | guardAdd | guardRemove | adminSend | jobFenceRelease | phaseRetry | completionRetry | haltNotice |
    planCompletion | xferRdySend | exchangeTimeout | vqResetDone | sessionOpen | openRetry | sessionRekey | probeSend | peerLost |
    sysStep | freezeAckTimeout | streamChunkIssue | streamFenceRelease | partitionLineFree | bodyWriteComplete | wearRotate |
    remapSwitch | errorWindowEnd | calibrationPass | tableReady | codecChunkStart | beatEdge | beatEdgeClamped | beatFreeRun |
    throttleFall | sysPreemptNFall | planCutArm | preemptDeadline | heartbeat | stewardLost | standbyLost | stewardClaim |
    handoverTakeEffect | ctrlMemUe | standbyReady | standbyResyncTimeout | fwActivateTimeout | fwSoakEnd | enterRecovery | selfTestEnd |
    pwrReqChange | powerEntry | powerStateEntered | powerExitComplete | sysReadyRise | noiseStartupDone | noiseTestFail | genIdentity |
    readPublic | certWord | lockCert | fwKeyWord | fuseFwKey | status | scanTest | idcode | setKey | clearKey | setPolicy | getState |
    getVersion | getCapabilities | negotiateAlgorithms | getDigests | getCertificate | challenge | getMeasurements | keyExchange |
    finish | keyUpdate | endSession | vendorDefinedRequest | ctrlMemCe | foxParity | noiseHealthy => exact ⟨_, rfl⟩
  case sqTailDb | cqHeadDb | vqInDb | vqOutDb | streamCtrlResume | handover | foxAck | spareCtrl => exact ⟨_, rfl⟩
  case write | read | flush | verify | identify | getLog | getFeature | setFeature | fwDownload | store | storeActivate | xferRdy |
    data | resp | open_ | accept | confirm | close | ack | nak | credit | probe | probeReply | admin | retransmit | ackTimer |
    creditGrant | lnkUpFall | lnkUpRise | budArm | budFreeze | budResume | budDisarm | budRelease | budScrub | budBeat | tileWrite |
    budDrainRead | budForcedDrain | budCfgDone | tileConfigReload | stemLineAccept | stemAck | grdCheck | memReadResponse |
    memWriteResponse | bankRetire | beatLock | droppedFrame => exact actsOnEngine_needs _ _ s
  case frontMarch | pipelineKat | stemLoop => exact actsOnEngine_when (actsOnEngine_effCfg _ s)
  case keyBindRelease | ringCreate | vqReset | commit | discard | sysCommitIn | heldStrobeCommit | registerWrite | bitAliasWrite |
    cfgCrcPassEnd | rstColdN | rstFnN | cfgAccess => cases h

/-- A command in `setsRegs` names no unit, and keeps the form of the register file. -/
theorem exec_actsOnRegs (c : Instr) (s : State) (h : setsRegs c = true) : c.wf s.kit = true ∧ ActsOnRegs s (exec c s) := by
  cases c
  case ringCreate ring => exact ⟨rfl, actsOnRegs_ringCreate ring s⟩
  case keyBindRelease ring => exact ⟨rfl, actsOnRegs_keyBindRelease ring s⟩
  case vqReset value => exact ⟨rfl, actsOnRegs_vqReset value s⟩
  case commit value strobe => exact ⟨rfl, actsOnRegs_commit value strobe s⟩
  case discard value => exact ⟨rfl, actsOnRegs_when (actsOnRegs_cfgPort 0x1000 value s)⟩
  case sysCommitIn during => exact ⟨rfl, actsOnRegs_sysCommitIn during s⟩
  case heldStrobeCommit => exact ⟨rfl, actsOnRegs_heldStrobeCommit s⟩
  case registerWrite addr value => exact ⟨rfl, actsOnRegs_cfgPort addr.toNat value s⟩
  case bitAliasWrite addr value => exact ⟨rfl, actsOnRegs_when (actsOnRegs_cfgPort addr.toNat value s)⟩
  case cfgCrcPassEnd => exact ⟨rfl, actsOnRegs_cfgCrcPassEnd s⟩
  case rstColdN => exact ⟨rfl, actsOnRegs_rstColdN s⟩
  case rstFnN cycles => exact ⟨rfl, actsOnRegs_rstFnN cycles s⟩
  case cfgAccess dr => exact ⟨rfl, actsOnRegs_cfgAccess dr s⟩
  all_goals cases h

/-- A command keeps the kit and the form of the register file. -/
theorem exec_keeps_registerForm {c : Instr} {s t : State} (h : s.regs.wf s.kit) (ht : exec c s = .next t) : t.regs.wf t.kit := by
  cases hr : setsRegs c with
  | false =>
    obtain ⟨e, he⟩ := exec_actsOnEngine c s hr
    cases hwf : c.wf s.kit <;> rw [he, hwf] at ht <;> cases ht
    exact h
  | true =>
    obtain ⟨-, r, e, he, hr⟩ := exec_actsOnRegs c s hr
    rw [he] at ht
    cases ht
    exact hr h

end Sys2Proof.Machine

namespace Sys2Proof

open Machine

/-- Settles O3: a command acts through `needs` on the units that it names. -/
theorem wellFormedCommandsRun : Obligations.WellFormedCommandsRun := by
  unfold Obligations.WellFormedCommandsRun
  intro c s
  cases hr : setsRegs c with
  | false =>
    obtain ⟨e, he⟩ := exec_actsOnEngine c s hr
    constructor <;> intro hwf <;> rw [he, hwf]
    · exact ⟨_, rfl⟩
    · rfl
  | true =>
    obtain ⟨hwf, r, e, he, -⟩ := exec_actsOnRegs c s hr
    exact ⟨fun _ => ⟨_, he⟩, fun hf => absurd (hwf.symm.trans hf) Bool.noConfusion⟩

/-- Settles O6: every command keeps the form, and an idle step changes nothing. -/
theorem stepKeepsTheRegisterFileForm : Obligations.StepKeepsTheRegisterFileForm := by
  unfold Obligations.StepKeepsTheRegisterFileForm
  intro s t h hstep
  unfold step at hstep
  split at hstep
  case h_1 => cases hstep; exact h
  case h_2 c rest _ => exact exec_keeps_registerForm (s := { s with pending := rest }) h hstep

end Sys2Proof


/-!
PROOFS. Frames: the relation `Same` as a structure with named groups, kept by composition, and the groups that the plain updates of the engine
leave.
-/

namespace Sys2Proof

open Machine

/-! ### The groups by name -/

/-- `Same` with a name for what it says of each group. -/
structure SameGroups (gs : List Grp) (a b : Engine) : Prop where
  beat : Grp.beat ∈ gs ∨ b.beat = a.beat ∨ (Grp.cycle ∈ gs ∧ b.beat = { a.beat with cycle := b.beat.cycle })
  budget : Grp.budget ∈ gs ∨ b.budget = a.budget
  count : Grp.count ∈ gs ∨ b.count = a.count
  stem : Grp.stem ∈ gs ∨ b.stem = a.stem
  buds : Grp.buds ∈ gs ∨ b.buds = a.buds
  cut : Grp.cut ∈ gs ∨ b.cut = a.cut
  guard : Grp.guard ∈ gs ∨ b.guard = a.guard
  front : Grp.front ∈ gs ∨ b.front = a.front
  body : Grp.body ∈ gs ∨ b.body = a.body
  bulb : Grp.bulb ∈ gs ∨ b.bulb = a.bulb
  units : Grp.units ∈ gs ∨ b.units = a.units
  recipes : Grp.recipes ∈ gs ∨ b.recipes = a.recipes
  pollen : Grp.pollen ∈ gs ∨ b.pollen = a.pollen
  streams : Grp.streams ∈ gs ∨ b.streams = a.streams
  rings : Grp.rings ∈ gs ∨ b.rings = a.rings
  vault : Grp.vault ∈ gs ∨ b.vault = a.vault
  tenants : Grp.tenants ∈ gs ∨ b.tenants = a.tenants
  fox : Grp.fox ∈ gs ∨ b.fox = a.fox
  referee : Grp.referee ∈ gs ∨ b.referee = a.referee
  power : Grp.power ∈ gs ∨ b.power = a.power
  keys : Grp.keys ∈ gs ∨ b.keys = a.keys
  dbg : Grp.dbg ∈ gs ∨ b.dbg = a.dbg
  selfTest : Grp.selfTest ∈ gs ∨ b.selfTest = a.selfTest
  mem : Grp.mem ∈ gs ∨ b.mem = a.mem
  out : Grp.out ∈ gs ∨ b.out = a.out
  draws : Grp.draws ∈ gs ∨ b.draws = a.draws

theorem Same.groups {gs : List Grp} {a b : Engine} : Same gs a b → SameGroups gs a b :=
  fun ⟨h1, h2, h3, h4, h5, h6, h7, h8, h9, h10, h11, h12, h13, h14, h15, h16, h17, h18, h19, h20, h21, h22, h23, h24, h25, h26⟩ =>
    ⟨h1, h2, h3, h4, h5, h6, h7, h8, h9, h10, h11, h12, h13, h14, h15, h16, h17, h18, h19, h20, h21, h22, h23, h24, h25, h26⟩

theorem SameGroups.same {gs : List Grp} {a b : Engine} (h : SameGroups gs a b) : Same gs a b :=
  ⟨h.beat, h.budget, h.count, h.stem, h.buds, h.cut, h.guard, h.front, h.body, h.bulb, h.units, h.recipes, h.pollen, h.streams, h.rings,
    h.vault, h.tenants, h.fox, h.referee, h.power, h.keys, h.dbg, h.selfTest, h.mem, h.out, h.draws⟩

/-! ### Composition -/

theorem Same.refl (gs : List Grp) (e : Engine) : Same gs e e := by simp [Same]

theorem Same.mono {gs gs' : List Grp} {a b : Engine} (hs : ∀ g ∈ gs, g ∈ gs') (h : Same gs a b) : Same gs' a b := by
  have f {p : Prop} {g : Grp} : g ∈ gs ∨ p → g ∈ gs' ∨ p := Or.imp_left (hs g)
  have h := h.groups
  exact SameGroups.same
    { beat := (h.beat.imp_left (hs _)).imp_right (Or.imp_right (And.imp_left (hs _)))
      budget := f h.budget, count := f h.count, stem := f h.stem, buds := f h.buds, cut := f h.cut, guard := f h.guard, front := f h.front
      body := f h.body, bulb := f h.bulb, units := f h.units, recipes := f h.recipes, pollen := f h.pollen, streams := f h.streams
      rings := f h.rings, vault := f h.vault, tenants := f h.tenants, fox := f h.fox, referee := f h.referee, power := f h.power
      keys := f h.keys, dbg := f h.dbg, selfTest := f h.selfTest, mem := f h.mem, out := f h.out, draws := f h.draws }

theorem Same.trans {gs : List Grp} {a b c : Engine} (h : Same gs a b) (h' : Same gs b c) : Same gs a c := by
  have f {α : Type} {x y z : α} {g : Grp} : g ∈ gs ∨ y = x → g ∈ gs ∨ z = y → g ∈ gs ∨ z = x
    | .inl hg, _ => .inl hg
    | _, .inl hg => .inl hg
    | .inr hx, .inr hy => .inr (hy.trans hx)
  have h := h.groups
  have h' := h'.groups
  have hbeat : Grp.beat ∈ gs ∨ c.beat = a.beat ∨ (Grp.cycle ∈ gs ∧ c.beat = { a.beat with cycle := c.beat.cycle }) := by
    rcases h.beat with hg | hb | ⟨hg, hb⟩
    · exact .inl hg
    · exact hb ▸ h'.beat
    · rcases h'.beat with hg' | hc | ⟨-, hc⟩
      · exact .inl hg'
      · exact .inr (.inr ⟨hg, by rw [hc]; exact hb⟩)
      · exact .inr (.inr ⟨hg, by rw [hc, hb]⟩)
  exact SameGroups.same
    { beat := hbeat
      budget := f h.budget h'.budget, count := f h.count h'.count, stem := f h.stem h'.stem, buds := f h.buds h'.buds
      cut := f h.cut h'.cut, guard := f h.guard h'.guard, front := f h.front h'.front, body := f h.body h'.body
      bulb := f h.bulb h'.bulb, units := f h.units h'.units, recipes := f h.recipes h'.recipes, pollen := f h.pollen h'.pollen
      streams := f h.streams h'.streams, rings := f h.rings h'.rings, vault := f h.vault h'.vault, tenants := f h.tenants h'.tenants
      fox := f h.fox h'.fox, referee := f h.referee h'.referee, power := f h.power h'.power, keys := f h.keys h'.keys
      dbg := f h.dbg h'.dbg, selfTest := f h.selfTest h'.selfTest, mem := f h.mem h'.mem, out := f h.out h'.out
      draws := f h.draws h'.draws }

/-- A loop whose every round keeps the groups keeps them. -/
theorem Same.forEach {gs : List Grp} {α : Type} {f : α → Engine → Engine} (h : ∀ x e, Same gs e (f x e)) (xs : List α) (e : Engine) :
    Same gs e (e.forEach xs f) := by
  induction xs generalizing e with
  | nil => exact Same.refl gs e
  | cons x xs ih => exact (h x e).trans (ih (f x e))

theorem Same.when {gs : List Grp} {f : Engine → Engine} {e : Engine} (c : Bool) (h : Same gs e (f e)) : Same gs e (e.when c f) := by
  cases c
  · exact Same.refl gs e
  · exact h

/-! ### Plain updates -/

theorem same_vault (e : Engine) (v : Vault) : Same [.vault] e { e with vault := v } := by simp [Same]

theorem same_front (e : Engine) (f : Front) : Same [.front] e { e with front := f } := by simp [Same]

theorem same_body (e : Engine) (b : Body) : Same [.body] e { e with body := b } := by simp [Same]

theorem same_bump (off n : Nat) (e : Engine) : Same [.count] e (e.bump off n) := by simp [Same]

theorem same_setVq (q : Nat) (v : VQueue) (e : Engine) : Same [.vault] e (e.setVq q v) := same_vault e _

theorem same_onCmds (q : Nat) (f : List VCmd → List VCmd) (e : Engine) : Same [.vault] e (e.onCmds q f) := same_setVq q _ e

theorem same_setVtenant (t : Nat) (v : VTenant) (e : Engine) : Same [.vault] e (e.setVtenant t v) := same_vault e _

theorem same_ticked (e : Engine) : Same [.cycle, .draws] e e.ticked := by simp [Same, Engine.ticked]

theorem same_raise (k : Kit) (r : Regs) (s : Nat) (t : Option TenantNo) (e : Engine) :
    Same [.cycle, .count, .fox, .draws] e (e.raise k r s t) := by
  cases hf : foxImplemented k s with
  | false =>
    rw [Engine.raise_none r t e hf]
    exact Same.refl _ e
  | true =>
    rw [Engine.raise_eq r t e hf]
    simp [Same]

theorem only_of_same {gs : List Grp} {s : State} {e : Engine} (h : Same gs s.eng e) : Only gs s (withEng s e) := ⟨rfl, rfl, rfl, h⟩

end Sys2Proof


/-!
PROOFS. What goes out into the OUT window of a host queue (R283, R286, R287): the MEM writes of a packet, a run of packets, the lines that are
free for them.
-/

namespace Sys2Proof.Machine

/-! ### Commands of a queue -/

theorem updFirst_append {α : Type} {p : α → Bool} {f : α → α} {x : α} {as bs : List α} (has : ∀ a ∈ as, p a = false) (hx : p x = true) :
    updFirst p f (as ++ x :: bs) = as ++ f x :: bs := by
  induction as with
  | nil => simp [updFirst, hx]
  | cons a as ih =>
    have ha := has a List.mem_cons_self
    simp [updFirst, ha, ih fun b hb => has b (List.mem_cons_of_mem _ hb)]

theorem Engine.vq_onCmds_same (q : Nat) (f : List VCmd → List VCmd) (e : Engine) :
    (e.onCmds q f).vq q = { e.vq q with cmds := f (e.vq q).cmds } := Engine.vq_setVq_same q _ e

theorem Engine.vq_onCmds_ne {m q : Nat} (h : m ≠ q) (f : List VCmd → List VCmd) (e : Engine) : (e.onCmds q f).vq m = e.vq m :=
  Engine.vq_setVq_ne h _ e

/-! ### MEM writes -/

/-- Writes driven one after another at priority 1. -/
def Engine.memWrites (k : Kit) (use : MemFor) (ws : List (Nat × List Byte × List Bool)) (e : Engine) : Engine :=
  e.forEach ws fun w e => e.memWrite k w.1 w.2.1 w.2.2 1 use

/-- The outputs are these MEM writes, in this order, at priority 1, each with a tag of its own. -/
def IsWrites (k : Kit) (ws : List (Nat × List Byte × List Bool)) (os : List Output) : Prop :=
  ∃ tags : List (BitVec 12), tags.length = ws.length ∧
    os = (ws.zip tags).map fun x => .memWrite (channelOf k x.1.1) x.2 x.1.1 x.1.2.1 x.1.2.2 1

theorem isWrites_nil (k : Kit) : IsWrites k [] [] := ⟨[], rfl, rfl⟩

theorem isWrites_one (k : Kit) (a : Nat) (bs : List Byte) (ps : List Bool) (tag : BitVec 12) :
    IsWrites k [(a, bs, ps)] [.memWrite (channelOf k a) tag a bs ps 1] := ⟨[tag], rfl, rfl⟩

theorem IsWrites.append {k : Kit} {ws ws' : List (Nat × List Byte × List Bool)} {os os' : List Output} (h : IsWrites k ws os)
    (h' : IsWrites k ws' os') : IsWrites k (ws ++ ws') (os ++ os') := by
  obtain ⟨tags, hl, rfl⟩ := h
  obtain ⟨tags', hl', rfl⟩ := h'
  exact ⟨tags ++ tags', by simp [hl, hl'], by rw [List.zip_append hl.symm, List.map_append]⟩

/-- Writes driven change the MEM requests and what is driven, and nothing else. -/
theorem Engine.memWrites_eq (k : Kit) (use : MemFor) (ws : List (Nat × List Byte × List Bool)) (e : Engine) :
    ∃ m os, e.memWrites k use ws = { e with mem := m, out := e.out ++ os } ∧ IsWrites k ws os := by
  induction ws generalizing e with
  | nil => exact ⟨e.mem, [], by simp [memWrites], isWrites_nil k⟩
  | cons w ws ih =>
    obtain ⟨m, os, h, hw⟩ := ih (e.memWrite k w.1 w.2.1 w.2.2 1 use)
    refine ⟨m, _, h.trans ?_, (isWrites_one k w.1 w.2.1 w.2.2 (e.mem.freeTag (channelOf k w.1))).append hw⟩
    simp [memWrite]

theorem Engine.memWrites_append (k : Kit) (use : MemFor) (ws ws' : List (Nat × List Byte × List Bool)) (e : Engine) :
    e.memWrites k use (ws ++ ws') = (e.memWrites k use ws).memWrites k use ws' := List.foldl_append

theorem Engine.memWriteBeats_eq (k : Kit) (addr : Nat) (bs : List MemBeat) (use : MemFor) (e : Engine) :
    e.memWriteBeats k addr bs 1 use = e.memWrites k use (lineWrites addr bs) := by
  unfold memWriteBeats memWrites lineWrites Engine.forEach
  rw [List.foldl_map]

theorem Engine.forEach_memWrites {α : Type} (k : Kit) (use : MemFor) (f : α → List (Nat × List Byte × List Bool)) (xs : List α) (e : Engine) :
    e.forEach xs (fun x e => e.memWrites k use (f x)) = e.memWrites k use (xs.flatMap f) := by
  induction xs generalizing e with
  | nil => rfl
  | cons x xs ih =>
    rw [List.flatMap_cons, Engine.memWrites_append, ← ih]
    rfl

/-! ### A run of packets -/

/-- Line and phase of the OUT window behind a run of packets (R287). -/
def outPos (size : Nat) : Nat → Bool → List (BitVec 256 × List MemBeat) → Nat × Bool
  | at_, phase, [] => (at_, phase)
  | at_, phase, p :: rest =>
    let stop := at_ + 1 + p.2.length
    outPos size (stop % size) (if size ≤ stop then !phase else phase) rest

theorem outPos_append (size at_ : Nat) (phase : Bool) (ps ps' : List (BitVec 256 × List MemBeat)) :
    outPos size at_ phase (ps ++ ps') = outPos size (outPos size at_ phase ps).1 (outPos size at_ phase ps).2 ps' := by
  induction ps generalizing at_ phase with
  | nil => rfl
  | cons p ps ih => exact ih _ _

theorem outWrites_append (r : Regs) (q at_ : Nat) (phase : Bool) (ps ps' : List (BitVec 256 × List MemBeat)) :
    outWrites r q at_ phase (ps ++ ps') =
      outWrites r q at_ phase ps ++ outWrites r q (outPos (r.outSize q) at_ phase ps).1 (outPos (r.outSize q) at_ phase ps).2 ps' := by
  induction ps generalizing at_ phase with
  | nil => rfl
  | cons p ps ih =>
    simp only [List.cons_append, outWrites, outPos, ih, List.append_assoc]

theorem outLines_cons (p : BitVec 256 × List MemBeat) (ps : List (BitVec 256 × List MemBeat)) :
    outLines (p :: ps) = 1 + p.2.length + outLines ps := by simp [outLines]

theorem outPos_line (size at_ : Nat) (phase : Bool) (ps : List (BitVec 256 × List MemBeat)) (h : ps ≠ []) :
    (outPos size at_ phase ps).1 = (at_ + outLines ps) % size := by
  induction ps generalizing at_ phase with
  | nil => exact absurd rfl h
  | cons p ps ih =>
    cases ps with
    | nil => simp [outPos, outLines, Nat.add_assoc]
    | cons p' ps =>
      rw [outPos, ih _ _ (by simp), outLines_cons p, Nat.mod_add_mod, Nat.add_assoc, Nat.add_assoc, Nat.add_assoc]

/-- What a run of packets put into the OUT window of queue `q` does to the engine: the writes go out, and the position of the window moves;
the commands of the queue are then `cs`. The
class arbitration may have made a choice. -/
structure Sent (k : Kit) (r : Regs) (q : Nat) (ps : List (BitVec 256 × List MemBeat)) (cs : List VCmd) (a b : Engine) : Prop where
  frame : ∃ m o qs as, b = { a with mem := m, out := o, vault := { a.vault with queues := qs, arbs := as } }
  out : ∃ os, b.out = a.out ++ os ∧ IsWrites k (outWrites r q (a.vq q).outTail (a.vq q).outPhase ps) os
  queue : b.vq q = { a.vq q with
    outTail := (outPos (r.outSize q) (a.vq q).outTail (a.vq q).outPhase ps).1
    outPhase := (outPos (r.outSize q) (a.vq q).outTail (a.vq q).outPhase ps).2
    cmds := cs }
  others : ∀ m, m ≠ q → b.vq m = a.vq m

theorem sent_onCmds (k : Kit) (r : Regs) (q : Nat) (f : List VCmd → List VCmd) (e : Engine) : Sent k r q [] (f (e.vq q).cmds) e (e.onCmds q f) where
  frame := ⟨e.mem, e.out, _, _, rfl⟩
  out := ⟨[], (List.append_nil _).symm, isWrites_nil k⟩
  queue := Engine.vq_onCmds_same q f e
  others _ hm := Engine.vq_onCmds_ne hm f e

theorem Sent.trans {k : Kit} {r : Regs} {q : Nat} {ps ps' : List (BitVec 256 × List MemBeat)} {cs cs' : List VCmd} {a b c : Engine}
    (h : Sent k r q ps cs a b) (h' : Sent k r q ps' cs' b c) : Sent k r q (ps ++ ps') cs' a c where
  frame := by
    obtain ⟨_, _, _, _, hb⟩ := h.frame
    obtain ⟨m, o, qs, as, hc⟩ := h'.frame
    exact ⟨m, o, qs, as, by rw [hc, hb]⟩
  out := by
    obtain ⟨os, hb, hw⟩ := h.out
    obtain ⟨os', hc, hw'⟩ := h'.out
    rw [h.queue] at hw'
    exact ⟨os ++ os', by rw [hc, hb, List.append_assoc], outWrites_append .. ▸ hw.append hw'⟩
  queue := by rw [h'.queue, h.queue, outPos_append]
  others m hm := by rw [h'.others m hm, h.others m hm]

theorem sent_arbs (k : Kit) (r : Regs) (q : Nat) (as : Tab VArb) (e : Engine) :
    Sent k r q [] (e.vq q).cmds e { e with vault := { e.vault with arbs := as } } where
  frame := ⟨e.mem, e.out, _, _, rfl⟩
  out := ⟨[], (List.append_nil _).symm, isWrites_nil k⟩
  queue := rfl
  others _ _ := rfl

/-- One packet written (R287). -/
theorem sent_writeOut (k : Kit) (r : Regs) (q : Nat) (h : BitVec 256) (payload : List MemBeat) (e : Engine) :
    Sent k r q [(h, payload)] (e.vq q).cmds e (e.writeOut k r q h payload) := by
  obtain ⟨m, os, hw, hos⟩ := Engine.memWrites_eq k (.outPacket q) (outWrites r q (e.vq q).outTail (e.vq q).outPhase [(h, payload)]) e
  have heq : e.writeOut k r q h payload = ({ e with mem := m, out := e.out ++ os }).setVq q { e.vq q with
      outTail := (outPos (r.outSize q) (e.vq q).outTail (e.vq q).outPhase [(h, payload)]).1
      outPhase := (outPos (r.outSize q) (e.vq q).outTail (e.vq q).outPhase [(h, payload)]).2 } := by
    rw [← hw]
    unfold Engine.writeOut
    simp only [Engine.memWriteBeats_eq, Engine.forEach_memWrites]
    rw [outWrites, outWrites, Engine.memWrites_append]
    rfl
  rw [heq]
  exact { frame := ⟨m, _, _, _, rfl⟩, out := ⟨os, rfl, hos⟩, queue := Engine.vq_setVq_same q _ _, others := fun _ hm => Engine.vq_setVq_ne hm _ _ }

theorem Sent.same {k : Kit} {r : Regs} {q : Nat} {ps : List (BitVec 256 × List MemBeat)} {cs : List VCmd} {a b : Engine}
    (h : Sent k r q ps cs a b) : Same [.vault, .mem, .out] a b := by
  obtain ⟨_, _, _, _, rfl⟩ := h.frame
  simp [Same]

end Sys2Proof.Machine


/-!
PROOFS. The way out of a host queue (R283, R287, R303, R307): the choice of the classes when one command waits, and the end of a command whose
packets may all go out.
-/

namespace Sys2Proof.Machine

/-! ### One candidate is chosen (R307) -/

theorem oldestOf_single (x : Candidate) (cls : Nat) : oldestOf [x] cls = if x.cls = cls then some x else none := by
  unfold oldestOf
  by_cases h : x.cls = cls <;> simp [h]

/-- A pass serves the only candidate when its class has credit. -/
theorem VArb.pass_single {x : Candidate} {c : Nat} (hx : x.cls = c + 1) (hc : c < 3) (a : VArb) (hcr : 0 < a.creditOf c) :
    ∃ b, a.pass [x] = some (x, b) := by
  have hturn : ∃ k ∈ [1, 2, 3], (a.last + k) % 3 = c := by
    have : (c + 6 - a.last % 3) % 3 = 0 ∨ (c + 6 - a.last % 3) % 3 = 1 ∨ (c + 6 - a.last % 3) % 3 = 2 := by omega
    rcases this with h | h | h
    · exact ⟨3, by simp, by omega⟩
    · exact ⟨1, by simp, by omega⟩
    · exact ⟨2, by simp, by omega⟩
  have hsome : (a.pass [x]).isSome = true := by
    obtain ⟨k, hk, hkc⟩ := hturn
    unfold VArb.pass
    rw [List.isSome_findSome?, List.any_eq_true]
    exact ⟨k, hk, by simp [oldestOf_single, hkc, hx, hcr]⟩
  obtain ⟨y, hy⟩ := Option.isSome_iff_exists.mp hsome
  unfold VArb.pass at hy ⊢
  obtain ⟨k, -, hk⟩ := List.exists_of_findSome?_eq_some hy
  rw [hy]
  simp only [oldestOf_single] at hk
  split at hk
  next z hz =>
    split at hz
    · cases hz
      split at hk
      · cases hk
        exact ⟨_, rfl⟩
      · cases hk
    · cases hz
  next => cases hk

theorem VArb.creditOf_refill {x : Candidate} {c : Nat} (hx : x.cls = c + 1) {a : VArb} (hc : c < a.credit.length) (w : List Nat) :
    (a.refill w [x]).creditOf c = a.creditOf c + 64 * (w.getD c 0 : Nat) := by
  simp [VArb.refill, VArb.creditOf, List.getD, oldestOf_single, hx, hc]

/-- With one candidate, refills reach credit for its class: its debt is at most one command. -/
theorem VArb.weighted_single {x : Candidate} {c : Nat} {w : List Nat} (hx : x.cls = c + 1) (hc : c < 3) (hw : 0 < w.getD c 0) (fuel : Nat)
    (a : VArb) (hl : a.credit.length = 3) (hcr : 0 < a.creditOf c + 64 * fuel) : ∃ b, VArb.weighted w [x] (fuel + 1) a = some (x, b) := by
  induction fuel generalizing a with
  | zero =>
    obtain ⟨b, hb⟩ := VArb.pass_single hx hc a (by simpa using hcr)
    exact ⟨b, by simp [VArb.weighted, hb]⟩
  | succ fuel ih =>
    by_cases hpos : 0 < a.creditOf c
    · obtain ⟨b, hb⟩ := VArb.pass_single hx hc a hpos
      exact ⟨b, by rw [VArb.weighted, hb]⟩
    · unfold VArb.weighted
      have hnone : a.pass [x] = none := by
        unfold VArb.pass
        rw [List.findSome?_eq_none_iff]
        intro k _
        simp only [oldestOf_single]
        by_cases hk : x.cls = (a.last + k) % 3 + 1
        · have : (a.last + k) % 3 = c := by omega
          simp [this, hx, hpos]
        · simp [hk]
      rw [hnone]
      refine ih (a.refill w [x]) (by simpa [VArb.refill] using hl) ?_
      rw [VArb.creditOf_refill hx (by omega)]
      push_cast at hcr ⊢
      omega

theorem VArb.choose_single {x : Candidate} {w : List Nat} {a : VArb} (hx : x.cls ≤ 3) (hwl : w.length = 3) (hw : ∀ v ∈ w, 0 < v)
    (hl : a.credit.length = 3) (hcr : ∀ v ∈ a.credit, -4096 ≤ v) : ∃ b, a.choose w [x] = some (x, b) := by
  unfold VArb.choose
  rw [oldestOf_single]
  cases hcls : x.cls with
  | zero => exact ⟨a, rfl⟩
  | succ c =>
    have hc : c < 3 := by omega
    have hwc : 0 < w.getD c 0 := by
      rw [List.getD_eq_getElem _ _ (by omega)]
      exact hw _ (List.getElem_mem _)
    have hac : -4096 ≤ a.creditOf c := by
      unfold VArb.creditOf
      rw [List.getD_eq_getElem _ _ (by omega)]
      exact hcr _ (List.getElem_mem _)
    simpa using VArb.weighted_single hcls hc hwc 65 a hl (by omega)

theorem Engine.classOf_le (c : VCmd) (e : Engine) : e.classOf c ≤ 3 := by
  unfold Engine.classOf VCmd.prio
  split <;> omega

/-- On a clear way out the only command that waits is chosen (R307). -/
theorem Engine.chooseCmd_single {path q : Nat} {t : TenantNo} {c : VCmd} {e : Engine} (hw : ∀ v ∈ (e.vtenant t.toNat).weights, 0 < v)
    (hl : (tabGet (fun _ => VArb.fresh) path e.vault.arbs).credit.length = 3)
    (hcr : ∀ v ∈ (tabGet (fun _ => VArb.fresh) path e.vault.arbs).credit, -4096 ≤ v) :
    ∃ as, e.chooseCmd path t [e.candidate q c] = some (e.candidate q c, { e with vault := { e.vault with arbs := as } }) := by
  obtain ⟨b, hb⟩ := VArb.choose_single (x := e.candidate q c) (e.classOf_le c) rfl hw hl hcr
  exact ⟨_, by unfold Engine.chooseCmd; rw [hb]; rfl⟩

/-! ### A command is answered -/

theorem Engine.countCmd_vault (q : Nat) (c : VCmd) (code : Code) (arg : Nat) (e : Engine) :
    (e.countCmd q c code arg).vault = { e.vault with tenants := (e.countCmd q c code arg).vault.tenants } := by
  unfold Engine.countCmd
  split <;> rfl

theorem Engine.countCmd_counter {off : Nat} (hd : off ≠ Ctr.cmdsDone) (hf : off ≠ Ctr.cmdsFailed) (q : Nat) (c : VCmd) (code : Code) (arg : Nat)
    (e : Engine) : (e.countCmd q c code arg).counter off = e.counter off := by
  unfold Engine.countCmd
  split
  · exact Engine.counter_bump_ne hd 1 e
  · exact Engine.counter_bump_ne hf 1 _

theorem Engine.countCmd_same (q : Nat) (c : VCmd) (code : Code) (arg : Nat) (e : Engine) : Same (answerGroups code) e (e.countCmd q c code arg) := by
  unfold Engine.countCmd answerGroups
  split
  · exact (same_bump _ _ e).mono (by decide)
  · exact ((same_setVtenant _ _ e).mono (by decide)).trans
      (((same_ticked _).mono (by decide)).trans ((same_bump _ _ _).mono (by decide)))

theorem Engine.clearDeferred_eq (c : VCmd) (e : Engine) :
    e.clearDeferred c = { e with vault := { e.vault with tenants := (e.clearDeferred c).vault.tenants } } := by
  unfold Engine.clearDeferred Engine.when
  dsimp only
  split <;> rfl

theorem Engine.clearDeferred_tenants_eq (c : VCmd) (e : Engine) :
    (e.clearDeferred c).vault.tenants =
      let v := e.vtenant c.tenant.toNat
      let rest := v.deferred.filter fun d => !c.clear.contains d
      if c.clear.isEmpty then e.vault.tenants
      else tabPut (fun _ => VTenant.fresh) c.tenant.toNat { v with deferred := rest, overflow := v.overflow && !rest.isEmpty } e.vault.tenants := by
  unfold Engine.clearDeferred
  cases c.clear.isEmpty <;> rfl

/-- The tenants' features and logs after a GET_LOG with CLEAR depend on those before alone. -/
theorem Engine.clearDeferred_tenants (c : VCmd) {a b : Engine} (h : b.vault.tenants = a.vault.tenants) :
    (b.clearDeferred c).vault.tenants = (a.clearDeferred c).vault.tenants := by
  rw [Engine.clearDeferred_tenants_eq, Engine.clearDeferred_tenants_eq]
  unfold Engine.vtenant
  rw [h]

/-- The RESP of a command that has no session (R284). -/
def VCmd.resp (c : VCmd) (code : Code) (arg : Nat) : BitVec 256 × List MemBeat :=
  ((respHdr c.tag c.opcode c.prio c.offset arg false code).word, [])

/-- What the end of the command `c` of host queue `q` does to the engine, when the packets `ps` go out, its RESP the last of them, and the
commands of the queue are then `cs`. -/
structure Ended (k : Kit) (r : Regs) (q : Nat) (c : VCmd) (ps : List (BitVec 256 × List MemBeat)) (code : Code) (cs : List VCmd)
    (a b : Engine) : Prop where
  out : ∃ os, b.out = a.out ++ os ∧ IsWrites k (outWrites r q (a.vq q).outTail (a.vq q).outPhase ps) os
  queue : b.vq q = { a.vq q with
    outTail := (outPos (r.outSize q) (a.vq q).outTail (a.vq q).outPhase ps).1
    outPhase := (outPos (r.outSize q) (a.vq q).outTail (a.vq q).outPhase ps).2
    cmds := cs }
  others : ∀ m, m ≠ q → b.vq m = a.vq m
  vault : b.vault = { a.vault with queues := b.vault.queues, tenants := b.vault.tenants, arbs := b.vault.arbs }
  tenants : code = 0 → b.vault.tenants = (a.clearDeferred c).vault.tenants
  counter : ∀ off, off ≠ Ctr.cmdsDone → off ≠ Ctr.cmdsFailed → b.counter off = a.counter off
  same : Same (answerGroups code) a b

theorem Sent.ended {k : Kit} {r : Regs} {q : Nat} {c : VCmd} {ps ps' : List (BitVec 256 × List MemBeat)} {code : Code} {cs cs' : List VCmd}
    {a b e : Engine} (h : Sent k r q ps cs' a b) (h' : Ended k r q c ps' code cs b e) : Ended k r q c (ps ++ ps') code cs a e where
  out := by
    obtain ⟨os, hb, hw⟩ := h.out
    obtain ⟨os', he, hw'⟩ := h'.out
    rw [h.queue] at hw'
    exact ⟨os ++ os', by rw [he, hb, List.append_assoc], outWrites_append .. ▸ hw.append hw'⟩
  queue := by rw [h'.queue, h.queue, outPos_append]
  others m hm := by rw [h'.others m hm, h.others m hm]
  vault := by
    obtain ⟨_, _, _, _, hb⟩ := h.frame
    rw [h'.vault, hb]
  tenants h0 := by
    obtain ⟨_, _, _, _, hb⟩ := h.frame
    rw [h'.tenants h0]
    exact Engine.clearDeferred_tenants c (by rw [hb])
  counter off hd hf := by
    obtain ⟨_, _, _, _, hb⟩ := h.frame
    rw [h'.counter off hd hf, hb]
    rfl
  same := (h.same.mono (by unfold answerGroups; split <;> decide)).trans h'.same

/-- A command that has an answer holds no reserved lines: dropping it changes its queue alone. -/
theorem Engine.dropCmd_answered {c : VCmd} (h : c.answer.isSome = true) (q : Nat) (e : Engine) :
    e.dropCmd q c = e.onCmds q fun cs => cs.filter fun x => !(x.tag == c.tag) := by
  have h0 : c.reservedLines = 0 := by
    unfold VCmd.reservedLines
    cases hc : c.answer <;> simp_all
  unfold Engine.dropCmd
  rw [h0]
  rfl

theorem Engine.vq_of_queues {a b : Engine} (h : b.vault.queues = a.vault.queues) (m : Nat) : b.vq m = a.vq m :=
  congrArg (tabGet (fun _ => VQueue.fresh) m) h

/-- A command counted and its deferred errors cleared, then its RESP written. -/
theorem Engine.countCmd_ended (k : Kit) (r : Regs) (q : Nat) (c : VCmd) (code : Code) (arg : Nat) (h : BitVec 256) (e : Engine) :
    Ended k r q c [(h, [])] code (e.vq q).cmds e (((e.countCmd q c code arg).clearDeferred c).writeOut k r q h []) := by
  have hv : ((e.countCmd q c code arg).clearDeferred c).vault =
      { e.vault with tenants := ((e.countCmd q c code arg).clearDeferred c).vault.tenants } := by
    rw [Engine.clearDeferred_eq, Engine.countCmd_vault]
  have hq : ∀ m, ((e.countCmd q c code arg).clearDeferred c).vq m = e.vq m := Engine.vq_of_queues (by rw [hv])
  have ho : ((e.countCmd q c code arg).clearDeferred c).out = e.out := by
    rw [Engine.clearDeferred_eq]
    unfold Engine.countCmd
    split <;> rfl
  have hw := sent_writeOut k r q h [] ((e.countCmd q c code arg).clearDeferred c)
  obtain ⟨m, o, qs, as, hb⟩ := hw.frame
  refine { out := ?_, queue := ?_, others := fun m hm => (hw.others m hm).trans (hq m), vault := ?_, tenants := fun h0 => ?_,
           counter := fun off hd hf => ?_, same := ?_ }
  · obtain ⟨os, hout, hos⟩ := hw.out
    rw [hq, ho] at *
    exact ⟨os, hout, hos⟩
  · rw [hw.queue, hq]
  · rw [hb]
    dsimp only
    rw [hv]
  · rw [hb]
    refine Engine.clearDeferred_tenants c ?_
    unfold Engine.countCmd
    rw [if_pos h0]
    rfl
  · rw [hb, Engine.clearDeferred_eq]
    exact Engine.countCmd_counter hd hf q c code arg e
  · refine (Engine.countCmd_same q c code arg e).trans (Same.trans (b := (e.countCmd q c code arg).clearDeferred c) ?_ ?_)
    · rw [Engine.clearDeferred_eq]
      exact (same_vault _ _).mono (by unfold answerGroups; split <;> decide)
    · exact hw.same.mono (by unfold answerGroups; split <;> decide)

theorem Engine.answerCmd_ended {c : VCmd} (hs : c.session = none) (ha : c.answer.isSome = true) (k : Kit) (r : Regs) (q : Nat) (code : Code)
    (arg : Nat) (e : Engine) :
    Ended k r q c [c.resp code arg] code ((e.vq q).cmds.filter fun x => !(x.tag == c.tag)) e (e.answerCmd k r q c code arg) := by
  have hdrop := sent_onCmds k r q (fun cs => cs.filter fun x => !(x.tag == c.tag)) e
  have hend := Engine.countCmd_ended k r q c code arg (c.resp code arg).1 (e.onCmds q fun cs => cs.filter fun x => !(x.tag == c.tag))
  rw [Engine.vq_onCmds_same] at hend
  have h := hdrop.ended hend
  rw [← Engine.dropCmd_answered ha] at h
  unfold Engine.answerCmd Engine.sendPacket Engine.sendWord
  rw [hs]
  exact h

/-! ### Room in the OUT window -/

/-- Packets go out while lines are free for them (R287). -/
theorem mod_window_add {t h m size : Nat} (hh : h < size) (hm : (t + size - h) % size + m < size) :
    ((t + m) % size + size - h) % size = (t + size - h) % size + m := by
  have h1 : ((t + m) % size + size - h) % size = (t + size - h + m) % size := by
    rw [Nat.add_sub_assoc hh.le, Nat.add_sub_assoc hh.le, Nat.mod_add_mod]
    congr 1
    omega
  rw [h1, Nat.add_mod, Nat.mod_eq_of_lt (by omega : m < size), Nat.mod_eq_of_lt hm]

theorem sum_owedLines_updFirst {p : VCmd → Bool} {f : VCmd → VCmd} (hf : ∀ x, (f x).owedLines = x.owedLines) (cs : List VCmd) :
    ((updFirst p f cs).map VCmd.owedLines).sum = (cs.map VCmd.owedLines).sum := by
  induction cs with
  | nil => rfl
  | cons c cs ih =>
    unfold updFirst
    split
    · simp [hf]
    · simp [ih]

/-- The lines free behind a packet that fits: those before, less its own. -/
theorem Sent.outFree {k : Kit} {r : Regs} {q : Nat} {p : BitVec 256 × List MemBeat} {cs : List VCmd} {a b : Engine} (h : Sent k r q [p] cs a b)
    (hh : (a.vq q).outHead < r.outSize q) (ho : (cs.map VCmd.owedLines).sum = ((a.vq q).cmds.map VCmd.owedLines).sum)
    (hf : 1 + p.2.length ≤ a.outFree r q) : b.outFree r q + (1 + p.2.length) = a.outFree r q := by
  unfold Engine.outFree Engine.outUnreleased at *
  rw [h.queue]
  simp only [outPos, ho, Nat.add_assoc] at *
  rw [mod_window_add hh (by omega)]
  omega

/-! ### The packets of a command go out -/

theorem Ended.congr {k : Kit} {r : Regs} {q : Nat} {c c' : VCmd} {ps : List (BitVec 256 × List MemBeat)} {code : Code} {cs : List VCmd}
    {a b : Engine} (h : Ended k r q c' ps code cs a b) (ht : c'.tenant = c.tenant) (hc : c'.clear = c.clear) : Ended k r q c ps code cs a b where
  __ := h
  tenants h0 := by
    rw [h.tenants h0, Engine.clearDeferred_tenants_eq, Engine.clearDeferred_tenants_eq, ht, hc]

/-- Commands of a queue around the first one with its tag; none of the others has an answer. -/
structure OnlyAnswered (cs as bs : List VCmd) (c : VCmd) : Prop where
  split : cs = as ++ c :: bs
  before : ∀ x ∈ as, (x.tag == c.tag) = false
  unanswered : ∀ x ∈ as ++ bs, x.answer = none

theorem OnlyAnswered.find {cs as bs : List VCmd} {c : VCmd} (h : OnlyAnswered cs as bs c) : (cs.find? fun x => x.tag == c.tag) = some c := by
  rw [h.split, List.find?_append, List.find?_eq_none.mpr fun x hx => by simp [h.before x hx]]
  simp

theorem OnlyAnswered.update {cs as bs : List VCmd} {c c' : VCmd} (h : OnlyAnswered cs as bs c) (ht : c'.tag = c.tag) (f : VCmd → VCmd)
    (hf : f c = c') : OnlyAnswered (updFirst (fun x => x.tag == c.tag) f cs) as bs c' where
  split := by
    rw [h.split, updFirst_append h.before (beq_self_eq_true _), hf]
  before x hx := ht ▸ h.before x hx
  unanswered := h.unanswered

/-- What is left of the commands when one with its tag has gone. -/
theorem OnlyAnswered.gone {cs as bs : List VCmd} {c : VCmd} (h : OnlyAnswered cs as bs c) :
    (cs.filter fun x => !(x.tag == c.tag)) = as ++ bs.filter fun x => !(x.tag == c.tag) := by
  rw [h.split, List.filter_append, List.filter_cons_of_neg (by simp), List.filter_eq_self.mpr fun x hx => by simp [h.before x hx]]

theorem OnlyAnswered.answered {cs as bs : List VCmd} {c : VCmd} (h : OnlyAnswered cs as bs c) (hs : c.session = none) (ha : c.answer.isSome = true) :
    (cs.filter fun x => x.session == none && x.answer.isSome) = [c] := by
  have hnone (l : List VCmd) (hl : ∀ x ∈ l, x ∈ as ++ bs) : (l.filter fun x => x.session == none && x.answer.isSome) = [] :=
    List.filter_eq_nil_iff.mpr fun x hx => by simp [h.unanswered x (hl x hx)]
  rw [h.split, List.filter_append, List.filter_cons_of_pos (by simp [hs, ha]), hnone as fun x hx => List.mem_append_left _ hx,
    hnone bs fun x hx => List.mem_append_right _ hx]
  rfl

/-- The packets of a command fit behind one another into the OUT window. -/
def PacketsFit (r : Regs) (q : Nat) (ps : List (BitVec 256 × List MemBeat)) (e : Engine) : Prop :=
  ps ≠ [] → (e.vq q).outHead < r.outSize q ∧ outLines ps ≤ e.outFree r q

/-- While nothing goes out, what fits still fits. -/
theorem Sent.fit {k : Kit} {r : Regs} {q : Nat} {cs : List VCmd} {a b : Engine} (h : Sent k r q [] cs a b)
    {ps : List (BitVec 256 × List MemBeat)} (hfit : PacketsFit r q ps a)
    (ho : (cs.map VCmd.owedLines).sum = ((a.vq q).cmds.map VCmd.owedLines).sum) : PacketsFit r q ps b := by
  intro hne
  have hb := hfit hne
  unfold Engine.outFree Engine.outUnreleased at hb ⊢
  rw [h.queue]
  simpa only [outPos, ho] using hb

theorem Engine.pumpCmd_ended {k : Kit} {r : Regs} {q : Nat} {as bs : List VCmd} {code : Code} {arg : Nat} (ps : List (BitVec 256 × List MemBeat))
    (c : VCmd) (e : Engine) (hps : c.toSend = ps) (hans : c.answer = some (code, arg)) (hs : c.session = none)
    (hc : OnlyAnswered (e.vq q).cmds as bs c) (hfit : PacketsFit r q ps e) :
    Ended k r q c (ps ++ [c.resp code arg]) code (as ++ bs.filter fun x => !(x.tag == c.tag)) e (e.pumpCmd k r q c.tag (ps.length + 1)) := by
  induction ps generalizing c e with
  | nil =>
    unfold Engine.pumpCmd
    rw [hc.find]
    simp only [hps, hans, hs, Option.isNone_none, Bool.true_or, if_true]
    rw [← hc.gone]
    exact Engine.answerCmd_ended hs (by simp [hans]) k r q code arg e
  | cons p ps ih =>
    obtain ⟨h, b⟩ := p
    obtain ⟨hhead, hroom⟩ := hfit (by simp)
    replace hroom : 1 + b.length + outLines ps ≤ e.outFree r q := outLines_cons (h, b) ps ▸ hroom
    let c' : VCmd := { c with toSend := ps }
    have hmay : e.mayOut r q c b.length = true := by
      unfold Engine.mayOut
      rw [hs]
      simp only [decide_eq_true_eq]
      omega
    have hstep : e.pumpCmd k r q c.tag (((h, b) :: ps).length + 1) = Engine.pumpCmd k r q c'.tag (ps.length + 1)
        ((e.onCmds q fun cs => updFirst (fun x => x.tag == c.tag) (fun x => { x with toSend := ps }) cs).writeOut k r q h b) := by
      conv_lhs => unfold Engine.pumpCmd
      rw [hc.find]
      simp only [hps, hmay, if_true, hs]
      rfl
    have hcs := hc.update (c' := c') rfl (fun x => { x with toSend := ps }) rfl
    have hsent := (sent_onCmds k r q (updFirst (fun x => x.tag == c.tag) fun x => { x with toSend := ps }) e).trans
      (sent_writeOut k r q h b _)
    rw [Engine.vq_onCmds_same, List.nil_append] at hsent
    have hfree := hsent.outFree hhead (by exact sum_owedLines_updFirst (fun _ => by rfl) _) (show 1 + b.length ≤ _ by omega)
    rw [hstep]
    have hend := ih c' _ rfl hans hs (by rw [hsent.queue]; exact hcs) (fun _ => by
      refine ⟨by rw [hsent.queue]; exact hhead, ?_⟩
      dsimp only at hfree
      omega)
    exact hsent.ended (hend.congr rfl rfl)

/-! ### The way out of a queue -/

/-- Where no command of a session has been carried out, nothing goes out. -/
theorem Engine.serveOut_idle {k : Kit} {r : Regs} {q : Nat} {session : Option Nat} {e : Engine}
    (h : ∀ c ∈ (e.vq q).cmds, c.session = session → c.answer = none) (fuel : Nat) : e.serveOut k r q session fuel = e := by
  cases fuel with
  | zero => rfl
  | succ fuel =>
    have hmine : ((e.vq q).cmds.filter fun c => c.session == session && c.answer.isSome) = [] :=
      List.filter_eq_nil_iff.mpr fun c hc hp => by
        simp only [Bool.and_eq_true, beq_iff_eq] at hp
        simp [h c hc hp.1] at hp
    unfold Engine.serveOut
    simp only [hmine, ite_self, List.find?_nil]

/-- Host queue `q` drives, its way out is clear for tenant `tn`, and its first command with the tag of `c` is `c`, which has been carried out and
whose packets fit. -/
structure MayEnd (r : Regs) (q : Nat) (as bs : List VCmd) (c : VCmd) (code : Code) (arg : Nat) (e : Engine) : Prop where
  drives : e.drives = true
  session : c.session = none
  answer : c.answer = some (code, arg)
  cmds : OnlyAnswered (e.vq q).cmds as bs c
  fit : PacketsFit r q c.toSend e

/-- A command that class arbitration has given the way out ends. -/
theorem Engine.serveOut_serving {k : Kit} {r : Regs} {q : Nat} {as bs : List VCmd} {c : VCmd} {code : Code} {arg : Nat} {e : Engine}
    (h : MayEnd r q as bs c code arg e) (hserve : c.serving = true) (fuel : Nat) :
    Ended k r q c (c.toSend ++ [c.resp code arg]) code (as ++ bs.filter fun x => !(x.tag == c.tag)) e (e.serveOut k r q none (fuel + 1)) := by
  have hend := Engine.pumpCmd_ended (k := k) c.toSend c e rfl h.answer h.session h.cmds h.fit
  have hleft : ((e.pumpCmd k r q c.tag (c.toSend.length + 1)).vq q).cmds = as ++ bs.filter fun x => !(x.tag == c.tag) := by rw [hend.queue]
  have hgone : ((as ++ bs.filter fun x => !(x.tag == c.tag)).any fun x => x.tag == c.tag) = false := by
    simp only [List.any_eq_false, List.mem_append, List.mem_filter]
    rintro x (hx | ⟨-, hx⟩)
    · simp [h.cmds.before x hx]
    · simpa using hx
  have hquiet : ∀ x ∈ ((e.pumpCmd k r q c.tag (c.toSend.length + 1)).vq q).cmds, x.session = none → x.answer = none := by
    rw [hleft]
    intro x hx _
    refine h.cmds.unanswered x (List.mem_append.mpr ?_)
    exact (List.mem_append.mp hx).imp_right fun hx => (List.mem_filter.mp hx).1
  unfold Engine.serveOut
  simp only [h.drives, Bool.or_true, if_true, h.cmds.answered h.session (by simp [h.answer]), List.find?_cons, hserve, hleft, hgone,
    Bool.false_eq_true, if_false]
  rw [Engine.serveOut_idle hquiet]
  exact hend

/-- A command that waits alone for a clear way out ends: the classes choose it, and its packets go out (R283, R287, R307). -/
theorem Engine.serveOut_ended {k : Kit} {r : Regs} {q : Nat} {as bs : List VCmd} {c : VCmd} {code : Code} {arg : Nat} {e : Engine}
    (h : MayEnd r q as bs c code arg e) (hw : ∀ w ∈ (e.vtenant c.tenant.toNat).weights, 0 < w)
    (hl : (tabGet (fun _ => VArb.fresh) (arbOut q) e.vault.arbs).credit.length = 3)
    (hcr : ∀ x ∈ (tabGet (fun _ => VArb.fresh) (arbOut q) e.vault.arbs).credit, -4096 ≤ x) (fuel : Nat) :
    Ended k r q c (c.toSend ++ [c.resp code arg]) code (as ++ bs.filter fun x => !(x.tag == c.tag)) e (e.serveOut k r q none (fuel + 2)) := by
  cases hserve : c.serving with
  | true => exact Engine.serveOut_serving h hserve _
  | false =>
    obtain ⟨arbs, hchoose⟩ := Engine.chooseCmd_single (q := q) (c := c) (path := arbOut q) hw hl hcr
    have hstep : e.serveOut k r q none (fuel + 2) = Engine.serveOut k r q none (fuel + 1)
        (({ e with vault := { e.vault with arbs := arbs } } : Engine).onCmds q fun cs =>
          updFirst (fun y => y.tag == c.tag) (fun y => { y with serving := true }) cs) := by
      conv_lhs => unfold Engine.serveOut
      simp only [h.drives, Bool.or_true, if_true, h.cmds.answered h.session (by simp [h.answer]), List.find?_cons, hserve, List.find?_nil,
        List.map_cons, List.map_nil, hchoose]
      rfl
    have hsent := (sent_arbs k r q arbs e).trans (sent_onCmds k r q (updFirst (fun y => y.tag == c.tag) fun y => { y with serving := true })
      { e with vault := { e.vault with arbs := arbs } })
    have hcs := h.cmds.update (c' := { c with serving := true }) rfl (fun y => { y with serving := true }) rfl
    rw [hstep]
    generalize Engine.onCmds q _ _ = e' at hsent ⊢
    have hmay : MayEnd r q as bs { c with serving := true } code arg e' :=
      { drives := by obtain ⟨_, _, _, _, rfl⟩ := hsent.frame; exact h.drives
        session := h.session
        answer := h.answer
        cmds := by rw [hsent.queue]; exact hcs
        fit := hsent.fit h.fit (by exact sum_owedLines_updFirst (fun _ => by rfl) _) }
    exact hsent.ended ((Engine.serveOut_serving hmay rfl fuel).congr rfl rfl)

/-- A loop of which one round does the work, while every other round leaves the engine as it is, before and after it. -/
theorem Engine.forEach_once {α : Type} {f : α → Engine → Engine} {xs : List α} {a b : Engine} (hbefore : ∀ x ∈ xs, f x a = a ∨ f x a = b)
    (hafter : ∀ x ∈ xs, f x b = b) (hx : ∃ x ∈ xs, f x a = b) : a.forEach xs f = b := by
  have hdone (ys : List α) (hys : ∀ y ∈ ys, f y b = b) : b.forEach ys f = b := by
    induction ys with
    | nil => rfl
    | cons y ys ih =>
      unfold Engine.forEach at ih ⊢
      rw [List.foldl_cons, hys y List.mem_cons_self]
      exact ih fun z hz => hys z (List.mem_cons_of_mem _ hz)
  induction xs with
  | nil => obtain ⟨x, hx, -⟩ := hx; cases hx
  | cons x xs ih =>
    have hrest : ∀ y ∈ xs, f y b = b := fun y hy => hafter y (List.mem_cons_of_mem _ hy)
    unfold Engine.forEach at ih hdone ⊢
    rw [List.foldl_cons]
    rcases hbefore x List.mem_cons_self with hxa | hxb
    · rw [hxa]
      obtain ⟨y, hy, hyb⟩ := hx
      rcases List.mem_cons.mp hy with rfl | hy
      · obtain rfl : a = b := hxa.symm.trans hyb
        exact hdone xs hrest
      · exact ih (fun z hz => hbefore z (List.mem_cons_of_mem _ hz)) hrest ⟨y, hy, hyb⟩
    · rw [hxb]
      exact hdone xs hrest

/-- A half drives the host, the weights of tenant `tn` are not 0, and no class of host queue `q` owes more than one command has lines
(R30, R304, R307). -/
structure ClearOut (q : Nat) (tn : TenantNo) (e : Engine) : Prop where
  drives : e.drives = true
  weights : ∀ w ∈ (e.vtenant tn.toNat).weights, 0 < w
  classes : (tabGet (fun _ => VArb.fresh) (arbOut q) e.vault.arbs).credit.length = 3
  debt : ∀ x ∈ (tabGet (fun _ => VArb.fresh) (arbOut q) e.vault.arbs).credit, -4096 ≤ x

/-- The only command of a host queue that has been carried out ends when the way out is served. -/
theorem Engine.pumpOut_ended {k : Kit} {r : Regs} {q : Nat} {as bs : List VCmd} {c : VCmd} {code : Code} {arg : Nat} {e : Engine}
    (h : MayEnd r q as bs c code arg e) (ho : ClearOut q c.tenant e) :
    Ended k r q c (c.toSend ++ [c.resp code arg]) code (as ++ bs.filter fun x => !(x.tag == c.tag)) e (e.pumpOut k r q) := by
  obtain ⟨n, hn⟩ : ∃ n, 2 * (e.vq q).cmds.length + 1 = n + 2 := ⟨2 * (e.vq q).cmds.length - 1, by
    have : 0 < (e.vq q).cmds.length := by rw [h.cmds.split]; simp
    omega⟩
  have hend := Engine.serveOut_ended (k := k) h ho.weights ho.classes ho.debt n
  have honly : ∀ x ∈ (e.vq q).cmds, x.session ≠ none → x.answer = none := by
    rw [h.cmds.split]
    intro x hx hs
    rcases List.mem_append.mp hx with hx | hx
    · exact h.cmds.unanswered x (List.mem_append_left _ hx)
    · rcases List.mem_cons.mp hx with rfl | hx
      · exact absurd h.session hs
      · exact h.cmds.unanswered x (List.mem_append_right _ hx)
  have hquiet : ∀ x ∈ ((e.serveOut k r q none (n + 2)).vq q).cmds, x.answer = none := by
    rw [hend.queue]
    intro x hx
    exact h.cmds.unanswered x (List.mem_append.mpr ((List.mem_append.mp hx).imp_right fun hx => (List.mem_filter.mp hx).1))
  have hpump : e.pumpOut k r q = e.serveOut k r q none (n + 2) := by
    unfold Engine.pumpOut
    refine Engine.forEach_once (fun m _ => ?_) (fun m _ => Engine.serveOut_idle (fun x hx _ => hquiet x hx) _) ⟨none, ?_, ?_⟩
    · cases m with
      | none => rw [hn]; exact .inr rfl
      | some m => exact .inl (Engine.serveOut_idle (fun x hx hs => honly x hx (by simp [hs])) _)
    · rw [List.mem_eraseDups, h.cmds.split]
      simp [h.session]
    · rw [hn]
  rw [hpump]
  exact hend

/-- The DATA packets of a command. -/
def VCmd.packets (c : VCmd) (data : List MemBeat) : List (BitVec 256 × List MemBeat) :=
  (dataPacketsOf c.tag c.opcode c.prio c.offset data).map fun p => (p.1.word, p.2)

/-- A command of a host queue that has been carried out ends when the way out is clear and its packets fit: what it had reserved is free, its
packets and its RESP go out, and it has left its queue (R283, R284, R287, R289). -/
theorem Engine.finishCmd_ended {k : Kit} {r : Regs} {q : Nat} {as bs : List VCmd} {c c' : VCmd} {data : List MemBeat} {code : Code} {arg : Nat}
    {e : Engine} (ho : ClearOut q c'.tenant e) (hs : c'.session = none) (hc : OnlyAnswered (e.vq q).cmds as bs c) (ht : c'.tag = c.tag)
    (howed : c'.owedLines = c.owedLines) (hfit : PacketsFit r q (c'.packets data) e) :
    Ended k r q c' (c'.packets data ++ [c'.resp code arg]) code (as ++ bs.filter fun x => !(x.tag == c'.tag))
      (e.onFront fun f => { f with reserved := f.reserved - c'.reservedLines }) (e.finishCmd k r q c' data code arg) := by
  let done : VCmd :=
    { c' with toSend := c'.packets data, answer := some (code, arg), waiting := false, waits := [], staged := [] }
  have hsent := sent_onCmds k r q (updFirst (fun x => x.tag == c'.tag) fun _ => done)
    (e.onFront fun f => { f with reserved := f.reserved - c'.reservedLines })
  have hcs : OnlyAnswered (updFirst (fun x => x.tag == c'.tag) (fun _ => done) (e.vq q).cmds) as bs done := by
    rw [ht]
    exact hc.update (c' := done) ht (fun _ => done) rfl
  have hown : ((updFirst (fun x => x.tag == c'.tag) (fun _ => done) (e.vq q).cmds).map VCmd.owedLines).sum =
      ((e.vq q).cmds.map VCmd.owedLines).sum := by
    have : done.owedLines = c.owedLines := howed
    rw [hcs.split, hc.split]
    simp [this]
  have hmay : MayEnd r q as bs done code arg ((e.onFront fun f => { f with reserved := f.reserved - c'.reservedLines }).onCmds q
      (updFirst (fun x => x.tag == c'.tag) fun _ => done)) :=
    { drives := ho.drives
      session := hs
      answer := rfl
      cmds := by rw [hsent.queue]; exact hcs
      fit := hsent.fit hfit hown }
  exact hsent.ended ((Engine.pumpOut_ended hmay ⟨ho.drives, ho.weights, ho.classes, ho.debt⟩).congr rfl rfl)

end Sys2Proof.Machine


/-!
PROOFS. A CMD of a host queue (R14, R284, R287, R294): taken, judged, refused or in flight, and answered.
-/

namespace Sys2Proof.Machine

/-! ### The CMD is taken and judged -/

theorem vq_unpacked (s : State) (q : Nat) :
    (unpacked s q).vq q = { s.eng.vq q with packets := (s.eng.vq q).packets.tail, outWait := false } := Engine.vq_setVq_same q _ s.eng

theorem vq_unpacked_ne {m q : Nat} (h : m ≠ q) (s : State) : (unpacked s q).vq m = s.eng.vq m := Engine.vq_setVq_ne h _ s.eng

theorem vq_inFlight (s : State) (q : Nat) (c : VCmd) :
    (inFlight s q c).vq q =
      { s.eng.vq q with packets := (s.eng.vq q).packets.tail, outWait := false, cmds := (s.eng.vq q).cmds ++ [c] } := by
  unfold inFlight
  rw [Engine.vq_onCmds_same]
  show { (unpacked s q).vq q with cmds := ((unpacked s q).vq q).cmds ++ [c] } = _
  rw [vq_unpacked]

theorem vq_inFlight_ne {m q : Nat} (h : m ≠ q) (s : State) (c : VCmd) : (inFlight s q c).vq m = s.eng.vq m :=
  (Engine.vq_onCmds_ne h _ _).trans (vq_unpacked_ne h s)

theorem same_inFlight (s : State) (q : Nat) (c : VCmd) : Same [.vault] s.eng (inFlight s q c) :=
  ((same_setVq q _ s.eng).trans (same_vault _ _)).trans (same_onCmds q _ _)

/-- A packet offered is taken by a command that its header satisfies. -/
theorem Engine.takePacket_offered {s : State} {q : Nat} {p : Packet} {h : VaultHdr} {sel : VaultHdr → Bool}
    {act : VaultHdr → Packet → Engine → Engine} (ho : Offered s q p h) (hsel : sel h = true) :
    s.eng.takePacket s.regs q sel act = act h p (unpacked s q) := by
  obtain ⟨⟨rest, hp⟩, rfl, htype, hact, hsched, hfree⟩ := ho
  unfold Engine.takePacket unpacked
  simp only [hp, hsel, hact, hsched, Bool.not_true, Bool.or_self, Bool.false_eq_true, if_false, htype, true_and, List.tail_cons]
  rw [if_neg (by omega)]

theorem Engine.command_offered {s : State} {queue : BitVec 4} {p : Packet} {h : VaultHdr} {mine : VaultHdr → Bool} {reads : CmdReads}
    {act : Nat → VCmd → List MemBeat → Engine → Engine} (ho : Offered s queue.toNat p h)
    (hmine : mine h = true ∨ opDefined h.opcode = false) :
    s.eng.command s.kit s.regs (.host queue) mine reads act =
      (unpacked s queue.toNat).acceptCmd s.kit s.regs queue.toNat (s.regs.vqTenant queue.toNat) none h p.rsv p.payload
        fun c e => act queue.toNat c p.payload e := by
  have htype := ho.2.2.1
  unfold Engine.command
  dsimp only
  rw [Engine.takePacket_offered ho]
  rcases hmine with hm | hm <;> simp [htype, hm]

/-- A CMD that no condition refuses is in flight, and given to its row (R294). -/
theorem Engine.command_accepted {s : State} {queue : BitVec 4} {p : Packet} {h : VaultHdr} {mine : VaultHdr → Bool} {reads : CmdReads}
    {act : Nat → VCmd → List MemBeat → Engine → Engine} (ho : Offered s queue.toNat p h) (hmine : mine h = true)
    (hn : NoneHolds (cmdConds s queue.toNat p h)) :
    s.eng.command s.kit s.regs (.host queue) mine reads act =
      act queue.toNat (s.eng.newCmd (s.regs.vqTenant queue.toNat) none h) p.payload
        (inFlight s queue.toNat (s.eng.newCmd (s.regs.vqTenant queue.toNat) none h)) := by
  rw [Engine.command_offered ho (.inl hmine)]
  have hj := judge_none.mpr hn
  unfold cmdConds at hj
  unfold Engine.acceptCmd
  rw [hj]
  rfl

/-- A CMD that a condition refuses is answered with REFUSED and the code, and counted (R294). -/
theorem Engine.command_refused {s : State} {queue : BitVec 4} {p : Packet} {h : VaultHdr} {mine : VaultHdr → Bool} {reads : CmdReads}
    {act : Nat → VCmd → List MemBeat → Engine → Engine} {code : Code} (ho : Offered s queue.toNat p h)
    (hmine : mine h = true ∨ opDefined h.opcode = false) (hj : judge (cmdConds s queue.toNat p h) = some code) :
    s.eng.command s.kit s.regs (.host queue) mine reads act =
      ((unpacked s queue.toNat).bump Ctr.cmdsFailed 1).writeOut s.kit s.regs queue.toNat
        (respHdr h.tag h.opcode (h.flags % 4) h.offset 0 true code).word [] := by
  rw [Engine.command_offered ho hmine]
  unfold cmdConds at hj
  unfold Engine.acceptCmd
  rw [hj]
  rfl

theorem lineWrites_nil (a : Nat) : lineWrites a [] = [] := by
  have : pageWrites a (bytesOfLines []) = [] := by simp [bytesOfLines, pageWrites, pageCuts]
  simp [lineWrites, this]

/-- A packet without payload is its header line. -/
theorem outWrites_bare (r : Regs) (q at_ : Nat) (phase : Bool) (h : BitVec 256) :
    outWrites r q at_ phase [(h, [])] = [(r.outBase q + 64 * at_, outHeader phase 0 h, [])] := by
  simp [outWrites, outPieces, lineWrites_nil]

theorem IsWrites.single {k : Kit} {a : Nat} {bs : List Byte} {ps : List Bool} {os : List Output} (h : IsWrites k [(a, bs, ps)] os) :
    ∃ tag, os = [.memWrite (channelOf k a) tag a bs ps 1] := by
  obtain ⟨tags, hl, rfl⟩ := h
  obtain ⟨tag, rfl⟩ := List.length_eq_one_iff.mp hl
  exact ⟨tag, rfl⟩

/-- The answer of a refused CMD is its RESP alone (R284, R287, R294). -/
theorem responded_refused {s : State} {q : Nat} {h : VaultHdr} {code : Code} {b : Engine}
    (hsent : Sent s.kit s.regs q [((respHdr h.tag h.opcode (h.flags % 4) h.offset 0 true code).word, [])] (s.eng.vq q).cmds
      ((unpacked s q).bump Ctr.cmdsFailed 1) b) :
    Responded s (withEng s b) q h true code 0 ∧ b.counter Ctr.cmdsFailed = s.eng.counter Ctr.cmdsFailed + 1 ∧
      Only [.vault, .count, .mem, .out] s (withEng s b) := by
  have hq : ((unpacked s q).bump Ctr.cmdsFailed 1).vq q =
      { s.eng.vq q with packets := (s.eng.vq q).packets.tail, outWait := false } := vq_unpacked s q
  have hqueue := hsent.queue
  obtain ⟨os, hout, hos⟩ := hsent.out
  rw [hq] at hqueue hos
  rw [outWrites_bare] at hos
  obtain ⟨tag, rfl⟩ := hos.single
  refine ⟨⟨⟨tag, hout⟩, ?_, ?_, ?_⟩, ?_, ?_⟩
  · show (b.vq q).outTail = _
    rw [hqueue]
    rfl
  · show (b.vq q).cmds = _
    rw [hqueue]
  · show (b.vq q).packets = _
    rw [hqueue]
  · obtain ⟨_, _, _, _, hb⟩ := hsent.frame
    rw [hb]
    exact Engine.counter_bump_same Ctr.cmdsFailed 1 (unpacked s q)
  · exact only_of_same ((((same_setVq q _ s.eng).mono (by decide)).trans ((same_bump _ _ _).mono (by decide))).trans
      (hsent.same.mono (by decide)))

end Sys2Proof.Machine


/-!
PROOFS. A command of a host queue that has been carried out is answered (R284, R287, R289, R294).
-/

namespace Sys2Proof.Machine

/-! ### The command in flight -/

/-- A command that has the header fields of `h`, came from a host queue of tenant `tn`, and holds no lines. -/
structure OfHdr (h : VaultHdr) (tn : TenantNo) (c : VCmd) : Prop where
  tag : c.tag = h.tag
  opcode : c.opcode = h.opcode
  prio : c.prio = h.flags % 4
  offset : c.offset = h.offset
  tenant : c.tenant = tn
  session : c.session = none
  ready : c.ready = false

theorem Engine.newCmd_ofHdr (tn : TenantNo) (h : VaultHdr) (e : Engine) : OfHdr h tn (e.newCmd tn none h) where
  tag := rfl
  opcode := rfl
  prio := by
    show (h.flags % 4 + 4 * b2n _) % 4 = h.flags % 4
    omega
  offset := rfl
  tenant := rfl
  session := rfl
  ready := rfl

theorem OfHdr.packets {h : VaultHdr} {tn : TenantNo} {c : VCmd} (hc : OfHdr h tn c) (data : List MemBeat) : c.packets data = answerData h data := by
  unfold VCmd.packets answerData
  rw [hc.tag, hc.opcode, hc.prio, hc.offset]

theorem OfHdr.resp {h : VaultHdr} {tn : TenantNo} {c : VCmd} (hc : OfHdr h tn c) (code : Code) (arg : Nat) :
    c.resp code arg = ((respHdr h.tag h.opcode (h.flags % 4) h.offset arg false code).word, []) := by
  unfold VCmd.resp
  rw [hc.tag, hc.opcode, hc.prio, hc.offset]

theorem OfHdr.owedLines {h : VaultHdr} {tn : TenantNo} {c : VCmd} (hc : OfHdr h tn c) :
    c.owedLines = if movesIn h.opcode then 2 else 1 := by
  simp [VCmd.owedLines, hc.opcode, hc.ready]

theorem OfHdr.reservedLines {h : VaultHdr} {tn : TenantNo} {c : VCmd} (hc : OfHdr h tn c) : c.reservedLines = 0 := by
  simp [VCmd.reservedLines, hc.ready]

/-- In `e` the packet with header `h` has been taken from host queue `q` of `s` and its command `c` is in flight; nothing has gone out, and what
the way out of the queue depends on is as it was. -/
structure InService (s : State) (q : Nat) (c : VCmd) (e : Engine) : Prop where
  queue : e.vq q = { s.eng.vq q with packets := (s.eng.vq q).packets.tail, outWait := false, cmds := (s.eng.vq q).cmds ++ [c] }
  out : e.out = s.eng.out
  drives : e.drives = s.eng.drives
  weights : ∀ w ∈ (e.vtenant c.tenant.toNat).weights, 0 < w
  arbs : e.vault.arbs = s.eng.vault.arbs

theorem inService_inFlight {s : State} {q : Nat} {c : VCmd} (hclear : OutClear s q c.tenant) : InService s q c (inFlight s q c) where
  queue := vq_inFlight s q c
  out := rfl
  drives := rfl
  weights := hclear.2.1
  arbs := rfl

theorem drives_of_offered {s : State} {q : Nat} {p : Packet} {h : VaultHdr} (ho : Offered s q p h) : s.eng.drives = true := by
  obtain ⟨-, -, -, -, hsched, -⟩ := ho
  simp only [Engine.scheduling, Bool.and_eq_true] at hsched
  exact hsched.1.1.2

/-- A CMD that is not refused has a tag that no command of its queue has (0x19). -/
theorem newTag_of_noneHolds {s : State} {q : Nat} {p : Packet} {h : VaultHdr} (hn : NoneHolds (cmdConds s q p h)) :
    ∀ x ∈ (s.eng.vq q).cmds, (x.tag == h.tag) = false := by
  have hmem : (((unpacked s q).vq q).cmds.any (fun x => x.tag == h.tag), (0x19 : Code)) ∈ cmdConds s q p h := by
    unfold cmdConds Engine.stateConds
    exact List.mem_append_right _ (by simp)
  have hany := hn _ hmem
  rw [vq_unpacked] at hany
  simpa using hany

theorem InService.onlyAnswered {s : State} {q : Nat} {p : Packet} {h : VaultHdr} {c : VCmd} {e : Engine} {tn : TenantNo}
    (hs : InService s q c e) (ht : c.tag = h.tag) (hclear : OutClear s q tn) (hn : NoneHolds (cmdConds s q p h)) :
    OnlyAnswered (e.vq q).cmds (s.eng.vq q).cmds [] c where
  split := by rw [hs.queue]
  before x hx := ht ▸ newTag_of_noneHolds hn x hx
  unanswered x hx := hclear.1 x (by simpa using hx)

/-- Before the command the OUT window had as many free lines more as the command is owed. -/
theorem InService.outFree {s : State} {q : Nat} {c : VCmd} {e : Engine} (hs : InService s q c e) (r : Regs) :
    e.outFree r q = s.eng.outFree r q - c.owedLines := by
  unfold Engine.outFree Engine.outUnreleased
  rw [hs.queue]
  simp only [List.map_append, List.sum_append, List.map_cons, List.map_nil, List.sum_cons, List.sum_nil]
  omega

/-- The end of a command in service is the answer of its CMD. -/
theorem Ended.answers {s : State} {q : Nat} {h : VaultHdr} {tn : TenantNo} {c c' : VCmd} {data : List MemBeat} {code : Code} {arg : Nat}
    {e b : Engine} (hs : InService s q c e) (hc : OfHdr h tn c')
    (hend : Ended s.kit s.regs q c' (c'.packets data ++ [c'.resp code arg]) code (s.eng.vq q).cmds e b) :
    Answered s (withEng s b) q h data code arg := by
  have hqueue := hend.queue
  obtain ⟨os, hout, tags, htags, hos⟩ := hend.out
  rw [hc.packets, hc.resp, hs.queue] at hqueue hos
  rw [hc.packets, hc.resp, hs.queue] at htags
  refine ⟨⟨tags, htags, ?_⟩, ?_, ?_, ?_⟩
  · show b.out = _
    rw [hout, hs.out, hos]
  · show (b.vq q).outTail = _
    rw [hqueue]
    exact outPos_line _ _ _ _ (by simp)
  · show (b.vq q).cmds = _
    rw [hqueue]
  · show (b.vq q).packets = _
    rw [hqueue]

/-- The packet `p` with header `h` was offered in `s` and no condition refuses its CMD; the way out is clear, and in `e` its command `c` is in
service. -/
structure Started (s : State) (q : Nat) (p : Packet) (h : VaultHdr) (tn : TenantNo) (c : VCmd) (e : Engine) : Prop where
  offered : Offered s q p h
  clear : OutClear s q tn
  accepted : NoneHolds (cmdConds s q p h)
  service : InService s q c e
  hdr : OfHdr h tn c

theorem started_inFlight {s : State} {q : Nat} {p : Packet} {h : VaultHdr} {tn : TenantNo} (ho : Offered s q p h) (hclear : OutClear s q tn)
    (hn : NoneHolds (cmdConds s q p h)) : Started s q p h tn (s.eng.newCmd tn none h) (inFlight s q (s.eng.newCmd tn none h)) :=
  ⟨ho, hclear, hn, inService_inFlight hclear, s.eng.newCmd_ofHdr tn h⟩

/-- What a command in service leaves when it has been carried out and its answer fits into the OUT window. -/
theorem Started.ended {s : State} {q : Nat} {p : Packet} {h : VaultHdr} {tn : TenantNo} {c c' : VCmd} {data : List MemBeat} {e : Engine}
    (hs : Started s q p h tn c e) (hc' : OfHdr h tn c') (hfit : answerData h data = [] ∨ (OutFits s q h data ∧ movesIn h.opcode = false))
    (code : Code) (arg : Nat) :
    Ended s.kit s.regs q c' (c'.packets data ++ [c'.resp code arg]) code (s.eng.vq q).cmds e (e.finishCmd s.kit s.regs q c' data code arg) := by
  have hdrives := drives_of_offered hs.offered
  obtain ⟨-, -, hclasses, hdebt⟩ := id hs.clear
  have hc := hs.hdr
  have hse := hs.service
  have hend := Engine.finishCmd_ended (k := s.kit) (r := s.regs) (q := q) (code := code) (arg := arg) (data := data) (e := e) (c := c) (c' := c')
    (as := (s.eng.vq q).cmds) (bs := [])
    ⟨hse.drives.trans hdrives, by rw [hc'.tenant, ← hc.tenant]; exact hse.weights, by rw [hse.arbs]; exact hclasses, by rw [hse.arbs]; exact hdebt⟩
    hc'.session (hse.onlyAnswered hc.tag hs.clear hs.accepted) (hc'.tag.trans hc.tag.symm) (hc'.owedLines.trans hc.owedLines.symm) (by
      intro hne
      rw [hc'.packets] at hne ⊢
      rcases hfit with hnil | ⟨⟨hhead, hroom⟩, hmoves⟩
      · exact absurd hnil hne
      · refine ⟨by rw [hse.queue]; exact hhead, ?_⟩
        rw [hse.outFree, hc.owedLines, hmoves]
        simp only [Bool.false_eq_true, if_false]
        omega)
  have hbase : (e.onFront fun f => { f with reserved := f.reserved - c'.reservedLines }) = e := by
    rw [hc'.reservedLines]
    rfl
  rw [hbase, List.filter_nil, List.append_nil] at hend
  exact hend

theorem answerData_nil (h : VaultHdr) : answerData h [] = [] := rfl

/-- A row that carries out the command in service answers it. -/
theorem Started.answered {s : State} {q : Nat} {p : Packet} {h : VaultHdr} {tn : TenantNo} {c c' : VCmd} {data : List MemBeat} {code : Code}
    {arg : Nat} {o : Out} {e : Engine} (hs : Started s q p h tn c e) (hc' : OfHdr h tn c')
    (hfit : answerData h data = [] ∨ (OutFits s q h data ∧ movesIn h.opcode = false))
    (hexec : o = .next (withEng s (e.finishCmd s.kit s.regs q c' data code arg))) :
    ∃ b, o = .next (withEng s b) ∧ Answered s (withEng s b) q h data code arg ∧
      b.vault = { e.vault with queues := b.vault.queues, tenants := b.vault.tenants, arbs := b.vault.arbs } ∧
      (code = 0 → b.vault.tenants = (e.clearDeferred c').vault.tenants) ∧ Same (answerGroups code) e b := by
  have hend := hs.ended hc' hfit code arg
  exact ⟨_, hexec, hend.answers hs.service hc', hend.vault, hend.tenants, hend.same⟩

theorem same_inFlight_answer (s : State) (q : Nat) (c : VCmd) (code : Code) : Same (answerGroups code) s.eng (inFlight s q c) :=
  (same_inFlight s q c).mono (by unfold answerGroups; split <;> decide)

theorem inFlight_tenants (s : State) (q : Nat) (c : VCmd) : (inFlight s q c).vault.tenants = s.eng.vault.tenants := rfl

theorem inFlight_body (s : State) (q : Nat) (c : VCmd) : (inFlight s q c).body = s.eng.body := rfl

theorem Engine.vtenant_of_tenants {a b : Engine} (h : b.vault.tenants = a.vault.tenants) (m : Nat) : b.vtenant m = a.vtenant m :=
  congrArg (tabGet (fun _ => VTenant.fresh) m) h

theorem Engine.clearDeferred_none {c : VCmd} (h : c.clear = []) (e : Engine) : (e.clearDeferred c).vault.tenants = e.vault.tenants := by
  rw [Engine.clearDeferred_tenants_eq, h]
  rfl

end Sys2Proof.Machine


/-!
PROOFS. The commands of a host queue that are answered at once (R294, R303, R304).
-/

namespace Sys2Proof.Machine

theorem answerGroups_vault (code : Code) : ∀ g ∈ [Grp.vault, Grp.count, Grp.mem, Grp.out], g ∈ answerGroups code := by
  unfold answerGroups
  split <;> decide

/-- A row of the vault that a host queue gives a command is that command's. -/
theorem needs_host (queue : BitVec 4) (f : Kit → Regs → Engine → Engine) (s : State) :
    s.needs ((VaultSrc.host queue).wf s.kit) (State.eff f) = .next (withEng s (f s.kit s.regs s.eng)) := rfl

theorem exec_getFeature_accepted {s : State} {queue : BitVec 4} {p : Packet} {h : VaultHdr} (ho : Offered s queue.toNat p h)
    (hn : NoneHolds (cmdConds s queue.toNat p h)) (hop : h.opcode = opGetFeature) : let q := queue.toNat
    let tn := s.regs.vqTenant q
    let v := s.eng.vtenant tn.toNat
    exec (.getFeature (.host queue)) s = .next (withEng s ((inFlight s q (s.eng.newCmd tn none h)).finishCmd s.kit s.regs q
      (s.eng.newCmd tn none h) [] 0 (if h.arg = 1 then v.arb.toNat else v.wcache.toNat))) := by
  show execGetFeature (.host queue) s = _
  unfold execGetFeature
  rw [needs_host, Engine.command_accepted ho (by simp [isOp, hop]) hn]
  rfl

/-- GET_FEATURE (R304). -/
theorem getFeature_answered {s : State} {queue : BitVec 4} {p : Packet} {h : VaultHdr} (ho : Offered s queue.toNat p h)
    (hclear : OutClear s queue.toNat (s.regs.vqTenant queue.toNat)) (hn : NoneHolds (cmdConds s queue.toNat p h)) (hop : h.opcode = opGetFeature) :
    let v := s.eng.vtenant (s.regs.vqTenant queue.toNat).toNat
    ∃ t, exec (.getFeature (.host queue)) s = .next t ∧ Answered s t queue.toNat h [] 0 (if h.arg = 1 then v.arb.toNat else v.wcache.toNat) ∧
      t.eng.vault.tenants = s.eng.vault.tenants ∧ Only [.vault, .count, .mem, .out] s t := by
  have hs := started_inFlight ho hclear hn
  obtain ⟨b, hexec, ha, -, ht, hsame⟩ := hs.answered hs.hdr (.inl (answerData_nil h)) (exec_getFeature_accepted ho hn hop)
  refine ⟨_, hexec, ha, ?_, only_of_same ((same_inFlight_answer _ _ _ _).trans hsame)⟩
  exact ((ht rfl).trans (Engine.clearDeferred_none rfl _)).trans (inFlight_tenants _ _ _)

/-! ### SET_FEATURE -/

/-- The features of a tenant after a SET_FEATURE with this argument (R304). -/
def VTenant.withFeature (arg : Nat) (v : VTenant) : VTenant :=
  if bits 7 0 arg = 1 then { v with arb := BitVec.ofNat 32 (bits 63 32 arg) } else { v with wcache := BitVec.ofNat 32 (bits 63 32 arg) }

theorem VTenant.weights_withFeature {arg : Nat} {v : VTenant} (hok : featureOk (bits 7 0 arg) (bits 63 32 arg) = true)
    (hv : ∀ w ∈ v.weights, 0 < w) : ∀ w ∈ (v.withFeature arg).weights, 0 < w := by
  unfold VTenant.withFeature
  split
  next harb =>
    have hval : (BitVec.ofNat 32 (bits 63 32 arg)).toNat = bits 63 32 arg := by
      rw [BitVec.toNat_ofNat]
      exact Nat.mod_eq_of_lt (Nat.mod_lt _ (by decide))
    rw [harb] at hok
    simp only [featureOk, if_true, Bool.and_eq_true, bne_iff_ne, ne_eq] at hok
    obtain ⟨⟨⟨h0, h1⟩, h2⟩, -⟩ := hok
    simp only [VTenant.weights, hval, List.mem_cons, List.not_mem_nil, or_false, forall_eq_or_imp, forall_eq]
    omega
  next => exact hv

/-- A SET_FEATURE that is not refused names a feature and a value in its table (0x11). -/
theorem featureOk_of_noneHolds {s : State} {q : Nat} {p : Packet} {h : VaultHdr} (hn : NoneHolds (cmdConds s q p h)) (hop : h.opcode = opSetFeature) :
    featureOk (bits 7 0 h.arg) (bits 63 32 h.arg) = true := by
  have hmem : (h.opcode == opSetFeature && (bits 31 8 h.arg != 0 || !featureOk (bits 7 0 h.arg) (bits 63 32 h.arg)), (0x11 : Code)) ∈
      cmdConds s q p h := by
    unfold cmdConds fieldConds
    exact List.mem_append_left _ (List.mem_cons_of_mem _ (by simp))
  have hcond := hn _ hmem
  simp only [hop, beq_self_eq_true, Bool.true_and, Bool.or_eq_false_iff, Bool.not_eq_false'] at hcond
  exact hcond.2

theorem exec_setFeature_accepted {s : State} {queue : BitVec 4} {p : Packet} {h : VaultHdr} (ho : Offered s queue.toNat p h)
    (hn : NoneHolds (cmdConds s queue.toNat p h)) (hop : h.opcode = opSetFeature) : let q := queue.toNat
    let tn := s.regs.vqTenant q
    exec (.setFeature (.host queue)) s = .next (withEng s (((inFlight s q (s.eng.newCmd tn none h)).setVtenant tn.toNat
      ((s.eng.vtenant tn.toNat).withFeature h.arg)).finishCmd s.kit s.regs q (s.eng.newCmd tn none h) [] 0 0)) := by
  show execSetFeature (.host queue) s = _
  unfold execSetFeature
  rw [needs_host, Engine.command_accepted ho (by simp [isOp, hop]) hn]
  rfl

theorem InService.setVtenant {s : State} {q : Nat} {c : VCmd} {e : Engine} (hs : InService s q c e) {v : VTenant} (hv : ∀ w ∈ v.weights, 0 < w) :
    InService s q c (e.setVtenant c.tenant.toNat v) where
  queue := hs.queue
  out := hs.out
  drives := hs.drives
  weights := by
    rw [Engine.vtenant_setVtenant_same]
    exact hv
  arbs := hs.arbs

/-- SET_FEATURE (R304). -/
theorem setFeature_answered {s : State} {queue : BitVec 4} {p : Packet} {h : VaultHdr} (ho : Offered s queue.toNat p h)
    (hclear : OutClear s queue.toNat (s.regs.vqTenant queue.toNat)) (hn : NoneHolds (cmdConds s queue.toNat p h)) (hop : h.opcode = opSetFeature) :
    let tn := s.regs.vqTenant queue.toNat
    ∃ t, exec (.setFeature (.host queue)) s = .next t ∧ Answered s t queue.toNat h [] 0 0 ∧
      t.eng.vtenant tn.toNat = (s.eng.vtenant tn.toNat).withFeature h.arg ∧ (∀ m, m ≠ tn.toNat → t.eng.vtenant m = s.eng.vtenant m) ∧
      Only [.vault, .count, .mem, .out] s t := by
  intro tn
  have hs := started_inFlight ho hclear hn
  have hweights := VTenant.weights_withFeature (featureOk_of_noneHolds hn hop) hclear.2.1
  have hset : Started s queue.toNat p h tn (s.eng.newCmd tn none h)
      ((inFlight s queue.toNat (s.eng.newCmd tn none h)).setVtenant tn.toNat ((s.eng.vtenant tn.toNat).withFeature h.arg)) :=
    { hs with service := hs.service.setVtenant hweights }
  obtain ⟨b, hexec, ha, -, ht, hsame⟩ := hset.answered hs.hdr (.inl (answerData_nil h)) (exec_setFeature_accepted ho hn hop)
  have hv := Engine.vtenant_of_tenants ((ht rfl).trans (Engine.clearDeferred_none rfl _))
  refine ⟨_, hexec, ha, (hv _).trans (Engine.vtenant_setVtenant_same _ _ _), fun m hm => ?_,
    only_of_same (((same_inFlight_answer _ _ _ _).trans ((same_setVtenant _ _ _).mono (by decide))).trans hsame)⟩
  exact (hv m).trans ((Engine.vtenant_setVtenant_ne hm _ _).trans (Engine.vtenant_of_tenants (inFlight_tenants _ _ _) m))

/-! ### IDENTIFY and GET_LOG -/

theorem exec_identify_accepted {s : State} {queue : BitVec 4} {p : Packet} {h : VaultHdr} (ho : Offered s queue.toNat p h)
    (hn : NoneHolds (cmdConds s queue.toNat p h)) (hop : h.opcode = opIdentify) : let q := queue.toNat
    let c := s.eng.newCmd (s.regs.vqTenant q) none h
    exec (.identify (.host queue)) s = .next (withEng s ((inFlight s q c).finishCmd s.kit s.regs q c
      (plainBeats (s.eng.identifyData s.regs q c)) 0 256)) := by
  show execIdentify (.host queue) s = _
  unfold execIdentify
  rw [needs_host, Engine.command_accepted ho (by simp [isOp, hop]) hn]
  rfl

/-- IDENTIFY (R294). -/
theorem identify_answered {s : State} {queue : BitVec 4} {p : Packet} {h : VaultHdr} (ho : Offered s queue.toNat p h)
    (hclear : OutClear s queue.toNat (s.regs.vqTenant queue.toNat)) (hn : NoneHolds (cmdConds s queue.toNat p h)) (hop : h.opcode = opIdentify) :
    let data := plainBeats (s.eng.identifyData s.regs queue.toNat (s.eng.newCmd (s.regs.vqTenant queue.toNat) none h))
    OutFits s queue.toNat h data → ∃ t, exec (.identify (.host queue)) s = .next t ∧ Answered s t queue.toNat h data 0 256 ∧
      Only [.vault, .count, .mem, .out] s t := by
  intro data hfit
  have hs := started_inFlight ho hclear hn
  obtain ⟨b, hexec, ha, -, -, hsame⟩ := hs.answered hs.hdr (.inr ⟨hfit, by rw [hop]; rfl⟩) (exec_identify_accepted ho hn hop)
  exact ⟨_, hexec, ha, only_of_same ((same_inFlight_answer _ _ _ _).trans hsame)⟩

/-- A GET_LOG as it is carried out: with CLEAR on the DEFERRED page it clears the entries that stand there (R303). -/
def Engine.logCmd (c : VCmd) (e : Engine) : VCmd :=
  { c with clear := if bits 7 0 c.arg = 2 ∧ bitOf 8 c.arg then (e.vtenant c.tenant.toNat).deferred else [] }

theorem exec_getLog_accepted {s : State} {queue : BitVec 4} {p : Packet} {h : VaultHdr} (ho : Offered s queue.toNat p h)
    (hn : NoneHolds (cmdConds s queue.toNat p h)) (hop : h.opcode = opGetLog) : let q := queue.toNat
    let tn := s.regs.vqTenant q
    let c := s.eng.newCmd tn none h
    exec (.getLog (.host queue)) s = .next (withEng s ((inFlight s q c).finishCmd s.kit s.regs q (s.eng.logCmd c)
      (plainBeats (s.eng.logPage tn.toNat (bits 7 0 h.arg))) 0 (pageSize (bits 7 0 h.arg)))) := by
  show execGetLog (.host queue) s = _
  unfold execGetLog
  rw [needs_host, Engine.command_accepted ho (by simp [isOp, hop]) hn]
  rfl

/-- The DEFERRED page of a tenant after a GET_LOG: with CLEAR it is empty. -/
theorem Engine.clearDeferred_logCmd (c : VCmd) (e : Engine) : (e.clearDeferred (e.logCmd c)).vtenant c.tenant.toNat =
    (let old := e.vtenant c.tenant.toNat
     if bits 7 0 c.arg = 2 ∧ bitOf 8 c.arg = true ∧ old.deferred ≠ [] then { old with deferred := [], overflow := false } else old) := by
  unfold Engine.clearDeferred Engine.logCmd Engine.when
  by_cases hclear : bits 7 0 c.arg = 2 ∧ bitOf 8 c.arg = true
  · by_cases hd : (e.vtenant c.tenant.toNat).deferred = []
    · simp [hd]
    · simp [hclear.1, hclear.2, hd]
  · dsimp only
    rw [if_neg hclear, if_neg (c := _ ∧ _ ∧ _) (fun h => hclear ⟨h.1, h.2.1⟩)]
    rfl

theorem Engine.clearDeferred_ne {m : Nat} {c : VCmd} (h : m ≠ c.tenant.toNat) (e : Engine) : (e.clearDeferred c).vtenant m = e.vtenant m := by
  unfold Engine.clearDeferred Engine.when
  dsimp only
  split
  · exact Engine.vtenant_setVtenant_ne h _ e
  · rfl

/-- GET_LOG (R303). -/
theorem getLog_answered {s : State} {queue : BitVec 4} {p : Packet} {h : VaultHdr} (ho : Offered s queue.toNat p h)
    (hclear : OutClear s queue.toNat (s.regs.vqTenant queue.toNat)) (hn : NoneHolds (cmdConds s queue.toNat p h)) (hop : h.opcode = opGetLog) :
    let tn := s.regs.vqTenant queue.toNat
    let page := bits 7 0 h.arg
    let data := plainBeats (s.eng.logPage tn.toNat page)
    let old := s.eng.vtenant tn.toNat
    OutFits s queue.toNat h data → ∃ t, exec (.getLog (.host queue)) s = .next t ∧ Answered s t queue.toNat h data 0 (pageSize page) ∧
      (∀ m, m ≠ tn.toNat → t.eng.vtenant m = s.eng.vtenant m) ∧
      t.eng.vtenant tn.toNat = (if page = 2 ∧ bitOf 8 h.arg = true ∧ old.deferred ≠ [] then { old with deferred := [], overflow := false } else old) ∧
      Only [.vault, .count, .mem, .out] s t := by
  intro tn page data old hfit
  have hs := started_inFlight ho hclear hn
  have hlog : OfHdr h tn (s.eng.logCmd (s.eng.newCmd tn none h)) := { hs.hdr with }
  obtain ⟨b, hexec, ha, -, ht, hsame⟩ := hs.answered hlog (.inr ⟨hfit, by rw [hop]; rfl⟩) (exec_getLog_accepted ho hn hop)
  have hv := Engine.vtenant_of_tenants ((ht rfl).trans (Engine.clearDeferred_tenants _ (inFlight_tenants s _ _)))
  exact ⟨_, hexec, ha, fun m hm => (hv m).trans (Engine.clearDeferred_ne hm s.eng),
    (hv _).trans (Engine.clearDeferred_logCmd (s.eng.newCmd tn none h) s.eng), only_of_same ((same_inFlight_answer _ _ _ _).trans hsame)⟩

end Sys2Proof.Machine


/-!
PROOFS. READ of a host queue (R115, R298).
-/

namespace Sys2Proof.Machine

/-! ### What reads may change -/

/-- What the reads of lines may change: counters, faults, the lines they correct or poison. -/
abbrev readGroups : List Grp := [.vault, .count, .fox, .draws, .front, .body, .bulb, .cycle]

theorem same_readRaise (k : Kit) (r : Regs) (s : Nat) (t : Option TenantNo) (e : Engine) : Same readGroups e (e.raise k r s t) :=
  (same_raise k r s t e).mono (by decide)

theorem same_markFailed (key : FrontKey) (code : Code) (e : Engine) : Same readGroups e (e.markFailed key code) :=
  (same_vault e _).mono (by decide)

theorem same_keepDirty (n : Nat) (l : Line) (e : Engine) : Same readGroups e (e.keepDirty n l) := by
  unfold Engine.keepDirty
  dsimp only
  split
  · exact same_markFailed _ _ e
  · split
    · exact ((same_front e _).mono (by decide)).trans (same_markFailed _ _ _)
    · exact Same.refl _ e

theorem same_countBank (p : Nat) (b : BankErrors) (e : Engine) : Same readGroups e (e.setBankErrors p b) := by
  simp [Same, Engine.setBankErrors]

theorem same_writeFailure (k : Kit) (r : Regs) (p : Nat) (t : Option TenantNo) (e : Engine) :
    Same readGroups e ((e.countWriteFail p).raise k r 0x14 t) := (same_countBank _ _ e).trans (same_readRaise ..)

theorem same_rewriteLine (k : Kit) (r : Regs) (key : Nat) (l : Line) (e : Engine) : Same readGroups e (e.rewriteLine k r key l) := by
  unfold Engine.rewriteLine
  have hwrites : Same readGroups e (({ e with body := e.body.countWrites (key / bankLines) (min ((e.body.upset key).fails + 1) 4) } : Engine).bump
      Ctr.writeRetries (min (e.body.upset key).fails 3)) :=
    ((same_body e _).mono (by decide)).trans ((same_bump _ _ _).mono (by decide))
  dsimp only
  split
  · exact hwrites.trans ((same_body _ _).mono (by decide))
  · have hfailed := hwrites.trans (same_writeFailure k r (key / bankLines) (some l.tenant) _)
    split
    · exact hfailed.trans (same_keepDirty _ l _)
    · exact hfailed

theorem same_readError (k : Kit) (r : Regs) (ctr src : Nat) (t : Option TenantNo) (e : Engine) :
    Same readGroups e (((e.drewN 1).bump ctr 1).raise k r src t) := by
  have hdrew : Same readGroups e (e.drewN 1) := by simp [Same, Engine.drewN]
  exact (hdrew.trans ((same_bump _ _ _).mono (by decide))).trans (same_readRaise ..)

theorem same_readFront (k : Kit) (r : Regs) (f : FrontLine) (e : Engine) : Same readGroups e (e.readFront k r f).2.2 := by
  unfold Engine.readFront
  split
  · exact Same.refl _ e
  · exact (same_readError k r _ _ _ e).trans ((same_front _ _).mono (by decide))
  · exact (same_readError k r _ _ _ e).trans ((same_front _ _).mono (by decide))

theorem same_readBody (k : Kit) (r : Regs) (key : Nat) (fix : Bool) (e : Engine) : Same readGroups e (e.readBody k r key fix).2.2 := by
  unfold Engine.readBody
  dsimp only
  split
  · exact Same.refl _ e
  · have hraise := same_readError k r Ctr.ceLines 0x12 ((e.body.line key).map fun l => l.tenant) e
    dsimp only
    split
    · exact (hraise.trans (same_countBank _ _ _)).trans (same_rewriteLine ..)
    · split
      · exact hraise.trans (same_rewriteLine ..)
      · exact hraise
  · exact ((same_readError k r _ _ _ e).trans (same_countBank _ _ _)).trans (same_rewriteLine ..)

theorem same_drawn (e : Engine) : Same readGroups e e.drawn := by simp [Same, Engine.drawn]

theorem same_readLine (k : Kit) (r : Regs) (sp : Space) (i n : Nat) (window : List LineRead) (e : Engine) :
    Same readGroups e (e.readLine k r sp i n window).2.2 := by
  unfold Engine.readLine
  dsimp only
  split
  next f _ =>
    have hhit := (same_readFront k r f e).trans ((same_bump Ctr.vaultReadHits 1 _).mono (by decide))
    cases sp with
    | body => exact hhit.trans ((same_bump Ctr.readHits 1 _).mono (by decide))
    | window => exact hhit
    | none => exact hhit
  next =>
    cases sp with
    | body => exact same_readBody ..
    | _ =>
      dsimp only
      cases hw : window[i]? with
      | none => exact Same.refl _ e
      | some x =>
        cases x with
        | ok d => exact Same.refl _ e
        | memError => exact Same.refl _ e
        | poison =>
          dsimp only
          exact same_drawn e

/-! ### All lines of a READ -/

theorem same_readAll (k : Kit) (r : Regs) (sp : Space) (window : List LineRead) (ns : List (Nat × Nat)) (e : Engine) :
    Same readGroups e (e.readAll k r sp window ns).2.2.2 := by
  induction ns generalizing e with
  | nil => exact Same.refl _ e
  | cons y ns ih =>
    unfold Engine.readAll
    dsimp only
    split
    · exact same_readLine ..
    · exact (same_readLine ..).trans (ih _)

/-- Without a read error every line of a READ gives a beat. -/
theorem Engine.length_readAll {k : Kit} {r : Regs} {sp : Space} {window : List LineRead} {ns : List (Nat × Nat)} {e : Engine}
    (h : (e.readAll k r sp window ns).2.2.1 = none) : (e.readAll k r sp window ns).1.length = ns.length := by
  induction ns generalizing e with
  | nil => rfl
  | cons y ns ih =>
    unfold Engine.readAll at h ⊢
    dsimp only at h ⊢
    split
    next hc => rw [if_pos hc] at h; cases h
    next hc =>
      rw [if_neg hc] at h
      simp [ih h]

/-- The code of a read error is not 0x00. -/
theorem Engine.readAll_error {k : Kit} {r : Regs} {sp : Space} {window : List LineRead} {ns : List (Nat × Nat)} {e : Engine} {x : Nat × Code}
    (h : (e.readAll k r sp window ns).2.2.1 = some x) : x.2 ≠ 0 := by
  induction ns generalizing e with
  | nil => cases h
  | cons y ns ih =>
    unfold Engine.readAll at h
    dsimp only at h
    split at h
    next hc => cases h; exact hc
    next => exact ih h

/-- A READ in flight reads its lines, and is carried out with what they give (R298). -/
theorem Engine.serveRead_finishes (k : Kit) (r : Regs) (q : Nat) (c : VCmd) (window : List LineRead) (e : Engine) :
    ∃ beats code off e', e.serveRead k r q c window = e'.finishCmd k r q c beats code off ∧
      (code = 0 → off = c.len ∧ beats.length = ceilDiv c.len 64) ∧ Same readGroups e e' := by
  have hsame := same_readAll k r (spaceOf r c.tenant c.session) window ((lineRange c.offset c.len).mapIdx fun i n => (i, n)) e
  unfold Engine.serveRead
  dsimp only
  split
  next off code hx => exact ⟨_, _, _, _, rfl, fun h0 => absurd h0 (Engine.readAll_error hx), hsame⟩
  next off _ _ => exact ⟨_, _, _, _, rfl, fun h0 => absurd h0 (by decide), hsame⟩
  next hx _ => exact ⟨_, _, _, _, rfl, fun _ => ⟨rfl, by rw [Engine.length_readAll hx]; simp [lineRange]⟩, hsame⟩

/-! ### Lines that read without bit errors -/

/-- The line `n` of a tenant's partition, as a packet carries it. -/
def Engine.partBeat (r : Regs) (t n : Nat) (e : Engine) : MemBeat :=
  { data := ((e.partRead r t n).getD Line.empty).data, poison := ((e.partRead r t n).getD Line.empty).poison }

theorem eccRead_clean (draws : Nat) (l : Line) : eccRead draws [] l = .good l := rfl

theorem Engine.readFront_clean (k : Kit) (r : Regs) {f : FrontLine} (h : f.flips = []) (e : Engine) :
    e.readFront k r f = (f.line, if f.line.poison then 0x21 else 0, e) := by
  unfold Engine.readFront
  rw [h, eccRead_clean]

theorem Engine.readBody_clean (k : Kit) (r : Regs) {key : Nat} (fix : Bool) {e : Engine} (h : (e.body.upset key).flips = []) :
    e.readBody k r key fix = ((e.body.line key).getD Line.empty, if ((e.body.line key).getD Line.empty).poison then 0x21 else 0, e) := by
  unfold Engine.readBody
  rw [h]
  dsimp only
  rw [eccRead_clean]

/-- Poison is no read error (R298). -/
theorem poison_noError (b : Bool) : (if (if b = true then (0x21 : Code) else 0) = 0x20 then (0x20 : Code) else 0) = 0 := by
  cases b <;> decide

/-- A clean line gives the beat that the partition holds, and only hits are counted. -/
theorem Engine.readLine_clean {s : State} {t n : Nat} (h : ReadsClean s t n) (i : Nat) (window : List LineRead) (v : Vault) (x : Counters) :
    ∃ y, ({ s.eng with vault := v, count := x } : Engine).readLine s.kit s.regs (.body t) i n window =
      (s.eng.partBeat s.regs t n, 0, { s.eng with vault := v, count := y }) := by
  unfold ReadsClean at h
  unfold Engine.readLine Engine.partBeat Engine.partRead
  simp only [Space.key, Option.bind_some]
  cases hf : s.eng.front.find (.body (s.regs.partLine t n)) with
  | some f =>
    rw [hf] at h
    simp only [Engine.readFront_clean s.kit s.regs h]
    refine ⟨(({ s.eng with vault := v, count := x } : Engine).bump Ctr.vaultReadHits 1 |>.bump Ctr.readHits 1).count, ?_⟩
    rw [poison_noError]
    rfl
  | none =>
    rw [hf] at h
    have hclean : (({ s.eng with vault := v, count := x } : Engine).body.upset
        (({ s.eng with vault := v, count := x } : Engine).partKey s.regs t n)).flips = [] := h
    simp only [Engine.readBody_clean s.kit s.regs false hclean]
    rw [poison_noError]
    exact ⟨x, rfl⟩

/-- The lines of a partition that a READ of `len` bytes from `off` returns, with their offsets. -/
def Engine.partLines (r : Regs) (t : Nat) (ns : List Nat) (e : Engine) : List (Nat × Line) :=
  ns.map fun n => (64 * n, (e.partRead r t n).getD Line.empty)

/-- Clean lines give what the partition holds, the first poisoned one its offset (R298). -/
theorem Engine.readAll_clean {s : State} {t : Nat} (window : List LineRead) (v : Vault) (ns : List (Nat × Nat))
    (h : ∀ y ∈ ns, ReadsClean s t y.2) (x : Counters) :
    ∃ y, ({ s.eng with vault := v, count := x } : Engine).readAll s.kit s.regs (.body t) window ns =
      (ns.map fun z => s.eng.partBeat s.regs t z.2,
       ((s.eng.partLines s.regs t (ns.map Prod.snd)).find? fun z => z.2.poison).map fun z => z.1, none, { s.eng with vault := v, count := y }) := by
  induction ns generalizing x with
  | nil => exact ⟨x, rfl⟩
  | cons z ns ih =>
    obtain ⟨y, hline⟩ := Engine.readLine_clean (h z List.mem_cons_self) z.1 window v x
    obtain ⟨y', hrest⟩ := ih (fun z hz => h z (List.mem_cons_of_mem _ hz)) y
    refine ⟨y', ?_⟩
    unfold Engine.readAll
    simp only [hline, hrest]
    have hp : (s.eng.partBeat s.regs t z.2).poison = ((s.eng.partRead s.regs t z.2).getD Line.empty).poison := rfl
    cases hpoison : ((s.eng.partRead s.regs t z.2).getD Line.empty).poison with
    | false => simp [Engine.partLines, hp, hpoison]
    | true => simp [Engine.partLines, hp, hpoison]

theorem exec_read_accepted {s : State} {queue : BitVec 4} {p : Packet} {h : VaultHdr} (ho : Offered s queue.toNat p h)
    (hn : NoneHolds (cmdConds s queue.toNat p h)) (hop : h.opcode = opRead) (window : List LineRead) : let q := queue.toNat
    let c := s.eng.newCmd (s.regs.vqTenant q) none h
    exec (.read (.host queue) window {}) s = .next (withEng s ((inFlight s q c).serveRead s.kit s.regs q c window)) := by
  show execRead (.host queue) window {} s = _
  unfold execRead
  have hstrike (e : Engine) : e.strike {} = e := rfl
  simp only [hstrike]
  rw [needs_host, Engine.command_accepted ho (by simp [isOp, hop]) hn]

theorem mapIdx_snd {α : Type} (xs : List α) : (xs.mapIdx fun i n => (i, n)).map Prod.snd = xs := List.ext_getElem (by simp) (by simp)

/-- A READ of clean lines in flight is carried out with what the partition holds. -/
theorem Engine.serveRead_clean {s : State} {q : Nat} {c : VCmd} (hsession : c.session = none) (window : List LineRead)
    (h : ∀ n ∈ lineRange c.offset c.len, ReadsClean s c.tenant.toNat n) (v : Vault) (x : Counters) :
    let bad := (s.eng.partLines s.regs c.tenant.toNat (lineRange c.offset c.len)).find? fun z => z.2.poison
    ∃ y, ({ s.eng with vault := v, count := x } : Engine).serveRead s.kit s.regs q c window =
      ({ s.eng with vault := v, count := y } : Engine).finishCmd s.kit s.regs q c
        ((lineRange c.offset c.len).map fun n => s.eng.partBeat s.regs c.tenant.toNat n) (if bad.isSome then 0x21 else 0)
        ((bad.map fun z => z.1).getD c.len) := by
  dsimp only
  have hsnd := mapIdx_snd (lineRange c.offset c.len)
  obtain ⟨y, hread⟩ := Engine.readAll_clean (t := c.tenant.toNat) window v ((lineRange c.offset c.len).mapIdx fun i n => (i, n))
    (fun z hz => h z.2 (hsnd ▸ List.mem_map_of_mem hz)) x
  have hdata : (((lineRange c.offset c.len).mapIdx fun i n => (i, n)).map fun z => s.eng.partBeat s.regs c.tenant.toNat z.2) =
      (lineRange c.offset c.len).map fun n => s.eng.partBeat s.regs c.tenant.toNat n := by
    conv_rhs => rw [← hsnd]
    rw [List.map_map]
    rfl
  rw [hsnd, hdata] at hread
  have hspace : spaceOf s.regs c.tenant c.session = .body c.tenant.toNat := by rw [hsession]; rfl
  refine ⟨y, ?_⟩
  unfold Engine.serveRead
  rw [hspace]
  simp only [hread]
  generalize (s.eng.partLines s.regs c.tenant.toNat (lineRange c.offset c.len)).find? _ = found
  cases found <;> rfl

theorem Engine.onCmds_vault (q : Nat) (f : List VCmd → List VCmd) (e : Engine) : ∃ v, e.onCmds q f = { e with vault := v } := ⟨_, rfl⟩

theorem inFlight_vault (s : State) (q : Nat) (c : VCmd) : ∃ v, inFlight s q c = { s.eng with vault := v } := by
  obtain ⟨v, hv⟩ := Engine.onCmds_vault q (fun cs => cs ++ [c]) (unpacked s q).ordered
  exact ⟨v, hv⟩

theorem InService.counted {s : State} {q : Nat} {c : VCmd} {e : Engine} (hs : InService s q c e) (x : Counters) :
    InService s q c { e with count := x } := ⟨hs.queue, hs.out, hs.drives, hs.weights, hs.arbs⟩

theorem same_counted (e : Engine) (x : Counters) (code : Code) : Same (answerGroups code) e { e with count := x } := by
  have h : Same [.count] e { e with count := x } := by simp [Same]
  exact h.mono fun g hg => answerGroups_vault code g (by simp at hg; simp [hg])

/-- READ of clean lines (R298). -/
theorem read_answered {s : State} {queue : BitVec 4} {p : Packet} {h : VaultHdr} (ho : Offered s queue.toNat p h)
    (hclear : OutClear s queue.toNat (s.regs.vqTenant queue.toNat)) (hn : NoneHolds (cmdConds s queue.toNat p h)) (hop : h.opcode = opRead)
    (window : List LineRead) :
    let tn := s.regs.vqTenant queue.toNat
    let lines := s.eng.partLines s.regs tn.toNat (lineRange h.offset h.len)
    let data : List MemBeat := lines.map fun x => { data := x.2.data, poison := x.2.poison }
    let bad := lines.find? fun x => x.2.poison
    let code : Code := if bad.isSome then 0x21 else 0
    (∀ n ∈ lineRange h.offset h.len, ReadsClean s tn.toNat n) → OutFits s queue.toNat h data →
      ∃ t, exec (.read (.host queue) window {}) s = .next t ∧ Answered s t queue.toNat h data code ((bad.map fun x => x.1).getD h.len) ∧
        Only (answerGroups code) s t := by
  intro tn lines data bad code hreads hfit
  have hs := started_inFlight ho hclear hn
  have hexec := exec_read_accepted ho hn hop window
  have hfirst := same_inFlight_answer s queue.toNat (s.eng.newCmd tn none h) code
  have hdata : ((lineRange h.offset h.len).map fun n => s.eng.partBeat s.regs tn.toNat n) = data := by
    simp only [data, lines, Engine.partLines, List.map_map]
    rfl
  obtain ⟨v, hv⟩ := inFlight_vault s queue.toNat (s.eng.newCmd tn none h)
  obtain ⟨y, hserve⟩ := Engine.serveRead_clean (q := queue.toNat) (c := s.eng.newCmd tn none h) rfl window hreads v s.eng.count
  dsimp only at hexec
  rw [hv] at hexec hs hfirst
  replace hexec := hexec.trans (congrArg (fun e => Host.Outcome.next (withEng s e)) hserve)
  have hcount := { hs with service := hs.service.counted y }
  have hsame := hfirst.trans (same_counted _ y code)
  obtain ⟨b, hb, ha, -, -, hend⟩ := Started.answered hcount hs.hdr (.inr ⟨hfit, by rw [hop]; rfl⟩) (hdata ▸ hexec)
  exact ⟨_, hb, ha, only_of_same (hsame.trans hend)⟩

end Sys2Proof.Machine


/-!
PROOFS. FLUSH and VERIFY of a host queue when nothing is dirty (R300, R301).
-/

namespace Sys2Proof.Machine

/-! ### Nothing is written back, nothing else ends -/

/-- With no window line due, nothing is written back. -/
theorem Engine.pumpWindows_idle {e : Engine} (h : ∀ l ∈ e.front.lines, e.backDue l = false) (k : Kit) (r : Regs) : e.pumpWindows k r = e := by
  have hfind : (e.front.lines.find? fun l => e.backDue l) = none := List.find?_eq_none.mpr fun l hl => by simp [h l hl]
  unfold Engine.pumpWindows Engine.pumpBack Engine.writeBack Engine.waitOldest
  rw [hfind]

theorem Engine.backDue_clean {l : FrontLine} (h : l.dirty = false) (e : Engine) : e.backDue l = false := by
  unfold Engine.backDue
  split
  · simp [h]
  · rfl

theorem Front.dirty_of_anyDirty {f : Front} (h : f.anyDirty = false) : ∀ l ∈ f.lines, l.dirty = false := by
  unfold Front.anyDirty at h
  simpa using h

theorem Engine.flushKeys_clean {e : Engine} (h : e.front.anyDirty = false) (p : FrontKey → Bool) : e.flushKeys p = [] := by
  unfold Engine.flushKeys
  rw [List.map_eq_nil_iff, List.filter_eq_nil_iff]
  intro l hl
  simp [Front.dirty_of_anyDirty h l hl]

/-- The commands of queue `m` whose waits are over. -/
def Engine.waited (m : Nat) (e : Engine) : List VCmd := (e.vq m).cmds.filter fun c => c.waiting && c.waits.isEmpty

theorem Engine.waited_nil {m : Nat} {e : Engine} (h : ∀ c ∈ (e.vq m).cmds, c.waiting = true → c.waits ≠ []) : e.waited m = [] := by
  unfold Engine.waited
  rw [List.filter_eq_nil_iff]
  intro c hc hp
  simp only [Bool.and_eq_true, List.isEmpty_iff] at hp
  exact h c hc hp.1 hp.2

/-- A queue that holds commands is listed. -/
theorem Engine.listed_of_cmds {q : Nat} {e : Engine} (h : (e.vq q).cmds ≠ []) : ∃ x ∈ e.vault.queues, x.1 = q := by
  cases hf : tabFind q e.vault.queues with
  | none => exact absurd (by unfold Engine.vq tabGet; rw [hf]; rfl) h
  | some v => exact ⟨(q, v), mem_of_tabFind hf, rfl⟩

/-- When the waits of one command are over, it alone completes. -/
theorem Engine.endWaits_one {k : Kit} {r : Regs} {q : Nat} {c : VCmd} {a : Engine} (hq : a.waited q = [c]) (hne : ∀ m, m ≠ q → a.waited m = [])
    (hb : ∀ m, (a.endWait k r q c).waited m = []) : a.endWaits k r = a.endWait k r q c := by
  have hround (m : Nat) (e : Engine) (h : e.waited m = []) :
      e.forEach ((e.vq m).cmds.filter fun c => c.waiting && c.waits.isEmpty) (fun c e => e.endWait k r m c) = e := by
    show e.forEach (e.waited m) _ = e
    rw [h]
    rfl
  have hone : a.forEach (a.waited q) (fun c e => e.endWait k r q c) = a.endWait k r q c := by
    rw [hq]
    rfl
  have hlisted : ∃ x ∈ a.vault.queues, x.1 = q := Engine.listed_of_cmds fun h => by
    unfold Engine.waited at hq
    rw [h] at hq
    cases hq
  unfold Engine.endWaits
  refine Engine.forEach_once (fun x _ => ?_) (fun x _ => hround _ _ (hb x.1)) ?_
  · by_cases hx : x.1 = q
    · exact .inr (by rw [hx]; exact hone)
    · exact .inl (hround _ _ (hne _ hx))
  · obtain ⟨x, hx, hxq⟩ := hlisted
    exact ⟨x, hx, by rw [hxq]; exact hone⟩

/-! ### The flush of a command when nothing is dirty -/

/-- A command that waits for no line. -/
def VCmd.flushed (verify : Option VerifyReads) (c : VCmd) : VCmd := { c with waiting := true, waits := [], failures := [], verify := verify }

/-- The engine with the command `c` waiting for no line. -/
def Engine.flushing (q : Nat) (c : VCmd) (verify : Option VerifyReads) (e : Engine) : Engine :=
  e.onCmds q fun cs => updFirst (fun x => x.tag == c.tag) (fun _ => c.flushed verify) cs

theorem Engine.beginFlush_clean {e : Engine} (hdirty : e.front.anyDirty = false) (howed : e.vault.owed = []) (k : Kit) (r : Regs) (q : Nat) (c : VCmd)
    (verify : Option VerifyReads) : e.beginFlush k r q c verify = (e.flushing q c verify).endWaits k r := by
  have hbase : ({ e with vault := { e.vault with owed := [] } } : Engine) = e := by rw [← howed]
  have hpump := Engine.pumpWindows_idle (e := e.flushing q c verify)
    (fun l hl => Engine.backDue_clean (Front.dirty_of_anyDirty hdirty l hl) _) k r
  unfold Engine.beginFlush
  simp only [Engine.flushKeys_clean hdirty, howed, List.filter_nil, List.map_nil, hbase]
  exact congrArg (Engine.endWaits k r) hpump

theorem InService.flushing {s : State} {q : Nat} {c : VCmd} {e : Engine} (hs : InService s q c e)
    (hnew : ∀ x ∈ (s.eng.vq q).cmds, (x.tag == c.tag) = false) (verify : Option VerifyReads) :
    InService s q (c.flushed verify) (e.flushing q c verify) where
  queue := by
    unfold Engine.flushing
    rw [Engine.vq_onCmds_same, hs.queue]
    simp only [updFirst_append hnew (beq_self_eq_true c.tag)]
  out := hs.out
  drives := hs.drives
  weights := hs.weights
  arbs := hs.arbs

/-- Where nothing else waits, the flush of a command that waits for no line carries it out. -/
theorem Started.endWaits {s : State} {q : Nat} {p : Packet} {h : VaultHdr} {tn : TenantNo} {c : VCmd} {a : Engine} {code : Code} {arg : Nat}
    (hs : Started s q p h tn c a) (hsettled : Settled s) (hothers : ∀ m, m ≠ q → a.vq m = s.eng.vq m) (hwaiting : c.waiting = true)
    (hwaits : c.waits = []) (hend : a.endWait s.kit s.regs q c = a.finishCmd s.kit s.regs q c [] code arg) :
    a.endWaits s.kit s.regs = a.finishCmd s.kit s.regs q c [] code arg := by
  obtain ⟨-, -, hidle⟩ := hsettled
  have hended := hs.ended hs.hdr (.inl (answerData_nil h)) code arg
  have hquiet (m : Nat) : ((s.eng.vq m).cmds.filter fun c => c.waiting && c.waits.isEmpty) = [] := s.eng.waited_nil (hidle m)
  rw [← hend]
  refine Engine.endWaits_one ?_ (fun m hm => ?_) (fun m => ?_)
  · unfold Engine.waited
    rw [hs.service.queue, List.filter_append, hquiet]
    simp [hwaiting, hwaits]
  · unfold Engine.waited
    rw [hothers m hm, hquiet]
  · unfold Engine.waited
    rw [hend]
    by_cases hm : m = q
    · rw [hm, hended.queue, hquiet]
    · rw [hended.others m hm, hothers m hm, hquiet]

/-- The engine with a CMD in flight that flushes nothing. -/
theorem started_flushing {s : State} {q : Nat} {p : Packet} {h : VaultHdr} {tn : TenantNo} (ho : Offered s q p h) (hclear : OutClear s q tn)
    (hn : NoneHolds (cmdConds s q p h)) (verify : Option VerifyReads) :
    let c := s.eng.newCmd tn none h
    Started s q p h tn (c.flushed verify) ((inFlight s q c).flushing q c verify) :=
  have hs := started_inFlight ho hclear hn
  { hs with service := hs.service.flushing (newTag_of_noneHolds hn) verify, hdr := { hs.hdr with } }

theorem vq_flushing_ne {m q : Nat} (hm : m ≠ q) (s : State) (c : VCmd) (verify : Option VerifyReads) :
    ((inFlight s q c).flushing q c verify).vq m = s.eng.vq m := (Engine.vq_onCmds_ne hm _ _).trans (vq_inFlight_ne hm s c)

theorem same_flushing (s : State) (q : Nat) (c : VCmd) (verify : Option VerifyReads) (code : Code) :
    Same (answerGroups code) s.eng ((inFlight s q c).flushing q c verify) :=
  (same_inFlight_answer s q c code).trans ((same_onCmds q _ _).mono (by unfold answerGroups; split <;> decide))

theorem inFlight_settled {s : State} (hsettled : Settled s) (q : Nat) (c : VCmd) :
    (inFlight s q c).front.anyDirty = false ∧ (inFlight s q c).vault.owed = [] := ⟨hsettled.1, hsettled.2.1⟩

/-- A flush of nothing in flight carries its command out. -/
theorem beginFlush_settled {s : State} {q : Nat} {p : Packet} {h : VaultHdr} {tn : TenantNo} (ho : Offered s q p h) (hclear : OutClear s q tn)
    (hn : NoneHolds (cmdConds s q p h)) (hsettled : Settled s) {verify : Option VerifyReads} {code : Code} {arg : Nat}
    (hend : let c := s.eng.newCmd tn none h
      ((inFlight s q c).flushing q c verify).endWait s.kit s.regs q (c.flushed verify) =
        ((inFlight s q c).flushing q c verify).finishCmd s.kit s.regs q (c.flushed verify) [] code arg) :
    let c := s.eng.newCmd tn none h
    (inFlight s q c).beginFlush s.kit s.regs q c verify =
      ((inFlight s q c).flushing q c verify).finishCmd s.kit s.regs q (c.flushed verify) [] code arg := by
  intro c
  obtain ⟨hdirty, howed⟩ := inFlight_settled hsettled q c
  rw [Engine.beginFlush_clean hdirty howed]
  exact (started_flushing ho hclear hn verify).endWaits hsettled (fun m hm => vq_flushing_ne hm s c verify) rfl rfl hend

theorem Engine.endWait_flush {c : VCmd} (hop : c.opcode ≠ opWrite) (k : Kit) (r : Regs) (q : Nat) (e : Engine) :
    e.endWait k r q (c.flushed none) = e.finishCmd k r q (c.flushed none) [] 0 0 := by
  show e.finishCmd k r q (c.flushed none) [] 0 (if c.opcode = opWrite then c.len else 0) = _
  rw [if_neg hop]

theorem exec_flush_accepted {s : State} {queue : BitVec 4} {p : Packet} {h : VaultHdr} (ho : Offered s queue.toNat p h)
    (hn : NoneHolds (cmdConds s queue.toNat p h)) (hop : h.opcode = opFlush) : let q := queue.toNat
    let c := s.eng.newCmd (s.regs.vqTenant q) none h
    exec (.flush (.host queue)) s = .next (withEng s ((inFlight s q c).beginFlush s.kit s.regs q c none)) := by
  show execFlush (.host queue) s = _
  unfold execFlush
  rw [needs_host, Engine.command_accepted ho (by simp [isOp, hop]) hn]

/-- FLUSH with nothing dirty (R300). -/
theorem flush_answered {s : State} {queue : BitVec 4} {p : Packet} {h : VaultHdr} (ho : Offered s queue.toNat p h)
    (hclear : OutClear s queue.toNat (s.regs.vqTenant queue.toNat)) (hn : NoneHolds (cmdConds s queue.toNat p h)) (hop : h.opcode = opFlush)
    (hsettled : Settled s) : ∃ t, exec (.flush (.host queue)) s = .next t ∧ Answered s t queue.toNat h [] 0 0 ∧
      Only [.vault, .count, .mem, .out] s t := by
  have hs := started_flushing ho hclear hn none
  have hflush := beginFlush_settled (code := 0) (arg := 0) ho hclear hn hsettled (verify := none) 
    (Engine.endWait_flush (show h.opcode ≠ opWrite by rw [hop]; decide) _ _ _ _)
  have hexec := (exec_flush_accepted ho hn hop).trans (congrArg (fun e => Host.Outcome.next (withEng s e)) hflush)
  obtain ⟨b, hb, ha, -, -, hsame⟩ := hs.answered hs.hdr (.inl (answerData_nil h)) hexec
  exact ⟨_, hb, ha, only_of_same ((same_flushing s _ _ none 0).trans hsame)⟩

/-! ### VERIFY -/

/-- The bytes of a VERIFY's lines of the body (R301). -/
def Engine.destBytes (r : Regs) (t : Nat) (ns : List Nat) (e : Engine) : List Byte :=
  ns.flatMap fun n => lineBytes ((e.body.line (e.partKey r t n)).getD Line.empty).data

/-- A VERIFY of a body partition reads its lines one after another (R301). -/
theorem Engine.readDest_body (k : Kit) (r : Regs) (t : Nat) (v : VerifyReads) (y : Nat × Nat) (ns : List (Nat × Nat)) (e : Engine) :
    e.readDest k r (.body t) v (y :: ns) =
      let x := e.readBody k r (e.partKey r t y.2) false
      let p := Engine.readDest k r (.body t) v ns x.2.2
      (lineBytes x.1.data ++ p.1, if x.2.1 = 0 then p.2.1 else some (64 * y.2, x.2.1), p.2.2) := rfl

/-- Clean lines of the body, none of them poisoned, give their bytes and change nothing (R301). -/
theorem Engine.readDest_clean {r : Regs} {t : Nat} {e : Engine} (k : Kit) (v : VerifyReads) (ns : List (Nat × Nat))
    (h : ∀ y ∈ ns, (e.body.upset (e.partKey r t y.2)).flips = [] ∧ ((e.body.line (e.partKey r t y.2)).getD Line.empty).poison = false) :
    e.readDest k r (.body t) v ns = (e.destBytes r t (ns.map Prod.snd), none, e) := by
  induction ns with
  | nil => rfl
  | cons y ns ih =>
    obtain ⟨hflips, hpoison⟩ := h y List.mem_cons_self
    have hread := Engine.readBody_clean k r false hflips
    rw [hpoison, if_neg Bool.false_ne_true] at hread
    rw [Engine.readDest_body, hread]
    dsimp only
    rw [ih fun z hz => h z (List.mem_cons_of_mem _ hz), if_pos rfl]
    rfl

/-- A VERIFY of clean lines without poison is carried out by the digest (R301). -/
theorem Engine.endVerify_clean {k : Kit} {r : Regs} {q : Nat} {c : VCmd} {v : VerifyReads} {e : Engine} (hsession : c.session = none)
    (hfaults : v.reads.faults = [])
    (h : ∀ n ∈ lineRange c.offset c.len, (e.body.upset (e.partKey r c.tenant.toNat n)).flips = [] ∧
      ((e.body.line (e.partKey r c.tenant.toNat n)).getD Line.empty).poison = false) :
    e.endVerify k r q c v = e.finishCmd k r q c []
      (if parallelHash ((e.destBytes r c.tenant.toNat (lineRange c.offset c.len)).take c.len) = v.expected then 0 else 0x22) 0 := by
  have hspace : spaceOf r c.tenant c.session = .body c.tenant.toNat := by rw [hsession]; rfl
  have hread := Engine.readDest_clean k v ((lineRange c.offset c.len).mapIdx fun i n => (i, n))
    (fun y hy => h y.2 (by
      have := List.mem_map_of_mem (f := Prod.snd) hy
      rwa [mapIdx_snd] at this))
  rw [mapIdx_snd] at hread
  unfold Engine.endVerify
  simp only [hspace, hread, hfaults]
  show (if parallelHash _ = v.expected then _ else _) = _
  split <;> rfl

theorem Engine.endWait_verify (c : VCmd) (v : VerifyReads) (k : Kit) (r : Regs) (q : Nat) (e : Engine) :
    e.endWait k r q (c.flushed (some v)) = e.endVerify k r q (c.flushed (some v)) v := rfl

theorem exec_verify_accepted {s : State} {queue : BitVec 4} {p : Packet} {h : VaultHdr} (ho : Offered s queue.toNat p h)
    (hn : NoneHolds (cmdConds s queue.toNat p h)) (hop : h.opcode = opVerify) (window : List LineRead) (faults : List CoreFault)
    {b : MemBeat} {rest : List MemBeat} (hp : p.payload = b :: rest) : let q := queue.toNat
    let c := s.eng.newCmd (s.regs.vqTenant q) none h
    exec (.verify (.host queue) window faults) s = .next (withEng s ((inFlight s q c).beginFlush s.kit s.regs q c
      (some { expected := b.data.setWidth 256, reads := { window := window, faults := faults } }))) := by
  show execVerify (.host queue) window faults s = _
  unfold execVerify
  dsimp only
  rw [needs_host, Engine.command_accepted ho (by simp [isOp, hop]) hn, hp]
  rfl

theorem flushing_vault (s : State) (q : Nat) (c : VCmd) (verify : Option VerifyReads) :
    ∃ w, (inFlight s q c).flushing q c verify = { s.eng with vault := w } := by
  obtain ⟨w, hw⟩ := inFlight_vault s q c
  obtain ⟨w', hw'⟩ := Engine.onCmds_vault q (fun cs => updFirst (fun x => x.tag == c.tag) (fun _ => c.flushed verify) cs) (inFlight s q c)
  exact ⟨w', by unfold Engine.flushing; rw [hw', hw]⟩

/-- VERIFY with nothing dirty, of clean lines without poison (R301). -/
theorem verify_answered {s : State} {queue : BitVec 4} {p : Packet} {h : VaultHdr} (ho : Offered s queue.toNat p h)
    (hclear : OutClear s queue.toNat (s.regs.vqTenant queue.toNat)) (hn : NoneHolds (cmdConds s queue.toNat p h)) (hop : h.opcode = opVerify)
    (hsettled : Settled s) (window : List LineRead) {b : MemBeat} {rest : List MemBeat} (hp : p.payload = b :: rest) :
    let tn := s.regs.vqTenant queue.toNat
    let line (n : Nat) : Line := (s.eng.body.line (s.eng.partKey s.regs tn.toNat n)).getD Line.empty
    (∀ n ∈ lineRange h.offset h.len, (s.eng.body.upset (s.eng.partKey s.regs tn.toNat n)).flips = [] ∧ (line n).poison = false) →
    let code : Code := if parallelHash (((lineRange h.offset h.len).flatMap fun n => lineBytes (line n).data).take h.len) =
      b.data.setWidth 256 then 0 else 0x22
    ∃ t, exec (.verify (.host queue) window []) s = .next t ∧ Answered s t queue.toNat h [] code 0 ∧ Only (answerGroups code) s t := by
  intro tn line hreads code
  let v : VerifyReads := { expected := b.data.setWidth 256, reads := { window := window, faults := [] } }
  have hs := started_flushing ho hclear hn (some v)
  have hend : ((inFlight s queue.toNat (s.eng.newCmd tn none h)).flushing queue.toNat (s.eng.newCmd tn none h) (some v)).endVerify s.kit s.regs
      queue.toNat ((s.eng.newCmd tn none h).flushed (some v)) v =
      ((inFlight s queue.toNat (s.eng.newCmd tn none h)).flushing queue.toNat (s.eng.newCmd tn none h) (some v)).finishCmd s.kit s.regs queue.toNat
        ((s.eng.newCmd tn none h).flushed (some v)) [] code 0 := by
    obtain ⟨w, hw⟩ := flushing_vault s queue.toNat (s.eng.newCmd tn none h) (some v)
    rw [hw]
    exact Engine.endVerify_clean rfl rfl hreads
  have hflush := beginFlush_settled (code := code) (arg := 0) ho hclear hn hsettled ((Engine.endWait_verify ..).trans hend)
  have hexec := (exec_verify_accepted ho hn hop window [] hp).trans (congrArg (fun e => Host.Outcome.next (withEng s e)) hflush)
  obtain ⟨b, hb, ha, -, -, hsame⟩ := hs.answered hs.hdr (.inl (answerData_nil h)) hexec
  exact ⟨_, hb, ha, only_of_same ((same_flushing s _ _ _ code).trans hsame)⟩

end Sys2Proof.Machine


/-!
PROOFS. Commands of host queues (12_vault).
-/

namespace Sys2Proof

open Machine

/-- A command of a host queue that a condition refuses is answered with REFUSED and its code, and does nothing else (R294). -/
theorem refused_by_command {s : State} {queue : BitVec 4} {p : Packet} {h : VaultHdr} {mine : VaultHdr → Bool} {reads : CmdReads}
    {act : Nat → VCmd → List MemBeat → Engine → Engine} {code : Code} {o : Out} (ho : Offered s queue.toNat p h)
    (hmine : mine h = true ∨ opDefined h.opcode = false) (hj : judge (cmdConds s queue.toNat p h) = some code)
    (hexec : o = .next (withEng s (s.eng.command s.kit s.regs (.host queue) mine reads act))) :
    ∃ t, o = .next t ∧ Responded s t queue.toNat h true code 0 ∧ t.eng.counter Ctr.cmdsFailed = s.eng.counter Ctr.cmdsFailed + 1 ∧
      Only [.vault, .count, .mem, .out] s t := by
  have hsent := sent_writeOut s.kit s.regs queue.toNat (respHdr h.tag h.opcode (h.flags % 4) h.offset 0 true code).word []
    ((unpacked s queue.toNat).bump Ctr.cmdsFailed 1)
  have hcmds : (((unpacked s queue.toNat).bump Ctr.cmdsFailed 1).vq queue.toNat).cmds = (s.eng.vq queue.toNat).cmds := by
    show ((unpacked s queue.toNat).vq queue.toNat).cmds = _
    rw [vq_unpacked]
  rw [hcmds] at hsent
  obtain ⟨ha, hcount, honly⟩ := responded_refused hsent
  rw [Engine.command_refused ho hmine hj] at hexec
  exact ⟨_, hexec, ha, hcount, honly⟩

/-- Every command of a host queue but FW_COMMIT is taken by its opcode. -/
theorem vaultCommands_command (queue : BitVec 4) (s : State) : ∀ y ∈ vaultCommands queue, ∃ reads act,
    exec y.2 s = .next (withEng s (s.eng.command s.kit s.regs (.host queue) (isOp y.1) reads act)) := by
  simp only [vaultCommands, List.mem_cons, List.not_mem_nil, or_false, forall_eq_or_imp, forall_eq]
  exact ⟨⟨_, _, rfl⟩, ⟨_, _, rfl⟩, ⟨_, _, rfl⟩, ⟨_, _, rfl⟩, ⟨_, _, rfl⟩, ⟨_, _, rfl⟩, ⟨_, _, rfl⟩, ⟨_, _, rfl⟩, ⟨_, _, rfl⟩⟩

theorem exec_write_accepted {s : State} {queue : BitVec 4} {p : Packet} {h : VaultHdr} (ho : Offered s queue.toNat p h)
    (hn : NoneHolds (cmdConds s queue.toNat p h)) (hop : h.opcode = opWrite) :
    exec (.write (.host queue)) s = .next (withEng s (inFlight s queue.toNat (s.eng.newCmd (s.regs.vqTenant queue.toNat) none h))) := by
  show execWrite (.host queue) s = _
  unfold execWrite
  rw [needs_host, Engine.command_accepted ho (by simp [isOp, hop]) hn]

theorem exec_fwDownload_accepted {s : State} {queue : BitVec 4} {p : Packet} {h : VaultHdr} (ho : Offered s queue.toNat p h)
    (hn : NoneHolds (cmdConds s queue.toNat p h)) (hop : h.opcode = opFwDownload) :
    exec (.fwDownload (.host queue)) s = .next (withEng s (inFlight s queue.toNat (s.eng.newCmd (s.regs.vqTenant queue.toNat) none h))) := by
  show execFwDownload (.host queue) s = _
  unfold execFwDownload
  rw [needs_host, Engine.command_accepted ho (by simp [isOp, hop]) hn]

/-- A READ that no condition refuses reads its lines, and is carried out with what they give (R298). -/
theorem read_finishes {s : State} {queue : BitVec 4} {p : Packet} {h : VaultHdr} (ho : Offered s queue.toNat p h)
    (hn : NoneHolds (cmdConds s queue.toNat p h)) (hop : h.opcode = opRead) (window : List LineRead) :
    ∃ beats code off e', exec (.read (.host queue) window {}) s = .next (withEng s (e'.finishCmd s.kit s.regs queue.toNat
      (s.eng.newCmd (s.regs.vqTenant queue.toNat) none h) beats code off)) ∧ (code = 0 → off = h.len ∧ beats.length = ceilDiv h.len 64) ∧
      Same readGroups s.eng e' := by
  have hflight := (same_inFlight s queue.toNat (s.eng.newCmd (s.regs.vqTenant queue.toNat) none h)).mono (gs' := readGroups) (by decide)
  have hexec := exec_read_accepted ho hn hop window
  obtain ⟨beats, code, off, e', heq, hdone, hsame⟩ := Engine.serveRead_finishes s.kit s.regs queue.toNat
    (s.eng.newCmd (s.regs.vqTenant queue.toNat) none h) window (inFlight s queue.toNat (s.eng.newCmd (s.regs.vqTenant queue.toNat) none h))
  exact ⟨beats, code, off, e', hexec.trans (congrArg (fun e => Host.Outcome.next (withEng s e)) heq), hdone, hflight.trans hsame⟩

/-- Settles O54: a CMD is taken, judged, and refused or put in flight; what is carried out ends on a clear way out. -/
theorem hostCommandsAreServed : Obligations.HostCommandsAreServed := by
  unfold Obligations.HostCommandsAreServed
  intro s queue p h q tn c e ho
  refine ⟨fun code y hy hop hj => ?refused, fun window upsets => ?upsets, fun hn => ⟨exec_write_accepted ho hn, exec_fwDownload_accepted ho hn,
    fun window hop => read_finishes ho hn hop window, exec_flush_accepted ho hn, fun window faults b rest hop hp => ?verify,
    fun hclear => ⟨fun hop => getFeature_answered ho hclear hn hop, fun hop => ?setFeature,
      fun hop hfit => identify_answered ho hclear hn hop hfit, fun hop hfit => getLog_answered ho hclear hn hop hfit,
      fun window hop hreads hfit => read_answered ho hclear hn hop window hreads hfit, fun hsettled =>
      ⟨fun hop => flush_answered ho hclear hn hop hsettled, fun window b rest hop hp hreads =>
        verify_answered ho hclear hn hop hsettled window hp hreads⟩⟩⟩⟩
  case refused =>
    obtain ⟨reads, act, hexec⟩ := vaultCommands_command queue s y hy
    exact refused_by_command ho (hop.imp_left fun hop => by simp [isOp, hop]) hj hexec
  case upsets => rfl
  case verify => exact exec_verify_accepted ho hn hop window faults hp
  case setFeature => exact setFeature_answered ho hclear hn hop

end Sys2Proof


/-!
PROOFS. FW_COMMIT (R305, R306, R342, R359).
-/

namespace Sys2Proof.Machine

/-! ### The branches of the store -/

section
variable {k : Kit} {r : Regs} {q : Nat} {c : VCmd} {o : StoreOutcome} {go : List Byte → Engine → Engine} {e : Engine}

theorem Engine.fwCommit_unauthentic (h : e.authentic e.vault.staging = false) : e.fwCommit k r q c o go = e.endFwCommit k r q c 0x46 := by
  unfold Engine.fwCommit
  rw [h]
  rfl

theorem Engine.fwCommit_unverified (h : e.authentic e.vault.staging = true) (ho : o.verified = false) :
    e.fwCommit k r q c o go =
      ({ e with body := e.body.setFwSlot (!e.body.activeSlot) (stagedImage e.vault.staging) } : Engine).endFwCommit k r q c 0x26 := by
  unfold Engine.fwCommit
  rw [h, ho]
  rfl

theorem Engine.fwCommit_verified (h : e.authentic e.vault.staging = true) (ho : o.verified = true) :
    e.fwCommit k r q c o go = go (stagedImage e.vault.staging)
      { e with body := { e.body.setFwSlot (!e.body.activeSlot) (stagedImage e.vault.staging) with nextSlot := !e.body.activeSlot } } := by
  unfold Engine.fwCommit
  rw [h, ho]
  rfl

end

theorem inFlight_staging (s : State) (q : Nat) (c : VCmd) : (inFlight s q c).vault.staging = s.eng.vault.staging := rfl

theorem inFlight_authentic (s : State) (q : Nat) (c : VCmd) : (inFlight s q c).authentic (inFlight s q c).vault.staging =
    s.eng.authentic s.eng.vault.staging := by
  rw [inFlight_staging]
  obtain ⟨v, hv⟩ := inFlight_vault s q c
  rw [hv]
  rfl

/-! ### The end of a commit -/

theorem InService.staged {s : State} {q : Nat} {c : VCmd} {e : Engine} (hs : InService s q c e) (bs : List Byte) :
    InService s q c { e with vault := { e.vault with staging := bs } } := ⟨hs.queue, hs.out, hs.drives, hs.weights, hs.arbs⟩

theorem InService.stored {s : State} {q : Nat} {c : VCmd} {e : Engine} (hs : InService s q c e) (b : Body) :
    InService s q c { e with body := b } := ⟨hs.queue, hs.out, hs.drives, hs.weights, hs.arbs⟩

theorem same_answerVault (e : Engine) (v : Vault) (code : Code) : Same (answerGroups code) e { e with vault := v } :=
  (same_vault e v).mono fun g hg => answerGroups_vault code g (by simp at hg; simp [hg])

/-- The end of an FW_COMMIT in service: it is answered, and the staging buffer is empty (R305). -/
theorem Started.committed {s : State} {q : Nat} {p : Packet} {h : VaultHdr} {tn : TenantNo} {c : VCmd} {e : Engine} {code : Code}
    {o : Out} (hs : Started s q p h tn c e) (hexec : o = .next (withEng s (e.endFwCommit s.kit s.regs q c code))) :
    ∃ b, o = .next (withEng s b) ∧ Answered s (withEng s b) q h [] code 0 ∧ b.vault.staging = [] ∧ b.body = e.body ∧
      Same (answerGroups code) e b := by
  have hs' : Started s q p h tn c { e with vault := { e.vault with staging := [] } } := { hs with service := hs.service.staged [] }
  obtain ⟨b, hb, ha, hv, -, hend⟩ := hs'.answered hs.hdr (.inl (answerData_nil h)) hexec
  have hsame := (same_answerVault e { e.vault with staging := [] } code).trans hend
  refine ⟨b, hb, ha, by rw [hv], hsame.groups.body.resolve_left ?_, hsame⟩
  unfold answerGroups
  split <;> decide

end Sys2Proof.Machine

namespace Sys2Proof

open Machine

section
variable {s : State} {queue : BitVec 4} {p : Packet} {h : VaultHdr}

/-- STORE of an FW_COMMIT with ARG 1 (R306). -/
theorem exec_store_accepted (o : StoreOutcome) (ho : Offered s queue.toNat p h) (hn : NoneHolds (cmdConds s queue.toNat p h))
    (hop : h.opcode = opFwCommit) (harg : h.arg = 1) : let q := queue.toNat
    let c := s.eng.newCmd (s.regs.vqTenant q) none h
    exec (.store (.host queue) o) s = .next (withEng s ((inFlight s q c).fwCommit s.kit s.regs q c o
      fun _ e => e.endFwCommit s.kit s.regs q c 0)) := by
  show execStore (.host queue) o s = _
  unfold execStore
  rw [needs_host, Engine.command_accepted ho (by simp [hop, harg]) hn]

/-- The live update that an FW_COMMIT with ARG 2 begins (R359). -/
def liveUpdate (c : VCmd) (img : List Byte) (e : Engine) : Engine :=
  { e with referee := { e.referee with fw := .restarting 0, fwTag := c.tag, fwSvn := BitVec.ofNat 32 (leAt 8 4 img),
                                       standbyReady := false, resync := none } }

theorem same_liveUpdate (c : VCmd) (img : List Byte) (e : Engine) : Same [.referee] e (liveUpdate c img e) := by simp [Same, liveUpdate]

theorem exec_storeActivate_accepted (o : StoreOutcome) (ho : Offered s queue.toNat p h) (hn : NoneHolds (cmdConds s queue.toNat p h))
    (hop : h.opcode = opFwCommit) (harg : h.arg = 2) : let q := queue.toNat
    let c := s.eng.newCmd (s.regs.vqTenant q) none h
    exec (.storeActivate (.host queue) o) s = .next (withEng s ((inFlight s q c).fwCommit s.kit s.regs q c o (liveUpdate c))) := by
  show execStoreActivate (.host queue) o s = _
  unfold execStoreActivate
  rw [needs_host, Engine.command_accepted ho (by simp [hop, harg]) hn]
  rfl

/-- Either row of an FW_COMMIT with its ARG carries out the store; they differ in what follows a store that verifies. -/
theorem commit_accepted (o : StoreOutcome) (ho : Offered s queue.toNat p h) (hn : NoneHolds (cmdConds s queue.toNat p h))
    (hop : h.opcode = opFwCommit) : let q := queue.toNat
    let c := s.eng.newCmd (s.regs.vqTenant q) none h
    ∀ y ∈ [(1, Instr.store (.host queue) o), (2, Instr.storeActivate (.host queue) o)], h.arg = y.1 →
      ∃ go, exec y.2 s = .next (withEng s ((inFlight s q c).fwCommit s.kit s.regs q c o go)) := by
  intro q c y hy harg
  rcases List.mem_cons.mp hy with rfl | hy
  · exact ⟨_, exec_store_accepted o ho hn hop harg⟩
  · obtain rfl := List.mem_singleton.mp hy
    exact ⟨_, exec_storeActivate_accepted o ho hn hop harg⟩

/-- Either row takes an FW_COMMIT whose ARG is not the other's, and a CMD of an undefined opcode. -/
theorem commit_command (o : StoreOutcome) (s : State) : ∀ y ∈ [(1, Instr.store (.host queue) o), (2, Instr.storeActivate (.host queue) o)],
    ∃ reads act, exec y.2 s = .next (withEng s (s.eng.command s.kit s.regs (.host queue)
      (fun h => h.opcode == opFwCommit && h.arg != 3 - y.1) reads act)) := by
  simp only [List.mem_cons, List.not_mem_nil, or_false, forall_eq_or_imp, forall_eq]
  exact ⟨⟨_, _, rfl⟩, ⟨_, _, rfl⟩⟩

end

/-- What of an FW_COMMIT in flight is stored before its end changes the vault and the body alone. -/
theorem same_stored (s : State) (q : Nat) (c : VCmd) (b : Body) : Same [.vault, .body] s.eng ({ inFlight s q c with body := b } : Engine) :=
  ((same_inFlight s q c).mono (by decide)).trans ((same_body _ b).mono (by decide))

/-- Settles O55: the three branches of the store, on a CMD that has been taken and judged. -/
theorem firmwareIsCommitted : Obligations.FirmwareIsCommitted := by
  unfold Obligations.FirmwareIsCommitted
  intro s queue p h o q tn c slot img stored commits ho
  have hauth : (inFlight s q c).authentic (inFlight s q c).vault.staging = s.eng.authentic s.eng.vault.staging := inFlight_authentic s q c
  refine ⟨fun code y hy hop hj => ?refused, fun hn hop => ⟨fun hclear => ⟨fun y hy harg => ⟨fun hau => ?unauthentic, fun hau hver => ?unverified⟩,
    fun harg hau hver => ?stored⟩, fun harg hau hver => ?activated⟩⟩
  case refused =>
    obtain ⟨reads, act, hexec⟩ := commit_command o s y hy
    exact refused_by_command ho (hop.imp_left fun hop => by simp [hop]) hj hexec
  case unauthentic =>
    obtain ⟨go, hexec⟩ := commit_accepted o ho hn hop y hy harg
    rw [Engine.fwCommit_unauthentic (hauth.trans hau)] at hexec
    obtain ⟨b, hb, ha, hstaging, -, hsame⟩ := (started_inFlight ho hclear hn).committed hexec
    exact ⟨_, hb, ha, hstaging, only_of_same ((same_inFlight_answer s q c 0x46).trans hsame)⟩
  case unverified =>
    obtain ⟨go, hexec⟩ := commit_accepted o ho hn hop y hy harg
    rw [Engine.fwCommit_unverified (hauth.trans hau) hver, inFlight_body, inFlight_staging] at hexec
    have hs := started_inFlight ho hclear hn
    have hs' : Started s q p h tn c { inFlight s q c with body := stored } := { hs with service := hs.service.stored stored }
    obtain ⟨b, hb, ha, hstaging, hbody, hsame⟩ := hs'.committed hexec
    exact ⟨_, hb, ha, hstaging, hbody, only_of_same (((same_stored s q c stored).mono (by decide)).trans (hsame.mono (by decide)))⟩
  case stored =>
    have hexec := exec_store_accepted o ho hn hop harg
    dsimp only at hexec
    rw [Engine.fwCommit_verified (hauth.trans hau) hver, inFlight_body, inFlight_staging] at hexec
    have hs := started_inFlight ho hclear hn
    have hs' : Started s q p h tn c { inFlight s q c with body := { stored with nextSlot := slot } } := { hs with service := hs.service.stored _ }
    obtain ⟨b, hb, ha, hstaging, hbody, hsame⟩ := hs'.committed hexec
    exact ⟨_, hb, ha, hstaging, hbody, only_of_same (((same_stored s q c _).mono (by decide)).trans (hsame.mono (by decide)))⟩
  case activated =>
    have hexec := exec_storeActivate_accepted o ho hn hop harg
    dsimp only at hexec
    rw [Engine.fwCommit_verified (hauth.trans hau) hver, inFlight_body, inFlight_staging] at hexec
    have hcmds : ((inFlight s q c).vq q).cmds = (s.eng.vq q).cmds ++ [c] := by rw [vq_inFlight]
    exact ⟨_, hexec, rfl, rfl, rfl, rfl, hcmds,
      only_of_same (((same_stored s q c _).mono (by decide)).trans ((same_liveUpdate c img _).mono (by decide)))⟩

end Sys2Proof


/-!
PROOFS. XFER_RDY and the timeout of an exchange, on the side of the target (R290, R293, R307).
-/

namespace Sys2Proof.Machine

/-! ### XFER_RDY goes out -/

/-- A choice of the classes changes their credit alone. -/
theorem Engine.chooseCmd_arbs {path : Nat} {t : TenantNo} {xs : List Candidate} {e e' : Engine} {x : Candidate}
    (h : e.chooseCmd path t xs = some (x, e')) : ∃ as, e' = { e with vault := { e.vault with arbs := as } } := by
  unfold Engine.chooseCmd at h
  rw [Option.map_eq_some_iff] at h
  obtain ⟨y, -, hy⟩ := h
  exact ⟨_, (congrArg Prod.snd hy).symm⟩

theorem same_onFront (f : Front → Front) (e : Engine) : Same [.front] e (e.onFront f) := same_front e _

theorem Sent.onFront {k : Kit} {r : Regs} {q : Nat} {ps : List (BitVec 256 × List MemBeat)} {cs : List VCmd} {a b : Engine} (f : Front → Front)
    (h : Sent k r q ps cs a b) : Sent k r q ps cs (a.onFront f) (b.onFront f) where
  frame := by
    obtain ⟨m, o, qs, as, hb⟩ := h.frame
    exact ⟨m, o, qs, as, by rw [hb]; rfl⟩
  out := h.out
  queue := h.queue
  others := h.others

/-- The command that XFER_RDY_SEND serves, as the classes choose it (R290, R307). -/
structure Granted (s : State) (q : Nat) (c : VCmd) (chosen : Engine) : Prop where
  found : ((s.eng.vq q).cmds.find? fun x => x.tag == c.tag && movesIn x.opcode && !x.ready && x.answer.isNone) = some c
  session : c.session = none
  choice : s.eng.chooseCmd (arbVault c.tenant.toNat) c.tenant (s.eng.waitingWrites c.tenant) = some (s.eng.candidate q c, chosen)
  room : s.eng.vaultRoom s.regs c.tenant (c.len / 64) = true

/-- The engine with the chosen command ready and its lines reserved. -/
def Engine.readied (q : Nat) (c : VCmd) (e : Engine) : Engine :=
  (e.onCmds q fun cs => updFirst (fun x => x.tag == c.tag) (fun x => { x with ready := true }) cs).onFront
    fun f => { f with reserved := f.reserved + c.len / 64 }

/-- XFER_RDY goes out behind the choice of the classes and the reservation (R290). -/
theorem sent_readied (k : Kit) (r : Regs) (q : Nat) (c : VCmd) (as : Tab VArb) (h : BitVec 256) (e : Engine) :
    Sent k r q [(h, [])] (updFirst (fun x => x.tag == c.tag) (fun x => { x with ready := true }) (e.vq q).cmds)
      (e.onFront fun f => { f with reserved := f.reserved + c.len / 64 })
      ((({ e with vault := { e.vault with arbs := as } } : Engine).readied q c).writeOut k r q h []) := by
  have hready := ((sent_arbs k r q as e).trans (sent_onCmds k r q
    (updFirst (fun x => x.tag == c.tag) fun x => { x with ready := true }) { e with vault := { e.vault with arbs := as } })).onFront
    fun f => { f with reserved := f.reserved + c.len / 64 }
  have hsent := hready.trans (sent_writeOut k r q h [] _)
  rw [hready.queue] at hsent
  exact hsent

theorem exec_xferRdySend_granted {s : State} {queue : BitVec 6} {c : VCmd} {chosen : Engine} (h : Granted s queue.toNat c chosen) :
    exec (.xferRdySend queue c.tag) s = .next (withEng s ((chosen.readied queue.toNat c).writeOut s.kit s.regs queue.toNat
      (mkHdr ptXferRdy c.tag c.opcode c.prio c.len c.offset 0).word [])) := by
  have hlive : s.eng.sessionLive queue.toNat c = true := by
    unfold Engine.sessionLive
    rw [h.session]
  show execXferRdySend queue c.tag s = _
  unfold execXferRdySend State.eff
  simp only [h.found, h.choice, h.room, hlive, Engine.candidate, ne_eq, not_true_eq_false, Bool.not_true, Bool.false_eq_true, or_self, if_false]
  rw [h.session]
  rfl

/-- XFER_RDY: the command is ready, its lines are reserved, and the packet goes out (R290, R292, R307). -/
theorem xferRdySend_granted {s : State} {queue : BitVec 6} {c : VCmd} {chosen : Engine} (h : Granted s queue.toNat c chosen) :
    let q := queue.toNat
    let v := s.eng.vq q
    ∃ t tag, exec (.xferRdySend queue c.tag) s = .next t ∧
      (t.eng.vq q).cmds = updFirst (fun x => x.tag == c.tag) (fun x => { x with ready := true }) v.cmds ∧
      t.eng.front = { s.eng.front with reserved := s.eng.front.reserved + c.len / 64 } ∧
      (let a := s.regs.outBase q + 64 * v.outTail
       t.eng.out = s.eng.out ++ [.memWrite (channelOf s.kit a) tag a
         (outHeader v.outPhase 0 (mkHdr ptXferRdy c.tag c.opcode c.prio c.len c.offset 0).word) [] 1]) ∧ Only [.vault, .front, .mem, .out] s t := by
  intro q v
  obtain ⟨as, hchosen⟩ := Engine.chooseCmd_arbs h.choice
  have hexec := exec_xferRdySend_granted h
  rw [hchosen] at hexec
  have hsent := sent_readied s.kit s.regs q c as (mkHdr ptXferRdy c.tag c.opcode c.prio c.len c.offset 0).word s.eng
  generalize Engine.writeOut _ _ _ _ _ _ = b at hexec hsent
  obtain ⟨os, hout, hos⟩ := hsent.out
  rw [outWrites_bare] at hos
  obtain ⟨tag, rfl⟩ := hos.single
  have hqueue := hsent.queue
  have hsame := ((same_onFront (fun f => { f with reserved := f.reserved + c.len / 64 }) s.eng).mono (by decide)).trans
    (hsent.same.mono (gs' := [.vault, .front, .mem, .out]) (by decide))
  refine ⟨_, tag, hexec, ?_, ?_, hout, only_of_same hsame⟩
  · show (b.vq q).cmds = _
    rw [hqueue]
  · obtain ⟨_, _, _, _, hb⟩ := hsent.frame
    show b.front = _
    rw [hb]
    rfl

/-! ### An exchange that has waited too long -/

theorem same_dropCmd (q : Nat) (c : VCmd) (e : Engine) : Same [.vault, .front] e (e.dropCmd q c) :=
  ((same_onCmds q _ e).mono (by decide)).trans ((same_onFront _ _).mono (by decide))

theorem same_clearDeferred (c : VCmd) (e : Engine) : Same [.vault] e (e.clearDeferred c) := by
  rw [Engine.clearDeferred_eq]
  exact same_vault e _

theorem same_countCmd (q : Nat) (c : VCmd) (code : Code) (arg : Nat) (e : Engine) :
    Same [.vault, .count, .draws, .cycle] e (e.countCmd q c code arg) := by
  unfold Engine.countCmd
  split
  · exact (same_bump _ _ e).mono (by decide)
  · exact ((same_setVtenant _ _ e).mono (by decide)).trans (((same_ticked _).mono (by decide)).trans ((same_bump _ _ _).mono (by decide)))

theorem Engine.vq_countCmd (m q : Nat) (c : VCmd) (code : Code) (arg : Nat) (e : Engine) : (e.countCmd q c code arg).vq m = e.vq m :=
  Engine.vq_of_queues (by rw [Engine.countCmd_vault]) m

theorem Engine.vq_clearDeferred (m : Nat) (c : VCmd) (e : Engine) : (e.clearDeferred c).vq m = e.vq m :=
  Engine.vq_of_queues (by rw [Engine.clearDeferred_eq]) m

theorem Engine.counter_clearDeferred (off : Nat) (c : VCmd) (e : Engine) : (e.clearDeferred c).counter off = e.counter off := by
  rw [Engine.clearDeferred_eq]
  rfl

theorem Engine.cmds_dropCmd (q : Nat) (c : VCmd) (e : Engine) :
    ((e.dropCmd q c).vq q).cmds = (e.vq q).cmds.filter fun x => !(x.tag == c.tag) := by
  show ((e.onCmds q fun cs => cs.filter fun x => !(x.tag == c.tag)).vq q).cmds = _
  rw [Engine.vq_onCmds_same]

/-- What an exchange that has waited too long leaves before its RESP, if it is told (R293). -/
structure TimedOut (q : Nat) (c : VCmd) (a b : Engine) : Prop where
  cmds : (b.vq q).cmds = (a.vq q).cmds.filter fun x => !(x.tag == c.tag)
  counter : b.counter Ctr.xchgTimeouts = a.counter Ctr.xchgTimeouts + 1
  same : Same [.vault, .front, .count, .draws, .cycle] a b

theorem timedOut_counted (q : Nat) (c : VCmd) (e : Engine) :
    TimedOut q c e (((e.bump Ctr.xchgTimeouts 1).dropCmd q c).countCmd q c 0x60 0) where
  cmds := by
    rw [Engine.vq_countCmd, Engine.cmds_dropCmd]
    rfl
  counter := (Engine.countCmd_counter (by decide) (by decide) q c 0x60 0 _).trans (Engine.counter_bump_same Ctr.xchgTimeouts 1 e)
  same := (((same_bump _ 1 e).mono (by decide)).trans ((same_dropCmd q c _).mono (by decide))).trans ((same_countCmd q c 0x60 0 _).mono (by decide))

theorem TimedOut.cleared {q : Nat} {c : VCmd} {a b : Engine} (h : TimedOut q c a b) : TimedOut q c a (b.clearDeferred c) where
  cmds := by rw [Engine.vq_clearDeferred, h.cmds]
  counter := by rw [Engine.counter_clearDeferred, h.counter]
  same := h.same.trans ((same_clearDeferred c b).mono (by decide))

theorem exec_exchangeTimeout {s : State} {queue : BitVec 6} {c : VCmd}
    (hfind : ((s.eng.vq queue.toNat).cmds.find? fun x => x.tag == c.tag && x.session.isSome) = some c) (hage : 4 * s.regs.probeInterval ≤ c.age) :
    exec (.exchangeTimeout queue c.tag) s = .next (withEng s ((s.eng.bump Ctr.xchgTimeouts 1).abortCmd s.kit s.regs queue.toNat c 0x60
      (s.eng.sessionLive queue.toNat c))) := by
  show execExchangeTimeout queue c.tag s = _
  unfold execExchangeTimeout State.eff
  simp only [hfind, if_neg (Nat.not_lt.mpr hage)]
  rfl

/-- EXCHANGE_TIMEOUT (R293). -/
theorem exchangeTimeout_ends {s : State} {queue : BitVec 6} {c : VCmd} {n : Nat} :
    let q := queue.toNat
    ((s.eng.vq q).cmds.find? fun x => x.tag == c.tag && x.session.isSome) = some c → c.session = some n → 4 * s.regs.probeInterval ≤ c.age →
      ∃ e : Engine, TimedOut q c s.eng e ∧
        (s.eng.sessionLive q c = false → exec (.exchangeTimeout queue c.tag) s = .next (withEng s e)) ∧
        (s.eng.sessionLive q c = true → exec (.exchangeTimeout queue c.tag) s = .next (withEng s
          (e.sendSeq s.regs (n / 16) (n % 16) (q - 16) (vaultFrame (respHdr c.tag c.opcode c.prio c.offset 0 false 0x60).word [])))) := by
  intro q hfind hsession hage
  have hexec := exec_exchangeTimeout hfind hage
  have hended := timedOut_counted q c s.eng
  cases hlive : s.eng.sessionLive q c with
  | false =>
    rw [show s.eng.sessionLive queue.toNat c = false from hlive] at hexec
    exact ⟨_, hended, fun _ => hexec, nofun⟩
  | true =>
    rw [show s.eng.sessionLive queue.toNat c = true from hlive] at hexec
    refine ⟨_, hended.cleared, nofun, fun _ => hexec.trans ?_⟩
    unfold Engine.abortCmd Engine.answerCmd
    rw [if_pos rfl, hsession]
    rfl

end Sys2Proof.Machine


/-!
PROOFS. DATA of a host queue (R289, R291, R292, R305).
-/

namespace Sys2Proof.Machine

/-! ### The packet meets its command -/

/-- The oldest packet `p` of host queue `q` may be taken, it is a DATA packet with payload, and `c` is the command it is for, which waits for
its data (R291). -/
structure DataFor (s : State) (q : Nat) (p : Packet) (rest : List Packet) (c : VCmd) : Prop where
  packets : (s.eng.vq q).packets = p :: rest
  active : s.regs.vqActive q = true
  scheduling : s.eng.scheduling = true
  type : (vaultHdrOf p.hdr).type = ptData
  found : ((s.eng.vq q).cmds.find? fun x => x.tag == (vaultHdrOf p.hdr).tag) = some c
  ready : c.ready = true
  waiting : c.waiting = false
  answer : c.answer = none
  session : c.session = none
  payload : p.payload ≠ []

/-- The command with the payload of the packet staged. -/
def VCmd.staging (payload : List MemBeat) (c : VCmd) : VCmd := { c with staged := c.staged ++ payload, age := 0 }

section
variable {s : State} {q : Nat} {p : Packet} {rest : List Packet} {c : VCmd}

theorem DataFor.tag (h : DataFor s q p rest c) : c.tag = (vaultHdrOf p.hdr).tag := by simpa using List.find?_some h.found

theorem DataFor.split (h : DataFor s q p rest c) : ∃ as bs, (s.eng.vq q).cmds = as ++ c :: bs ∧ ∀ x ∈ as, (x.tag == c.tag) = false := by
  obtain ⟨-, as, bs, hsplit, has⟩ := List.find?_eq_some_iff_append.mp h.found
  exact ⟨as, bs, hsplit, fun x hx => by simpa [h.tag] using has x hx⟩

theorem exec_data_host {queue : BitVec 4} (h : DataFor s queue.toNat p rest c) :
    exec (.data (.host queue)) s = .next (withEng s ((unpacked s queue.toNat).targetPacket s.kit s.regs queue.toNat (fun _ => true)
      (vaultHdrOf p.hdr) p.payload)) := by
  have htaken : s.eng.takePacket s.regs queue.toNat (fun h => h.type != ptCmd)
      (fun h p e => e.targetPacket s.kit s.regs queue.toNat (fun _ => true) h p.payload) =
      (unpacked s queue.toNat).targetPacket s.kit s.regs queue.toNat (fun _ => true) (vaultHdrOf p.hdr) p.payload := by
    have hdata : ptData ≠ ptCmd := by decide
    unfold Engine.takePacket unpacked
    simp only [h.packets, h.type, h.active, h.scheduling, hdata, Bool.not_true, if_false, false_and, List.tail_cons]
    rfl
  show execData (.host queue) s = _
  unfold execData
  exact congrArg (fun e => Host.Outcome.next (withEng s e)) htaken

theorem unpacked_found (h : DataFor s q p rest c) :
    (((unpacked s q).vq q).cmds.find? fun x => x.tag == (vaultHdrOf p.hdr).tag && true) = some c := by
  rw [vq_unpacked]
  simpa using h.found

end

/-! ### What becomes of the packet -/

section
variable {e : Engine} {q : Nat} {mine : VCmd → Bool} {h : VaultHdr} {payload : List MemBeat} {c : VCmd}

/-- DATA out of place ends its command (R291). -/
theorem Engine.targetPacket_displaced (hfind : ((e.vq q).cmds.find? fun x => x.tag == h.tag && mine x) = some c) (hans : c.answer = none)
    (hoff : h.offset ≠ c.offset + 64 * c.staged.length) (k : Kit) (r : Regs) :
    e.targetPacket k r q mine h payload = (e.bump Ctr.seqErrors 1).finishCmd k r q c [] 0x19 0 := by
  unfold Engine.targetPacket
  simp only [hfind, hans, Option.isSome_none, Bool.false_eq_true, if_false]
  rw [if_pos (.inr (.inr (.inr (.inr (.inl hoff)))))]

/-- The command with the payload staged, in its queue. -/
def Engine.stagedIn (q : Nat) (tag : BitVec 8) (payload : List MemBeat) (c : VCmd) (e : Engine) : Engine :=
  e.onCmds q fun cs => updFirst (fun x => x.tag == tag) (fun _ => c.staging payload) cs

/-- DATA in place is staged, and the last of it is carried out (R291, R292). -/
theorem Engine.targetPacket_staged (hfind : ((e.vq q).cmds.find? fun x => x.tag == h.tag && mine x) = some c) (hans : c.answer = none)
    (htype : h.type = ptData) (hready : c.ready = true) (hwaiting : c.waiting = false) (hpayload : payload ≠ [])
    (hoff : h.offset = c.offset + 64 * c.staged.length) (hlen : 64 * (c.staged ++ payload).length ≤ c.len)
    (hlast : h.last = (64 * (c.staged ++ payload).length == c.len)) (k : Kit) (r : Regs) :
    e.targetPacket k r q mine h payload =
      if 64 * (c.staged ++ payload).length == c.len then (e.stagedIn q h.tag payload c).dataDone k r q (c.staging payload)
      else e.stagedIn q h.tag payload c := by
  rw [List.length_append] at hlen hlast ⊢
  have hempty : payload.isEmpty = false := List.isEmpty_eq_false_iff.mpr hpayload
  have hsome : c.answer.isSome = false := by rw [hans]; rfl
  unfold Engine.targetPacket
  simp only [hfind, hsome, Bool.false_eq_true, if_false]
  rw [if_neg]
  · rfl
  · simp [htype, hready, hwaiting, hempty, hoff, hlast]
    omega

end

/-! ### The data of a command of a host queue -/

section
variable {s : State} {queue : BitVec 4} {p : Packet} {rest : List Packet} {c : VCmd}

theorem DataFor.tail (h : DataFor s queue.toNat p rest c) : (unpacked s queue.toNat).vq queue.toNat =
    { s.eng.vq queue.toNat with packets := rest, outWait := false } := by
  rw [vq_unpacked, h.packets]
  rfl

/-- DATA that is not the last is staged (R291, R292). -/
theorem data_staged (h : DataFor s queue.toNat p rest c) (hoff : (vaultHdrOf p.hdr).offset = c.offset + 64 * c.staged.length)
    (hlen : 64 * (c.staged ++ p.payload).length < c.len) (hlast : (vaultHdrOf p.hdr).last = false) : let q := queue.toNat
    ∃ t, exec (.data (.host queue)) s = .next t ∧
      (t.eng.vq q).cmds = updFirst (fun x => x.tag == (vaultHdrOf p.hdr).tag) (fun _ => c.staging p.payload) (s.eng.vq q).cmds ∧
      (t.eng.vq q).packets = rest ∧ Only [.vault] s t := by
  intro q
  have hdone : (64 * (c.staged ++ p.payload).length == c.len) = false := beq_eq_false_iff_ne.mpr (by omega)
  have hexec := exec_data_host h
  rw [Engine.targetPacket_staged (unpacked_found h) h.answer h.type h.ready h.waiting h.payload hoff hlen.le (by rw [hlast, hdone]), hdone] at hexec
  have hqueue := Engine.vq_onCmds_same q (updFirst (fun x => x.tag == (vaultHdrOf p.hdr).tag) fun _ => c.staging p.payload) (unpacked s q)
  rw [h.tail] at hqueue
  refine ⟨_, hexec, (congrArg VQueue.cmds hqueue :), (congrArg VQueue.packets hqueue :), only_of_same ?_⟩
  exact (same_setVq q _ s.eng).trans (same_onCmds q _ _)

end

/-! ### The end of a command of a host queue -/

/-- In `e` the command `c` stands in host queue `q`, between `as` and `bs`, the only one with its tag up to there, and nothing has gone out
since `s`, whose way out is clear. -/
structure Standing (s : State) (q : Nat) (as bs : List VCmd) (c : VCmd) (e : Engine) : Prop where
  cmds : OnlyAnswered (e.vq q).cmds as bs c
  tail : (e.vq q).outTail = (s.eng.vq q).outTail
  phase : (e.vq q).outPhase = (s.eng.vq q).outPhase
  out : e.out = s.eng.out
  session : c.session = none
  clear : ClearOut q c.tenant e

/-- What the end of a command leaves: its RESP alone has gone out (R284, R287). -/
theorem Standing.finish {s : State} {q : Nat} {as bs : List VCmd} {c : VCmd} {e : Engine} (h : Standing s q as bs c e) (code : Code) (arg : Nat) :
    let b := e.finishCmd s.kit s.regs q c [] code arg
    (∃ tag, b.out = s.eng.out ++ [.memWrite (channelOf s.kit (s.regs.outBase q + 64 * (s.eng.vq q).outTail)) tag
      (s.regs.outBase q + 64 * (s.eng.vq q).outTail)
      (outHeader (s.eng.vq q).outPhase 0 (respHdr c.tag c.opcode c.prio c.offset arg false code).word) [] 1]) ∧
      Ended s.kit s.regs q c [c.resp code arg] code (as ++ bs.filter fun x => !(x.tag == c.tag))
        (e.onFront fun f => { f with reserved := f.reserved - c.reservedLines }) b := by
  have hend := Engine.finishCmd_ended (k := s.kit) (r := s.regs) (code := code) (arg := arg) (data := []) h.clear h.session h.cmds rfl rfl
    (fun hne => absurd rfl hne)
  refine ⟨?_, hend⟩
  obtain ⟨os, hout, hos⟩ := hend.out
  generalize e.finishCmd s.kit s.regs q c [] code arg = b at hout
  have hwrites : IsWrites s.kit (outWrites s.regs q (e.vq q).outTail (e.vq q).outPhase [c.resp code arg]) os := hos
  rw [VCmd.resp, outWrites_bare, h.tail, h.phase] at hwrites
  obtain ⟨tag, rfl⟩ := hwrites.single
  exact ⟨tag, hout.trans (congrArg (· ++ _) h.out)⟩

section
variable {s : State} {queue : BitVec 4} {p : Packet} {rest : List Packet} {c : VCmd}

theorem DataFor.drives (h : DataFor s queue.toNat p rest c) : s.eng.drives = true := by
  have hsched := h.scheduling
  simp only [Engine.scheduling, Bool.and_eq_true] at hsched
  exact hsched.1.1.2

theorem DataFor.only (h : DataFor s queue.toNat p rest c) (hclear : OutClear s queue.toNat c.tenant) :
    ∃ as bs, OnlyAnswered (s.eng.vq queue.toNat).cmds as bs c := by
  obtain ⟨as, bs, hsplit, has⟩ := h.split
  refine ⟨as, bs, hsplit, has, fun x hx => hclear.1 x ?_⟩
  rw [hsplit]
  exact (List.mem_append.mp hx).elim (List.mem_append_left _) fun hx => List.mem_append_right _ (List.mem_cons_of_mem _ hx)

theorem DataFor.standing (h : DataFor s queue.toNat p rest c) (hclear : OutClear s queue.toNat c.tenant) {as bs : List VCmd}
    (honly : OnlyAnswered (s.eng.vq queue.toNat).cmds as bs c) : Standing s queue.toNat as bs c (unpacked s queue.toNat) where
  cmds := by rw [h.tail]; exact honly
  tail := by rw [h.tail]
  phase := by rw [h.tail]
  out := rfl
  session := h.session
  clear := ⟨h.drives, hclear.2.1, hclear.2.2.1, hclear.2.2.2⟩

theorem Standing.bump {q : Nat} {as bs : List VCmd} {e : Engine} (h : Standing s q as bs c e) (off n : Nat) : Standing s q as bs c (e.bump off n) :=
  ⟨h.cmds, h.tail, h.phase, h.out, h.session, h.clear.drives, h.clear.weights, h.clear.classes, h.clear.debt⟩

/-- DATA out of place ends its command with 0x19 (R291). -/
theorem data_displaced (h : DataFor s queue.toNat p rest c) (hclear : OutClear s queue.toNat c.tenant)
    (hoff : (vaultHdrOf p.hdr).offset ≠ c.offset + 64 * c.staged.length) : let q := queue.toNat
    let v := s.eng.vq q
    let a := s.regs.outBase q + 64 * v.outTail
    ∃ t tag, exec (.data (.host queue)) s = .next t ∧ t.eng.counter Ctr.seqErrors = s.eng.counter Ctr.seqErrors + 1 ∧
      (t.eng.vq q).cmds = (v.cmds.filter fun x => !(x.tag == c.tag)) ∧
      t.eng.out = s.eng.out ++ [.memWrite (channelOf s.kit a) tag a
        (outHeader v.outPhase 0 (respHdr c.tag c.opcode c.prio c.offset 0 false 0x19).word) [] 1] ∧
      Only [.vault, .front, .count, .draws, .cycle, .mem, .out] s t := by
  intro q v a
  obtain ⟨as, bs, honly⟩ := h.only hclear
  obtain ⟨⟨tag, hout⟩, hend⟩ := ((h.standing hclear honly).bump Ctr.seqErrors 1).finish 0x19 0
  have hexec := exec_data_host h
  rw [Engine.targetPacket_displaced (unpacked_found h) h.answer hoff] at hexec
  have hbase : Same [.vault, .front, .count] s.eng (((unpacked s q).bump Ctr.seqErrors 1).onFront fun f =>
      { f with reserved := f.reserved - c.reservedLines }) :=
    (((same_setVq q _ s.eng).mono (by decide)).trans ((same_bump _ 1 _).mono (by decide))).trans ((same_onFront _ _).mono (by decide))
  have hcounter : (((unpacked s q).bump Ctr.seqErrors 1).onFront fun f => { f with reserved := f.reserved - c.reservedLines }).counter
      Ctr.seqErrors = s.eng.counter Ctr.seqErrors + 1 := Engine.counter_bump_same Ctr.seqErrors 1 (unpacked s q)
  generalize Engine.finishCmd _ _ _ _ _ _ _ _ = b at hexec hout hend
  refine ⟨_, tag, hexec, ?_, ?_, hout, only_of_same ((hbase.mono (by decide)).trans (hend.same.mono (by decide)))⟩
  · exact (hend.counter _ (by decide) (by decide)).trans hcounter
  · show (b.vq q).cmds = _
    rw [hend.queue, honly.gone]

/-! ### The last DATA of a command -/

/-- The engine with the packet taken and its payload staged. -/
def lastTaken (s : State) (q : Nat) (p : Packet) (c : VCmd) : Engine := (unpacked s q).stagedIn q (vaultHdrOf p.hdr).tag p.payload c

theorem vq_lastTaken (h : DataFor s queue.toNat p rest c) : (lastTaken s queue.toNat p c).vq queue.toNat =
    { s.eng.vq queue.toNat with
      packets := rest, outWait := false
      cmds := updFirst (fun x => x.tag == c.tag) (fun _ => c.staging p.payload) (s.eng.vq queue.toNat).cmds } := by
  unfold lastTaken Engine.stagedIn
  rw [Engine.vq_onCmds_same, h.tail, h.tag]

theorem same_lastTaken (s : State) (q : Nat) (p : Packet) (c : VCmd) : Same [.vault] s.eng (lastTaken s q p c) :=
  (same_setVq q _ s.eng).trans (same_onCmds q _ _)

theorem DataFor.lastStanding (h : DataFor s queue.toNat p rest c) (hclear : OutClear s queue.toNat c.tenant) {as bs : List VCmd}
    (honly : OnlyAnswered (s.eng.vq queue.toNat).cmds as bs c) :
    Standing s queue.toNat as bs (c.staging p.payload) (lastTaken s queue.toNat p c) where
  cmds := by
    rw [vq_lastTaken h]
    exact honly.update (c' := c.staging p.payload) rfl (fun _ => c.staging p.payload) rfl
  tail := by rw [vq_lastTaken h]
  phase := by rw [vq_lastTaken h]
  out := rfl
  session := h.session
  clear := ⟨h.drives, hclear.2.1, hclear.2.2.1, hclear.2.2.2⟩

theorem exec_data_last (h : DataFor s queue.toNat p rest c) (hoff : (vaultHdrOf p.hdr).offset = c.offset + 64 * c.staged.length)
    (hlen : 64 * (c.staged ++ p.payload).length = c.len) (hlast : (vaultHdrOf p.hdr).last = true) :
    exec (.data (.host queue)) s = .next (withEng s ((lastTaken s queue.toNat p c).dataDone s.kit s.regs queue.toNat (c.staging p.payload))) := by
  have hdone : (64 * (c.staged ++ p.payload).length == c.len) = true := beq_iff_eq.mpr hlen
  rw [exec_data_host h,
    Engine.targetPacket_staged (unpacked_found h) h.answer h.type h.ready h.waiting h.payload hoff hlen.le (hlast.trans hdone.symm), hdone]
  rfl

/-- The engine with these bytes in the staging buffer. -/
def Engine.withStaging (bs : List Byte) (e : Engine) : Engine := { e with vault := { e.vault with staging := bs } }

/-- The staging buffer after the data of a command (R305). -/
def VCmd.stagingAfter (c : VCmd) (old : List Byte) : List Byte := putStaging c.offset (bytesOfLines (c.staged.map fun b => b.data)) old

theorem Engine.dataDone_download {c : VCmd} (hop : c.opcode ≠ opWrite) (k : Kit) (r : Regs) (q : Nat) (e : Engine) :
    e.dataDone k r q c = (e.withStaging (c.stagingAfter e.vault.staging)).finishCmd k r q c [] 0 c.len := by
  unfold Engine.dataDone
  rw [if_neg hop]
  rfl

theorem Standing.withStaging {q : Nat} {as bs : List VCmd} {e : Engine} (h : Standing s q as bs c e) (xs : List Byte) :
    Standing s q as bs c (e.withStaging xs) :=
  ⟨h.cmds, h.tail, h.phase, h.out, h.session, h.clear.drives, h.clear.weights, h.clear.classes, h.clear.debt⟩

/-- The last DATA of an FW_DOWNLOAD fills the staging buffer (R305). -/
theorem data_downloaded (h : DataFor s queue.toNat p rest c) (hclear : OutClear s queue.toNat c.tenant)
    (hoff : (vaultHdrOf p.hdr).offset = c.offset + 64 * c.staged.length) (hlen : 64 * (c.staged ++ p.payload).length = c.len)
    (hlast : (vaultHdrOf p.hdr).last = true) (hop : c.opcode = opFwDownload) : let q := queue.toNat
    let v := s.eng.vq q
    let a := s.regs.outBase q + 64 * v.outTail
    ∃ t tag, exec (.data (.host queue)) s = .next t ∧ (t.eng.vq q).cmds = (v.cmds.filter fun x => !(x.tag == c.tag)) ∧
      t.eng.vault.staging = (c.staging p.payload).stagingAfter s.eng.vault.staging ∧
      t.eng.out = s.eng.out ++ [.memWrite (channelOf s.kit a) tag a
        (outHeader v.outPhase 0 (respHdr c.tag c.opcode c.prio c.offset c.len false 0).word) [] 1] ∧
      Only [.vault, .front, .count, .mem, .out] s t := by
  intro q v a
  obtain ⟨as, bs, honly⟩ := h.only hclear
  have hexec := exec_data_last h hoff hlen hlast
  rw [Engine.dataDone_download (c := c.staging p.payload) (show c.opcode ≠ opWrite by rw [hop]; decide)] at hexec
  have hstand := (h.lastStanding hclear honly).withStaging ((c.staging p.payload).stagingAfter s.eng.vault.staging)
  have hbase : Same [.vault, .front] s.eng (((lastTaken s q p c).withStaging ((c.staging p.payload).stagingAfter s.eng.vault.staging)).onFront
      fun f => { f with reserved := f.reserved - (c.staging p.payload).reservedLines }) :=
    (((same_lastTaken s q p c).mono (by decide)).trans ((same_vault _ _).mono (by decide))).trans ((same_onFront _ _).mono (by decide))
  obtain ⟨⟨tag, hout⟩, hend⟩ := hstand.finish 0 c.len
  replace hexec : exec (.data (.host queue)) s = .next (withEng s (Engine.finishCmd s.kit s.regs q (c.staging p.payload) [] 0 c.len
    ((lastTaken s q p c).withStaging ((c.staging p.payload).stagingAfter s.eng.vault.staging)))) := hexec
  generalize Engine.finishCmd _ _ _ _ _ _ _ _ = b at hexec hout hend
  refine ⟨_, tag, hexec, ?_, ?_, hout, only_of_same ((hbase.mono (by decide)).trans (hend.same.mono (by decide)))⟩
  · show (b.vq q).cmds = _
    rw [hend.queue, honly.gone]
    rfl
  · show b.vault.staging = _
    rw [hend.vault]
    rfl

end

end Sys2Proof.Machine


/-!
PROOFS. The lines of a WRITE become front copies (R292, R295, R297).
-/

namespace Sys2Proof.Machine

/-! ### The front -/

theorem find_singleton {l : FrontLine} {key : FrontKey} (h : l.key = key) : [l].find? (fun y => y.key == key) = some l := by simp [h]

theorem Front.find_putLast_same (l : FrontLine) (f : Front) : ∃ place, (f.putLast l).find l.key = some { l with place := place } := by
  have hnone : (f.lines.filter fun y => y.key != l.key).find? (fun y => y.key == l.key) = none :=
    List.find?_eq_none.mpr fun y hy => by simpa using (List.mem_filter.mp hy).2
  unfold Front.putLast Front.find
  rw [List.find?_append, hnone, Option.none_or]
  exact ⟨_, find_singleton rfl⟩

theorem Front.find_putLast_ne {key : FrontKey} {l : FrontLine} (h : key ≠ l.key) (f : Front) : (f.putLast l).find key = f.find key := by
  have hne : (l.key == key) = false := beq_eq_false_iff_ne.mpr h.symm
  have hkept : (fun y : FrontLine => decide ((y.key != l.key) = true ∧ (y.key == key) = true)) = fun y => y.key == key := by
    funext y
    by_cases hy : y.key = key
    · simp [hy, h]
    · simp [hy]
  unfold Front.putLast Front.find
  dsimp only
  rw [List.find?_append, List.find?_filter, hkept]
  simp [hne]

/-- Every dirty line of the front is a line of the body: none is due to be written to a window. -/
def Front.DirtyInBody (f : Front) : Prop := ∀ l ∈ f.lines, l.dirty = true → ∃ n, l.key = .body n

theorem Front.dirtyInBody_of_clean {f : Front} (h : f.anyDirty = false) : f.DirtyInBody := fun l hl hd => by
  rw [Front.dirty_of_anyDirty h l hl] at hd
  cases hd

theorem Front.DirtyInBody.putLast {f : Front} {l : FrontLine} {n : Nat} (h : f.DirtyInBody) (hl : l.key = .body n) : (f.putLast l).DirtyInBody := by
  intro y hy hd
  unfold Front.putLast at hy
  rcases List.mem_append.mp hy with hy | hy
  · exact h y (List.mem_filter.mp hy).1 hd
  · rw [List.mem_singleton.mp hy]
    exact ⟨n, hl⟩

theorem Engine.backDue_dirtyInBody {e : Engine} (h : e.front.DirtyInBody) : ∀ l ∈ e.front.lines, e.backDue l = false := by
  intro l hl
  cases hd : l.dirty with
  | false => exact Engine.backDue_clean hd e
  | true =>
    obtain ⟨n, hn⟩ := h l hl hd
    unfold Engine.backDue
    rw [hn]

/-! ### Lines applied -/

/-- What applying lines to the body changes: the order of applications, the failed marks, the front, the writes of the body and the
checkpoints that a slot keeps. -/
def AppliedTo (a b : Engine) : Prop :=
  ∃ n failed front bulb body, b = { a with
    vault := { a.vault with nextOrder := n, failed := failed }, front := front, bulb := bulb, body := body }

theorem AppliedTo.refl (e : Engine) : AppliedTo e e := ⟨_, _, _, _, _, rfl⟩

theorem AppliedTo.trans {a b c : Engine} (h : AppliedTo a b) (h' : AppliedTo b c) : AppliedTo a c := by
  obtain ⟨_, _, _, _, _, rfl⟩ := h
  obtain ⟨n, failed, front, bulb, body, rfl⟩ := h'
  exact ⟨n, failed, front, bulb, body, rfl⟩

theorem AppliedTo.forEach {α : Type} {f : α → Engine → Engine} (h : ∀ x e, AppliedTo e (f x e)) (xs : List α) (e : Engine) :
    AppliedTo e (e.forEach xs f) := by
  induction xs generalizing e with
  | nil => exact AppliedTo.refl e
  | cons x xs ih => exact (h x e).trans (ih (f x e))

theorem AppliedTo.same {a b : Engine} (h : AppliedTo a b) : Same [.vault, .front, .bulb, .body] a b := by
  obtain ⟨_, _, _, _, _, rfl⟩ := h
  simp [Same]

theorem AppliedTo.standing {s : State} {q : Nat} {as bs : List VCmd} {c : VCmd} {a b : Engine} (h : AppliedTo a b) (hs : Standing s q as bs c a) :
    Standing s q as bs c b := by
  obtain ⟨_, _, _, _, _, rfl⟩ := h
  exact ⟨hs.cmds, hs.tail, hs.phase, hs.out, hs.session, hs.clear.drives, hs.clear.weights, hs.clear.classes, hs.clear.debt⟩

/-- One line of a WRITE applied to the body: its front copy, behind every other, and its write to the body. -/
theorem appliedTo_applyLine (q : Nat) (t : TenantNo) (fua : Bool) (n : Nat) (b : MemBeat) (e : Engine) :
    AppliedTo e (e.applyLine q t fua (.body n) b) := by
  have hordered (e : Engine) : AppliedTo e e.ordered := ⟨_, _, _, _, _, rfl⟩
  have hunfail (key : FrontKey) (e : Engine) : AppliedTo e (e.unfail key) := ⟨_, _, _, _, _, rfl⟩
  have hfront (f : Front → Front) (e : Engine) : AppliedTo e (e.onFront f) := ⟨_, _, _, _, _, rfl⟩
  have hwrite (u : BodyFor) (l : Line) (e : Engine) : AppliedTo e (e.pushBodyWrite u l) := ⟨_, _, _, _, _, rfl⟩
  exact (((hordered e).trans (hunfail _ _)).trans (hfront _ _)).trans (hwrite _ _ _)

theorem front_applyLine (q : Nat) (t : TenantNo) (fua : Bool) (n : Nat) (b : MemBeat) (e : Engine) :
    (e.applyLine q t fua (.body n) b).front = e.front.putLast
      { FrontLine.made .vault (.body n) (Line.ofData b.data t 0xD b.poison) true (if fua then noQueue else q) with ver := e.vault.nextOrder } := by
  unfold Engine.applyLine
  rfl

/-- A front copy of a line of a WRITE of tenant `t`. -/
def FrontLine.IsCopy (t : TenantNo) (b : MemBeat) (l : FrontLine) : Prop :=
  l.line = Line.ofData b.data t 0xD b.poison ∧ l.dirty = true ∧ l.part = .vault

/-- The lines `xs` of the body applied, one after another. -/
def Engine.applyLines (q : Nat) (t : TenantNo) (fua : Bool) (xs : List (Nat × MemBeat)) (e : Engine) : Engine :=
  e.forEach xs fun x e => e.applyLine q t fua (.body x.1) x.2

section
variable (q : Nat) (t : TenantNo) (fua : Bool)

theorem appliedTo_applyLines (xs : List (Nat × MemBeat)) (e : Engine) : AppliedTo e (e.applyLines q t fua xs) := by
  unfold Engine.applyLines
  refine AppliedTo.forEach (fun x e => ?_) xs e
  exact appliedTo_applyLine q t fua x.1 x.2 e

theorem dirtyInBody_applyLines (xs : List (Nat × MemBeat)) (e : Engine) (h : e.front.DirtyInBody) : (e.applyLines q t fua xs).front.DirtyInBody := by
  induction xs generalizing e with
  | nil => exact h
  | cons x xs ih =>
    refine ih (e.applyLine q t fua (.body x.1) x.2) ?_
    rw [front_applyLine]
    exact h.putLast rfl

theorem find_applyLines_ne {n : Nat} (xs : List (Nat × MemBeat)) (h : ∀ x ∈ xs, x.1 ≠ n) (e : Engine) :
    (e.applyLines q t fua xs).front.find (.body n) = e.front.find (.body n) := by
  induction xs generalizing e with
  | nil => rfl
  | cons x xs ih =>
    have hx : FrontKey.body n ≠ .body x.1 := fun hk => h x List.mem_cons_self (by injection hk with hk; exact hk.symm)
    refine (ih (fun y hy => h y (List.mem_cons_of_mem _ hy)) (e.applyLine q t fua (.body x.1) x.2)).trans ?_
    rw [front_applyLine, Front.find_putLast_ne hx]

/-- Every line of a WRITE has its front copy, when no line stands twice (R292, R297). -/
theorem find_applyLines (xs : List (Nat × MemBeat)) (h : (xs.map Prod.fst).Nodup) (e : Engine) :
    ∀ x ∈ xs, ∃ l, (e.applyLines q t fua xs).front.find (.body x.1) = some l ∧ l.IsCopy t x.2 := by
  induction xs generalizing e with
  | nil => intro x hx; cases hx
  | cons y xs ih =>
    rw [List.map_cons, List.nodup_cons] at h
    intro x hx
    rcases List.mem_cons.mp hx with rfl | hx
    · have hrest : ∀ z ∈ xs, z.1 ≠ x.1 := fun z hz hzx => h.1 (hzx ▸ List.mem_map_of_mem hz)
      obtain ⟨place, hplace⟩ := Front.find_putLast_same { FrontLine.made .vault (.body x.1) (Line.ofData x.2.data t 0xD x.2.poison) true
        (if fua then noQueue else q) with ver := e.vault.nextOrder } e.front
      rw [← front_applyLine] at hplace
      exact ⟨_, (find_applyLines_ne q t fua xs hrest (e.applyLine q t fua (.body x.1) x.2)).trans hplace, rfl, rfl, rfl⟩
    · exact ih h.2 (e.applyLine q t fua (.body y.1) y.2) x hx

end

end Sys2Proof.Machine


/-!
PROOFS. The last DATA of a WRITE of a host queue (R292, R295, R297).
-/

namespace Sys2Proof.Machine

/-- The lines of the body that a WRITE of a host queue covers, each with its data. -/
def VCmd.bodyLines (r : Regs) (c : VCmd) : List (Nat × MemBeat) :=
  ((lineRange c.offset c.len).map fun n => r.partLine c.tenant.toNat n).zip c.staged

/-- The engine with the lines of a WRITE without FUA applied, the checkpoints in the slots it touches given up. -/
def Engine.applied (r : Regs) (q : Nat) (c : VCmd) (e : Engine) : Engine :=
  (e.applyLines q c.tenant false (c.bodyLines r)).forEach [false, true] fun slot e =>
    if touchesSlot r c.tenant.toNat c.offset c.len slot then
      e.setKept c.tenant.toNat ((e.kept c.tenant.toNat).setComplete slot false) else e

theorem forEach_applyLine (r : Regs) (q : Nat) (c : VCmd) (e : Engine) :
    e.forEach (((lineRange c.offset c.len).filterMap fun n => (Space.body c.tenant.toNat).key r n).zip c.staged)
      (fun x e => e.applyLine q c.tenant false x.1 x.2) = e.applyLines q c.tenant false (c.bodyLines r) := by
  have hkeys : ((lineRange c.offset c.len).filterMap fun n => (Space.body c.tenant.toNat).key r n) =
      ((lineRange c.offset c.len).map fun n => r.partLine c.tenant.toNat n).map FrontKey.body := by
    rw [List.map_map]
    exact congrFun List.filterMap_eq_map' (lineRange c.offset c.len)
  unfold Engine.applyLines Engine.forEach VCmd.bodyLines
  rw [hkeys, List.zip_map_left, List.foldl_map]
  rfl

/-- A WRITE of a host queue without FUA is applied, carried out, and windows are written back (R292, R297). -/
theorem Engine.applyWrite_host {c : VCmd} (hsession : c.session = none) (hfua : bitOf 2 c.flags = false) (k : Kit) (r : Regs) (q : Nat) (e : Engine) :
    e.applyWrite k r q c = ((e.applied r q c).finishCmd k r q c [] 0 c.len).pumpWindows k r := by
  have hspace : spaceOf r c.tenant c.session = .body c.tenant.toNat := by rw [hsession]; rfl
  unfold Engine.applyWrite
  rw [hspace, hfua, hsession]
  dsimp only
  rw [forEach_applyLine]
  rfl

theorem appliedTo_applied (r : Regs) (q : Nat) (c : VCmd) (e : Engine) : AppliedTo e (e.applied r q c) := by
  unfold Engine.applied
  refine (appliedTo_applyLines q c.tenant false (c.bodyLines r) e).trans (AppliedTo.forEach (fun slot e => ?_) _ _)
  split
  · exact ⟨_, _, _, _, _, rfl⟩
  · exact AppliedTo.refl e

theorem front_applied (r : Regs) (q : Nat) (c : VCmd) (e : Engine) :
    (e.applied r q c).front = (e.applyLines q c.tenant false (c.bodyLines r)).front := by
  have hkept (xs : List Bool) (e : Engine) : (e.forEach xs fun slot e =>
      if touchesSlot r c.tenant.toNat c.offset c.len slot then
        e.setKept c.tenant.toNat ((e.kept c.tenant.toNat).setComplete slot false) else e).front = e.front := by
    induction xs generalizing e with
    | nil => rfl
    | cons slot xs ih =>
      refine (ih _).trans ?_
      dsimp only
      split <;> rfl
  exact hkept _ _

theorem nodup_bodyLines {r : Regs} {c : VCmd} (h : 64 * c.staged.length = c.len) : ((c.bodyLines r).map Prod.fst).Nodup := by
  have hlen : c.staged.length = ceilDiv c.len 64 := by
    unfold ceilDiv
    omega
  unfold VCmd.bodyLines
  rw [List.map_fst_zip (by simp [lineRange, hlen]), lineRange, List.map_map]
  refine List.nodup_range.map fun i j hij => ?_
  simp only [Function.comp_apply, Regs.partLine] at hij
  omega

theorem mem_bodyLines {r : Regs} {c : VCmd} {x : Nat × MemBeat} (h : x ∈ (lineRange c.offset c.len).zip c.staged) :
    (r.partLine c.tenant.toNat x.1, x.2) ∈ c.bodyLines r := by
  unfold VCmd.bodyLines
  rw [List.zip_map_left]
  exact List.mem_map_of_mem h

section
variable {s : State} {queue : BitVec 4} {p : Packet} {rest : List Packet} {c : VCmd}

/-- The last DATA of a WRITE without FUA makes its lines dirty front copies, and the command is answered (R292, R297). -/
theorem data_written (h : DataFor s queue.toNat p rest c) (hclear : OutClear s queue.toNat c.tenant)
    (hoff : (vaultHdrOf p.hdr).offset = c.offset + 64 * c.staged.length) (hlen : 64 * (c.staged ++ p.payload).length = c.len)
    (hlast : (vaultHdrOf p.hdr).last = true) (hop : c.opcode = opWrite) (hfua : bitOf 2 c.flags = false) (hclean : s.eng.front.anyDirty = false) :
    let q := queue.toNat
    let v := s.eng.vq q
    let a := s.regs.outBase q + 64 * v.outTail
    ∃ t tag, exec (.data (.host queue)) s = .next t ∧ (t.eng.vq q).cmds = (v.cmds.filter fun x => !(x.tag == c.tag)) ∧
      (∀ x ∈ (lineRange c.offset c.len).zip (c.staged ++ p.payload), ∃ l,
        t.eng.front.find (.body (s.regs.partLine c.tenant.toNat x.1)) = some l ∧ l.IsCopy c.tenant x.2) ∧
      t.eng.out = s.eng.out ++ [.memWrite (channelOf s.kit a) tag a
        (outHeader v.outPhase 0 (respHdr c.tag c.opcode c.prio c.offset c.len false 0).word) [] 1] ∧
      Only [.vault, .front, .bulb, .body, .count, .mem, .out] s t := by
  intro q v a
  obtain ⟨as, bs, honly⟩ := h.only hclear
  have hexec := exec_data_last h hoff hlen hlast
  have hdone : (lastTaken s q p c).dataDone s.kit s.regs q (c.staging p.payload) =
      (((lastTaken s q p c).applied s.regs q (c.staging p.payload)).finishCmd s.kit s.regs q (c.staging p.payload) [] 0 c.len).pumpWindows
        s.kit s.regs := by
    unfold Engine.dataDone
    rw [if_pos (show (c.staging p.payload).opcode = opWrite from hop)]
    exact Engine.applyWrite_host (c := c.staging p.payload) h.session hfua ..
  have happlied := appliedTo_applied s.regs q (c.staging p.payload) (lastTaken s q p c)
  have hstand := happlied.standing (h.lastStanding hclear honly)
  have hdirty : ((lastTaken s q p c).applied s.regs q (c.staging p.payload)).front.DirtyInBody := by
    rw [front_applied]
    exact dirtyInBody_applyLines _ _ _ _ _ (Front.dirtyInBody_of_clean hclean)
  have hcopies : ∀ x ∈ (lineRange c.offset c.len).zip (c.staged ++ p.payload), ∃ l,
      ((lastTaken s q p c).applied s.regs q (c.staging p.payload)).front.find (.body (s.regs.partLine c.tenant.toNat x.1)) = some l ∧
        l.IsCopy c.tenant x.2 := by
    intro x hx
    rw [front_applied]
    exact find_applyLines q c.tenant false ((c.staging p.payload).bodyLines s.regs) (nodup_bodyLines hlen) (lastTaken s q p c) _
      (mem_bodyLines (c := c.staging p.payload) hx)
  have hbase := ((same_lastTaken s q p c).mono (gs' := [.vault, .front, .bulb, .body]) (by decide)).trans happlied.same
  rw [hdone] at hexec
  generalize (lastTaken s q p c).applied s.regs q (c.staging p.payload) = e at hexec hstand hdirty hcopies hbase
  obtain ⟨⟨tag, hout⟩, hend⟩ := hstand.finish 0 c.len
  have hsame := (hbase.trans ((same_onFront (fun f => { f with reserved := f.reserved - (c.staging p.payload).reservedLines }) e).mono (by decide)))
  replace hout : (e.finishCmd s.kit s.regs q (c.staging p.payload) [] 0 c.len).out = s.eng.out ++ [.memWrite (channelOf s.kit a) tag a
        (outHeader v.outPhase 0 (respHdr c.tag c.opcode c.prio c.offset c.len false 0).word) [] 1] := hout
  generalize Engine.finishCmd _ _ _ _ _ _ _ e = b at hexec hout hend
  have hfront : b.front = { e.front with reserved := e.front.reserved - (c.staging p.payload).reservedLines } :=
    hend.same.groups.front.resolve_left (by decide)
  rw [Engine.pumpWindows_idle (Engine.backDue_dirtyInBody (by rw [hfront]; exact hdirty))] at hexec
  refine ⟨_, tag, hexec, ?_, fun x hx => ?_, hout, only_of_same ((hsame.mono (by decide)).trans (hend.same.mono (by decide)))⟩
  · show (b.vq q).cmds = _
    rw [hend.queue, honly.gone]
    rfl
  · show ∃ l, b.front.find _ = some l ∧ _
    rw [hfront]
    exact hcopies x hx

end

end Sys2Proof.Machine


/-!
PROOFS. A VAULT frame of a session accepted (R204, R212 to R214, R276, R354).
-/

namespace Sys2Proof.Machine

/-! ### What receiving a frame changes -/

/-- What the acceptance of a frame changes: the sessions, counters, the completions of the rings with their MEM writes, what goes out, and the
DRAINs that stand in the vault. -/
def LinkMoved (a b : Engine) : Prop :=
  ∃ sess count rings mem out drains, b = { a with
    pollen := { a.pollen with sess := sess }, count := count, rings := rings, mem := mem, out := out, vault := { a.vault with drains := drains } }

theorem LinkMoved.refl (e : Engine) : LinkMoved e e := ⟨_, _, _, _, _, _, rfl⟩

theorem LinkMoved.trans {a b c : Engine} (h : LinkMoved a b) (h' : LinkMoved b c) : LinkMoved a c := by
  obtain ⟨_, _, _, _, _, _, rfl⟩ := h
  obtain ⟨sess, count, rings, mem, out, drains, rfl⟩ := h'
  exact ⟨sess, count, rings, mem, out, drains, rfl⟩

theorem LinkMoved.forEach {α : Type} {f : α → Engine → Engine} (h : ∀ x e, LinkMoved e (f x e)) (xs : List α) (e : Engine) :
    LinkMoved e (e.forEach xs f) := by
  induction xs generalizing e with
  | nil => exact LinkMoved.refl e
  | cons x xs ih => exact (h x e).trans (ih (f x e))

theorem LinkMoved.same {a b : Engine} (h : LinkMoved a b) : Same [.pollen, .count, .rings, .mem, .out, .vault] a b := by
  obtain ⟨_, _, _, _, _, _, rfl⟩ := h
  simp [Same]

theorem linkMoved_onPort (t i p : Nat) (f : PortSess → PortSess) (e : Engine) : LinkMoved e (e.onPort t i p f) := ⟨_, _, _, _, _, _, rfl⟩

theorem linkMoved_bump (off n : Nat) (e : Engine) : LinkMoved e (e.bump off n) := ⟨_, _, _, _, _, _, rfl⟩

theorem linkMoved_emit (o : Output) (e : Engine) : LinkMoved e (e.emit o) := ⟨_, _, _, _, _, _, rfl⟩

theorem linkMoved_setRing (n : Nat) (g : Ring) (e : Engine) : LinkMoved e (e.setRing n g) := ⟨_, _, _, _, _, _, rfl⟩

theorem linkMoved_memWrite (k : Kit) (addr : Nat) (bs : List Byte) (ps : List Bool) (prio : BitVec 2) (use : MemFor) (e : Engine) :
    LinkMoved e (e.memWrite k addr bs ps prio use) := by
  unfold Engine.memWrite
  exact ⟨_, _, _, _, _, _, rfl⟩

theorem linkMoved_alive (r : Regs) (t i : Nat) (e : Engine) : LinkMoved e (e.alive r t i) := ⟨_, _, _, _, _, _, rfl⟩

theorem linkMoved_putFrame (r : Regs) (t i p : Nat) (id : Word) (key : BitVec 256) (f : Frame) (e : Engine) :
    LinkMoved e (e.putFrame r t i p id key f) := by
  unfold Engine.putFrame
  refine LinkMoved.trans ?_ (linkMoved_onPort ..)
  exact (linkMoved_emit ..).trans (linkMoved_bump ..)

theorem linkMoved_sendAck (r : Regs) (t i p : Nat) (e : Engine) : LinkMoved e (e.sendAck r t i p) := by
  unfold Engine.sendAck Engine.sendControl
  split
  · exact linkMoved_putFrame ..
  · exact LinkMoved.refl e

theorem linkMoved_issueCq (k : Kit) (r : Regs) (n : Nat) (e : Engine) : LinkMoved e (e.issueCq k r n) := by
  unfold Engine.issueCq
  dsimp only
  split
  · exact LinkMoved.refl e
  · split
    · exact LinkMoved.refl e
    · exact (linkMoved_setRing n _ e).trans (linkMoved_memWrite ..)

theorem linkMoved_completeOne (k : Kit) (r : Regs) (id : JobId) (code : Code) (plan : Bool) (result : List Byte) (e : Engine) :
    LinkMoved e (e.completeOne k r id code plan result) := by
  have hjobs (xs : List Job) (e : Engine) : LinkMoved e { e with rings := { e.rings with jobs := xs } } := ⟨_, _, _, _, _, _, rfl⟩
  unfold Engine.completeOne Engine.pushCq
  exact (((hjobs _ e).trans (linkMoved_setRing ..)).trans (linkMoved_setRing ..)).trans (linkMoved_issueCq ..)

theorem linkMoved_refuse (k : Kit) (r : Regs) (id : JobId) (code : Code) (e : Engine) : LinkMoved e (e.refuse k r id code) := by
  have hdrains (xs : List Drain) (e : Engine) : LinkMoved e { e with vault := { e.vault with drains := xs } } := ⟨_, _, _, _, _, _, rfl⟩
  unfold Engine.refuse Engine.complete Engine.completeWith Engine.endDrains
  refine (linkMoved_completeOne ..).trans (LinkMoved.forEach (fun d e => ?_) _ _)
  split
  · exact (hdrains _ e).trans (linkMoved_completeOne ..)
  · exact LinkMoved.refl e

theorem linkMoved_endAdmin (k : Kit) (r : Regs) (t i p : Nat) (e : Engine) : LinkMoved e (e.endAdmin k r t i p) := by
  unfold Engine.endAdmin
  refine LinkMoved.forEach (fun j e => ?_) _ _
  split
  · split
    · exact linkMoved_refuse ..
    · exact LinkMoved.refl e
  · exact LinkMoved.refl e

theorem linkMoved_heard (t i p : Nat) (f : Frame) (e : Engine) : LinkMoved e (e.heard t i p f) := by
  unfold Engine.heard
  split
  · exact LinkMoved.refl e
  · exact linkMoved_onPort ..

/-! ### The sequence number expected -/

/-- E of a session's port (R211). -/
def Engine.expects (t i p : Nat) (e : Engine) : Word := ((e.sess t i).port p).expect

@[simp] theorem Engine.port_onPort (t i p : Nat) (f : PortSess → PortSess) (e : Engine) :
    ((e.onPort t i p f).sess t i).port p = f ((e.sess t i).port p) := by
  unfold Engine.onPort
  rw [Engine.sess_setSess_same, Session.port_setPort_same]

theorem Engine.expects_onPort (t i p : Nat) {f : PortSess → PortSess} (h : ∀ x, (f x).expect = x.expect) (e : Engine) :
    (e.onPort t i p f).expects t i p = e.expects t i p := by
  unfold Engine.expects
  rw [Engine.port_onPort, h]

theorem PortSess.expect_ack (n : Word) (ps : PortSess) : (ps.ack n).expect = ps.expect := by
  unfold PortSess.ack
  dsimp only
  split <;> rfl

theorem Engine.expects_heard (t i p : Nat) (f : Frame) (e : Engine) : (e.heard t i p f).expects t i p = e.expects t i p := by
  unfold Engine.heard
  split
  · rfl
  · refine Engine.expects_onPort t i p (fun x => ?_) e
    dsimp only
    split <;> exact PortSess.expect_ack f.ackSeq x

theorem Engine.expects_bump (t i p off n : Nat) (e : Engine) : (e.bump off n).expects t i p = e.expects t i p := rfl

theorem Engine.expects_emit (t i p : Nat) (o : Output) (e : Engine) : (e.emit o).expects t i p = e.expects t i p := rfl

theorem Engine.expects_putFrame (r : Regs) (t i p : Nat) (id : Word) (key : BitVec 256) (f : Frame) (e : Engine) :
    (e.putFrame r t i p id key f).expects t i p = e.expects t i p := by
  unfold Engine.putFrame
  dsimp only
  rw [Engine.expects_onPort, Engine.expects_bump, Engine.expects_emit]
  exact fun _ => rfl

theorem Engine.expects_sendAck (r : Regs) (t i p : Nat) (e : Engine) : (e.sendAck r t i p).expects t i p = e.expects t i p := by
  unfold Engine.sendAck Engine.sendControl
  split
  · exact Engine.expects_putFrame ..
  · rfl

theorem tabFind_map {α : Type} (f : Nat × α → α) (k : Nat) (t : Tab α) :
    tabFind k (t.map fun x => (x.1, f x)) = (tabFind k t).map fun v => f (k, v) := by
  induction t with
  | nil => rfl
  | cons x t ih =>
    obtain ⟨j, v⟩ := x
    rw [List.map_cons]
    unfold tabFind
    by_cases hj : j = k
    · rw [if_pos hj, if_pos hj, Option.map_some, hj]
    · rw [if_neg hj, if_neg hj]
      exact ih

/-- A peer that is alive keeps every port of its sessions (R222). -/
theorem Engine.port_alive (r : Regs) (t i u j p : Nat) (e : Engine) : ((e.alive r t i).sess u j).port p = (e.sess u j).port p := by
  let quiet (x : Nat × Session) : Session := if r.peerId (x.1 / 16) (x.1 % 16) = r.peerId t i then { x.2 with sinceRx := 0 } else x.2
  have hmap : (e.alive r t i).pollen.sess = e.pollen.sess.map fun x => (x.1, quiet x) := by
    refine List.map_congr_left fun x _ => ?_
    dsimp only [quiet]
    split <;> rfl
  have hport (x : Nat × Session) : (quiet x).port p = x.2.port p := by
    dsimp only [quiet]
    split <;> rfl
  unfold Engine.sess tabGet
  rw [hmap, tabFind_map]
  cases tabFind (16 * u + j) e.pollen.sess with
  | none => rfl
  | some v => exact hport (16 * u + j, v)

/-- A completion keeps the sessions. -/
theorem Engine.pollen_endAdmin (k : Kit) (r : Regs) (t i p : Nat) (e : Engine) : (e.endAdmin k r t i p).pollen = e.pollen := by
  have hloop (xs : List Job) (e : Engine) : (e.forEach xs fun j e =>
      match j.kind with
      | .adminSend u n q seq => if u = t ∧ n = i ∧ q = p ∧ ((e.sess t i).port p).acked seq then e.refuse k r j.id 0 else e
      | _ => e).pollen = e.pollen := by
    induction xs generalizing e with
    | nil => rfl
    | cons x xs ih =>
      refine (ih _).trans ?_
      dsimp only
      split
      · split
        · exact Engine.complete_pollen ..
        · rfl
      · rfl
  exact hloop _ e

theorem Engine.expects_endAdmin (k : Kit) (r : Regs) (t i p u j q : Nat) (e : Engine) :
    (e.endAdmin k r t i p).expects u j q = e.expects u j q := by
  unfold Engine.expects Engine.sess
  rw [Engine.pollen_endAdmin]

/-! ### A VAULT frame accepted -/

theorem Engine.wake_awake {e : Engine} (hentering : e.power.entering = false) (hstate : e.power.state = 0) : e.wake = e := by
  unfold Engine.wake
  simp [hentering, hstate]

/-- The engine once a sequenced frame counts as accepted, before it is acknowledged (R204, R211, R214). -/
def Engine.counted (t i p : Nat) (f : Frame) (e : Engine) : Engine :=
  (((e.onPort t i p fun ps => { ps with expect := ps.expect + 1, nakFor := none }).heard t i p f).onPort t i p fun ps =>
    { ps with owed := ps.owed + 1, charged := ps.charged + BitVec.ofNat 32 f.lines.toNat }).bump Ctr.framesRx 1

theorem linkMoved_counted (t i p : Nat) (f : Frame) (e : Engine) : LinkMoved e (e.counted t i p f) :=
  (((linkMoved_onPort ..).trans (linkMoved_heard ..)).trans (linkMoved_onPort ..)).trans (linkMoved_bump ..)

theorem Engine.expects_counted (t i p : Nat) (f : Frame) (e : Engine) : (e.counted t i p f).expects t i p = e.expects t i p + 1 := by
  unfold Engine.counted
  rw [Engine.expects_bump, Engine.expects_onPort, Engine.expects_heard]
  · unfold Engine.expects
    rw [Engine.port_onPort]
  · exact fun _ => rfl

/-- A VAULT frame next in sequence and within its credit is accepted (R204, R211, R214). -/
theorem Engine.sequenceFrame_vault {t i p : Nat} {f : Frame} {e : Engine} (htype : f.type = ftVault) (hseq : f.seq = e.expects t i p)
    (hcredit : f.lines.toNat ≤ (((e.sess t i).port p).limitOut - ((e.sess t i).port p).charged).toNat) (k : Kit) (r : Regs) :
    ∃ b, e.sequenceFrame k r t i p f = (b, true) ∧ LinkMoved e b ∧ b.expects t i p = f.seq + 1 := by
  have hsequenced : sequenced f.type = true := by rw [htype]; rfl
  have hexpects : (e.counted t i p f).expects t i p = f.seq + 1 := by rw [Engine.expects_counted, hseq]
  refine ⟨if 8 ≤ (((e.counted t i p f).sess t i).port p).owed then (e.counted t i p f).sendAck r t i p else e.counted t i p f, ?_, ?_, ?_⟩
  · unfold Engine.sequenceFrame
    rw [if_neg (by rw [hsequenced]; decide)]
    dsimp only
    rw [if_neg (fun h => h hseq), if_neg (by omega)]
    rfl
  · split
    · exact (linkMoved_counted ..).trans (linkMoved_sendAck ..)
    · exact linkMoved_counted ..
  · split
    · rw [Engine.expects_sendAck, hexpects]
    · exact hexpects

/-- What the row of an accepted VAULT frame works on. -/
structure LinkAccepted (s : State) (port t i : Nat) (f : Frame) (e : Engine) : Prop where
  moved : LinkMoved s.eng e
  expects : e.expects t i port = f.seq + 1

/-- A sound VAULT frame of a session is given to its row (R204, R354). -/
theorem receive_vault {s : State} {port t i : Nat} {f : Frame} (h : VaultFrameOf s port t i f) :
    ∃ e, LinkAccepted s port t i f e ∧ ∀ act, s.eng.receive s.kit s.regs ftVault port f act = act t i e := by
  obtain ⟨-, hlistening, hstate, hentering, htype, hcheck, hseq, hcredit⟩ := h
  have hport := Engine.port_alive s.regs t i t i port s.eng
  obtain ⟨b, hsequence, hmoved, hexpects⟩ := Engine.sequenceFrame_vault (t := t) (i := i) (p := port) (f := f) (e := s.eng.alive s.regs t i) htype
    (by unfold Engine.expects; rw [hport]; exact hseq) (by rw [hport]; exact hcredit) s.kit s.regs
  have hall := ((linkMoved_alive s.regs t i s.eng).trans hmoved).trans (linkMoved_endAdmin s.kit s.regs t i port b)
  have hawake : (b.endAdmin s.kit s.regs t i port).wake = b.endAdmin s.kit s.regs t i port := by
    obtain ⟨_, _, _, _, _, _, heq⟩ := hall
    exact Engine.wake_awake (by rw [heq]; exact hentering) (by rw [heq]; exact hstate)
  refine ⟨b.endAdmin s.kit s.regs t i port, ⟨hall, by rw [Engine.expects_endAdmin, hexpects]⟩, fun act => ?_⟩
  unfold Engine.receive
  rw [if_neg (by simp [htype, hlistening]), hcheck]
  dsimp only
  rw [hsequence]
  dsimp only
  rw [hawake]
  rfl

end Sys2Proof.Machine


/-!
PROOFS. What the vault packets of accepted frames do (R285, R289, R291, R292, R294, R354).
-/

namespace Sys2Proof.Machine

/-! ### What a command is judged by is as it was -/

section
variable {a b : Engine}

theorem LinkMoved.xchgs (h : LinkMoved a b) : b.pollen.xchgs = a.pollen.xchgs := by
  obtain ⟨_, _, _, _, _, _, rfl⟩ := h
  rfl

theorem LinkMoved.queues (h : LinkMoved a b) : b.vault.queues = a.vault.queues := by
  obtain ⟨_, _, _, _, _, _, rfl⟩ := h
  rfl

theorem LinkMoved.vq (h : LinkMoved a b) (q : Nat) : b.vq q = a.vq q := Engine.vq_of_queues h.queues q

theorem LinkMoved.xchgOf (h : LinkMoved a b) (t i port : Nat) (tag : BitVec 8) : b.xchgOf t i port tag = a.xchgOf t i port tag := by
  unfold Engine.xchgOf
  rw [h.xchgs]

theorem LinkMoved.cut (h : LinkMoved a b) : b.cut = a.cut := by
  obtain ⟨_, _, _, _, _, _, rfl⟩ := h
  rfl

theorem LinkMoved.mayServe (h : LinkMoved a b) : b.mayServe = a.mayServe := by
  obtain ⟨_, _, _, _, _, _, rfl⟩ := h
  rfl

theorem LinkMoved.stateConds (h : LinkMoved a b) (r : Regs) (q : Nat) (t : TenantNo) (session : Option Nat) (hdr : VaultHdr) :
    b.stateConds r q t session hdr = a.stateConds r q t session hdr := by
  obtain ⟨_, _, _, _, _, _, rfl⟩ := h
  rfl

end

/-! ### Frames given to their rows -/

section
variable {s : State} {port t i : Nat} {f : Frame} {e : Engine}

/-- The frame is accepted, and in `e` its row begins. -/
structure Received (s : State) (port t i : Nat) (f : Frame) (e : Engine) : Prop where
  hasPort : s.kit.hasPort port = true
  accepted : LinkAccepted s port t i f e
  given : ∀ act, s.eng.receive s.kit s.regs ftVault port f act = act t i e

theorem received_of_frame (h : VaultFrameOf s port t i f) : ∃ e, Received s port t i f e := by
  obtain ⟨e, haccepted, hgiven⟩ := receive_vault h
  exact ⟨e, h.1, haccepted, hgiven⟩

theorem Received.heard (h : Received s port t i f e) : VaultHeard s port t i f e :=
  ⟨h.accepted.expects, h.accepted.moved.xchgs, h.accepted.moved.queues, h.accepted.moved.same⟩

theorem Received.takeFrame (h : Received s port t i f e) {sel : VaultHdr → Bool} (hsel : sel (vaultHdrOf f.bodyLo) = true)
    (act : Nat → Nat → VaultHdr → Engine → Engine) :
    s.eng.takeFrame s.kit s.regs port f sel act = act t i (vaultHdrOf f.bodyLo) e := by
  unfold Engine.takeFrame
  dsimp only
  rw [hsel, h.given]
  rfl

theorem Received.needs (h : Received s port t i f e) (g : Kit → Regs → Engine → Engine) :
    s.needs (s.kit.hasPort port) (State.eff g) = .next (withEng s (g s.kit s.regs s.eng)) := by
  rw [h.hasPort]
  rfl

/-! ### RESP and XFER_RDY of an exchange of this engine -/

/-- The engine with the exchange over. -/
def Engine.exchangeOver (x : Xchg) (e : Engine) : Engine := { e with pollen := { e.pollen with xchgs := e.pollen.xchgs.filter fun y => y != x } }

/-- What a RESP with `code` does when it ends the exchange `x` with slot `i` (R221, R224). -/
def Engine.answerExchange (k : Kit) (r : Regs) (i : Nat) (code : Code) (x : Xchg) (e : Engine) : Engine :=
  match x.use with
  | .cut op => if code = 0 then (e.exchangeOver x).ackOp k r (.peer i) op else (e.exchangeOver x).endCut k r 0x35
  | .closing id code plan result => (e.exchangeOver x).closingAnswered k r id code plan result
  | .over => e.exchangeOver x

theorem exec_resp (h : Received s port t i f e) (htype : (vaultHdrOf f.bodyLo).type = ptResp) {x : Xchg}
    (hx : s.eng.xchgOf t i port (vaultHdrOf f.bodyLo).tag = some x) :
    exec (.resp port f) s = .next (withEng s (e.answerExchange s.kit s.regs i (vaultHdrOf f.bodyLo).code x)) := by
  show execResp port f s = _
  unfold execResp
  rw [h.needs, h.takeFrame (by simp [htype])]
  simp only [h.accepted.moved.xchgOf, hx]
  rfl

theorem exec_xferRdy (h : Received s port t i f e) (htype : (vaultHdrOf f.bodyLo).type = ptXferRdy) {x : Xchg} {run : Running} {op : DestOp}
    (hx : s.eng.xchgOf t i port (vaultHdrOf f.bodyLo).tag = some x) (huse : x.use = .cut op) (hsent : x.dataSent = false)
    (hrun : s.eng.cut.run = some run) :
    let sent : List Xchg := updFirst (fun y => y == x) (fun y => { y with dataSent := true }) e.pollen.xchgs
    let y : Code × Engine := ({ e with pollen := { e.pollen with xchgs := sent } } : Engine).readOp s.kit s.regs run op
    exec (.xferRdy port f) s = .next (withEng s (if y.1 = 0 then y.2.forEach
      (dataPacketsOf x.tag opWrite (e.buddyFlags run.tenant op % 4) (e.windowOff run i op) (run.opBeats op))
      (fun z e => e.sendSeq s.regs t i port (vaultFrame z.1.word z.2)) else y.2.endCut s.kit s.regs y.1)) := by
  show execXferRdy port f s = _
  unfold execXferRdy
  rw [h.needs, h.takeFrame (by simp [htype])]
  simp only [h.accepted.moved.xchgOf, hx, h.accepted.moved.cut, hrun, hsent, huse]
  rfl

/-! ### Packets that answer no exchange -/

theorem exec_resp_stray (h : Received s port t i f e) (htype : (vaultHdrOf f.bodyLo).type = ptResp)
    (hx : s.eng.xchgOf t i port (vaultHdrOf f.bodyLo).tag = none) :
    exec (.resp port f) s = .next (withEng s (e.strayPacket s.kit s.regs port t i (vaultHdrOf f.bodyLo) f)) := by
  show execResp port f s = _
  unfold execResp
  rw [h.needs, h.takeFrame (by simp [htype])]
  simp only [h.accepted.moved.xchgOf, hx]

theorem exec_xferRdy_stray (h : Received s port t i f e) (htype : (vaultHdrOf f.bodyLo).type = ptXferRdy)
    (hx : s.eng.xchgOf t i port (vaultHdrOf f.bodyLo).tag = none) :
    exec (.xferRdy port f) s = .next (withEng s (e.strayPacket s.kit s.regs port t i (vaultHdrOf f.bodyLo) f)) := by
  show execXferRdy port f s = _
  unfold execXferRdy
  rw [h.needs, h.takeFrame (by simp [htype])]
  simp only [h.accepted.moved.xchgOf, hx]

/-- A stray packet for no command is counted (R291). -/
theorem Engine.strayPacket_none {q : VaultHdr}
    (hfind : ((e.vq (16 + port)).cmds.find? fun c => c.tag == q.tag && c.session == some (16 * t + i)) = none)
    (k : Kit) (r : Regs) : e.strayPacket k r port t i q f = e.bump Ctr.seqErrors 1 := by
  unfold Engine.strayPacket Engine.targetPacket
  simp only [hfind]

/-- A stray packet that is no DATA ends the command with its tag (R291). -/
theorem Engine.strayPacket_some {q : VaultHdr} {c : VCmd}
    (hfind : ((e.vq (16 + port)).cmds.find? fun c => c.tag == q.tag && c.session == some (16 * t + i)) = some c) (hans : c.answer = none)
    (htype : q.type ≠ ptData) (k : Kit) (r : Regs) :
    e.strayPacket k r port t i q f = (e.bump Ctr.seqErrors 1).finishCmd k r (16 + port) c [] 0x19 0 := by
  unfold Engine.strayPacket Engine.targetPacket
  simp only [hfind, hans, Option.isSome_none, Bool.false_eq_true, if_false]
  rw [if_pos (.inl htype)]

/-! ### Commands that frames carry -/

/-- The row of a command that a frame may carry takes it by its opcode; reads that find nothing are kept with one that waits. -/
theorem linkCommands_command (s : State) (port : Nat) (f : Frame) (h : s.kit.hasPort port = true) : ∀ y ∈ linkCommands port f,
    ∃ act, exec y.2 s = .next (withEng s (s.eng.command s.kit s.regs (.link port f) (isOp y.1) {} act)) := by
  have hneeds (g : Kit → Regs → Engine → Engine) :
      s.needs ((VaultSrc.link port f).wf s.kit) (State.eff g) = .next (withEng s (g s.kit s.regs s.eng)) := by
    show s.needs (s.kit.hasPort port) _ = _
    rw [h]
    rfl
  simp only [linkCommands, List.mem_cons, List.not_mem_nil, or_false, forall_eq_or_imp, forall_eq]
  exact ⟨⟨_, hneeds _⟩, ⟨_, hneeds _⟩, ⟨_, hneeds _⟩, ⟨_, hneeds _⟩, ⟨_, hneeds _⟩⟩

theorem Received.command (h : Received s port t i f e) {mine : VaultHdr → Bool} {reads : CmdReads} {act : Nat → VCmd → List MemBeat → Engine → Engine}
    (htype : (vaultHdrOf f.bodyLo).type = ptCmd) (hmine : mine (vaultHdrOf f.bodyLo) = true ∨ opDefined (vaultHdrOf f.bodyLo).opcode = false) :
    s.eng.command s.kit s.regs (.link port f) mine reads act =
      if s.eng.mayServe then e.acceptCmd s.kit s.regs (16 + port) (BitVec.ofNat 4 t) (some (16 * t + i)) (vaultHdrOf f.bodyLo) false f.beats
        fun c e => act (16 + port) c f.beats e
      else e.setVq (16 + port) { e.vq (16 + port) with held := (e.vq (16 + port)).held ++
        [{ session := 16 * t + i, hdr := f.bodyLo, payload := f.beats, reads := reads }] } := by
  have hsel : (vaultHdrOf f.bodyLo).type == ptCmd && (mine (vaultHdrOf f.bodyLo) || !opDefined (vaultHdrOf f.bodyLo).opcode) := by
    rcases hmine with hm | hm <;> simp [htype, hm]
  unfold Engine.command
  dsimp only
  rw [h.takeFrame hsel, h.accepted.moved.mayServe]

/-- What a CMD of the frame is judged by (R14, R294, R295). -/
def linkConds (s : State) (port t i : Nat) (f : Frame) : List (Bool × Code) :=
  (false, 0x11) :: fieldConds (vaultHdrOf f.bodyLo) f.beats ++
    s.eng.stateConds s.regs (16 + port) (BitVec.ofNat 4 t) (some (16 * t + i)) (vaultHdrOf f.bodyLo)

theorem Received.acceptCmd_refused (h : Received s port t i f e) {code : Code} (hj : judge (linkConds s port t i f) = some code)
    (act : VCmd → Engine → Engine) :
    e.acceptCmd s.kit s.regs (16 + port) (BitVec.ofNat 4 t) (some (16 * t + i)) (vaultHdrOf f.bodyLo) false f.beats act =
      (e.bump Ctr.cmdsFailed 1).sendPacket s.kit s.regs (16 + port) (some (16 * t + i))
        (respHdr (vaultHdrOf f.bodyLo).tag (vaultHdrOf f.bodyLo).opcode ((vaultHdrOf f.bodyLo).flags % 4) (vaultHdrOf f.bodyLo).offset 0 true
          code) [] := by
  unfold linkConds at hj
  unfold Engine.acceptCmd
  rw [h.accepted.moved.stateConds, hj]

theorem Received.acceptCmd_accepted (h : Received s port t i f e) (hn : NoneHolds (linkConds s port t i f)) (act : VCmd → Engine → Engine) :
    e.acceptCmd s.kit s.regs (16 + port) (BitVec.ofNat 4 t) (some (16 * t + i)) (vaultHdrOf f.bodyLo) false f.beats act =
      act (e.newCmd (BitVec.ofNat 4 t) (some (16 * t + i)) (vaultHdrOf f.bodyLo))
        (e.ordered.onCmds (16 + port) fun cs => cs ++ [e.newCmd (BitVec.ofNat 4 t) (some (16 * t + i)) (vaultHdrOf f.bodyLo)]) := by
  have hj := judge_none.mpr hn
  unfold linkConds at hj
  unfold Engine.acceptCmd
  rw [h.accepted.moved.stateConds, hj]

/-- A CMD of a frame that no condition refuses is in flight, and given to its row, once a steward serves (R294, R354). -/
theorem Received.command_accepted (h : Received s port t i f e) {mine : VaultHdr → Bool} {reads : CmdReads}
    {act : Nat → VCmd → List MemBeat → Engine → Engine} (htype : (vaultHdrOf f.bodyLo).type = ptCmd) (hmine : mine (vaultHdrOf f.bodyLo) = true)
    (hserve : s.eng.mayServe = true) (hn : NoneHolds (linkConds s port t i f)) :
    s.eng.command s.kit s.regs (.link port f) mine reads act =
      act (16 + port) (e.newCmd (BitVec.ofNat 4 t) (some (16 * t + i)) (vaultHdrOf f.bodyLo)) f.beats
        (e.ordered.onCmds (16 + port) fun cs => cs ++ [e.newCmd (BitVec.ofNat 4 t) (some (16 * t + i)) (vaultHdrOf f.bodyLo)]) := by
  rw [h.command htype (.inl hmine), if_pos hserve, h.acceptCmd_accepted hn]

end

end Sys2Proof.Machine


/-!
PROOFS. Exchanges of the vault (12_vault).
-/

namespace Sys2Proof

open Machine

section
variable {s : State} {port t i : Nat} {f : Frame} {e : Engine}

/-! ### The rows of the commands that frames carry -/

/-- The CMD of a received frame, with no condition against it, once a steward serves (R294, R354). -/
structure LinkStart (s : State) (port t i : Nat) (f : Frame) (e : Engine) : Prop where
  received : Received s port t i f e
  type : (vaultHdrOf f.bodyLo).type = ptCmd
  serve : s.eng.mayServe = true
  accepted : NoneHolds (linkConds s port t i f)

theorem needs_link (h : s.kit.hasPort port = true) (g : Kit → Regs → Engine → Engine) :
    s.needs ((VaultSrc.link port f).wf s.kit) (State.eff g) = .next (withEng s (g s.kit s.regs s.eng)) := by
  show s.needs (s.kit.hasPort port) _ = _
  rw [h]
  rfl

/-- The command of the frame. -/
def linkCmd (t i : Nat) (f : Frame) (e : Engine) : VCmd := e.newCmd (BitVec.ofNat 4 t) (some (16 * t + i)) (vaultHdrOf f.bodyLo)

/-- The engine with it in flight. -/
def linkFlight (port t i : Nat) (f : Frame) (e : Engine) : Engine := e.ordered.onCmds (16 + port) fun cs => cs ++ [linkCmd t i f e]

theorem LinkStart.write (h : LinkStart s port t i f e) (hop : (vaultHdrOf f.bodyLo).opcode = opWrite) :
    exec (.write (.link port f)) s = .next (withEng s (linkFlight port t i f e)) := by
  show execWrite (.link port f) s = _
  unfold execWrite
  rw [needs_link h.received.hasPort, h.received.command_accepted h.type (by simp [isOp, hop]) h.serve h.accepted]
  rfl

theorem LinkStart.read (h : LinkStart s port t i f e) (window : List LineRead) (hop : (vaultHdrOf f.bodyLo).opcode = opRead) :
    exec (.read (.link port f) window {}) s =
      .next (withEng s ((linkFlight port t i f e).serveRead s.kit s.regs (16 + port) (linkCmd t i f e) window)) := by
  have hstrike (e : Engine) : e.strike {} = e := rfl
  show execRead (.link port f) window {} s = _
  unfold execRead
  simp only [hstrike]
  rw [needs_link h.received.hasPort, h.received.command_accepted h.type (by simp [isOp, hop]) h.serve h.accepted]
  rfl

theorem LinkStart.flush (h : LinkStart s port t i f e) (hop : (vaultHdrOf f.bodyLo).opcode = opFlush) :
    exec (.flush (.link port f)) s =
      .next (withEng s ((linkFlight port t i f e).beginFlush s.kit s.regs (16 + port) (linkCmd t i f e) none)) := by
  show execFlush (.link port f) s = _
  unfold execFlush
  rw [needs_link h.received.hasPort, h.received.command_accepted h.type (by simp [isOp, hop]) h.serve h.accepted]
  rfl

theorem LinkStart.verify (h : LinkStart s port t i f e) (window : List LineRead) (faults : List CoreFault)
    (hop : (vaultHdrOf f.bodyLo).opcode = opVerify) :
    exec (.verify (.link port f) window faults) s = .next (withEng s ((linkFlight port t i f e).serveVerify s.kit s.regs (16 + port)
      (linkCmd t i f e) f.beats { window := window, faults := faults })) := by
  show execVerify (.link port f) window faults s = _
  unfold execVerify
  dsimp only
  rw [needs_link h.received.hasPort, h.received.command_accepted h.type (by simp [isOp, hop]) h.serve h.accepted]
  rfl

theorem LinkStart.identify (h : LinkStart s port t i f e) (hop : (vaultHdrOf f.bodyLo).opcode = opIdentify) :
    exec (.identify (.link port f)) s =
      .next (withEng s ((linkFlight port t i f e).serveIdentify s.kit s.regs (16 + port) (linkCmd t i f e))) := by
  show execIdentify (.link port f) s = _
  unfold execIdentify
  rw [needs_link h.received.hasPort, h.received.command_accepted h.type (by simp [isOp, hop]) h.serve h.accepted]
  rfl

end

/-- Settles O57: XFER_RDY and timeouts on the side of the target, DATA of host queues, and the packets of accepted frames. -/
theorem vaultExchangesMove : Obligations.VaultExchangesMove := by
  unfold Obligations.VaultExchangesMove
  refine ⟨fun s queue c => ⟨fun hfound hsession hchoice hroom => ?ready, fun n hfound hsession hage => ?timeout⟩,
    ?data, ?frames⟩
  case ready =>
    obtain ⟨chosen, hchoice⟩ := hchoice
    exact xferRdySend_granted ⟨hfound, hsession, hchoice, hroom⟩
  case timeout =>
    obtain ⟨e, hended, hquiet, htold⟩ := exchangeTimeout_ends hfound hsession hage
    exact ⟨e, hended.cmds, hended.counter, hended.same, hquiet, htold⟩
  case data =>
    intro s queue p rest c q v h got gone a hpackets hactive hsched htype hfound hready hwaiting hans hsession hpayload
    have hdata : DataFor s q p rest c := ⟨hpackets, hactive, hsched, htype, hfound, hready, hwaiting, hans, hsession, hpayload⟩
    refine ⟨fun hoff hlen hlast => data_staged hdata hoff hlen hlast, fun hclear => ⟨fun hoff => data_displaced hdata hclear hoff,
      fun hoff hlen hlast => ⟨fun hop => data_downloaded hdata hclear hoff hlen hlast hop,
        fun hop hfua hclean => data_written hdata hclear hoff hlen hlast hop hfua hclean⟩⟩⟩
  case frames =>
    intro s port t i f h q mine hframe
    obtain ⟨e, he⟩ := received_of_frame hframe
    refine ⟨e, he.heard, fun x hx => ⟨fun hresp => ?answers, fun op run hrdy huse hsent hrun => exec_xferRdy he hrdy hx huse hsent hrun⟩,
      fun hx y hy htype => ?stray, fun hcmd => ⟨fun window upsets => rfl, fun y hy hop hserve => ?held, fun code y hy hop hserve hj => ?refused,
        fun hserve hn => ?started⟩⟩
    case answers =>
      have hexec := exec_resp he hresp hx
      unfold Engine.answerExchange at hexec
      refine ⟨fun op huse => ?_, fun id code plan result huse => ?_, fun huse => ?_⟩
      · rw [huse] at hexec
        exact hexec
      · rw [huse] at hexec
        exact hexec
      · rw [huse] at hexec
        exact hexec
    case stray =>
      have hexec : exec y.2 s = .next (withEng s (e.strayPacket s.kit s.regs port t i h f)) ∧ h.type ≠ ptData := by
        rcases List.mem_cons.mp hy with rfl | hy
        · exact ⟨exec_resp_stray he htype hx, fun hd => (by decide : ptResp ≠ ptData) (htype.symm.trans hd)⟩
        · obtain rfl := List.mem_singleton.mp hy
          exact ⟨exec_xferRdy_stray he htype hx, fun hd => (by decide : ptXferRdy ≠ ptData) (htype.symm.trans hd)⟩
      obtain ⟨hexec, hdata⟩ := hexec
      have hvq := he.accepted.moved.vq q
      refine ⟨fun hfind => ?_, fun c hfind hans => ?_⟩
      · rw [Engine.strayPacket_none (by rw [show 16 + port = q from rfl, hvq]; exact hfind)] at hexec
        exact hexec
      · rw [Engine.strayPacket_some (by rw [show 16 + port = q from rfl, hvq]; exact hfind) hans hdata] at hexec
        exact hexec
    case held =>
      obtain ⟨act, hexec⟩ := linkCommands_command s port f he.hasPort y hy
      rw [he.command hcmd (hop.imp_left fun hop => by simpa [isOp] using hop), hserve] at hexec
      exact hexec
    case refused =>
      obtain ⟨act, hexec⟩ := linkCommands_command s port f he.hasPort y hy
      rw [he.command hcmd (hop.imp_left fun hop => by simpa [isOp] using hop), hserve, if_pos rfl, he.acceptCmd_refused hj] at hexec
      exact hexec
    case started =>
      have hstart : LinkStart s port t i f e := ⟨he, hcmd, hserve, hn⟩
      exact ⟨hstart.write, hstart.read, hstart.flush, hstart.verify, hstart.identify⟩

end Sys2Proof

/-!
PROOFS. What the pipeline changes when it reads staged lines and makes the chunks of a stream (R20, R119, R120, R140, R230, R231).
-/

namespace Sys2Proof.Machine

/-! ### Groups and tables -/

/-- What reading front lines may change: counters, faults, and the lines that are corrected or poisoned. -/
abbrev stagedGroups : List Grp := [.count, .front, .fox, .draws, .cycle]

/-- What making a chunk of a stream may change. -/
abbrev chunkGroups : List Grp := [.streams, .count, .front, .fox, .draws, .cycle]

theorem same_streams (e : Engine) (x : Streams) : Same [.streams] e { e with streams := x } := by simp [Same]

theorem same_setStream (n : Nat) (v : Stream) (e : Engine) : Same [.streams] e (e.setStream n v) := same_streams e _

theorem stream_of_same {gs : List Grp} {a b : Engine} (h : Same gs a b) (hg : Grp.streams ∉ gs) (n : Nat) : b.stream n = a.stream n := by
  unfold Engine.stream
  rw [h.groups.streams.resolve_left hg]

theorem tabSet_tabSet {α : Type} (k : Nat) (x y : α) (t : Tab α) : tabSet k x (tabSet k y t) = tabSet k x t := by
  induction t with
  | nil => simp [tabSet]
  | cons p t ih =>
    obtain ⟨j, w⟩ := p
    by_cases hj : j = k
    · simp [tabSet, hj]
    · by_cases hk : k < j
      · simp [tabSet, hj, hk]
      · simp [tabSet, hj, hk, ih]

theorem Engine.setStream_setStream (n : Nat) (v w : Stream) (e : Engine) : (e.setStream n w).setStream n v = e.setStream n v := by
  unfold Engine.setStream
  dsimp only
  rw [tabSet_tabSet]

/-! ### Staged lines are read (R119, R120) -/

theorem same_readFault (k : Kit) (r : Regs) (ctr src : Nat) (t : Option TenantNo) (e : Engine) :
    Same stagedGroups e (((e.drewN 1).bump ctr 1).raise k r src t) := by
  have hdrew : Same stagedGroups e (e.drewN 1) := by simp [Same, Engine.drewN]
  exact (hdrew.trans ((same_bump _ _ _).mono (by decide))).trans ((same_raise ..).mono (by decide))

theorem same_readFront_staged (k : Kit) (r : Regs) (f : FrontLine) (e : Engine) : Same stagedGroups e (e.readFront k r f).2.2 := by
  unfold Engine.readFront
  split
  · exact Same.refl _ e
  · exact (same_readFault k r _ _ _ e).trans ((same_front _ _).mono (by decide))
  · exact (same_readFault k r _ _ _ e).trans ((same_front _ _).mono (by decide))

/-- What holds of the engine and is kept by the read of each of the lines holds when all are read. -/
theorem Engine.pipeRead_keeps {k : Kit} {r : Regs} {p : Engine → Prop} {ls : List FrontLine}
    (h : ∀ l ∈ ls, ∀ e, p e → p (e.readFront k r l).2.2) {e : Engine} (he : p e) : p (e.pipeRead k r ls).2 := by
  unfold Engine.pipeRead
  exact List.foldlRecOn (motive := fun x : Code × Engine => p x.2) ls _ he fun x hx l hl => h l hl x.2 hx

theorem same_pipeRead (k : Kit) (r : Regs) (ls : List FrontLine) (e : Engine) : Same stagedGroups e (e.pipeRead k r ls).2 :=
  Engine.pipeRead_keeps (p := Same stagedGroups e) (fun l _ _ ha => ha.trans (same_readFront_staged k r l _)) (Same.refl _ e)

/-- Lines without bit errors are read without a trace. -/
theorem Engine.pipeRead_clean (k : Kit) (r : Regs) {ls : List FrontLine} (h : ∀ l ∈ ls, l.flips = []) (e : Engine) :
    (e.pipeRead k r ls).2 = e :=
  Engine.pipeRead_keeps (p := fun a => a = e) (fun l hl a ha => by rw [Engine.readFront_clean k r (h l hl)]; exact ha) rfl

theorem same_readStaged (k : Kit) (r : Regs) (n : Nat) (lines : List Nat) (e : Engine) :
    Same stagedGroups e (e.readStaged k r n lines).2.2 := same_pipeRead ..

theorem Engine.readStaged_nil (k : Kit) (r : Regs) (n : Nat) (e : Engine) : e.readStaged k r n [] = ([], 0, e) := by
  unfold Engine.readStaged
  rw [List.filter_eq_nil_iff.mpr]
  · rfl
  · intro l _
    cases l.key <;> simp

/-- One staged line without bit errors and without the marker is read as it stands. -/
theorem Engine.readStaged_one (k : Kit) (r : Regs) {n i : Nat} {f : FrontLine} {e : Engine} (hf : e.front.find (.stream n i) = some f)
    (hclean : ∀ l ∈ e.front.lines, l.key = .stream n i → l.flips = []) : ∃ code,
    e.readStaged k r n [i] = ([(i, { data := f.line.data, poison := f.line.poison })], code, e) := by
  unfold Engine.readStaged
  dsimp only
  rw [Engine.pipeRead_clean]
  · simp only [List.filterMap_cons, List.filterMap_nil, hf, Option.map_some]
    exact ⟨_, rfl⟩
  · intro l hl
    obtain ⟨hl, hkey⟩ := List.mem_filter.mp hl
    refine hclean l hl ?_
    cases hk : l.key with
    | stream m j =>
      rw [hk] at hkey
      simp only [List.contains_cons, List.contains_nil, Bool.or_false, Bool.and_eq_true, beq_iff_eq] at hkey
      rw [hkey.1, hkey.2]
    | _ => simp [hk] at hkey

/-! ### The pipeline takes lines and a seed -/

/-- Lines taken stand among those that the stream has read. -/
theorem Engine.takeLines_got (k : Kit) (r : Regs) (n : Nat) (lines : List Nat) (v : Stream) (e : Engine) :
    ∃ got code a, e.takeLines k r n lines v = ({ v with got := got }, code, a) ∧ Same stagedGroups e a :=
  ⟨_, _, _, rfl, same_readStaged ..⟩

theorem Engine.takeLines_read (k : Kit) (r : Regs) (n : Nat) {lines : List Nat} {v : Stream} (h : ∀ i ∈ lines, (tabFind i v.got).isSome = true)
    (e : Engine) : e.takeLines k r n lines v = (v, 0, e) := by
  have hnone : lines.filter (fun i => (tabFind i v.got).isNone) = [] := by
    rw [List.filter_eq_nil_iff]
    intro i hi
    simp [Option.isNone_iff_eq_none, Option.isSome_iff_ne_none.mp (h i hi)]
  unfold Engine.takeLines
  rw [hnone, Engine.readStaged_nil]
  rfl

/-- A seed once taken stands; a SPILL has one from then on (R65). -/
theorem Engine.seedStream_seed (v : Stream) (e : Engine) : ∃ seed a, e.seedStream v = ({ v with seed := seed }, a) ∧
    (v.seed.isSome = true → seed = v.seed) ∧ (v.spill = true → seed.isSome = true) ∧ Same [.draws] e a := by
  unfold Engine.seedStream
  split
  next h =>
    refine ⟨v.seed, e, rfl, fun _ => rfl, fun hs => ?_, Same.refl _ e⟩
    simpa [hs] using h
  next h =>
    refine ⟨_, _, rfl, fun hv => absurd hv (by simp_all), fun _ => rfl, ?_⟩
    unfold Engine.seedOf
    split
    · exact Same.refl _ e
    · split
      · exact Same.refl _ e
      · simp [Same, Engine.drawn]

/-! ### A chunk is made -/

theorem same_countEncoded (t : Nat) (modes : List SlotMode) (w : Nat) (e : Engine) : Same [.count] e (e.countEncoded t modes w) := by
  simp [Same, Engine.countEncoded]

theorem same_countSpill (c : Nat) (out : List (Nat × MemBeat)) (v : Stream) (e : Engine) : Same [.count] e (e.countSpill c out v) := by
  unfold Engine.countSpill
  dsimp only
  split
  · exact ((same_countEncoded ..).trans (same_bump ..)).trans (same_bump ..)
  · exact (((((same_countEncoded ..).trans (same_bump ..)).trans (same_bump ..)).trans (same_bump ..)).trans (same_bump ..)).trans (same_bump ..)

theorem same_countRefill (key : BitVec 512) (c : Nat) (v : Stream) (e : Engine) : Same [.count] e (e.countRefill key c v) := by
  unfold Engine.countRefill
  dsimp only
  split
  · exact (((same_bump ..).trans (same_bump ..)).trans (same_bump ..)).trans (same_bump ..)
  · exact same_bump ..

/-- The stream `v` once its chunk `c` is made: its output waits to be written behind what waited. -/
structure ChunkMade (c : Nat) (v w : Stream) : Prop where
  made : w.made = c :: v.made
  toWrite : ∃ more, w.toWrite = v.toWrite ++ more
  state : w.state = v.state
  table : w.table = v.table
  seed : v.seed.isSome = true → w.seed = v.seed

theorem Engine.makeChunk_made {n : Nat} {v : Stream} {e : Engine} (hv : e.stream n = some v) (k : Kit) (r : Regs) (c : Nat) :
    ∃ w a, ChunkMade c v w ∧ Same stagedGroups e a ∧ Same [.count] (a.setStream n w) (e.makeChunk k r n c) := by
  obtain ⟨got, code, a, htake, hread⟩ := Engine.takeLines_got k r n (v.needs c) v e
  obtain ⟨seed, b, hseed, hkeep, -, hdrawn⟩ := Engine.seedStream_seed { v with got := got } a
  have hmade := hread.trans (hdrawn.mono (by decide))
  unfold Engine.makeChunk
  simp only [hv, htake, hseed]
  split
  · refine ⟨_, b, ?_, hmade, same_countSpill ..⟩
    exact ⟨rfl, ⟨_, rfl⟩, rfl, rfl, hkeep⟩
  · refine ⟨_, b, ?_, hmade, same_countRefill ..⟩
    exact ⟨rfl, ⟨_, rfl⟩, rfl, rfl, hkeep⟩

/-! ### Work on one stream -/

/-- Only the stream `n` has gone on between `a` and `b`, in the state that it was in, with the table and the seed that it had. -/
structure WorkedOn (n : Nat) (a b : Engine) : Prop where
  same : Same chunkGroups a b
  others : ∀ m, m ≠ n → b.stream m = a.stream m
  held : ∀ v, a.stream n = some v → ∃ w, b.stream n = some w ∧ w.state = v.state ∧ w.table = v.table ∧ (v.seed.isSome = true → w.seed = v.seed)

theorem WorkedOn.refl (n : Nat) (e : Engine) : WorkedOn n e e := ⟨Same.refl _ e, fun _ _ => rfl, fun v hv => ⟨v, hv, rfl, rfl, fun _ => rfl⟩⟩

theorem WorkedOn.trans {n : Nat} {a b c : Engine} (h : WorkedOn n a b) (h' : WorkedOn n b c) : WorkedOn n a c where
  same := h.same.trans h'.same
  others := fun m hm => (h'.others m hm).trans (h.others m hm)
  held := fun v hv => by
    obtain ⟨w, hw, hstate, htable, hseed⟩ := h.held v hv
    obtain ⟨x, hx, hstate', htable', hseed'⟩ := h'.held w hw
    refine ⟨x, hx, hstate'.trans hstate, htable'.trans htable, fun hs => ?_⟩
    have hws := hseed hs
    exact (hseed' (hws ▸ hs)).trans hws

theorem WorkedOn.forEach {n : Nat} {α : Type} {f : α → Engine → Engine} (h : ∀ x e, WorkedOn n e (f x e)) (xs : List α) (e : Engine) :
    WorkedOn n e (e.forEach xs f) := by
  induction xs generalizing e with
  | nil => exact WorkedOn.refl n e
  | cons x xs ih => exact (h x e).trans (ih (f x e))

/-- The chunk made: the stream with it, and nothing else but what reading and counting change. -/
theorem Engine.makeChunk_held {n : Nat} {v : Stream} {e : Engine} (hv : e.stream n = some v) (k : Kit) (r : Regs) (c : Nat) :
    Same chunkGroups e (e.makeChunk k r n c) ∧ (∀ m, m ≠ n → (e.makeChunk k r n c).stream m = e.stream m) ∧
      ∃ w, (e.makeChunk k r n c).stream n = some w ∧ ChunkMade c v w := by
  obtain ⟨w, a, hw, hread, hcount⟩ := Engine.makeChunk_made hv k r c
  have hstream (m : Nat) : (e.makeChunk k r n c).stream m = (a.setStream n w).stream m := stream_of_same hcount (by decide) m
  refine ⟨((hread.mono (by decide)).trans ((same_setStream ..).mono (by decide))).trans (hcount.mono (by decide)), fun m hm => ?_,
    w, (hstream n).trans (Engine.stream_setStream_same ..), hw⟩
  exact ((hstream m).trans (Engine.stream_setStream_ne hm ..)).trans (stream_of_same hread (by decide) m)

theorem workedOn_makeChunk (k : Kit) (r : Regs) (n c : Nat) (e : Engine) : WorkedOn n e (e.makeChunk k r n c) := by
  cases hv : e.stream n with
  | none =>
    have hidle : e.makeChunk k r n c = e := by
      unfold Engine.makeChunk
      rw [hv]
    rw [hidle]
    exact WorkedOn.refl n e
  | some v =>
    obtain ⟨hsame, hothers, w, hw, hmade⟩ := Engine.makeChunk_held hv k r c
    refine ⟨hsame, hothers, fun x hx => ?_⟩
    obtain rfl := Option.some.inj (hv.symm.trans hx)
    exact ⟨w, hw, hmade.state, hmade.table, hmade.seed⟩

theorem workedOn_makeReady (k : Kit) (r : Regs) (n : Nat) (e : Engine) : WorkedOn n e (e.makeReady k r n) := by
  unfold Engine.makeReady
  split
  · exact WorkedOn.refl n e
  · refine WorkedOn.forEach (fun c e => ?_) _ e
    split
    · split
      · exact workedOn_makeChunk ..
      · exact WorkedOn.refl n e
    · exact WorkedOn.refl n e

end Sys2Proof.Machine


/-!
PROOFS. A stream at its turn, its table, its chunk at a lane (R24, R143, R145, R155, R157, R237 to R239).
-/

namespace Sys2Proof.Machine

/-! ### The turn of a running stream (R237 to R239) -/

section
variable {k : Kit} {r : Regs} {n : Nat} {v : Stream} {e : Engine}

/-- The winner writes before it reads. -/
theorem Engine.serveStream_write (hwin : e.winner k r = some n) (hw : e.streamWriteCause k v = some 0) : e.serveStream k r n v =
    ({ e with streams := { e.streams with turn := if v.descr.due0 = 2 ^ 64 - 1 then n else e.streams.turn } } : Engine).issueWrite k n
      { v with cause := 0 } := by
  unfold Engine.serveStream
  simp only [hw, hwin, true_or, if_true, ne_eq, not_true_eq_false, if_false]

theorem Engine.serveStream_read (hwin : e.winner k r = some n) (hw : e.streamWriteCause k v ≠ some 0) (hq : e.streamReadCause k r v = some 0) :
    e.serveStream k r n v =
      ({ e with streams := { e.streams with turn := if v.descr.due0 = 2 ^ 64 - 1 then n else e.streams.turn } } : Engine).issueRead k n
        { v with cause := 0 } := by
  unfold Engine.serveStream
  simp only [hw, hq, hwin, or_true, if_true, ne_eq, not_true_eq_false, if_false]

/-- A stream that could issue and is not granted counts the MEM share (log 89). -/
theorem Engine.serveStream_lost (hwin : e.winner k r ≠ some n) (hable : e.streamWriteCause k v = some 0 ∨ e.streamReadCause k r v = some 0) :
    e.serveStream k r n v = e.stall n 7 := by
  unfold Engine.serveStream
  simp only [hable, hwin, if_true, ne_eq, not_false_eq_true]
  rfl

/-- A write that a cause other than an undrained granule holds counts it, when no chunk waits for a lane. -/
theorem Engine.serveStream_held {c : Nat} (hq : e.streamReadCause k r v = none) (hw : e.streamWriteCause k v = some c) (h0 : c ≠ 0) (h3 : c ≠ 3)
    (hlane : ∀ i, i < v.chunks → i ∉ v.made → e.chunkStaged n i v = false) : e.serveStream k r n v = e.stall n c := by
  have hwaits : ((List.range v.chunks).any fun i => !v.made.contains i && e.chunkStaged n i v) = false := by
    rw [List.any_eq_false]
    intro i hi
    by_cases hm : i ∈ v.made
    · simp [hm]
    · simp [hlane i (List.mem_range.mp hi) hm]
  have hcause : (topCause (topCause (some c) none) none).getD 0 = c := rfl
  unfold Engine.serveStream
  simp only [hq, hw, hwaits, Bool.false_eq_true, if_false, hcause, Option.some.injEq, h0, h3, reduceCtorEq, or_self]

end

/-! ### The rows that name a held stream -/

section
variable {s : State} {stream : BitVec 9} {v : Stream}

theorem exec_streamFenceRelease_fenced (hv : s.eng.stream stream.toNat = some v) (hstate : v.state = .fenced)
    (hfree : s.eng.fenceHolds v.tenant v.descr.layer v.order = false) :
    exec (.streamFenceRelease stream) s = .next (withEng s (s.eng.setStream stream.toNat { v with state := .running, cause := 0 })) := by
  show execStreamFenceRelease stream s = _
  unfold execStreamFenceRelease
  rw [State.eff_eq]
  simp [hv, hstate, hfree, withEng]

theorem exec_streamChunkIssue_fenced (hv : s.eng.stream stream.toNat = some v) (hsched : s.eng.scheduling = true) (hstate : v.state = .fenced)
    (faults : List CoreFault) : exec (.streamChunkIssue ⟨stream, faults⟩) s = .next (withEng s (s.eng.stall stream.toNat 1)) := by
  show execStreamChunkIssue ⟨stream, faults⟩ s = _
  unfold execStreamChunkIssue
  rw [State.eff_eq]
  simp [hv, hsched, hstate, withEng]

theorem exec_streamChunkIssue_halted (hv : s.eng.stream stream.toNat = some v) (hsched : s.eng.scheduling = true) (hstate : v.state = .halted)
    (faults : List CoreFault) : exec (.streamChunkIssue ⟨stream, faults⟩) s = .next (withEng s (s.eng.stall stream.toNat 2)) := by
  show execStreamChunkIssue ⟨stream, faults⟩ s = _
  unfold execStreamChunkIssue
  rw [State.eff_eq]
  simp [hv, hsched, hstate, withEng]

theorem exec_streamChunkIssue_running (hv : s.eng.stream stream.toNat = some v) (hsched : s.eng.scheduling = true) (hstate : v.state = .running)
    (faults : List CoreFault) :
    exec (.streamChunkIssue ⟨stream, faults⟩) s = .next (withEng s (s.eng.serveStream s.kit s.regs stream.toNat v)) := by
  show execStreamChunkIssue ⟨stream, faults⟩ s = _
  unfold execStreamChunkIssue
  rw [State.eff_eq]
  simp [hv, hsched, hstate, withEng]

theorem exec_tableReady_spill (hv : s.eng.stream stream.toNat = some v) (htable : v.table = none) (hrate : (rateGeom v.rate).isSome = true)
    (hstate : v.state = .running) (hspill : v.spill = true) :
    exec (.tableReady stream) s = .next (withEng s (s.eng.spillTable s.kit s.regs stream.toNat v)) := by
  show execTableReady stream s = _
  unfold execTableReady
  rw [State.eff_eq]
  simp [hv, htable, Option.isSome_iff_ne_none.mp hrate, hstate, hspill, withEng]

theorem exec_tableReady_refill (hv : s.eng.stream stream.toNat = some v) (htable : v.table = none) (hrate : (rateGeom v.rate).isSome = true)
    (hstate : v.state = .running) (hspill : v.spill = false) :
    exec (.tableReady stream) s = .next (withEng s (s.eng.refillTable s.kit s.regs stream.toNat v)) := by
  show execTableReady stream s = _
  unfold execTableReady
  rw [State.eff_eq]
  simp [hv, htable, Option.isSome_iff_ne_none.mp hrate, hstate, hspill, withEng]

/-- The kind of lane that the chunks of a stream take. -/
def Stream.lane (v : Stream) : UnitKind := if v.spill then .enc else .dec

theorem Stream.lane_enc (v : Stream) : (v.lane == .enc) = v.spill := by
  unfold Stream.lane
  cases v.spill <;> rfl

theorem exec_codecChunkStart_busy {lanes : LaneTurn} (hv : s.eng.stream stream.toNat = some v)
    (hidle : s.eng.units.idleLane v.lane lanes.busy = none) (chunk : Nat) : exec (.codecChunkStart (.stream stream) chunk lanes) s = .next s := by
  unfold Stream.lane at hidle
  show execCodecChunkStart (.stream stream) chunk lanes s = _
  unfold execCodecChunkStart
  rw [State.eff_eq]
  simp only [hv, hidle]

theorem exec_codecChunkStart_idle {lanes : LaneTurn} {l : Nat} (hv : s.eng.stream stream.toNat = some v)
    (hidle : s.eng.units.idleLane v.lane lanes.busy = some l) (chunk : Nat) :
    exec (.codecChunkStart (.stream stream) chunk lanes) s =
      .next (withEng s (s.eng.laneStream s.kit s.regs v.lane stream.toNat chunk l lanes.mismatch)) := by
  unfold Stream.lane at hidle ⊢
  show execCodecChunkStart (.stream stream) chunk lanes s = _
  unfold execCodecChunkStart
  rw [State.eff_eq]
  simp only [hv, hidle]
  rfl

theorem exec_streamCtrlResume_open {value : Word} (hopen : s.eng.cfgOpen = true) :
    exec (.streamCtrlResume value) s = .next (driven (withEng s (s.eng.streamCtrl s.kit s.regs value)) [.cfgDone]) := by
  show execStreamCtrlResume value s = _
  unfold execStreamCtrlResume State.effCfg
  rw [State.eff_eq]
  simp only [hopen, if_true]
  rfl

end

/-! ### The table (R143, R145) -/

/-- The table of a SPILL is made from its sample, under the seed that stays its own. -/
theorem Engine.spillTable_made {n : Nat} {v : Stream} {e : Engine} (hspill : v.spill = true)
    (hdraw : v.seed.isSome = true ∨ needsDraw v.steps = false ∨ e.units.noise = .healthy)
    (hgot : ∀ i ∈ v.needs (v.planeDep (min 63 (v.shape.planeLines v.units - 1))), (tabFind i v.got).isSome = true) (k : Kit) (r : Regs) :
    ∃ w a, e.spillTable k r n v = (a.setStream n w).makeReady k r n ∧ Same [.draws] e a ∧ w.state = v.state ∧ w.seed.isSome = true ∧
      w.table = some (codeLengths v.shape.outFmt.width (((runPlane v.steps (w.seed.getD 0) v.source).take 64).map fun b => b.data)) := by
  have hstaged : e.chunkStaged n (v.planeDep (min 63 (v.shape.planeLines v.units - 1))) v = true := by
    unfold Engine.chunkStaged
    rw [List.all_eq_true]
    exact fun i hi => by simp [hgot i hi]
  have hmay : (v.seed.isSome || !needsDraw v.steps || e.mayDraw) = true := by
    unfold Engine.mayDraw
    rcases hdraw with h | h | h <;> simp [h]
  obtain ⟨seed, a, hseed, -, hsome, hdrawn⟩ := Engine.seedStream_seed v e
  unfold Engine.spillTable
  simp only [hstaged, hmay, Engine.takeLines_read k r n hgot, hseed, Bool.not_true, Bool.or_false, Bool.false_eq_true, if_false]
  exact ⟨_, a, rfl, hdrawn, rfl, hsome hspill, rfl⟩

/-- A REFILL's stream with its table line read. -/
def Stream.withTableLine (b : MemBeat) (v : Stream) : Stream := { v with got := tabSet 0 b v.got }

theorem Stream.line_withTableLine (b : MemBeat) (v : Stream) : (v.withTableLine b).line 0 = b := by
  unfold Stream.line Stream.withTableLine
  rw [tabFind_set_same]
  rfl

theorem Stream.unseal_poison (key : BitVec 512) (n : Nat) (b : MemBeat) (v : Stream) : (v.unseal key n b).poison = b.poison := by
  unfold Stream.unseal
  split <;> rfl

/-- The table line of a REFILL, read without an error and without the marker, gives its table or ends the job with 0x23. -/
theorem Engine.refillTable_read {n : Nat} {v : Stream} {f : FrontLine} {e : Engine} (hnew : tabFind 0 v.got = none)
    (hf : e.front.find (.stream n 0) = some f) (hclean : ∀ l ∈ e.front.lines, l.key = .stream n 0 → l.flips = []) (hpoison : f.line.poison = false)
    (k : Kit) (r : Regs) : let b : MemBeat := { data := f.line.data, poison := false }
    let found := readTable v.fmt v.rate (v.unseal (e.sealKey v.tenant) 0 b).data
    (∀ ls, found = some ls → e.refillTable k r n v = e.setStream n { v.withTableLine b with table := some ls }) ∧
    (found = none → e.refillTable k r n v =
      ((e.setStream n (v.withTableLine b)).bump (Ctr.decodeErrors v.tenant.toNat) 1).endStream k r n 0x23) := by
  intro b found
  obtain ⟨code, hread⟩ := Engine.readStaged_one k r hf hclean
  have htake : e.takeLines k r n [0] v = (v.withTableLine b, code, e) := by
    unfold Engine.takeLines
    simp only [List.filter_cons, hnew, Option.isNone_none, if_true, List.filter_nil, hread, hpoison]
    rfl
  have hstaged : e.isStaged n 0 = true := by
    unfold Engine.isStaged
    rw [hf]
    rfl
  have hkey : (e.setStream n (v.withTableLine b)).sealKey (v.withTableLine b).tenant = e.sealKey v.tenant := rfl
  have hplain : (v.withTableLine b).unseal (e.sealKey v.tenant) 0 b = v.unseal (e.sealKey v.tenant) 0 b := rfl
  have hmark : (v.unseal (e.sealKey v.tenant) 0 b).poison = false := Stream.unseal_poison ..
  have hformat : readTable (v.withTableLine b).fmt (v.withTableLine b).rate (v.unseal (e.sealKey v.tenant) 0 b).data = found := rfl
  unfold Engine.refillTable
  simp only [hstaged, htake, Stream.line_withTableLine, hkey, hplain, hmark, hformat, Bool.not_true, Bool.false_eq_true, if_false]
  refine ⟨fun ls hls => ?_, fun hbad => ?_⟩
  · rw [hls]
    exact Engine.setStream_setStream ..
  · rw [hbad]
    rfl

/-! ### Lanes (R155, R157) -/

section
variable {n chunk : Nat} {v : Stream} {e : Engine}

/-- The stream that arbitration grants a lane last, without a deadline. -/
def Engine.grantLane (n chunk : Nat) (v : Stream) (e : Engine) : Engine :=
  if (v.descr.dueOf chunk).isSome then e
  else { e with streams := if v.spill then { e.streams with encTurn := n } else { e.streams with decTurn := n } }

theorem same_grantLane (n chunk : Nat) (v : Stream) (e : Engine) : Same [.streams] e (e.grantLane n chunk v) := by
  unfold Engine.grantLane
  split
  · exact Same.refl _ e
  · exact same_streams e _

theorem Engine.grantLane_held (n chunk : Nat) (v : Stream) (e : Engine) : (e.grantLane n chunk v).streams.held = e.streams.held := by
  unfold Engine.grantLane
  repeat' split
  all_goals rfl

theorem Engine.grantLane_stream (n chunk : Nat) (v : Stream) (e : Engine) (m : Nat) : (e.grantLane n chunk v).stream m = e.stream m := by
  unfold Engine.stream
  rw [Engine.grantLane_held]

/-- The chunk that is granted the lane passes it; on a mismatch the lane is at fault, and the chunk stays as it was. -/
theorem Engine.laneStream_granted (hv : e.stream n = some v) (hwin : e.laneWinner v.spill = some n) (hwants : e.wantsLane v.spill n = some chunk)
    (k : Kit) (r : Regs) (l : Nat) (mismatch : Bool) : e.laneStream k r v.lane n chunk l mismatch =
      if mismatch then (e.grantLane n chunk v).laneFault k r v.lane l v.tenant else (e.grantLane n chunk v).makeChunk k r n chunk := by
  have hstream := Engine.grantLane_stream n chunk v e n
  unfold Engine.laneStream
  simp only [Stream.lane_enc, hwin, hwants, ne_eq, not_true_eq_false, or_self, if_false, hv, Option.bind_some]
  unfold Engine.grantLane at hstream ⊢
  rw [hstream, hv]

end

section
variable {s : State} {stream : BitVec 9} {v : Stream} {chunk l : Nat} {busy : List Nat}

theorem codecChunkStart_passes (hv : s.eng.stream stream.toNat = some v) (hidle : s.eng.units.idleLane v.lane busy = some l)
    (hwin : s.eng.laneWinner v.spill = some stream.toNat) (hwants : s.eng.wantsLane v.spill stream.toNat = some chunk) :
    ∃ t w, exec (.codecChunkStart (.stream stream) chunk ⟨busy, false⟩) s = .next t ∧ t.eng.stream stream.toNat = some w ∧
      w.made = chunk :: v.made ∧ (∃ more, w.toWrite = v.toWrite ++ more) ∧ w.state = v.state ∧
      (∀ m, m ≠ stream.toNat → t.eng.stream m = s.eng.stream m) ∧ Only chunkGroups s t := by
  have hexec := exec_codecChunkStart_idle (lanes := ⟨busy, false⟩) hv hidle chunk
  rw [Engine.laneStream_granted hv hwin hwants] at hexec
  have hheld := Engine.grantLane_stream stream.toNat chunk v s.eng
  obtain ⟨hsame, hothers, w, hw, hmade⟩ := Engine.makeChunk_held ((hheld _).trans hv) s.kit s.regs chunk
  exact ⟨_, w, hexec, hw, hmade.made, hmade.toWrite, hmade.state, fun m hm => (hothers m hm).trans (hheld m),
    only_of_same (((same_grantLane ..).mono (by decide)).trans hsame)⟩

theorem codecChunkStart_mismatches (hv : s.eng.stream stream.toNat = some v) (hidle : s.eng.units.idleLane v.lane busy = some l)
    (hwin : s.eng.laneWinner v.spill = some stream.toNat) (hwants : s.eng.wantsLane v.spill stream.toNat = some chunk) :
    ∃ e, exec (.codecChunkStart (.stream stream) chunk ⟨busy, true⟩) s = .next (withEng s (e.laneFault s.kit s.regs v.lane l v.tenant)) ∧
      e.streams.held = s.eng.streams.held ∧ Same [.streams] s.eng e := by
  have hexec := exec_codecChunkStart_idle (lanes := ⟨busy, true⟩) hv hidle chunk
  rw [Engine.laneStream_granted hv hwin hwants] at hexec
  exact ⟨_, hexec, Engine.grantLane_held .., same_grantLane ..⟩

/-- A chunk of the running cut takes the lowest idle encode lane, without arbitration (R24). -/
theorem exec_codecChunkStart_cut {run : Running} {i : Nat} {src : Source} (hrun : s.eng.cut.run = some run) (hsrc : run.sources[i]? = some src)
    (hwaits : src.waitsLane = true) (hidle : s.eng.units.idleLane .enc busy = some l) :
    exec (.codecChunkStart (.cut i) src.coded ⟨busy, false⟩) s = .next (withEng s
      ((s.eng.setRun { run with sources := run.sources.set i { src with coded := src.coded + 1 } }).cutPump s.kit s.regs)) := by
  show execCodecChunkStart (.cut i) src.coded ⟨busy, false⟩ s = _
  unfold execCodecChunkStart
  rw [State.eff_eq]
  simp [hidle, Engine.laneCut, Engine.onRun, hrun, hsrc, hwaits, withEng]

end

/-! ### Resumption (R242, R243) -/

theorem Engine.streamCtrl_resumes {n : Nat} {v : Stream} {e : Engine} {value : Word} (hv : e.stream n = some v) (hbit : value.getLsbD 31 = true)
    (hn : value.toNat % 512 = n) (hstate : v.state = .halted) (hfailing : v.failing = 0) (k : Kit) (r : Regs) :
    e.streamCtrl k r value = (e.setStream n v.resume).makeReady k r n := by
  unfold Engine.streamCtrl
  simp only [hbit, hn, hv, hstate, hfailing, Bool.not_true, Bool.false_eq_true, ne_eq, not_true_eq_false, if_false]

theorem Engine.streamCtrl_ends {n : Nat} {v : Stream} {e : Engine} {value : Word} (hv : e.stream n = some v) (hbit : value.getLsbD 31 = true)
    (hn : value.toNat % 512 = n) (hstate : v.state = .halted) (hfailing : v.failing ≠ 0) (k : Kit) (r : Regs) :
    e.streamCtrl k r value = e.endStream k r n v.failing := by
  unfold Engine.streamCtrl
  simp only [hbit, hn, hv, hstate, hfailing, Bool.not_true, Bool.false_eq_true, ne_eq, not_true_eq_false, not_false_eq_true, if_true, if_false]

/-! ### Rows that name no stream (R112, R252) -/

theorem exec_partitionLineFree (part : BitVec 2) (s : State) :
    exec (.partitionLineFree part) s = .next (if part = 1 then withEng s (s.eng.guardPump s.kit) else s) := by
  show execPartitionLineFree part s = _
  unfold execPartitionLineFree
  rw [State.eff_eq]
  split <;> rfl

theorem exec_restoreEntryStart_next {s : State} {job m : Nat} {y : Restore} (hy : s.eng.streams.restores[job]? = some y)
    (hfree : y.freeNumber = some m) (hwaiting : ∃ z ∈ y.entries, z.state = .waiting) (hsched : s.eng.scheduling = true) :
    exec (.restoreEntryStart job) s = .next (withEng s ((s.eng.onRestore y.job (Restore.startNext m)).entryGoesOn s.kit s.regs m)) := by
  have hany : (y.entries.any fun z => z.state == .waiting) = true := by
    rw [List.any_eq_true]
    obtain ⟨z, hz, hstate⟩ := hwaiting
    exact ⟨z, hz, by simp [hstate]⟩
  show execRestoreEntryStart job s = _
  unfold execRestoreEntryStart
  rw [State.eff_eq]
  simp [hy, hfree, hsched, hany, withEng]

end Sys2Proof.Machine


/-!
PROOFS. Streams and restores (10_restore_streams).
-/

namespace Sys2Proof

open Machine

section
variable {s : State} {stream : BitVec 9} {v : Stream}

/-- TABLE_READY of a SPILL: the stream goes on with the table, and with what its table makes ready. -/
theorem tableReady_spill (hv : s.eng.stream stream.toNat = some v) (htable : v.table = none) (hrate : (rateGeom v.rate).isSome = true)
    (hstate : v.state = .running) (hspill : v.spill = true)
    (hdraw : v.seed.isSome = true ∨ needsDraw v.steps = false ∨ s.eng.units.noise = .healthy)
    (hgot : ∀ i ∈ v.needs (v.planeDep (min 63 (v.shape.planeLines v.units - 1))), (tabFind i v.got).isSome = true) :
    ∃ t w, exec (.tableReady stream) s = .next t ∧ t.eng.stream stream.toNat = some w ∧ w.state = .running ∧
      w.table = some (codeLengths v.shape.outFmt.width (((runPlane v.steps (w.seed.getD 0) v.source).take 64).map fun b => b.data)) ∧
      (∀ m, m ≠ stream.toNat → t.eng.stream m = s.eng.stream m) ∧ Only chunkGroups s t := by
  have hexec := exec_tableReady_spill hv htable hrate hstate hspill
  obtain ⟨u, a, hmade, hdrawn, hustate, huseed, hutable⟩ := Engine.spillTable_made hspill hdraw hgot s.kit s.regs
  rw [hmade] at hexec
  have hwork := workedOn_makeReady s.kit s.regs stream.toNat (a.setStream stream.toNat u)
  obtain ⟨w, hw, hwstate, hwtable, hwseed⟩ := hwork.held u (Engine.stream_setStream_same ..)
  refine ⟨_, w, hexec, hw, hwstate.trans (hustate.trans hstate), ?_, fun m hm => ?_, only_of_same ?_⟩
  · rw [hwtable, hwseed huseed]
    exact hutable
  · exact (hwork.others m hm).trans ((Engine.stream_setStream_ne hm ..).trans (stream_of_same hdrawn (by decide) m))
  · exact ((hdrawn.mono (by decide)).trans ((same_setStream ..).mono (by decide))).trans hwork.same

end

/-- Settles O50: each row on the stream that it names. That a loser counts cause 7, that a stream ends with the first code it met while halted,
and that a mismatch takes the lane out and leaves the chunk to a later start are the model's choices (logs 89, 29, 30). -/
theorem streamsAdvance : Obligations.StreamsAdvance := by
  unfold Obligations.StreamsAdvance
  intro s stream v n into kind hv
  refine ⟨fun hstate hfree => exec_streamFenceRelease_fenced hv hstate hfree, fun hsched faults =>
    ⟨fun hstate => exec_streamChunkIssue_fenced hv hsched hstate faults, fun hstate => exec_streamChunkIssue_halted hv hsched hstate faults,
      fun hstate => ?turn⟩,
    fun htable hrate hstate => ⟨fun hspill hdraw hgot => tableReady_spill hv htable hrate hstate hspill hdraw hgot,
      fun f hspill hnew hf hclean hpoison => ?refill⟩,
    fun chunk busy => ⟨fun bad hidle => exec_codecChunkStart_busy (lanes := ⟨busy, bad⟩) hv hidle chunk,
      fun l hidle hwin hwants => ⟨codecChunkStart_passes hv hidle hwin hwants, codecChunkStart_mismatches hv hidle hwin hwants⟩,
      fun run i src l hrun hsrc hwaits hcoded hidle => ?cut⟩,
    fun value hopen hbit hn hstate => ⟨fun hfailing => ⟨rfl, ?resume⟩, fun hfailing => ?ends⟩,
    fun part => exec_partitionLineFree part s,
    fun job y m hy hfree hwaiting hsched => exec_restoreEntryStart_next hy hfree hwaiting hsched⟩
  case turn =>
    rw [exec_streamChunkIssue_running hv hsched hstate faults]
    refine ⟨fun hwin => ⟨fun hw => ?_, fun hw hq => ?_⟩, fun hwin hable => ?_, fun c hq hw h0 h3 hlane => ?_⟩
    · rw [Engine.serveStream_write hwin hw]
    · rw [Engine.serveStream_read hwin hw hq]
    · rw [Engine.serveStream_lost hwin hable]
    · rw [Engine.serveStream_held hq hw h0 h3 hlane]
  case refill =>
    obtain ⟨hgood, hbad⟩ := Engine.refillTable_read hnew hf hclean hpoison s.kit s.regs
    rw [exec_tableReady_refill hv htable hrate hstate hspill]
    exact ⟨fun ls hls => by rw [hgood ls hls]; rfl, fun hnone => by rw [hbad hnone]; rfl⟩
  case cut =>
    subst hcoded
    exact exec_codecChunkStart_cut hrun hsrc hwaits hidle
  case resume => rw [exec_streamCtrlResume_open hopen, Engine.streamCtrl_resumes hv hbit hn hstate hfailing]
  case ends => rw [exec_streamCtrlResume_open hopen, Engine.streamCtrl_ends hv hbit hn hstate hfailing]

end Sys2Proof

/-!
PROOFS. What a fault raise leaves of Foxglove (R343 to R348), on a step whose engine is that of a raise.
-/

namespace Sys2Proof

open Machine

@[simp] theorem withEng_eng (s : State) (e : Engine) : (withEng s e).eng = e := rfl

end Sys2Proof

namespace Sys2Proof.Machine

section
variable {k : Kit} {src : Nat}

theorem Engine.raise_fox (h : foxImplemented k src = true) (r : Regs) (t : Option TenantNo) (e : Engine) :
    (e.raise k r src t).fox = e.fox.raise r src t e.stamp := by
  rw [Engine.raise_eq r t e h]
  unfold Engine.raiseAt
  simp only [h, if_true]
  split <;> rfl

theorem Engine.raise_faultsRaised (h : foxImplemented k src = true) (r : Regs) (t : Option TenantNo) (e : Engine) :
    (e.raise k r src t).counter Ctr.faultsRaised = e.counter Ctr.faultsRaised + 1 := by
  have hne : Ctr.faultsRaised ≠ Ctr.escalations := by decide
  have hcount : (e.raise k r src t).counter Ctr.faultsRaised = (e.raiseAt k r src t e.stamp).counter Ctr.faultsRaised := by
    rw [Engine.raise_eq r t e h]
    rfl
  rw [hcount]
  unfold Engine.raiseAt
  simp only [h, if_true]
  split
  · rw [Engine.counter_bump_ne hne, Engine.counter_bump_same]
    rfl
  · rw [Engine.counter_bump_same]
    rfl

end

/-- A raise of severity NOTE leaves PENDING; any other sets it (R345). -/
theorem FoxSrc.raised_pending (sev : Nat) (p : FoxSrc) : (p.raised sev).pending = (p.pending || sev != 0) := by
  unfold FoxSrc.raised
  split
  next h => simp [h]
  next h => simp [h]

theorem Fox.raise_src_same (r : Regs) (src : Nat) (t : Option TenantNo) (st : Dword) (f : Fox) :
    (f.raise r src t st).src src = (f.src src).raised (effectiveSev r src f).1 := tabGet_put_same _ _ _ _

theorem Fox.raise_src_ne {m src : Nat} (h : m ≠ src) (r : Regs) (t : Option TenantNo) (st : Dword) (f : Fox) :
    (f.raise r src t st).src m = f.src m := tabGet_put_ne h _ _

/-- A raise in an engine that has Foxglove, the counters and the stamp of the state leaves what `Raised` says. -/
theorem raised_raise {s : State} {e : Engine} {src : Nat} (h : foxImplemented s.kit src = true) (hfox : e.fox = s.eng.fox)
    (hcount : e.count = s.eng.count) (hstamp : e.stamp = s.eng.stamp) (t : Option TenantNo) :
    Raised s (withEng s (e.raise s.kit s.regs src t)) src t := by
  have hfox' : (e.raise s.kit s.regs src t).fox = s.eng.fox.raise s.regs src t s.eng.stamp := by
    rw [Engine.raise_fox h, hfox, hstamp]
  unfold Raised
  rw [withEng_eng]
  dsimp only
  rw [hfox']
  refine ⟨rfl, ?log, ?pending, fun m hm => Fox.raise_src_ne hm .., rfl, ?count⟩
  case log =>
    have hseq : s.eng.fox.seq + 1 - 1 = s.eng.fox.seq := BitVec.add_sub_cancel ..
    unfold Fox.raise
    dsimp only
    rw [hseq]
    exact tabFind_set_same _ _ _
  case pending => rw [Fox.raise_src_same, FoxSrc.raised_pending]
  case count =>
    rw [Engine.raise_faultsRaised h]
    unfold Engine.counter
    rw [hcount]

end Sys2Proof.Machine


/-!
PROOFS. The modes of the beat and the fall of the throttle level (R35, R36, R366).
-/

namespace Sys2Proof

open Machine

theorem inWindow_iff {cc gap : Nat} : inWindow cc gap = true ↔ cc - 64 ≤ gap ∧ gap ≤ cc + 63 := by
  simp [inWindow]

theorem exec_beatLock {s : State} {gaps : List Nat} (hlen : gaps.length = 16) (hmode : s.eng.beat.mode ≠ .locked)
    (hpower : s.eng.power.state ≠ 2) (hgaps : ∀ g ∈ gaps, inWindow s.eng.beat.cc g = true) : exec (.beatLock gaps) s =
      .next (withEng s { s.eng with beat := { s.eng.beat with mode := .locked, firstEdgeDue := s.eng.beat.mode == .acquire } }) := by
  show execBeatLock gaps s = _
  unfold execBeatLock
  rw [hlen, beq_self_eq_true, State.needs_true, State.eff_eq, if_pos ⟨hmode, hpower, List.all_eq_true.mpr hgaps⟩]
  rfl

theorem exec_beatFreeRun {s : State} (hmode : s.eng.beat.mode = .locked) (hrun : 64 ≤ s.eng.beat.clampRun.toNat) : exec .beatFreeRun s =
    .next (withEng s (({ s.eng with beat := { s.eng.beat with mode := .freeRun } } : Engine).raise s.kit s.regs 0x08 none)) := by
  show execBeatFreeRun s = _
  unfold execBeatFreeRun
  rw [State.eff_eq, if_pos ⟨hmode, hrun⟩]
  rfl

theorem exec_throttleFall {s : State} (hcool : 500 ≤ s.eng.power.cooler) (hlevel : 0 < s.eng.power.level) : exec .throttleFall s =
    .next (withEng s { s.eng with power := { s.eng.power with level := s.eng.power.level - 1, cooler := 0 } }) := by
  show execThrottleFall s = _
  unfold execThrottleFall
  rw [State.eff_eq, if_pos ⟨hcool, hlevel⟩]
  rfl

/-- The source of R36 is a source of every configuration (R343). -/
theorem foxImplemented_freeRun (k : Kit) : foxImplemented k 0x08 = true := by
  have h : foxFixed.contains 0x08 = true := by decide
  unfold foxImplemented
  rw [h]
  rfl

/-- Settles O22: each of the three events on a state that meets its condition. -/
theorem beatModesAndThrottleFall : Obligations.BeatModesAndThrottleFall := by
  unfold Obligations.BeatModesAndThrottleFall
  refine ⟨fun s gaps hlen hmode hpower hgaps => ?lock, fun s hmode hrun => ?freeRun, fun s hcool hlevel => ?throttle⟩
  case lock =>
    exact ⟨_, exec_beatLock hlen hmode hpower fun g hg => inWindow_iff.mpr (hgaps g hg), rfl, only_of_same (by simp [Same])⟩
  case freeRun =>
    have himp := foxImplemented_freeRun s.kit
    refine ⟨_, exec_beatFreeRun hmode hrun, ?_, raised_raise himp (by rfl) (by rfl) (by rfl) none, only_of_same ?_⟩
    · show (Engine.raise ..).beat = _
      rw [Engine.raise_eq _ _ _ himp]
      rfl
    · rw [Engine.raise_eq _ _ _ himp]
      simp [Same]
  case throttle => exact ⟨_, exec_throttleFall hcool hlevel, rfl, only_of_same (by simp [Same])⟩

end Sys2Proof

/-!
PROOFS. The stem takes what a bud has on its way up (R45, R79, R89, R123, R332, R397): lines outside and inside a running cut, and
acknowledgements.
-/

namespace Sys2Proof.Machine

/-! ### A line put into the front -/

theorem find_updFirst_same {α : Type} {p : α → Bool} {x : α} (hx : p x = true) {l : List α} (h : (l.find? p).isSome = true) :
    (updFirst p (fun _ => x) l).find? p = some x := by
  induction l with
  | nil => cases h
  | cons y l ih =>
    unfold updFirst
    cases hy : p y with
    | true => simp [hx]
    | false =>
      rw [List.find?_cons, hy] at h
      simpa [hy] using ih h

theorem find_updFirst_ne {α : Type} {p q : α → Bool} {f : α → α} (h : ∀ y, p y = true → q y = false ∧ q (f y) = false) (l : List α) :
    (updFirst p f l).find? q = l.find? q := by
  induction l with
  | nil => rfl
  | cons y l ih =>
    unfold updFirst
    cases hy : p y with
    | true => simp [h y hy]
    | false => simp [List.find?_cons, ih]

theorem Front.find_put_same (l : FrontLine) (f : Front) : ∃ place, (f.put l).find l.key = some { l with place := place } := by
  unfold Front.put
  cases hf : f.find l.key with
  | some x =>
    have hsome : (f.lines.find? fun y => y.key == l.key).isSome = true := Option.isSome_of_eq_some hf
    refine ⟨x.place, find_updFirst_same ?_ hsome⟩
    exact beq_self_eq_true l.key
  | none =>
    unfold Front.find at hf ⊢
    refine ⟨f.freePlace l.part, ?_⟩
    rw [List.find?_append, hf, Option.none_or]
    exact find_singleton rfl

theorem Front.find_put_ne {key : FrontKey} {l : FrontLine} (h : key ≠ l.key) (f : Front) : (f.put l).find key = f.find key := by
  have hne : (l.key == key) = false := beq_eq_false_iff_ne.mpr h.symm
  unfold Front.put
  split
  · refine find_updFirst_ne (fun y hy => ?_) f.lines
    rw [beq_iff_eq] at hy
    exact ⟨by rw [hy, hne], hne⟩
  · unfold Front.find
    simp [hne]

/-! ### The line that the stem takes next -/

section
variable (k : Kit) (tile : Nat) (b : Bud)

theorem Bud.settle_buffer : (b.settle k tile).buffer = b.buffer := by
  unfold Bud.settle
  split <;> rfl

theorem Bud.settle_up : (b.settle k tile).up = b.up := by
  unfold Bud.settle
  split <;> rfl

end

theorem Bud.accepted_buffer (b : Bud) : b.accepted.buffer = b.buffer.tail := by
  unfold Bud.accepted
  cases h : b.buffer with
  | nil => rfl
  | cons x rest => rfl

theorem Bud.accepted_up_nil {b : Bud} (h : b.buffer = []) : b.accepted.up = b.up.tail := by
  unfold Bud.accepted
  rw [h]

theorem Bud.accepted_up_cons {b : Bud} (h : b.buffer ≠ []) : b.accepted.up = b.up := by
  unfold Bud.accepted
  cases hb : b.buffer with
  | nil => exact absurd hb h
  | cons x rest => rfl

/-- Copy-before-write lines go first (R89). -/
theorem Bud.nextUp_head {b : Bud} {x : UpLine} (h : b.nextUp = some x) (hb : b.buffer ≠ []) : b.buffer.head? = some x := by
  unfold Bud.nextUp at h
  cases hc : b.buffer with
  | nil => exact absurd hc hb
  | cons y rest =>
    rw [hc] at h
    exact h

theorem same_setBud (tile : Nat) (b : Bud) (e : Engine) : Same [.buds] e (e.setBud tile b) := by simp [Same, Engine.setBud]

/-- The bud of `tile` is the one that an engine was given, when the buds have not changed since. -/
theorem budBecomes_setBud {s : State} {e : Engine} {tile : Nat} {b : Bud} (h : e.buds = (s.eng.setBud tile b).buds) :
    BudBecomes s (withEng s e) tile b := by
  have hbud (n : Nat) : (withEng s e).eng.bud n = (s.eng.setBud tile b).bud n := by
    unfold Engine.bud
    rw [withEng_eng, h]
  exact ⟨(hbud tile).trans (Engine.bud_setBud_same ..), fun n hn => (hbud n).trans (Engine.bud_setBud_ne hn ..)⟩

/-! ### Lines -/

/-- The engine with the line that the stem takes next gone from its bud. -/
def lineTaken (s : State) (tile : Nat) : Engine := s.eng.setBud tile ((s.eng.bud tile).accepted.settle s.kit tile)

section
variable {s : State} {tile : Nat} {x : UpLine} (htile : s.kit.hasTile tile = true) (hnext : (s.eng.bud tile).nextUp = some x)
  (hroom : s.eng.upRoom s.kit s.regs tile x = true)

include htile hnext hroom

/-- A line for which there is room, with good parity and no fault of a core, is taken; a running cut that waits for it has it. -/
theorem exec_stemLineAccept : exec (.stemLineAccept tile false []) s = .next (withEng s ((lineTaken s tile).onRun fun run e =>
    if !run.tiles.contains tile || e.cut.phase == .armed then e else e.onRun fun run e => e.cutLineIn s.kit s.regs tile x run)) := by
  show execStemLineAccept tile false [] s = _
  unfold execStemLineAccept
  rw [htile, State.needs_true, State.eff_eq]
  simp only [hnext, hroom, Bool.not_true, Bool.false_eq_true, if_false]
  rfl

theorem exec_stemLineAccept_discards (hrun : s.eng.cut.run = none) :
    exec (.stemLineAccept tile false []) s = .next (withEng s (lineTaken s tile)) := by
  rw [exec_stemLineAccept htile hnext hroom]
  unfold Engine.onRun
  have hrun' : (lineTaken s tile).cut.run = none := hrun
  rw [hrun']

theorem exec_stemLineAccept_cut {run : Running} (hrun : s.eng.cut.run = some run) (hcovered : run.tiles.contains tile = true)
    (hphase : s.eng.cut.phase ≠ .armed) : exec (.stemLineAccept tile false []) s =
      .next (withEng s ((lineTaken s tile).cutLineIn s.kit s.regs tile x run)) := by
  rw [exec_stemLineAccept htile hnext hroom]
  have hrun' : (lineTaken s tile).cut.run = some run := hrun
  have hphase' : ((lineTaken s tile).cut.phase == .armed) = false := beq_eq_false_iff_ne.mpr hphase
  unfold Engine.onRun
  simp only [hrun', hcovered, hphase', Bool.not_true, Bool.or_self, Bool.false_eq_true, if_false]

end

/-- The line as it enters the front for a cut (R89, R108, R112, R123). -/
def cutFrontLine (k : Kit) (tile : Nat) (x : UpLine) (run : Running) : FrontLine :=
  FrontLine.made (if x.kind = .cbw then .disp else .cut) (.grid tile (x.kind == .context) x.line)
    { Line.ofData x.data run.tenant (if x.kind == .context then 2 else 1) false with epoch := run.slot } false (k.regionOf tile)

theorem Engine.cutLineIn_eq (k : Kit) (r : Regs) (tile : Nat) (x : UpLine) (run : Running) (e : Engine) :
    e.cutLineIn k r tile x run = ((e.onFront (Front.put (cutFrontLine k tile x run))).takeLine r (.tile tile (x.kind == .context)) x.line
      (if x.kind = .cbw then 2 else 3) (.grid tile (x.kind == .context) x.line) { data := x.data, poison := false }).cutPump k r := rfl

/-! ### Acknowledgements -/

/-- The engine with the oldest acknowledgement of a bud taken. -/
def ackTaken (s : State) (tile : Nat) (rest : List BudAck) : Engine := s.eng.setBud tile { s.eng.bud tile with acks := rest }

section
variable {s : State} {tile : Nat} {a : BudAck} {rest : List BudAck} (htile : s.kit.hasTile tile = true)
  (hacks : (s.eng.bud tile).acks = a :: rest)

include htile hacks

theorem exec_stemAck_bad {bad : Bool} (hbad : (a.poisoned || bad) = true) : exec (.stemAck tile bad) s =
    .next (withEng s ((ackTaken s tile rest).raise s.kit s.regs (0x80 + s.kit.regionOf tile) (some (s.eng.bud tile).tenant))) := by
  show execStemAck tile bad s = _
  unfold execStemAck
  rw [htile, State.needs_true, State.eff_eq]
  simp only [hacks, hbad, if_true]
  rfl

/-- A sound acknowledgement is noted where it belongs (R45, R79, R332). -/
theorem exec_stemAck_good (hgood : a.poisoned = false) : exec (.stemAck tile false) s = .next (withEng s
    (if a.code = bcFreeze then
      { ackTaken s tile rest with stem := { s.eng.stem with frozen := s.eng.stem.frozen ++ [tile] } }
    else if a.code = bcScrub then
      { ackTaken s tile rest with stem := { s.eng.stem with scrubbed := s.eng.stem.scrubbed + 1 } }
    else { ackTaken s tile rest with count := { s.eng.count with
      latched := updFirst (fun c => c.beat.setWidth 52 == a.beat) (CounterSet.add a.counts) s.eng.count.latched } })) := by
  show execStemAck tile false s = _
  unfold execStemAck
  rw [htile, State.needs_true, State.eff_eq]
  simp only [hacks, hgood, Bool.or_self, Bool.false_eq_true, if_false]
  rfl

end

end Sys2Proof.Machine

namespace Sys2Proof

open Machine

section
variable {s : State} {tile : Nat} (htile : s.kit.hasTile tile = true)

include htile

/-- Without a running cut a line is accepted and discarded. -/
theorem stemLineAccept_discards {x : UpLine} (hnext : (s.eng.bud tile).nextUp = some x) (hroom : s.eng.upRoom s.kit s.regs tile x = true)
    (hrun : s.eng.cut.run = none) : let b := s.eng.bud tile
    ∃ t, exec (.stemLineAccept tile false []) s = .next t ∧ BudBecomes s t tile (b.accepted.settle s.kit tile) ∧
      (t.eng.bud tile).buffer = b.buffer.tail ∧ (b.buffer ≠ [] → (t.eng.bud tile).up = b.up) ∧
      (b.buffer = [] → (t.eng.bud tile).up = b.up.tail) ∧ Only [.buds] s t := by
  intro b
  have hbud : (withEng s (lineTaken s tile)).eng.bud tile = b.accepted.settle s.kit tile := Engine.bud_setBud_same ..
  refine ⟨_, exec_stemLineAccept_discards htile hnext hroom hrun, budBecomes_setBud rfl, ?_, fun hb => ?_, fun hb => ?_,
    only_of_same (same_setBud ..)⟩
  · rw [hbud, Bud.settle_buffer, Bud.accepted_buffer]
  · rw [hbud, Bud.settle_up, Bud.accepted_up_cons hb]
  · rw [hbud, Bud.settle_up, Bud.accepted_up_nil hb]

/-- A sound acknowledgement is counted where it belongs. -/
theorem stemAck_counts {a : BudAck} {rest : List BudAck} (hacks : (s.eng.bud tile).acks = a :: rest) (hgood : a.poisoned = false) :
    ∃ t, exec (.stemAck tile false) s = .next t ∧
      BudBecomes s t tile { s.eng.bud tile with acks := rest } ∧ Only [.buds, .stem, .count] s t ∧
      (a.code = bcFreeze → t.eng.stem = { s.eng.stem with frozen := s.eng.stem.frozen ++ [tile] } ∧ t.eng.count = s.eng.count) ∧
      (a.code = bcScrub → t.eng.stem = { s.eng.stem with scrubbed := s.eng.stem.scrubbed + 1 } ∧ t.eng.count = s.eng.count) ∧
      (a.code = bcBeat → t.eng.stem = s.eng.stem ∧ t.eng.count.live = s.eng.count.live ∧ t.eng.count.shadow = s.eng.count.shadow ∧
        t.eng.count.latched = updFirst (fun c => c.beat.setWidth 52 == a.beat) (CounterSet.add a.counts) s.eng.count.latched) := by
  have hscrub : bcScrub ≠ bcFreeze := by decide
  have hbeat : bcBeat ≠ bcFreeze ∧ bcBeat ≠ bcScrub := by decide
  refine ⟨_, exec_stemAck_good htile hacks hgood, ?bud, only_of_same ?only, fun h => ?freeze, fun h => ?scrub, fun h => ?beat⟩
  case bud =>
    refine budBecomes_setBud ?_
    split_ifs <;> rfl
  case only => split_ifs <;> simp [Same, ackTaken]
  case freeze =>
    rw [if_pos h]
    exact ⟨rfl, rfl⟩
  case scrub =>
    rw [if_neg (h ▸ hscrub), if_pos h]
    exact ⟨rfl, rfl⟩
  case beat =>
    rw [if_neg (h ▸ hbeat.1), if_neg (h ▸ hbeat.2)]
    exact ⟨rfl, rfl, rfl, rfl⟩

/-- An acknowledgement that is poisoned or has bad parity raises the source of its region. -/
theorem stemAck_raises {a : BudAck} {rest : List BudAck} {bad : Bool} (hacks : (s.eng.bud tile).acks = a :: rest)
    (hbad : (a.poisoned || bad) = true) (himp : foxImplemented s.kit (0x80 + s.kit.regionOf tile) = true) :
    ∃ t, exec (.stemAck tile bad) s = .next t ∧ BudBecomes s t tile { s.eng.bud tile with acks := rest } ∧
      Raised s t (0x80 + s.kit.regionOf tile) (some (s.eng.bud tile).tenant) ∧ Only [.buds, .fox, .count, .draws, .cycle] s t := by
  have htaken : Same [.buds] s.eng (ackTaken s tile rest) := same_setBud ..
  refine ⟨_, exec_stemAck_bad htile hacks hbad, budBecomes_setBud (Engine.raise_buds ..), ?_, only_of_same ?_⟩
  · exact raised_raise himp (by rfl) (by rfl) (by rfl) _
  · exact (htaken.mono (by decide)).trans ((same_raise ..).mono (by decide))

/-- A line of a covered tile of a running cut enters the front as the cut's. -/
theorem stemLineAccept_enters {x : UpLine} {run : Running} (hnext : (s.eng.bud tile).nextUp = some x)
    (hroom : s.eng.upRoom s.kit s.regs tile x = true) (hrun : s.eng.cut.run = some run) (hcovered : run.tiles.contains tile = true)
    (hphase : s.eng.cut.phase ≠ .armed) :
    let key := FrontKey.grid tile (x.kind == .context) x.line
    let e0 := s.eng.setBud tile (((s.eng.bud tile).accepted).settle s.kit tile)
    ∃ e1 : Engine, exec (.stemLineAccept tile false []) s =
        .next (withEng s ((e1.takeLine s.regs (.tile tile (x.kind == .context)) x.line (if x.kind = .cbw then 2 else 3) key
          { data := x.data, poison := false }).cutPump s.kit s.regs)) ∧
      Same [.front] e0 e1 ∧
      (e1.front.find key).map (fun l => (l.line.data, l.line.tenant, l.line.epoch, l.dirty)) = some (x.data, run.tenant, run.slot, false) ∧
      (e1.front.find key).map (fun l => l.part) = some (if x.kind = .cbw then .disp else .cut) ∧
      (∀ k, k ≠ key → e1.front.find k = s.eng.front.find k) := by
  intro key e0
  obtain ⟨place, hfind⟩ := Front.find_put_same (cutFrontLine s.kit tile x run) e0.front
  have hfind : (e0.onFront (Front.put (cutFrontLine s.kit tile x run))).front.find key = _ := hfind
  refine ⟨e0.onFront (Front.put (cutFrontLine s.kit tile x run)), ?_, same_onFront _ e0, by rw [hfind]; rfl, by rw [hfind]; rfl,
    fun k hk => Front.find_put_ne hk _⟩
  rw [exec_stemLineAccept_cut htile hnext hroom hrun hcovered hphase, Engine.cutLineIn_eq]
  rfl

end

/-- Settles O28: lines outside a cut, acknowledgements, and lines of a running cut. That a line of no cut is discarded is the model's choice
(log 56). -/
theorem stemRootsTakeLinesAndAcknowledgements : Obligations.StemRootsTakeLinesAndAcknowledgements := by
  unfold Obligations.StemRootsTakeLinesAndAcknowledgements
  refine ⟨fun s tile => ?bud, fun s tile x run htile hnext hroom hrun hcovered hphase => ?cut⟩
  case bud =>
    intro b htile
    refine ⟨fun x hnext hroom hrun => ?lines, fun a rest hacks hgood => ?counts, fun a rest bad hacks hbad himp => ?raises⟩
    case lines => exact ⟨Bud.nextUp_head hnext, stemLineAccept_discards htile hnext hroom hrun⟩
    case counts => exact stemAck_counts htile hacks hgood
    case raises => exact stemAck_raises htile hacks hbad himp
  case cut => exact stemLineAccept_enters htile hnext hroom hrun hcovered hphase

end Sys2Proof

/-!
PROOFS. What nothing but the edge itself, the lock and the loss of it may change of the beat (R35 to R38, R48): a relation between engines that
every operation within an edge keeps. Each lemma says so of one operation, in the order of the model.
-/

namespace Sys2Proof.Machine

/-! ### The relation -/

/-- The beat, but for the cycle that stamps events, the keys and fuses, and the DBG port are in `b` as in `a`. -/
structure Steady (a b : Engine) : Prop where
  beat : b.beat = { a.beat with cycle := b.beat.cycle }
  keys : b.keys = a.keys
  dbg : b.dbg = a.dbg

theorem Steady.refl (e : Engine) : Steady e e := ⟨rfl, rfl, rfl⟩

theorem Steady.trans {a b c : Engine} (h : Steady a b) (h' : Steady b c) : Steady a c where
  beat := by rw [h'.beat, h.beat]
  keys := h'.keys.trans h.keys
  dbg := h'.dbg.trans h.dbg

theorem Steady.ite {a : Engine} {c : Prop} [Decidable c] {x y : Engine} (hx : Steady a x) (hy : Steady a y) : Steady a (if c then x else y) := by
  split
  · exact hx
  · exact hy

theorem Steady.ite_fst {a : Engine} {α : Type} {c : Prop} [Decidable c] {x y : Engine × α} (hx : Steady a x.1) (hy : Steady a y.1) :
    Steady a (if c then x else y).1 := by
  split
  · exact hx
  · exact hy

theorem Steady.ite_snd {a : Engine} {α : Type} {c : Prop} [Decidable c] {x y : α × Engine} (hx : Steady a x.2) (hy : Steady a y.2) :
    Steady a (if c then x else y).2 := by
  split
  · exact hx
  · exact hy

section
variable {a e : Engine} (h : Steady a e)

include h

theorem Steady.of_eq {e' : Engine} (hb : e'.beat = e.beat) (hk : e'.keys = e.keys) (hd : e'.dbg = e.dbg) : Steady a e' where
  beat := by rw [hb]; exact h.beat
  keys := hk.trans h.keys
  dbg := hd.trans h.dbg

/-- A frame without these three groups is enough. -/
theorem Steady.same {gs : List Grp} {e' : Engine} (hs : Same gs e e') (hb : Grp.beat ∉ gs := by decide) (hk : Grp.keys ∉ gs := by decide)
    (hd : Grp.dbg ∉ gs := by decide) : Steady a e' := by
  have hs := hs.groups
  refine h.trans ⟨?_, hs.keys.resolve_left hk, hs.dbg.resolve_left hd⟩
  rcases hs.beat.resolve_left hb with hbeat | ⟨-, hbeat⟩
  · rw [hbeat]
  · exact hbeat

/-! ### Plain updates -/

theorem Steady.budget {x : Budget} : Steady a { e with budget := x } := h.of_eq rfl rfl rfl
theorem Steady.count {x : Counters} : Steady a { e with count := x } := h.of_eq rfl rfl rfl
theorem Steady.cut {x : Cut} : Steady a { e with cut := x } := h.of_eq rfl rfl rfl
theorem Steady.guard {x : Guard} : Steady a { e with guard := x } := h.of_eq rfl rfl rfl
theorem Steady.front {x : Front} : Steady a { e with front := x } := h.of_eq rfl rfl rfl
theorem Steady.body {x : Body} : Steady a { e with body := x } := h.of_eq rfl rfl rfl
theorem Steady.bulb {x : Bulb} : Steady a { e with bulb := x } := h.of_eq rfl rfl rfl
theorem Steady.units {x : Units} : Steady a { e with units := x } := h.of_eq rfl rfl rfl
theorem Steady.pollen {x : Pollen} : Steady a { e with pollen := x } := h.of_eq rfl rfl rfl
theorem Steady.streams {x : Streams} : Steady a { e with streams := x } := h.of_eq rfl rfl rfl
theorem Steady.rings {x : Rings} : Steady a { e with rings := x } := h.of_eq rfl rfl rfl
theorem Steady.vault {x : Vault} : Steady a { e with vault := x } := h.of_eq rfl rfl rfl
theorem Steady.tenants {x : Tab Tenant} : Steady a { e with tenants := x } := h.of_eq rfl rfl rfl
theorem Steady.fox {x : Fox} : Steady a { e with fox := x } := h.of_eq rfl rfl rfl
theorem Steady.referee {x : Referee} : Steady a { e with referee := x } := h.of_eq rfl rfl rfl
theorem Steady.power {x : Power} : Steady a { e with power := x } := h.of_eq rfl rfl rfl
theorem Steady.mem {x : Mem} : Steady a { e with mem := x } := h.of_eq rfl rfl rfl
theorem Steady.out {x : List Output} : Steady a { e with out := x } := h.of_eq rfl rfl rfl
theorem Steady.draws {x : Nat} : Steady a { e with draws := x } := h.of_eq rfl rfl rfl

/-! ### Branches and loops -/

theorem Steady.when {c : Bool} {f : Engine → Engine} (hf : Steady a e → Steady a (f e)) : Steady a (e.when c f) := by
  cases c
  · exact h
  · exact hf h

theorem Steady.forEach {α : Type} {xs : List α} {f : α → Engine → Engine} (hf : ∀ x {e}, Steady a e → Steady a (f x e)) :
    Steady a (e.forEach xs f) := by
  induction xs generalizing e with
  | nil => exact h
  | cons x xs ih => exact ih (hf x h)

theorem Steady.onRun {f : Running → Engine → Engine} (hf : ∀ run, Steady a e → Steady a (f run e)) : Steady a (e.onRun f) := by
  unfold Engine.onRun
  split
  · exact hf _ h
  · exact h

end

section
variable {a e : Engine} {k : Kit} {r : Regs} (h : Steady a e)

include h

/-! ### Shared operations -/

theorem Steady.drawn : Steady a e.drawn := h.draws
theorem Steady.drewN {n : Nat} : Steady a (e.drewN n) := h.draws
theorem Steady.emit {o : Output} : Steady a (e.emit o) := h.out
theorem Steady.bump {o n : Nat} : Steady a (e.bump o n) := h.count
theorem Steady.raise {s : Nat} {t : Option TenantNo} : Steady a (e.raise k r s t) := h.same (same_raise ..)
theorem Steady.setTenant {t : Nat} {v : Tenant} : Steady a (e.setTenant t v) := h.tenants
theorem Steady.setKept {t : Nat} {v : Kept} : Steady a (e.setKept t v) := h.body
theorem Steady.onFront {f : Front → Front} : Steady a (e.onFront f) := h.front
theorem Steady.onGuard {f : Guard → Guard} : Steady a (e.onGuard f) := h.guard
theorem Steady.onReferee {f : Referee → Referee} : Steady a (e.onReferee f) := h.referee
theorem Steady.setRun {run : Running} : Steady a (e.setRun run) := h.cut
theorem Steady.setRing {n : Nat} {v : Ring} : Steady a (e.setRing n v) := h.rings
theorem Steady.setVq {q : Nat} {v : VQueue} : Steady a (e.setVq q v) := h.vault
theorem Steady.onCmds {q : Nat} {f : List VCmd → List VCmd} : Steady a (e.onCmds q f) := h.vault
theorem Steady.onPort {t i p : Nat} {f : PortSess → PortSess} : Steady a (e.onPort t i p f) := h.pollen

theorem Steady.memReadOn {c addr lines : Nat} {prio : BitVec 2} {use : MemFor} : Steady a (e.memReadOn c addr lines prio use) :=
  h.of_eq rfl rfl rfl

theorem Steady.memWrite {addr : Nat} {bytes : List Byte} {poison : List Bool} {prio : BitVec 2} {use : MemFor} :
    Steady a (e.memWrite k addr bytes poison prio use) := h.of_eq rfl rfl rfl

theorem Steady.spendMem {write : Bool} {c n : Nat} : Steady a (e.spendMem write c n) := h.budget

theorem Steady.chargeCut {write : Bool} {c t n : Nat} : Steady a (e.chargeCut write c t n) := h.spendMem.when fun h => h.budget

theorem Steady.broadcast {code : BitVec 4} {arg : BitVec 64} {delay : Nat} : Steady a (e.broadcast code arg delay) := by
  unfold Engine.broadcast
  split
  · exact h.of_eq rfl rfl rfl
  · exact h

theorem Steady.broadcastTenant {code : BitVec 4} {t : TenantNo} {delay : Nat} : Steady a (e.broadcastTenant code t delay) := h.broadcast

/-! ### The Bulb -/

theorem Steady.setBankErrors {p : Nat} {v : BankErrors} : Steady a (e.setBankErrors p v) := h.bulb
theorem Steady.countWriteFail {p : Nat} : Steady a (e.countWriteFail p) := h.setBankErrors
theorem Steady.pushBodyWrite {u : BodyFor} {l : Line} : Steady a (e.pushBodyWrite u l) := h.bulb
theorem Steady.readFront {f : FrontLine} : Steady a (e.readFront k r f).2.2 := h.same (same_readFront ..)
theorem Steady.readBody {key : Nat} {fix : Bool} : Steady a (e.readBody k r key fix).2.2 := h.same (same_readBody ..)
theorem Steady.rewriteLine {key : Nat} {l : Line} : Steady a (e.rewriteLine k r key l) := h.same (same_rewriteLine ..)

theorem Steady.upsetFront {u : FrontUpset} : Steady a (e.upsetFront u) := h.front

theorem Steady.upsetBody {u : BodyUpset} : Steady a (e.upsetBody u) := by
  unfold Engine.upsetBody
  exact .ite h h.body

theorem Steady.strike {u : Upsets} : Steady a (e.strike u) :=
  (h.forEach fun _ {_} h => h.upsetFront).forEach fun _ {_} h => h.upsetBody

theorem Steady.copyPair {m : Remap} : Steady a (e.copyPair k r m) := by
  unfold Engine.copyPair
  exact .ite h.readBody.bump.bulb.rewriteLine h

theorem Steady.copyRemap {n : Nat} : Steady a (e.copyRemap k r n) := by
  induction n generalizing e with
  | zero => exact h
  | succ n ih =>
    unfold Engine.copyRemap
    split
    · exact h
    · exact .ite h (ih h.copyPair)

/-! ### Completions -/

theorem Steady.issueCq {n : Nat} : Steady a (e.issueCq k r n) :=
  h.of_eq (Engine.issueCq_beat ..) (Engine.issueCq_keys ..) (Engine.issueCq_dbg ..)

theorem Steady.completeOne {id : JobId} {code : Code} {plan : Bool} {result : List Byte} : Steady a (e.completeOne k r id code plan result) :=
  h.of_eq (Engine.completeOne_beat ..) (Engine.completeOne_keys ..) (Engine.completeOne_dbg ..)

theorem Steady.endDrains : Steady a (e.endDrains k r) :=
  h.of_eq (Engine.endDrains_beat ..) (Engine.endDrains_keys ..) (Engine.endDrains_dbg ..)

theorem Steady.completeWith {id : JobId} {code : Code} {plan : Bool} {result : List Byte} : Steady a (e.completeWith k r id code plan result) :=
  h.completeOne.endDrains

theorem Steady.complete {id : JobId} {code : Code} {result : List Byte} : Steady a (e.complete k r id code result) := h.completeWith

/-! ### Sending frames -/

theorem Steady.takeLink {p n : Nat} {ts : List Nat} : Steady a (e.takeLink p ts n) := by
  induction ts generalizing e n with
  | nil => exact h
  | cons t ts ih => exact ih h.budget

theorem Steady.chargeLink {p t n : Nat} : Steady a (e.chargeLink p t n) := h.takeLink

theorem Steady.putFrame {t i p : Nat} {id : Word} {key : BitVec 256} {f : Frame} : Steady a (e.putFrame r t i p id key f) := by
  unfold Engine.putFrame
  exact h.emit.bump.onPort

theorem Steady.sendHead {t i p : Nat} : Steady a (e.sendHead r t i p) := by
  unfold Engine.sendHead
  dsimp only
  split
  · exact h
  · exact h.onPort.chargeLink.putFrame.bump

theorem Steady.pumpPort {t i p fuel : Nat} : Steady a (e.pumpPort r t i p fuel) := by
  induction fuel generalizing e with
  | zero => exact h
  | succ fuel ih =>
    unfold Engine.pumpPort
    exact .ite (ih h.sendHead) h

theorem Steady.pump {t i p : Nat} : Steady a (e.pump r t i p) := h.pumpPort
theorem Steady.sendSeq {t i p : Nat} {f : Frame} : Steady a (e.sendSeq r t i p f) := h.onPort.pump

/-! ### Units -/

theorem Steady.takeOut {x : UnitKind} {l : Nat} : Steady a (e.takeOut k r x l) := by
  unfold Engine.takeOut
  refine .ite h ?_
  have hmarked := (h.body (x := e.body.markBad x (e.units.at x l).phys)).bump (o := Ctr.sparesUsed) (n := 1)
  dsimp only
  split
  · exact hmarked.units
  · exact hmarked.units.raise

theorem Steady.coreFault {t : Option TenantNo} {f : CoreFault} : Steady a (e.coreFault k r t f) := by
  unfold Engine.coreFault
  exact .ite h.raise.bump.takeOut h.raise.bump.takeOut

theorem Steady.coreFaults {t : Option TenantNo} {fs : List CoreFault} : Steady a (e.coreFaults k r t fs) :=
  h.forEach fun _ {_} h => h.coreFault

end

end Sys2Proof.Machine

/-!
PROOFS. The running cut, its guard and its destinations leave the beat, the keys and the DBG port.
-/

namespace Sys2Proof.Machine

section
variable {a e : Engine} {k : Kit} {r : Regs} (h : Steady a e)

include h

/-! ### Jobs, holds and windows -/

theorem Steady.finishJob {id : Option JobId} {code : Code} {plan : Bool} {result : List Byte} :
    Steady a (e.finishJob k r id code plan result) := by
  cases id with
  | some x => exact h.streams.completeWith
  | none => exact h.setRing

theorem Steady.endJob {p : MemFor → Bool} {id : Option JobId} {code : Code} {plan : Bool} {result : List Byte} :
    Steady a (e.endJob k r p id code plan result) := by
  unfold Engine.endJob
  exact .ite h.mem h.mem.finishJob

theorem Steady.onRange {n : Nat} {f : Range → Range} : Steady a (e.onRange n f) := by
  unfold Engine.onRange
  split
  · exact h.guard
  · exact h

theorem Steady.releaseHolds {p : Hold → Bool} : Steady a (e.releaseHolds p) := by
  unfold Engine.releaseHolds
  exact (h.forEach fun _ {_} h => h.emit.bump.drawn).onGuard

theorem Steady.waitGuard {n granule chunk : Nat} : Steady a (e.waitGuard n granule chunk) := by
  unfold Engine.waitGuard
  exact h.onGuard.bump.drawn

theorem Steady.waitOldest : Steady a (e.waitOldest r) := by
  unfold Engine.waitOldest
  split
  · split
    · split
      · exact h.waitGuard
      · exact h
    · exact h
  · exact h

theorem Steady.writeBack {e' : Engine} (he : e.writeBack k r = some e') : Steady a e' := by
  unfold Engine.writeBack at he
  split at he
  · cases he
  · split at he
    · dsimp only at he
      split at he
      · cases he
      · cases he
        exact h.readFront.budget.memWrite
    · cases he

theorem Steady.pumpBack {fuel : Nat} : Steady a (e.pumpBack k r fuel) := by
  induction fuel generalizing e with
  | zero => exact h
  | succ fuel ih =>
    unfold Engine.pumpBack
    split
    next e' he => exact ih (h.writeBack he)
    next => exact h.waitOldest

theorem Steady.pumpWindows : Steady a (e.pumpWindows k r) := h.pumpBack

/-! ### Runs and shards -/

theorem Steady.pipeRead {ls : List FrontLine} : Steady a (e.pipeRead k r ls).2 := h.same (same_pipeRead ..)

theorem Steady.readOp {run : Running} {op : DestOp} : Steady a (e.readOp k r run op).2 := by
  unfold Engine.readOp
  split
  · exact h.pipeRead
  · exact h

theorem Steady.countNarrowing {t : Nat} {steps : List StepAt} {seed : Word} {src : List MemBeat} :
    Steady a (e.countNarrowing t steps seed src) := by
  unfold Engine.countNarrowing
  exact h.bump.bump.bump

theorem Steady.countEncoded {t w : Nat} {modes : List SlotMode} : Steady a (e.countEncoded t modes w) := h.same (same_countEncoded ..)

theorem Steady.seedOf {steps : List StepAt} : Steady a (e.seedOf steps).2 := by
  unfold Engine.seedOf
  split
  · exact h
  · split
    · exact h
    · exact h.drawn

theorem Steady.releaseSource {kind : SrcKind} : Steady a (e.releaseSource kind) := h.onRun fun _ h => h.onFront

theorem Steady.endRun {s : Source} {run : Running} : Steady a (e.endRun r s run) := by
  unfold Engine.endRun
  exact .ite h.setRun h.seedOf.countNarrowing.countEncoded.bump.setRun.releaseSource.bump

theorem Steady.endRuns : Steady a (e.endRuns k r).2 := by
  unfold Engine.endRuns
  split
  · exact h
  · refine List.foldlRecOn (motive := fun x : Code × Engine => Steady a x.2) _ _ h fun x hx s _ => ?_
    exact .ite_snd hx (.ite_snd hx.pipeRead (hx.pipeRead.onRun fun _ h => h.endRun))

theorem Steady.endShard {room : Room} {run : Running} : Steady a (e.endShard k r room run) := by
  unfold Engine.endShard
  exact h.setRun

theorem Steady.endShards : Steady a (e.endShards k r) :=
  h.onRun fun _ h => h.forEach fun _ {_} h => h.onRun fun _ h => .ite h.endShard h

/-! ### The body copy -/

theorem Steady.copyStep : Steady a (e.copyStep r) := by
  unfold Engine.copyStep
  split
  · exact h
  · refine .ite h ?_
    split
    · exact .ite (.bulb (.ite h h.setKept)) h
    · exact .ite h.setKept.bulb h.setKept.onFront.bulb.pushBodyWrite

theorem Steady.copySteps {fuel : Nat} : Steady a (e.copySteps r fuel) := by
  induction fuel generalizing e with
  | zero => exact h
  | succ fuel ih => exact ih h.copyStep

theorem Steady.copyPump : Steady a (e.copyPump r) := h.copySteps

theorem Steady.fillCopy {run : Running} : Steady a (e.fillCopy r run) := by
  unfold Engine.fillCopy
  exact h.bulb.copyPump

theorem Steady.dropCopy {run : Running} : Steady a (e.dropCopy r run) := by
  unfold Engine.dropCopy
  exact h.bulb.copyPump

/-! ### How a cut ends -/

theorem Steady.freeCut {run : Running} : Steady a (e.freeCut run) := by
  unfold Engine.freeCut
  exact (h.releaseHolds.forEach fun _ {_} h => h.onRange).onGuard.onFront.mem

theorem Steady.endCut {code : Code} : Steady a (e.endCut k r code) := by
  unfold Engine.endCut
  refine h.onRun fun run h => ?_
  have hfree : Steady a (((e.broadcastTenant bcDisarm run.tenant 0).freeCut run).dropCopy r run) := h.broadcastTenant.freeCut.dropCopy
  refine .pumpWindows (.endJob ?_)
  exact hfree.of_eq rfl rfl rfl

theorem Steady.commitCut {run : Running} : Steady a (e.commitCut k r run) := by
  unfold Engine.commitCut
  exact h.broadcastTenant.freeCut.cut.bump.endJob

/-! ### Destinations -/

theorem Steady.issueHost {t : TenantNo} {ws : List (Nat × List Byte)} : Steady a (e.issueHost k t ws).2 := by
  induction ws generalizing e with
  | nil => exact h
  | cons w ws ih =>
    unfold Engine.issueHost
    dsimp only
    split
    · exact ih h.chargeCut.memWrite
    · exact h

theorem Steady.startXchg {run : Running} {i p : Nat} {op : DestOp} : Steady a (e.startXchg r run i p op) := by
  unfold Engine.startXchg
  exact h.pollen.sendSeq

theorem Steady.pumpPeer {i fuel : Nat} : Steady a (e.pumpPeer r i fuel) := by
  induction fuel generalizing e with
  | zero => exact h
  | succ fuel ih =>
    unfold Engine.pumpPeer
    split
    · exact h
    · split
      · exact h
      · split
        · exact .ite (ih h.setRun.startXchg) h
        · exact h

theorem Steady.pumpHost {d : Dest} : Steady a (e.pumpHost k r d) :=
  h.onRun fun run h => by
    split
    · exact h
    · split
      · exact h
      next op _ _ =>
        have hread {c : Prop} [Decidable c] : Steady a (if c then ((0 : Code), e) else e.readOp k r run op).2 := .ite_snd h h.readOp
        exact .ite h (.ite hread.endCut hread.issueHost.setRun)

theorem Steady.beginManifest {run : Running} : Steady a (e.beginManifest k r run) := by
  unfold Engine.beginManifest
  exact h.setRun.cut

theorem Steady.signDigest {digest : BitVec 384} : Steady a (e.signDigest digest).2 := by
  unfold Engine.signDigest
  dsimp only
  split
  · exact h.drewN.bump
  · split
    · exact h.drewN.bump
    · exact h.drewN

theorem Steady.beginRecord {run : Running} : Steady a (e.beginRecord k r run) := by
  unfold Engine.beginRecord
  refine .ite h ?_
  have hsign := h.signDigest (digest := sha3_384 (recordHead e.keys.uid run run.manifest))
  dsimp only
  split
  next e' he =>
    rw [he] at hsign
    exact hsign.setRun.fillCopy
  next e' he =>
    rw [he] at hsign
    exact hsign.raise.endCut

theorem Steady.tryCommit {run : Running} : Steady a (e.tryCommit k r run) := by
  unfold Engine.tryCommit
  exact .ite h (.ite h.setKept.commitCut (.ite h h.setRun.pushBodyWrite))

theorem Steady.pumpFrozen : Steady a (e.pumpFrozen k r) := by
  unfold Engine.pumpFrozen
  have hruns : Steady a (if (e.endRuns k r).1 ≠ 0 then (e.endRuns k r).2.endCut k r (e.endRuns k r).1 else (e.endRuns k r).2.endShards k r) :=
    .ite h.endRuns.endCut h.endRuns.endShards
  have hmanifest := hruns.onRun (f := fun run e => if e.shardsDone run then e.beginManifest k r run else e) fun _ h => .ite h.beginManifest h
  refine ((hmanifest.onRun fun _ h => h.beginRecord).onRun fun _ h => h.forEach fun d {_} h => ?dest).onRun fun _ h => h.tryCommit
  case dest =>
    split
    · exact h.pumpPeer
    · exact h.pumpHost

theorem Steady.cutPump : Steady a (e.cutPump k r) := by
  unfold Engine.cutPump
  exact .ite h h.pumpFrozen

/-! ### The guard's reads -/

theorem Steady.readHeld {g : Range} {n granule chunk : Nat} : Steady a (e.readHeld k g n granule chunk) := by
  unfold Engine.readHeld
  exact h.onGuard.forEach fun _ {_} h => .ite h h.budget.spendMem.memReadOn

theorem Steady.readChunk {g : Range} {n granule chunk : Nat} {prio : BitVec 2} : Steady a (e.readChunk k g n granule chunk prio) := by
  unfold Engine.readChunk
  exact h.onGuard.chargeCut.memReadOn

theorem Steady.pumpHeld {fuel : Nat} : Steady a (e.pumpHeld k fuel) := by
  induction fuel generalizing e with
  | zero => exact h
  | succ fuel ih =>
    unfold Engine.pumpHeld
    split
    · exact h
    · split
      · exact h
      · exact .ite (ih h.readHeld) h

theorem Steady.makeRoom {run : Running} : Steady a (e.makeRoom run) := by
  unfold Engine.makeRoom
  exact .ite h h.onFront

theorem Steady.guardPump : Steady a (e.guardPump k) :=
  h.onRun fun run h => by
    have hheld : Steady a ((e.makeRoom run).pumpHeld k 64) := h.makeRoom.pumpHeld
    refine .ite h (.ite hheld ?_)
    split
    · exact hheld
    · split
      · exact hheld
      · exact .ite hheld.readChunk hheld

end

end Sys2Proof.Machine

/-!
PROOFS. The vault, and a steward that goes on or is lost, leave the beat, the keys and the DBG port.
-/

namespace Sys2Proof.Machine

section
variable {a e : Engine} {k : Kit} {r : Regs} (h : Steady a e)

include h

/-! ### Packets out of a queue -/

theorem Steady.sendWord {q : Nat} {session : Option Nat} {w : BitVec 256} {payload : List MemBeat} :
    Steady a (e.sendWord k r q session w payload) := by
  cases session with
  | some n => exact h.sendSeq
  | none => exact h.same (sent_writeOut ..).same

theorem Steady.sendPacket {q : Nat} {session : Option Nat} {hdr : VaultHdr} {payload : List MemBeat} :
    Steady a (e.sendPacket k r q session hdr payload) := h.sendWord

theorem Steady.answerCmd {q : Nat} {c : VCmd} {code : Code} {arg : Nat} : Steady a (e.answerCmd k r q c code arg) := by
  have hcounted := (h.same (same_dropCmd q c e)).same (same_countCmd q c code arg _)
  exact (hcounted.same (same_clearDeferred c _)).sendPacket

theorem Steady.chooseCmd {path : Nat} {t : TenantNo} {xs : List Candidate} {x : Candidate} {e' : Engine}
    (he : e.chooseCmd path t xs = some (x, e')) : Steady a e' := by
  obtain ⟨as, rfl⟩ := Engine.chooseCmd_arbs he
  exact h.vault

theorem Steady.pumpCmd {q fuel : Nat} {tag : BitVec 8} : Steady a (e.pumpCmd k r q tag fuel) := by
  induction fuel generalizing e with
  | zero => exact h
  | succ fuel ih =>
    unfold Engine.pumpCmd
    split
    · exact h
    · split
      · exact .ite (ih h.onCmds.sendWord) h
      · exact .ite h.answerCmd h
      · exact h

theorem Steady.serveOut {q fuel : Nat} {session : Option Nat} : Steady a (e.serveOut k r q session fuel) := by
  induction fuel generalizing e with
  | zero => exact h
  | succ fuel ih =>
    unfold Engine.serveOut
    dsimp only
    split
    · exact .ite h.pumpCmd (ih h.pumpCmd)
    · split
      · exact h
      · split
        · exact h
        next he => exact ih (h.chooseCmd he).onCmds

theorem Steady.pumpOut {q : Nat} : Steady a (e.pumpOut k r q) := h.forEach fun _ {_} h => h.serveOut

theorem Steady.finishCmd {q arg : Nat} {c : VCmd} {data : List MemBeat} {code : Code} : Steady a (e.finishCmd k r q c data code arg) := by
  unfold Engine.finishCmd
  exact h.onCmds.onFront.pumpOut

/-! ### Commands carried out -/

theorem Steady.rewrite {key : FrontKey} : Steady a (e.rewrite k r key) := by
  unfold Engine.rewrite
  split
  · exact (Steady.readFront h.vault).pushBodyWrite
  · exact h.vault

theorem Steady.readDest {sp : Space} {v : VerifyReads} {ns : List (Nat × Nat)} : Steady a (e.readDest k r sp v ns).2.2 := by
  induction ns generalizing e with
  | nil => exact h
  | cons n ns ih =>
    show Steady a (Engine.readDest k r sp v ns _).2.2
    refine ih ?_
    cases sp with
    | body t => exact h.readBody
    | _ =>
      cases hline : v.reads.window[n.1]? with
      | none => exact h
      | some x => cases x <;> exact h

theorem Steady.endVerify {q : Nat} {c : VCmd} {v : VerifyReads} : Steady a (e.endVerify k r q c v) := by
  unfold Engine.endVerify
  dsimp only
  split
  · exact h.readDest.finishCmd
  · exact .ite h.readDest.coreFaults.finishCmd (.ite h.readDest.coreFaults.finishCmd h.readDest.coreFaults.finishCmd)

theorem Steady.endWait {q : Nat} {c : VCmd} : Steady a (e.endWait k r q c) := by
  unfold Engine.endWait
  split
  · exact h.finishCmd
  · split
    · exact h.endVerify
    · exact h.finishCmd

theorem Steady.endWaits : Steady a (e.endWaits k r) := h.forEach fun _ {_} h => h.forEach fun _ {_} h => h.endWait

theorem Steady.beginFlush {q : Nat} {c : VCmd} {verify : Option VerifyReads} : Steady a (e.beginFlush k r q c verify) := by
  unfold Engine.beginFlush
  exact (h.vault.forEach fun _ {_} h => h.rewrite).onCmds.pumpWindows.endWaits

theorem Steady.serveRead {q : Nat} {c : VCmd} {window : List LineRead} : Steady a (e.serveRead k r q c window) := by
  obtain ⟨_, _, _, e', he, -, hsame⟩ := Engine.serveRead_finishes k r q c window e
  rw [he]
  exact (h.same hsame).finishCmd

theorem Steady.acceptCmd {q : Nat} {t : TenantNo} {session : Option Nat} {hdr : VaultHdr} {rsv : Bool} {payload : List MemBeat}
    {act : VCmd → Engine → Engine} (hact : ∀ c {e}, Steady a e → Steady a (act c e)) :
    Steady a (e.acceptCmd k r q t session hdr rsv payload act) := by
  unfold Engine.acceptCmd
  split
  · exact h.bump.sendPacket
  · exact hact _ (Steady.onCmds h.vault)

theorem Steady.startHeld {q : Nat} : Steady a (e.startHeld k r q) := by
  unfold Engine.startHeld
  exact (h.when fun h => h.setVq).forEach fun _ {_} h => h.acceptCmd fun _ {_} h =>
    .ite h.serveRead (.ite h.beginFlush (.ite h.beginFlush (.ite h.finishCmd h)))

theorem Steady.startAllHeld : Steady a (e.startAllHeld k r) := h.when fun h => h.forEach fun _ {_} h => h.startHeld

/-! ### The IN window -/

theorem Steady.failPacket {q n : Nat} {code : Code} {hdr : VaultHdr} : Steady a (e.failPacket k r q n code hdr) := by
  unfold Engine.failPacket
  exact h.setVq.bump.sendPacket

theorem Steady.frameHeader {q : Nat} {x : LineRead} : Steady a (e.frameHeader k r q x).1 := by
  unfold Engine.frameHeader
  cases x with
  | ok d => exact .ite_fst h.setVq (.ite_fst (.ite_fst h.setVq.failPacket h.setVq) (.ite_fst h.setVq h.setVq))
  | memError => exact .ite_fst h.setVq.drawn.failPacket h.setVq
  | poison => exact .ite_fst h.setVq.drawn.failPacket h.setVq

theorem Steady.framePayload {q : Nat} {x : LineRead} : Steady a (e.framePayload k r q x).1 := by
  unfold Engine.framePayload
  cases x with
  | ok d => exact h.setVq
  | memError => exact .ite_fst h.failPacket h.setVq
  | poison => exact .ite_fst h.failPacket h.setVq

theorem Steady.frameIn {q : Nat} {xs : List LineRead} : Steady a (e.frameIn k r q xs) := by
  induction xs generalizing e with
  | nil => exact h
  | cons x xs ih =>
    unfold Engine.frameIn
    have hline {c : Prop} [Decidable c] : Steady a (if c then e.frameHeader k r q x else e.framePayload k r q x).1 :=
      .ite_fst h.frameHeader h.framePayload
    exact .ite h (.ite (ih hline) (.ite hline.setVq hline))

theorem Steady.resumeIn {q : Nat} : Steady a (e.resumeIn k r q) := by
  unfold Engine.resumeIn
  exact h.when fun h => h.setVq.frameIn

/-! ### The steward -/

theorem Steady.resumeFrom {m : Mirror} : Steady a (e.resumeFrom r m) := h.of_eq rfl rfl rfl

theorem Steady.resumeHost : Steady a (e.resumeHost k r) := by
  unfold Engine.resumeHost
  exact ((h.forEach fun _ {_} h => h.issueCq).forEach fun _ {_} h => h.pumpOut.resumeIn).startAllHeld

theorem Steady.grantTo {x : Half} : Steady a (e.grantTo x) := by
  unfold Engine.grantTo
  exact (h.onReferee.when fun h => h.bump).when fun h => h.vault

theorem Steady.rollback : Steady a (e.rollback k r) := by
  unfold Engine.rollback
  split
  · exact h.body.onReferee.raise
  · exact h

theorem Steady.stewardGone {missed : Bool} : Steady a (e.stewardGone k r missed) := by
  unfold Engine.stewardGone
  split
  · exact h
  · refine .ite (.rollback (.when (.resumeHost (.onReferee (.grantTo ?_))) fun h => h.raise)) h.onReferee.raise.rollback
    split
    · exact h.resumeFrom
    · exact h

theorem Steady.claimLoses {x : Half} : Steady a (e.claimLoses k r x) := by
  unfold Engine.claimLoses
  exact .ite h.raise.bump.stewardGone h.raise.bump.onReferee

theorem Steady.grantClaim {x : Half} : Steady a (e.grantClaim k r x) := by
  unfold Engine.grantClaim
  exact h.grantTo.onReferee.power.resumeHost

theorem Steady.settleClaims : Steady a (e.settleClaims k r) := by
  unfold Engine.settleClaims
  extract_lets ep cs e0 never good e1
  have h1 : Steady a e1 := h.onReferee.forEach fun _ {_} h => h.claimLoses
  split
  · split
    · exact h1
    · exact h1.grantClaim
  next x _ =>
    refine .ite h1.grantClaim ?_
    have hlost : Steady a (e1.forEach (good.filter fun c => c.1 != x) fun c e => e.claimLoses k r c.1) :=
      h1.forEach fun _ {_} h => h.claimLoses
    exact .ite hlost.onReferee.resumeHost hlost

theorem Steady.countMiss {x : Half} : Steady a (e.countMiss x) := h.referee
theorem Steady.mirrorEdge : Steady a e.mirrorEdge := h.referee

theorem Steady.enterRecovery : Steady a (e.enterRecovery k r) := by
  unfold Engine.enterRecovery
  exact .ite (h.fox.when fun h => h.stewardGone) h

end

end Sys2Proof.Machine

/-!
PROOFS. The beat edge (R35, R37, R38, R371): what it makes of the beat, and that everything else that an edge does leaves the beat, the keys and the
DBG port.
-/

namespace Sys2Proof.Machine

section
variable {a e : Engine} {k : Kit} {r : Regs} {i : EdgeInput} (h : Steady a e)

include h

/-! ### Before the beat moves on -/

theorem Steady.countBeat : Steady a e.countBeat := by
  unfold Engine.countBeat
  exact (h.when fun h => h.bump).when fun h => h.bump

theorem Steady.clearEdge {cc : Nat} : Steady a (e.clearEdge cc) := by
  unfold Engine.clearEdge
  exact .ite h (h.of_eq rfl rfl rfl)

theorem Steady.releaseBefore {cc t : Nat} : Steady a (e.releaseBefore cc t) := by
  unfold Engine.releaseBefore
  dsimp only
  split
  · exact h
  · split
    · exact h.setTenant
    · exact .ite h.count.setTenant h.setTenant

/-! ### After it -/

theorem Steady.latchEdge : Steady a (e.latchEdge i) := by
  unfold Engine.latchEdge
  dsimp only
  split
  · exact h.count
  · exact h.of_eq rfl rfl rfl

theorem Steady.releaseAfter {t : Nat} : Steady a (e.releaseAfter k r t) := by
  unfold Engine.releaseAfter
  split
  · exact h
  · refine .ite ?_ h
    dsimp only
    split
    · exact h.setTenant.drawn.complete
    · exact h.setTenant

theorem Steady.throttleEdge : Steady a (e.throttleEdge k r i) := by
  unfold Engine.throttleEdge
  exact h.power.when fun h => h.raise

theorem Steady.trimEdge : Steady a (e.trimEdge k r i) := by
  unfold Engine.trimEdge
  exact h.power.when fun h => h.raise

theorem Steady.supplyEdge : Steady a (e.supplyEdge k r i) := h.when fun h => h.raise

theorem Steady.grantBursts : Steady a (e.grantBursts r) := h.forEach fun _ {_} h => h.setRing

theorem Steady.spendBulb {n : Nat} : Steady a (e.spendBulb n) := h.budget

theorem Steady.bodyPatrol : Steady a (e.bodyPatrol k r) := by
  unfold Engine.bodyPatrol
  exact .ite h.bulb h.readBody.bulb.spendBulb

theorem Steady.frontPatrol : Steady a (e.frontPatrol k r) := by
  unfold Engine.frontPatrol
  dsimp only
  split
  · exact h.onFront.spendBulb
  · exact h.onFront.readFront.spendBulb

theorem Steady.calibrated {p : Nat} {outcomes : List CalOutcome} : Steady a (e.calibrated k r p outcomes) := by
  unfold Engine.calibrated
  split
  · exact h
  · exact h.body.when fun h => h.countWriteFail.raise

theorem Steady.calBeat : Steady a (e.calBeat k r) := by
  unfold Engine.calBeat
  split
  · exact h
  · refine .ite h (.spendBulb (.when ?_ fun h => h.calibrated))
    exact h.of_eq rfl rfl rfl

theorem Steady.remapBeat : Steady a (e.remapBeat k r) := by
  unfold Engine.remapBeat
  exact .ite h h.copyRemap.spendBulb

theorem Steady.pollenEdge {cc : Nat} : Steady a (e.pollenEdge r cc) := h.pollen
theorem Steady.ageCmds : Steady a e.ageCmds := h.vault

theorem Steady.planEdge : Steady a e.planEdge := by
  unfold Engine.planEdge
  exact .ite h.cut h

theorem Steady.pumpLink {t n p : Nat} : Steady a (e.pumpLink k r t n p) := h.pump.pumpOut

theorem Steady.serveSess {t n : Nat} : Steady a (e.serveSess k r t n) := by
  unfold Engine.serveSess
  exact (h.forEach fun _ {_} h => .ite h.pumpLink h).cutPump

theorem Steady.resumeBeat : Steady a (e.resumeBeat k r) := by
  unfold Engine.resumeBeat
  exact (h.cutPump.guardPump.forEach fun _ {_} h => .ite h.serveSess h).pumpWindows

end

/-! ### The edge -/

/-- The beat moves on alike in both engines: it does not look at the cycle that stamps events. -/
theorem Steady.beatMoves {a e : Engine} (h : Steady a e) (r : Regs) (i : EdgeInput) (clamped : Bool) :
    Steady { a with beat := a.beat.edge r i clamped } { e with beat := e.beat.edge r i clamped } where
  beat := by
    dsimp only
    rw [h.beat]
    rfl
  keys := h.keys
  dbg := h.dbg

/-- An edge moves the beat on, and leaves it otherwise. -/
theorem steady_edge (k : Kit) (r : Regs) (i : EdgeInput) (clamped : Bool) (e : Engine) :
    Steady { e with beat := e.beat.edge r i clamped } (e.edge k r i clamped) := by
  unfold Engine.edge
  extract_lets ended begun latched released settled mirrored cooled supplied granted struck patrolled
  have hended : Steady e ended := (Steady.refl e).countBeat.clearEdge.forEach fun _ {_} h => h.releaseBefore
  clear_value ended
  have hbegun : Steady _ begun := hended.beatMoves r i clamped
  clear_value begun
  have hlatched : Steady _ latched := hbegun.countMiss.countMiss.latchEdge
  have hreleased : Steady _ released := hlatched.broadcast.forEach fun _ {_} h => h.releaseAfter
  have hsettled : Steady _ settled := hreleased.enterRecovery.onReferee.settleClaims
  have hmirrored : Steady _ mirrored := hsettled.when fun h => h.raise
  have hcooled : Steady _ cooled := (hmirrored.when fun h => h.raise).throttleEdge
  have hsupplied : Steady _ supplied := hcooled.trimEdge.supplyEdge
  have hgranted : Steady _ granted := hsupplied.budget.grantBursts
  have hpatrolled : Steady _ patrolled := hgranted.strike.bodyPatrol.frontPatrol.calBeat.remapBeat
  exact hpatrolled.planEdge.pollenEdge.ageCmds.mirrorEdge.resumeBeat

end Sys2Proof.Machine

/-!
PROOFS. BEAT_NUM, BEAT_OFFSET, BEAT_SLIP and the run of clamps at an edge (R35, R37, R38, R371).
-/

namespace Sys2Proof.Machine

/-! ### The beat that an edge begins -/

/-- The number of the beat that an edge begins: one more, but at the first LOCKED edge after ACQUIRE (R37). -/
def Beat.next (i : EdgeInput) (b : Beat) : Dword := if b.firstEdgeDue then beatOf i.sysTime else b.num + 1

section
variable (r : Regs) (i : EdgeInput) (b : Beat)

theorem Beat.edge_offset : (b.edge r i false).offset = b.next i - beatOf i.sysTime := by
  unfold Beat.edge Beat.next
  cases b.firstEdgeDue
  · rfl
  · exact (BitVec.sub_self _).symm

theorem Beat.edge_offset_clamped {b : Beat} (h : b.firstEdgeDue = false) : (b.edge r i true).offset = b.offset := by
  unfold Beat.edge
  rw [h]
  rfl

theorem Beat.edge_slip_clamped : (b.edge r i true).slip.toNat = min (b.slip.toNat + 1) 0xFFFFFFFF := by
  have hlt := b.slip.isLt
  have hslip : (b.edge r i true).slip = if b.slip = BitVec.allOnes 32 then b.slip else b.slip + 1 := by simp [Beat.edge]
  rw [hslip]
  split
  next h => rw [h]; rfl
  next h =>
    have hne : b.slip.toNat ≠ 0xFFFFFFFF := fun hn => h (BitVec.eq_of_toNat_eq hn)
    rw [BitVec.toNat_add_of_lt (by simp; omega)]
    simp
    omega

theorem Beat.edge_clampRun_clamped : (b.edge r i true).clampRun.toNat = min (b.clampRun.toNat + 1) 255 := by
  have hlt := b.clampRun.isLt
  have hrun : (b.edge r i true).clampRun = if b.clampRun = 255 then 255 else b.clampRun + 1 := rfl
  rw [hrun]
  split
  next h => rw [h]; rfl
  next h =>
    have hne : b.clampRun.toNat ≠ 255 := fun hn => h (BitVec.eq_of_toNat_eq hn)
    rw [BitVec.toNat_add_of_lt (by simp; omega)]
    simp
    omega

end

/-! ### The commands -/

section
variable {s : State} {i : EdgeInput}

theorem exec_beatEdge (hedge : s.eng.edgeAt i.cc = true) (hpower : s.eng.power.state ≠ 2) :
    exec (.beatEdge i) s = .next (withEng s (s.eng.edge s.kit s.regs i false)) := by
  show execBeatEdge i s = _
  unfold execBeatEdge
  rw [State.eff_eq, hedge, if_neg hpower]
  rfl

theorem exec_beatEdge_p2 (hpower : s.eng.power.state = 2) : exec (.beatEdge i) s = .next (withEng s (s.eng.edgeP2 i)) := by
  have hedge : s.eng.edgeAt i.cc = true := if_pos hpower
  show execBeatEdge i s = _
  unfold execBeatEdge
  rw [State.eff_eq, hedge, if_pos hpower]
  rfl

theorem exec_beatEdgeClamped {early : Bool} (hclamp : s.eng.clampAt early i.cc = true) :
    exec (.beatEdgeClamped early i) s = .next (withEng s (s.eng.edge s.kit s.regs i true)) := by
  show execBeatEdgeClamped early i s = _
  unfold execBeatEdgeClamped
  rw [State.eff_eq, if_pos hclamp]
  rfl

theorem same_edgeP2 (i : EdgeInput) (e : Engine) : Same [.beat, .power] e (e.edgeP2 i) := by simp [Same, Engine.edgeP2]

end

end Sys2Proof.Machine

namespace Sys2Proof

open Machine

/-- Settles O21: an unclamped edge, an edge in P2, and a clamped one. -/
theorem beatNumberRisesAtEveryEdge : Obligations.BeatNumberRisesAtEveryEdge := by
  unfold Obligations.BeatNumberRisesAtEveryEdge
  refine ⟨fun s i hedge hpower => ?plain, fun s i hpower => ?p2, fun s early i hclamp => ?clamped⟩
  case plain =>
    have hexec := exec_beatEdge hedge hpower
    obtain ⟨hbeat, hkeys, hdbg⟩ := steady_edge s.kit s.regs i false s.eng
    generalize s.eng.edge s.kit s.regs i false = e at hexec hbeat hkeys hdbg
    have hnum : e.beat.num = s.eng.beat.next i := congrArg Beat.num hbeat
    have hoffset : e.beat.offset = s.eng.beat.next i - beatOf i.sysTime := (congrArg Beat.offset hbeat).trans (Beat.edge_offset s.regs i _)
    exact ⟨_, hexec, hnum, by rw [withEng_eng, hoffset, hnum], (congrArg Beat.slip hbeat :), (congrArg Beat.clampRun hbeat :),
      (congrArg Beat.timeNow hbeat :), (congrArg Beat.mode hbeat :), (congrArg Beat.cc hbeat :), (congrArg Beat.sealed hbeat :), rfl, hkeys, hdbg⟩
  case p2 => exact ⟨_, exec_beatEdge_p2 hpower, rfl, rfl, only_of_same (same_edgeP2 i s.eng)⟩
  case clamped =>
    have hexec := exec_beatEdgeClamped hclamp
    obtain ⟨hbeat, hkeys, hdbg⟩ := steady_edge s.kit s.regs i true s.eng
    generalize s.eng.edge s.kit s.regs i true = e at hexec hbeat hkeys hdbg
    have hslip : e.beat.slip = (s.eng.beat.edge s.regs i true).slip := by rw [hbeat]
    have hrun : e.beat.clampRun = (s.eng.beat.edge s.regs i true).clampRun := by rw [hbeat]
    exact ⟨_, hexec, congrArg Beat.num hbeat, fun hfirst => (congrArg Beat.offset hbeat).trans (Beat.edge_offset_clamped s.regs i hfirst),
      by rw [withEng_eng, hslip, Beat.edge_slip_clamped], by rw [withEng_eng, hrun, Beat.edge_clampRun_clamped], rfl, hkeys, hdbg⟩

end Sys2Proof

/-!
PROOFS. What a broadcast does at a bud (R45, R50, R77, R81, R394, R396): the bud hears the next broadcast of its code, or answers bad
parity with a poisoned acknowledgement.
-/

namespace Sys2Proof.Machine

/-! ### The pause and the context (R77, R394) -/

/-- Outside a pause there is no pause to end (R77). -/
theorem Engine.endPause_none {e : Engine} (h : e.cut.phase ≠ .pause) : e.endPause = e := by
  unfold Engine.endPause Engine.onRun
  split
  · exact if_neg fun hc => h hc.1
  · rfl

/-- The end of a pause touches the cut alone. -/
theorem same_endPause (e : Engine) : Same [.cut] e e.endPause := by
  unfold Engine.endPause Engine.onRun
  split
  · dsimp only
    split
    · simp [Same]
    · exact Same.refl _ e
  · exact Same.refl _ e

/-- The RESUME of the last covered bud ends the pause (R77; log 22). -/
theorem Engine.endPause_last {e : Engine} {run : Running} {tile : Nat} (hrun : e.cut.run = some run) (hphase : e.cut.phase = .pause)
    (htiles : run.tiles = [tile]) (hseen : run.resumeAt ≤ (e.bud tile).seen) : e.endPause.cut = { e.cut with phase := .drain } := by
  unfold Engine.endPause Engine.onRun
  rw [hrun]
  dsimp only
  rw [if_pos ⟨hphase, by simp [htiles, hseen]⟩, hrun]

theorem ctxLines_getElem? {i : Nat} (h : i < 4) (ctx : BitVec 2048) :
    (ctxLines ctx)[i]? = some { kind := .context, line := i, data := ctx.extractLsb' (512 * i) 512 } := by
  simp [ctxLines, h]

end Sys2Proof.Machine

namespace Sys2Proof

open Machine

/-! ### A command that names a tile -/

/-- A command on a unit that exists changes the engine alone. -/
theorem needs_eff {ok : Bool} (h : ok = true) (f : Kit → Regs → Engine → Engine) (s : State) :
    (s.needs ok fun s => s.eff f) = .next (withEng s (f s.kit s.regs s.eng)) := by
  rw [h]
  rfl

/-- A command that replaces one bud leaves every other bud and every other group. -/
theorem becomes_of_setBud {c : Instr} {s : State} {tile : Nat} {b : Bud} (h : exec c s = .next (withEng s (s.eng.setBud tile b))) :
    ∃ t, exec c s = .next t ∧ BudBecomes s t tile b ∧ Only [.buds] s t :=
  ⟨_, h, budBecomes_setBud rfl, only_of_same (same_setBud ..)⟩

/-! ### A bud hears a broadcast -/

/-- The bud of `tile` past the next broadcast on its way to it. -/
def heardBud (s : State) (tile : Nat) : Bud := { s.eng.bud tile with seen := (s.eng.bud tile).seen + 1 }

section
variable {s : State} {tile : Nat} {code : BitVec 4} {arg : BitVec 64} (h : Hears s tile code arg)

include h

theorem Hears.hear_good (act : BitVec 64 → Bud → Bud) :
    s.eng.hear code tile true act = s.eng.setBud tile (act arg (heardBud s tile)) := by
  obtain ⟨-, hstate, hnext⟩ := h
  unfold Engine.hear
  simp [hnext, hstate, heardBud]

theorem Hears.hear_bad (act : BitVec 64 → Bud → Bud) :
    s.eng.hear code tile false act = s.eng.setBud tile ((heardBud s tile).ack code true) := by
  obtain ⟨-, hstate, hnext⟩ := h
  unfold Engine.hear
  simp [hnext, hstate, heardBud]

end

/-- With bad parity every broadcast is answered with a poisoned acknowledgement alone (R396). -/
theorem HearsBy.exec_bad {s : State} {c : Instr} {tile : Nat} {code : BitVec 4} {arg : BitVec 64} (hby : HearsBy c tile code false)
    (h : Hears s tile code arg) (hphase : s.eng.cut.phase ≠ .pause) :
    exec c s = .next (withEng s (s.eng.setBud tile ((heardBud s tile).ack code true))) := by
  cases hby with
  | arm => exact (needs_eff h.1 _ s).trans (by rw [h.hear_bad])
  | freeze => exact (needs_eff h.1 _ s).trans (by rw [h.hear_bad])
  | disarm => exact (needs_eff h.1 _ s).trans (by rw [h.hear_bad])
  | release => exact (needs_eff h.1 _ s).trans (by rw [h.hear_bad])
  | scrub => exact (needs_eff h.1 _ s).trans (by rw [h.hear_bad])
  | beat => exact (needs_eff h.1 _ s).trans (by rw [h.hear_bad])
  | resume => exact (needs_eff h.1 _ s).trans (by rw [h.hear_bad, Engine.endPause_none (by exact hphase)])

/-! ### The broadcasts that move a bud between its states (R81) -/

section
variable {s : State} {tile : Nat} {arg : BitVec 64} (htenant : (heardBud s tile).tenant = argTenant arg)

include htenant

theorem exec_budArm (h : Hears s tile bcArm arg) (hidle : (s.eng.bud tile).state = .idle) : exec (.budArm tile true) s =
    .next (withEng s (s.eng.setBud tile { heardBud s tile with state := .armed, drained := 0 })) :=
  (needs_eff h.1 _ s).trans (by rw [h.hear_good, if_pos ⟨hidle, htenant⟩])

theorem exec_budDisarm (h : Hears s tile bcDisarm arg) : exec (.budDisarm tile true) s =
    .next (withEng s (s.eng.setBud tile { (heardBud s tile).discard with state := .idle })) :=
  (needs_eff h.1 _ s).trans (by rw [h.hear_good, if_pos htenant])

theorem exec_budRelease (h : Hears s tile bcRelease arg) (hdrained : (s.eng.bud tile).state = .drained) : exec (.budRelease tile true) s =
    .next (withEng s (s.eng.setBud tile { heardBud s tile with state := .idle })) :=
  (needs_eff h.1 _ s).trans (by rw [h.hear_good, if_pos ⟨hdrained, htenant⟩])

theorem exec_budScrub (h : Hears s tile bcScrub arg) : exec (.budScrub tile true) s =
    .next (withEng s (s.eng.setBud tile { ((heardBud s tile).ack bcScrub false).discard with state := .idle, drained := 0 })) :=
  (needs_eff h.1 _ s).trans (by rw [h.hear_good, if_pos (by exact htenant)])

/-- FREEZE takes the context of an ARMED bud into its latch (R394). -/
theorem exec_budFreeze (h : Hears s tile bcFreeze arg) (harmed : (s.eng.bud tile).state = .armed) (ctx : BitVec 2048) :
    exec (.budFreeze tile ctx true) s = .next (withEng s (s.eng.setBud tile (Bud.ack bcFreeze false
      { heardBud s tile with state := .frozen, latch := ctxLines ctx, buffer := [], up := [], resumed := false, earlyHeld := false }))) :=
  (needs_eff h.1 _ s).trans (by rw [h.hear_good, if_pos ⟨harmed, htenant⟩])

theorem exec_budResume (h : Hears s tile bcResume arg) : exec (.budResume tile true) s =
    .next (withEng s (s.eng.setBud tile { heardBud s tile with resumed := true }).endPause) :=
  (needs_eff h.1 _ s).trans (by rw [h.hear_good, if_pos htenant])

end

theorem exec_budBeat {s : State} {tile : Nat} {arg : BitVec 64} (h : Hears s tile bcBeat arg) : exec (.budBeat tile true) s =
    .next (withEng s (s.eng.setBud tile (Bud.ack bcBeat false { heardBud s tile with beat := arg.setWidth 52, cycle := 0 }))) :=
  (needs_eff h.1 _ s).trans (by rw [h.hear_good])

/-- Settles O23: each broadcast that moves a bud, and any with bad parity. -/
theorem broadcastsMoveTheirTenantsBuds : Obligations.BroadcastsMoveTheirTenantsBuds := by
  unfold Obligations.BroadcastsMoveTheirTenantsBuds
  refine ⟨fun s tile arg => ?good, fun s c tile code arg => ?bad⟩
  case good =>
    intro b htenant
    exact ⟨fun h hidle => becomes_of_setBud (exec_budArm htenant h hidle), fun h => becomes_of_setBud (exec_budDisarm htenant h),
      fun h hdrained => becomes_of_setBud (exec_budRelease htenant h hdrained), fun h => becomes_of_setBud (exec_budScrub htenant h)⟩
  case bad =>
    intro b hby h hphase
    exact becomes_of_setBud (hby.exec_bad h hphase)

/-! ### The pause, and the beat of a bud (R45, R77, R394) -/

/-- Settles O24: FREEZE, RESUME and BEAT at the bud that hears them. That the pause ends with the last RESUME is the model's choice (log 22). -/
theorem budsFreezeResumeAndLatch : Obligations.BudsFreezeResumeAndLatch := by
  unfold Obligations.BudsFreezeResumeAndLatch
  intro s tile arg b
  refine ⟨fun h harmed htenant ctx => ?freeze, fun h htenant => ?resume, fun h => becomes_of_setBud (exec_budBeat h)⟩
  case freeze =>
    obtain ⟨t, hexec, ⟨hbud, hother⟩, honly⟩ := becomes_of_setBud (exec_budFreeze htenant h harmed ctx)
    refine ⟨t, hexec, ?_⟩
    rw [hbud]
    exact ⟨rfl, fun i hi => ctxLines_getElem? hi ctx, rfl, rfl, hother, honly⟩
  case resume =>
    have hpause := same_endPause (s.eng.setBud tile { heardBud s tile with resumed := true })
    refine ⟨_, exec_budResume htenant h, budBecomes_setBud (hpause.groups.buds.resolve_left (by decide)),
      only_of_same (((same_setBud ..).mono (by decide)).trans (hpause.mono (by decide))), fun run hrun hphase htiles hseen => ?_⟩
    refine Engine.endPause_last hrun hphase htiles ?_
    rw [Engine.bud_setBud_same]
    exact hseen

end Sys2Proof

/-!
PROOFS. Accesses of a tile and drain reads at a FROZEN bud (R48, R80, R84 to R88).
-/

namespace Sys2Proof.Machine

/-! ### The lowest number -/

theorem lowestFrom_eq_some {p : Nat → Bool} {k fuel n : Nat} (hle : k ≤ n) (hlt : n < k + fuel) (hn : p n = true)
    (hbelow : ∀ m, k ≤ m → m < n → p m = false) : lowestFrom p k fuel = some n := by
  induction fuel generalizing k with
  | zero => omega
  | succ fuel ih =>
    unfold lowestFrom
    rcases Nat.eq_or_lt_of_le hle with rfl | hlt'
    · rw [if_pos hn]
    · rw [hbelow k (Nat.le_refl k) hlt', if_neg Bool.false_ne_true]
      exact ih (by omega) (by omega) fun m hm => hbelow m (by omega)

/-! ### Lines of a bud -/

theorem Bud.holds_iff {k : Kit} {tile line : Nat} {b : Bud} :
    b.holds k tile line = true ↔ line < k.linesOf tile ∧ b.drained.getLsbD line = false := by
  simp [Bud.holds]

theorem Bud.holds_eq_false {k : Kit} {tile line : Nat} {b : Bud} (h : line < k.linesOf tile → b.drained.getLsbD line = true) :
    b.holds k tile line = false := by
  rw [← Bool.not_eq_true, Bud.holds_iff]
  rintro ⟨hline, hdrained⟩
  exact absurd (h hline) (by simp [hdrained])

/-- A mark sets the bit of its line and no other. -/
theorem Bud.drained_mark {n : Nat} (hn : n < 1024) (line : Nat) (b : Bud) :
    (b.mark line).drained.getLsbD n = (b.drained.getLsbD n || n == line) := by
  have hbit : (BitVec.ofNat 1024 (1 <<< line)).getLsbD n = (n == line) := by
    rw [BitVec.getLsbD_ofNat, Nat.one_shiftLeft, Nat.testBit_two_pow, Bool.eq_iff_iff]
    simpa [hn] using eq_comm
  unfold Bud.mark
  rw [BitVec.getLsbD_or, BitVec.natCast_eq_ofNat, hbit]

/-- The line as it stands put into the copy-before-write buffer, drained and counted (R86). -/
def Bud.copied (line : Nat) (held : LineData) (b : Bud) : Bud :=
  { b.mark line with
    buffer := b.buffer ++ [{ kind := .cbw, line := line, data := held }]
    counts := { b.counts with cbw := b.counts.cbw + 1 } }

/-- An access of the tile that waits counted (R84, R88). -/
def Bud.stalled (b : Bud) : Bud := { b with counts := { b.counts with stall := b.counts.stall + 1 } }

/-! ### A write before RESUME (R80) -/

section
variable {tile : Nat} {held : Bool} {e : Engine} (k : Kit) (r : Regs)

/-- A write after RESUME, or one to a bud that is not FROZEN, is no early write. -/
theorem Engine.earlyWrite_late (hheld : (e.bud tile).earlyHeld = false) (hresumed : (e.bud tile).resumed = true) :
    e.earlyWrite k r tile held = e := by
  unfold Engine.earlyWrite
  simp [hheld, hresumed]

/-- A write that has been counted before RESUME only leaves its mark as it is to be. -/
theorem Engine.earlyWrite_marked (hheld : (e.bud tile).earlyHeld = true) :
    e.earlyWrite k r tile held = e.setBud tile { e.bud tile with earlyHeld := held } := by
  unfold Engine.earlyWrite
  simp [hheld]

/-- The bud with an early write counted, at the cycle of its stamp. -/
def Engine.earlyBud (tile : Nat) (held : Bool) (e : Engine) : Bud :=
  { e.bud tile with
    counts := { (e.bud tile).counts with early := (e.bud tile).counts.early + 1 }
    cycle := e.budCycle (e.bud tile)
    earlyHeld := held }

/-- An early write is counted and raises source 0x0B with the stamp of the bud. -/
theorem Engine.earlyWrite_early (hheld : (e.bud tile).earlyHeld = false) (hstate : (e.bud tile).state = .frozen)
    (hresumed : (e.bud tile).resumed = false) : e.earlyWrite k r tile held =
      (e.setBud tile (e.earlyBud tile held)).drawn.raiseAt k r 0x0B (some (e.bud tile).tenant) (e.budStamp (e.bud tile)) := by
  unfold Engine.earlyWrite
  dsimp only
  rw [if_neg (by simp [hheld]), if_pos ⟨hstate, by simp [hresumed]⟩]
  rfl

end

/-! ### A raise that a bud stamps (R48) -/

/-- A fixed source is a source of every configuration (R343). -/
theorem foxImplemented_of_fixed {src : Nat} (h : foxFixed.contains src = true) (k : Kit) : foxImplemented k src = true := by
  unfold foxImplemented
  rw [h]
  rfl

theorem Engine.raiseAt_fox {k : Kit} {src : Nat} (h : foxImplemented k src = true) (r : Regs) (t : Option TenantNo) (st : Dword) (e : Engine) :
    (e.raiseAt k r src t st).fox = e.fox.raise r src t st := by
  unfold Engine.raiseAt
  simp only [h, if_true]
  split <;> rfl

theorem same_raiseAt (k : Kit) (r : Regs) (src : Nat) (t : Option TenantNo) (st : Dword) (e : Engine) :
    Same [.fox, .count] e (e.raiseAt k r src t st) := by
  rw [Engine.raiseAt_eq]
  simp [Same]

theorem Engine.raiseAt_bud (k : Kit) (r : Regs) (src : Nat) (t : Option TenantNo) (st : Dword) (n : Nat) (e : Engine) :
    (e.raiseAt k r src t st).bud n = e.bud n := by
  rw [Engine.raiseAt_eq]
  rfl

/-- The record of a raise (R344). -/
theorem Fox.raise_log (r : Regs) (src : Nat) (t : Option TenantNo) (st : Dword) (f : Fox) :
    (tabFind (f.seq.toNat % 64) (f.raise r src t st).log).map (fun x => (x.source, x.tenant, x.stamp)) = some (BitVec.ofNat 8 src, t, st) := by
  have hseq : f.seq + 1 - 1 = f.seq := BitVec.add_sub_cancel ..
  unfold Fox.raise
  dsimp only
  rw [hseq, tabFind_set_same]
  rfl

/-! ### What a write before or after RESUME leaves -/

section
variable {tile : Nat} {e : Engine} (k : Kit) (r : Regs)

/-- After RESUME nothing is counted, and the mark of a write that has waited goes. -/
theorem Engine.earlyWrite_resumed (hresumed : (e.bud tile).resumed = true) :
    (e.earlyWrite k r tile false).bud tile = { e.bud tile with earlyHeld := false } ∧
      (∀ n, n ≠ tile → (e.earlyWrite k r tile false).bud n = e.bud n) ∧ Same [.buds] e (e.earlyWrite k r tile false) := by
  cases hheld : (e.bud tile).earlyHeld with
  | false =>
    rw [Engine.earlyWrite_late k r hheld hresumed, ← hheld]
    exact ⟨rfl, fun _ _ => rfl, Same.refl _ e⟩
  | true =>
    rw [Engine.earlyWrite_marked k r hheld]
    exact ⟨Engine.bud_setBud_same .., fun n hn => Engine.bud_setBud_ne hn .., same_setBud ..⟩

/-- Before RESUME the bud counts the write, and Foxglove records it with the bud's stamp. -/
theorem Engine.earlyWrite_unresumed {held : Bool} (hheld : (e.bud tile).earlyHeld = false) (hstate : (e.bud tile).state = .frozen)
    (hresumed : (e.bud tile).resumed = false) :
    (e.earlyWrite k r tile held).bud tile = e.earlyBud tile held ∧ (∀ n, n ≠ tile → (e.earlyWrite k r tile held).bud n = e.bud n) ∧
      (e.earlyWrite k r tile held).fox = e.fox.raise r 0x0B (some (e.bud tile).tenant) (e.budStamp (e.bud tile)) ∧
      Same [.buds, .fox, .count, .draws] e (e.earlyWrite k r tile held) := by
  have hset : Same [.buds, .fox, .count, .draws] e (e.setBud tile (e.earlyBud tile held)).drawn := by
    simp [Same, Engine.setBud, Engine.drawn]
  rw [Engine.earlyWrite_early k r hheld hstate hresumed]
  refine ⟨?_, fun n hn => ?_, Engine.raiseAt_fox (foxImplemented_of_fixed (by decide) k) .., hset.trans ((same_raiseAt ..).mono (by decide))⟩
  · rw [Engine.raiseAt_bud]
    exact Engine.bud_setBud_same ..
  · rw [Engine.raiseAt_bud]
    exact Engine.bud_setBud_ne hn ..

end

end Sys2Proof.Machine

namespace Sys2Proof

open Machine

/-! ### The engine with a line copied (R86) -/

/-- The engine with a line put into the copy-before-write buffer of its bud, while the tile waits. -/
def lineCopied (s : State) (tile line : Nat) (held : LineData) : Engine :=
  (s.eng.setBud tile ((s.eng.bud tile).copied line held)).emit (.tileWait tile)

section
variable (s : State) (tile line : Nat) (held : LineData)

theorem lineCopied_bud_same : (lineCopied s tile line held).bud tile = (s.eng.bud tile).copied line held := Engine.bud_setBud_same ..

theorem lineCopied_bud_ne {n : Nat} (h : n ≠ tile) : (lineCopied s tile line held).bud n = s.eng.bud n := Engine.bud_setBud_ne h ..

theorem same_lineCopied : Same [.buds, .out] s.eng (lineCopied s tile line held) := by simp [Same, lineCopied, Engine.setBud]

end

section
variable {s : State} {tile : Nat} (htile : s.kit.hasTile tile = true) (hfrozen : (s.eng.bud tile).state = .frozen)

include htile hfrozen

/-! ### A write of the tile (R86, R88) -/

section
variable {line : BitVec 10} {held : LineData}

theorem exec_tileWrite_copies (hholds : (s.eng.bud tile).holds s.kit tile line.toNat = true) (hroom : (s.eng.bud tile).buffer.length < 4) :
    exec (.tileWrite tile line held) s = .next (withEng s ((lineCopied s tile line.toNat held).earlyWrite s.kit s.regs tile false)) :=
  (needs_eff htile _ s).trans (by dsimp only; rw [if_pos ⟨hfrozen, hholds⟩, if_pos hroom]; rfl)

theorem exec_tileWrite_waits (hholds : (s.eng.bud tile).holds s.kit tile line.toNat = true) (hfull : 4 ≤ (s.eng.bud tile).buffer.length) :
    exec (.tileWrite tile line held) s = .next (withEng s
      (((s.eng.setBud tile (s.eng.bud tile).stalled).emit (.tileWait tile)).earlyWrite s.kit s.regs tile true)) :=
  (needs_eff htile _ s).trans (by dsimp only; rw [if_pos ⟨hfrozen, hholds⟩, if_neg (by omega)]; rfl)

omit hfrozen in
theorem exec_tileWrite_passes (hholds : (s.eng.bud tile).holds s.kit tile line.toNat = false) :
    exec (.tileWrite tile line held) s = .next (withEng s (s.eng.earlyWrite s.kit s.regs tile false)) :=
  (needs_eff htile _ s).trans (by dsimp only; rw [if_neg (by simp [hholds])])

end

/-! ### A drain read (R84, R85, R87) -/

section
variable {held : LineData} (hroom : (s.eng.bud tile).up.length < 2) (hleft : (s.eng.bud tile).linesLeft s.kit tile = true)

include hroom hleft

theorem exec_budDrainRead : exec (.budDrainRead tile held) s =
    .next (withEng s (s.eng.setBud tile ((s.eng.bud tile).drainNext s.kit tile held))) :=
  (needs_eff htile _ s).trans (by dsimp only; rw [if_pos (by simp [Bud.mayRead, hfrozen, hroom, hleft])])

theorem exec_budForcedDrain : exec (.budForcedDrain tile held) s =
    .next (withEng s ((s.eng.setBud tile ((s.eng.bud tile).drainNext s.kit tile held).stalled).emit (.tileWait tile))) :=
  (needs_eff htile _ s).trans (by dsimp only; rw [if_pos (by simp [Bud.mayRead, hfrozen, hroom, hleft])]; rfl)

end

end

/-- A command that replaces one bud and makes its tile wait changes nothing else. -/
theorem waits_of_setBud {c : Instr} {s : State} {tile : Nat} {b : Bud}
    (h : exec c s = .next (withEng s ((s.eng.setBud tile b).emit (.tileWait tile)))) :
    ∃ t, exec c s = .next t ∧ BudBecomes s t tile b ∧ t.eng.out = s.eng.out ++ [.tileWait tile] ∧ Only [.buds, .out] s t :=
  ⟨_, h, budBecomes_setBud rfl, rfl, only_of_same (by simp [Same, Engine.setBud])⟩

/-- Settles O25: the line is copied, the write waits, or it passes; before RESUME it is counted and raised too. -/
theorem tileWritesCopyBeforeWrite : Obligations.TileWritesCopyBeforeWrite := by
  unfold Obligations.TileWritesCopyBeforeWrite
  intro s tile line held b htile hfrozen
  refine ⟨fun hresumed => ⟨fun hline hdrained hroom => ?copies, fun hline hdrained hfull hheld => ?waits, fun hpast hheld => ?passes⟩,
    fun hresumed hheld hline hdrained hroom => ?early⟩
  case copies =>
    have hcopied := lineCopied_bud_same s tile line.toNat held
    obtain ⟨hbud, hother, hsame⟩ := Engine.earlyWrite_resumed (e := lineCopied s tile line.toNat held) s.kit s.regs
      (by rw [hcopied]; exact hresumed)
    refine ⟨_, exec_tileWrite_copies htile hfrozen (Bud.holds_iff.mpr ⟨hline, hdrained⟩) hroom, ?_⟩
    rw [withEng_eng, hbud, hcopied]
    exact ⟨rfl, fun n hn => Bud.drained_mark hn .., rfl, rfl, fun n hn => (hother n hn).trans (lineCopied_bud_ne _ _ _ _ hn),
      hsame.groups.out.resolve_left (by decide), only_of_same ((same_lineCopied ..).trans (hsame.mono (by decide)))⟩
  case waits =>
    refine waits_of_setBud ((exec_tileWrite_waits htile hfrozen (Bud.holds_iff.mpr ⟨hline, hdrained⟩) hfull).trans ?_)
    have hbud : ((s.eng.setBud tile b.stalled).emit (.tileWait tile)).bud tile = b.stalled := Engine.bud_setBud_same ..
    rw [Engine.earlyWrite_late _ _ (by rw [hbud]; exact hheld) (by rw [hbud]; exact hresumed)]
    rfl
  case passes =>
    have hholds : b.holds s.kit tile line.toNat = false := Bud.holds_eq_false fun hline => hpast.resolve_left (by omega)
    rw [exec_tileWrite_passes htile hholds, Engine.earlyWrite_late _ _ hheld hresumed]
    rfl
  case early =>
    have hcopied := lineCopied_bud_same s tile line.toNat held
    obtain ⟨hbud, hother, hfox, hsame⟩ := Engine.earlyWrite_unresumed (e := lineCopied s tile line.toNat held) (held := false) s.kit s.regs
      (by rw [hcopied]; exact hheld) (by rw [hcopied]; exact hfrozen) (by rw [hcopied]; exact hresumed)
    refine ⟨_, exec_tileWrite_copies htile hfrozen (Bud.holds_iff.mpr ⟨hline, hdrained⟩) hroom, ?_⟩
    rw [withEng_eng, hbud, hfox, Engine.earlyBud, hcopied]
    exact ⟨rfl, rfl, rfl, Fox.raise_log .., fun n hn => (hother n hn).trans (lineCopied_bud_ne _ _ _ _ hn),
      only_of_same (((same_lineCopied ..).mono (by decide)).trans (hsame.mono (by decide)))⟩

/-! ### The order of drain reads (R84, R87) -/

section
variable {b : Bud} {k : Kit} {tile : Nat}

theorem Bud.linesLeft_latch (h : b.latch ≠ []) : b.linesLeft k tile = true := by
  simp [Bud.linesLeft, h]

theorem Bud.drainNext_latch {c : UpLine} {rest : List UpLine} (h : b.latch = c :: rest) (held : LineData) :
    b.drainNext k tile held = { b with latch := rest, up := b.up ++ [c] } := by
  simp [Bud.drainNext, h]

section
variable {n : Nat} (hlow : lowestFrom (fun l => b.holds k tile l) 0 1024 = some n)

include hlow

theorem Bud.linesLeft_line : b.linesLeft k tile = true := by
  simp [Bud.linesLeft, hlow]

theorem Bud.drainNext_line (hlatch : b.latch = []) (held : LineData) :
    b.drainNext k tile held = { b.mark n with up := b.up ++ [{ kind := .drain, line := n, data := held }] } := by
  simp [Bud.drainNext, hlatch, hlow]

end

end

/-- Settles O26: context lines before scratchpad lines, and of these the lowest. -/
theorem drainReadsTakeLinesInOrder : Obligations.DrainReadsTakeLinesInOrder := by
  unfold Obligations.DrainReadsTakeLinesInOrder
  intro s tile held b htile hfrozen hroom
  refine ⟨fun c rest hlatch => ?context, fun n hlatch hn hline hdrained hbelow => ?line⟩
  case context =>
    have hleft : b.linesLeft s.kit tile = true := Bud.linesLeft_latch (by simp [hlatch])
    have hnext := Bud.drainNext_latch (k := s.kit) (tile := tile) hlatch held
    refine ⟨becomes_of_setBud ((exec_budDrainRead htile hfrozen hroom hleft).trans ?_),
      waits_of_setBud ((exec_budForcedDrain htile hfrozen hroom hleft).trans ?_)⟩
    all_goals rw [hnext] <;> rfl
  case line =>
    have hlow : lowestFrom (fun l => b.holds s.kit tile l) 0 1024 = some n :=
      lowestFrom_eq_some n.zero_le (by omega) (Bud.holds_iff.mpr ⟨hline, hdrained⟩) fun m _ hm => Bud.holds_eq_false (hbelow m hm)
    have hleft : b.linesLeft s.kit tile = true := Bud.linesLeft_line hlow
    have hnext := Bud.drainNext_line hlow hlatch held
    obtain ⟨t, hexec, ⟨hbud, hother⟩, honly⟩ := becomes_of_setBud (exec_budDrainRead htile hfrozen (held := held) hroom hleft)
    obtain ⟨t', hexec', ⟨hbud', hother'⟩, hout, honly'⟩ := waits_of_setBud (exec_budForcedDrain htile hfrozen (held := held) hroom hleft)
    rw [hnext] at hbud hbud'
    refine ⟨⟨t, hexec, ?_⟩, t', hexec', ?_⟩
    · rw [hbud]
      exact ⟨rfl, fun m hm => Bud.drained_mark hm .., hother, honly⟩
    · rw [hbud']
      exact ⟨rfl, rfl, hother', hout, honly'⟩

end Sys2Proof

/-!
PROOFS. How a cut ends (R15, R83, R91, R92, R266): what it lets go touches neither the buds nor the cut's own status, which is then that of
an ended cut.
-/

namespace Sys2Proof.Machine

/-! ### What is let go -/

/-- The groups that letting go of a cut may touch, beside the cut itself. -/
abbrev letGoGroups : List Grp :=
  [.cycle, .budget, .count, .stem, .guard, .front, .body, .bulb, .pollen, .streams, .rings, .vault, .fox, .mem, .out, .draws]

/-- Every group is in `b` as in `a`, but for those that letting go of a cut may touch. -/
def LetGo (a b : Engine) : Prop := Same letGoGroups a b

theorem LetGo.refl (e : Engine) : LetGo e e := Same.refl _ e

theorem LetGo.ite {a : Engine} {c : Prop} [Decidable c] {x y : Engine} (hx : LetGo a x) (hy : LetGo a y) : LetGo a (if c then x else y) := by
  split
  · exact hx
  · exact hy

theorem LetGo.cut_eq {a b : Engine} (h : LetGo a b) : b.cut = a.cut := (Same.groups h).cut.resolve_left (by decide)

theorem LetGo.buds_eq {a b : Engine} (h : LetGo a b) : b.buds = a.buds := (Same.groups h).buds.resolve_left (by decide)

section
variable {a e : Engine} {k : Kit} {r : Regs} (h : LetGo a e)

include h

theorem LetGo.same {gs : List Grp} {e' : Engine} (hs : Same gs e e') (hgs : ∀ g ∈ gs, g ∈ letGoGroups := by decide) : LetGo a e' :=
  Same.trans h (hs.mono hgs)

theorem LetGo.forEach {α : Type} {xs : List α} {f : α → Engine → Engine} (hf : ∀ x {e}, LetGo a e → LetGo a (f x e)) :
    LetGo a (e.forEach xs f) := by
  induction xs generalizing e with
  | nil => exact h
  | cons x xs ih => exact ih (hf x h)

/-! ### Plain updates -/

theorem LetGo.budget {x : Budget} : LetGo a { e with budget := x } := h.same (gs := [.budget]) (by simp [Same])
theorem LetGo.front {x : Front} : LetGo a { e with front := x } := h.same (same_front ..)
theorem LetGo.guard {x : Guard} : LetGo a { e with guard := x } := h.same (gs := [.guard]) (by simp [Same])
theorem LetGo.bulb {x : Bulb} : LetGo a { e with bulb := x } := h.same (gs := [.bulb]) (by simp [Same])
theorem LetGo.streams {x : Streams} : LetGo a { e with streams := x } := h.same (gs := [.streams]) (by simp [Same])
theorem LetGo.mem {x : Mem} : LetGo a { e with mem := x } := h.same (gs := [.mem]) (by simp [Same])
theorem LetGo.emit {o : Output} : LetGo a (e.emit o) := h.same (gs := [.out]) (by simp [Same])
theorem LetGo.bump {off n : Nat} : LetGo a (e.bump off n) := h.same (same_bump ..)
theorem LetGo.drawn : LetGo a e.drawn := h.same (gs := [.draws]) (by simp [Same])
theorem LetGo.setKept {t : Nat} {v : Kept} : LetGo a (e.setKept t v) := h.same (same_body ..)
theorem LetGo.setRing {n : Nat} {v : Ring} : LetGo a (e.setRing n v) := h.same (gs := [.rings]) (by simp [Same])
theorem LetGo.onFront {f : Front → Front} : LetGo a (e.onFront f) := h.front
theorem LetGo.onGuard {f : Guard → Guard} : LetGo a (e.onGuard f) := h.guard

theorem LetGo.memWrite {addr : Nat} {bytes : List Byte} {poison : List Bool} {prio : BitVec 2} {use : MemFor} :
    LetGo a (e.memWrite k addr bytes poison prio use) := h.same (gs := [.mem, .out]) (by simp [Same])

theorem LetGo.broadcastTenant {code : BitVec 4} {t : TenantNo} {delay : Nat} : LetGo a (e.broadcastTenant code t delay) := by
  unfold Engine.broadcastTenant Engine.broadcast
  exact .ite (h.same (gs := [.stem, .out]) (by simp [Same])) h

/-! ### Completions -/

theorem LetGo.completeWith {id : JobId} {code : Code} {plan : Bool} {result : List Byte} : LetGo a (e.completeWith k r id code plan result) :=
  h.same (gs := [.rings, .mem, .out, .vault]) (by simp [Same, Engine.completeWith])

theorem LetGo.finishJob {id : Option JobId} {code : Code} {plan : Bool} {result : List Byte} :
    LetGo a (e.finishJob k r id code plan result) := by
  cases id with
  | some x => exact h.streams.completeWith
  | none => exact h.setRing

theorem LetGo.endJob {p : MemFor → Bool} {id : Option JobId} {code : Code} {plan : Bool} {result : List Byte} :
    LetGo a (e.endJob k r p id code plan result) := by
  unfold Engine.endJob
  exact .ite h.mem h.mem.finishJob

/-! ### The guard and the windows -/

theorem LetGo.onRange {n : Nat} {f : Range → Range} : LetGo a (e.onRange n f) := by
  unfold Engine.onRange
  split
  · exact h.guard
  · exact h

theorem LetGo.releaseHolds {p : Hold → Bool} : LetGo a (e.releaseHolds p) := by
  unfold Engine.releaseHolds
  exact (h.forEach fun _ {_} h => h.emit.bump.drawn).onGuard

theorem LetGo.waitOldest : LetGo a (e.waitOldest r) := by
  unfold Engine.waitOldest
  split
  · split
    · split
      · exact h.onGuard.bump.drawn
      · exact h
    · exact h
  · exact h

theorem LetGo.writeBack {e' : Engine} (he : e.writeBack k r = some e') : LetGo a e' := by
  unfold Engine.writeBack at he
  split at he
  · cases he
  · split at he
    · dsimp only at he
      split at he
      · cases he
      · cases he
        exact (h.same (same_readFront ..)).budget.memWrite
    · cases he

theorem LetGo.pumpWindows : LetGo a (e.pumpWindows k r) := by
  unfold Engine.pumpWindows
  generalize e.front.lines.length + 1 = fuel
  induction fuel generalizing e with
  | zero => exact h
  | succ fuel ih =>
    unfold Engine.pumpBack
    split
    next e' he => exact ih (h.writeBack he)
    next => exact h.waitOldest

/-! ### The body copy -/

theorem LetGo.copyStep : LetGo a (e.copyStep r) := by
  unfold Engine.copyStep
  split
  · exact h
  · refine .ite h ?_
    split
    · exact .ite (.bulb (.ite h h.setKept)) h
    · exact .ite h.setKept.bulb h.setKept.onFront.bulb.bulb

theorem LetGo.copyPump : LetGo a (e.copyPump r) := by
  unfold Engine.copyPump
  generalize 1 + (e.bulb.copies.map fun c => c.todo.length + 1).sum = fuel
  induction fuel generalizing e with
  | zero => exact h
  | succ fuel ih => exact ih h.copyStep

theorem LetGo.dropCopy {run : Running} : LetGo a (e.dropCopy r run) := by
  unfold Engine.dropCopy
  exact h.bulb.copyPump

theorem LetGo.freeCut {run : Running} : LetGo a (e.freeCut run) := by
  unfold Engine.freeCut
  exact (h.releaseHolds.forEach fun _ {_} h => h.onRange).onGuard.onFront.mem

end

/-! ### The end of a cut -/

/-- The status of a cut of this tenant that has ended with this code (R15, R83). -/
def Cut.ended (code : Code) (t : TenantNo) (c : Cut) : Cut := { c with phase := .none, run := none, lastCode := code, lastTenant := t }

/-- A cut that ends leaves its status, and beside it only what it lets go. -/
theorem Engine.endCut_ends {e : Engine} {run : Running} (hrun : e.cut.run = some run) (k : Kit) (r : Regs) (code : Code) :
    (e.endCut k r code).cut = e.cut.ended code run.tenant ∧ Same (.cut :: letGoGroups) e (e.endCut k r code) := by
  have hfree : LetGo e (((e.broadcastTenant bcDisarm run.tenant 0).freeCut run).dropCopy r run) := (LetGo.refl e).broadcastTenant.freeCut.dropCopy
  have hcut := hfree.cut_eq
  unfold Engine.endCut Engine.onRun
  rw [hrun]
  dsimp only
  refine ⟨(LetGo.refl _).endJob.pumpWindows.cut_eq.trans (by rw [hcut]; rfl), ?_⟩
  refine .trans (.trans (hfree.mono (by decide)) ?_) ((LetGo.refl _).endJob.pumpWindows.mono (by decide))
  simp [Same]

theorem Engine.endCut_buds {e : Engine} {run : Running} (hrun : e.cut.run = some run) (k : Kit) (r : Regs) (code : Code) :
    (e.endCut k r code).buds = e.buds := (Engine.endCut_ends hrun k r code).2.groups.buds.resolve_left (by decide)

end Sys2Proof.Machine

/-!
PROOFS. Tile configurations that load and load again (R75, R81, R82, R376).
-/

namespace Sys2Proof.Machine

@[simp] theorem Engine.poisonExtents_buds (tiles : List Nat) (e : Engine) : (e.poisonExtents tiles).buds = e.buds := rfl

end Sys2Proof.Machine

namespace Sys2Proof

open Machine

/-- The engine with the bud of `tile` ABSENT. -/
def unloaded (s : State) (tile : Nat) : Engine := s.eng.setBud tile Bud.none

section
variable {s : State} {tile : Nat} (htile : s.kit.hasTile tile = true)

include htile

theorem exec_budCfgDone {t0 : TenantNo} {passed : Nat} (habsent : (s.eng.bud tile).state = .absent)
    (hpassed : passed ≤ s.eng.stem.issued.length) : exec (.budCfgDone tile t0 passed) s =
      .next (withEng s (s.eng.setBud tile { Bud.none with state := .idle, tenant := t0, seen := passed })) :=
  (needs_eff htile _ s).trans (by rw [if_pos habsent, Nat.min_eq_left hpassed])

theorem exec_tileConfigReload_absent (habsent : (s.eng.bud tile).state = .absent) :
    exec (.tileConfigReload tile) s = .next (withEng s s.eng) :=
  (needs_eff htile _ s).trans (by dsimp only; rw [if_pos habsent])

section
variable (hstate : (s.eng.bud tile).state ≠ .absent)

include hstate

theorem exec_tileConfigReload : exec (.tileConfigReload tile) s = .next (withEng s ((unloaded s tile).onRun fun run e =>
    if e.cut.phase = .armed then e.endCut s.kit s.regs 0x1A
    else if (s.eng.bud tile).state = .frozen ∧ run.tiles.contains tile then (e.poisonExtents [tile]).endCut s.kit s.regs 0x21
    else e.endPause)) :=
  (needs_eff htile _ s).trans (by dsimp only; rw [if_neg hstate]; rfl)

theorem exec_tileConfigReload_idle (hrun : s.eng.cut.run = none) :
    exec (.tileConfigReload tile) s = .next (withEng s (unloaded s tile)) := by
  have hrun' : (unloaded s tile).cut.run = none := hrun
  rw [exec_tileConfigReload htile hstate, Engine.onRun, hrun']

variable {run : Running} (hrun : s.eng.cut.run = some run)

include hrun

theorem exec_tileConfigReload_armed (hphase : s.eng.cut.phase = .armed) :
    exec (.tileConfigReload tile) s = .next (withEng s ((unloaded s tile).endCut s.kit s.regs 0x1A)) := by
  have hrun' : (unloaded s tile).cut.run = some run := hrun
  have hphase' : (unloaded s tile).cut.phase = .armed := hphase
  rw [exec_tileConfigReload htile hstate, Engine.onRun, hrun']
  dsimp only
  rw [if_pos hphase']

theorem exec_tileConfigReload_covered (hphase : s.eng.cut.phase ≠ .armed) (hfrozen : (s.eng.bud tile).state = .frozen)
    (hcovered : run.tiles.contains tile = true) :
    exec (.tileConfigReload tile) s = .next (withEng s (((unloaded s tile).poisonExtents [tile]).endCut s.kit s.regs 0x21)) := by
  have hrun' : (unloaded s tile).cut.run = some run := hrun
  have hphase' : (unloaded s tile).cut.phase ≠ .armed := hphase
  rw [exec_tileConfigReload htile hstate, Engine.onRun, hrun']
  dsimp only
  rw [if_neg hphase', if_pos ⟨hfrozen, hcovered⟩]

end

end

/-- A cut that ends on an engine whose buds are those of `unloaded` leaves the bud ABSENT. -/
theorem bud_endCut_unloaded {s : State} {tile : Nat} {e : Engine} {run : Running} (hbuds : e.buds = (unloaded s tile).buds)
    (hrun : e.cut.run = some run) (code : Code) : ((e.endCut s.kit s.regs code).bud tile).state = .absent := by
  have hbud : (e.endCut s.kit s.regs code).bud tile = (unloaded s tile).bud tile := by
    unfold Engine.bud
    rw [Engine.endCut_buds hrun, hbuds]
  rw [hbud, unloaded, Engine.bud_setBud_same]
  rfl

/-- Settles O27: a configuration that has loaded, and one that is loaded again without a cut, under an armed one and under a running one. -/
theorem tileConfigurationsMakeAndUnmakeBuds : Obligations.TileConfigurationsMakeAndUnmakeBuds := by
  unfold Obligations.TileConfigurationsMakeAndUnmakeBuds
  intro s tile htile
  refine ⟨fun t0 passed habsent hpassed => becomes_of_setBud (exec_budCfgDone htile habsent hpassed), fun hrun => ?idle,
    fun hstate hsome hphase => ?armed, fun run hrun hphase hfrozen hcovered => ?covered⟩
  case idle =>
    by_cases habsent : (s.eng.bud tile).state = .absent
    · exact ⟨_, exec_tileConfigReload_absent htile habsent, habsent, fun _ _ => rfl, only_of_same (Same.refl _ _)⟩
    · obtain ⟨t, hexec, ⟨hbud, hother⟩, honly⟩ := becomes_of_setBud (exec_tileConfigReload_idle htile habsent hrun)
      exact ⟨t, hexec, by rw [hbud]; rfl, hother, honly⟩
  case armed =>
    obtain ⟨run, hrun⟩ := Option.isSome_iff_exists.mp hsome
    obtain ⟨hcut, -⟩ := Engine.endCut_ends (e := unloaded s tile) hrun s.kit s.regs 0x1A
    refine ⟨_, exec_tileConfigReload_armed htile hstate hrun hphase, bud_endCut_unloaded (e := unloaded s tile) rfl hrun _, ?_⟩
    rw [withEng_eng, hcut]
    exact ⟨rfl, rfl, rfl, rfl⟩
  case covered =>
    obtain ⟨hcut, -⟩ := Engine.endCut_ends (e := (unloaded s tile).poisonExtents [tile]) hrun s.kit s.regs 0x21
    refine ⟨_, exec_tileConfigReload_covered htile (by simp [hfrozen]) hrun hphase hfrozen hcovered,
      bud_endCut_unloaded (Engine.poisonExtents_buds [tile] (unloaded s tile)) hrun _, ?_⟩
    rw [withEng_eng, hcut]
    exact ⟨rfl, rfl, by simp [Cut.ended, Engine.poisonExtents], rfl⟩

end Sys2Proof

/-!
PROOFS. Pulses that take no armed cut, and the timeouts of cuts and plans (R30, R74, R75, R79, R106, R107, R371, R375).
-/

namespace Sys2Proof.Machine

/-! ### What goes out towards the host (R30) -/

theorem Engine.emitHost_eq (o : Output) (e : Engine) :
    e.emitHost o = { e with out := e.out ++ (if e.drives then [o] else []) } := by
  unfold Engine.emitHost
  cases h : e.drives
  · rw [Engine.when_false]
    simp
  · rfl

theorem Engine.emitHost_cut (o : Output) (e : Engine) : (e.emitHost o).cut = e.cut := by
  rw [Engine.emitHost_eq]

end Sys2Proof.Machine

namespace Sys2Proof

open Machine

/-! ### A pulse that takes no armed cut -/

/-- The engine with the number of a pulse sampled (R74). -/
def sampled (s : State) (num : Dword) : Engine := { s.eng with cut := { s.eng.cut with lastStep := some num } }

/-- A pulse that is only answered drives SYS_RESUME towards the host. -/
theorem emitHost_answered (s : State) (e : Engine) (hdrives : e.drives = s.eng.drives) (o : Output) :
    withEng s (e.emitHost o) = driven (withEng s e) (toHost s o) := by
  rw [Engine.emitHost_eq, hdrives]
  rfl

section
variable {s : State} (num : Dword)

theorem exec_sysStep_ignored (h : s.eng.power.sysReady = false) : exec (.sysStep num) s = .next s := by
  show execSysStep num s = _
  unfold execSysStep
  rw [State.eff_eq, if_pos (by simp [h])]

section
variable (hready : s.eng.power.sysReady = true) (hphase : s.eng.cut.phase ≠ .pause)

include hready hphase

theorem exec_sysStep_p2 (hpower : s.eng.power.state = 2) :
    exec (.sysStep num) s = .next (driven s (toHost s (.sysResume 8))) := by
  show execSysStep num s = _
  unfold execSysStep
  rw [State.eff_eq, if_neg (by simp [hready, hphase]), if_pos (by simp [hpower])]
  exact congrArg _ (emitHost_answered s s.eng rfl _)

variable (hpower : s.eng.power.state ≠ 2)

include hpower

/-- A pulse that the engine samples (R74). -/
theorem exec_sysStep_sampled : exec (.sysStep num) s = .next (withEng s
    (match s.eng.cut.run with
      | none => (sampled s num).emitHost (.sysResume 8)
      | some run =>
        if s.eng.cut.phase ≠ .armed then (sampled s num).emitHost (.sysResume 8)
        else if 0 < s.eng.absent s.kit then ((sampled s num).endCut s.kit s.regs 0x1A).emitHost (.sysResume 8)
        else if run.anyStep || num == run.params.step then (sampled s num).freeze s.kit s.regs num run
        else if num.toNat < run.params.step.toNat then (sampled s num).emitHost (.sysResume 8)
        else ((sampled s num).endCut s.kit s.regs 0x14).emitHost (.sysResume 8))) := by
  show execSysStep num s = _
  unfold execSysStep
  rw [State.eff_eq, if_neg (by simp [hready, hphase]), if_neg (by simpa using hpower)]
  rfl

theorem exec_sysStep_idle (hrun : s.eng.cut.run = none) :
    exec (.sysStep num) s = .next (driven (withEng s (sampled s num)) (toHost s (.sysResume 8))) := by
  rw [exec_sysStep_sampled num hready hphase hpower, hrun]
  exact congrArg _ (emitHost_answered s (sampled s num) rfl _)

variable {run : Running} (hrun : s.eng.cut.run = some run)

include hrun

theorem exec_sysStep_running (harmed : s.eng.cut.phase ≠ .armed) :
    exec (.sysStep num) s = .next (driven (withEng s (sampled s num)) (toHost s (.sysResume 8))) := by
  rw [exec_sysStep_sampled num hready hphase hpower, hrun]
  dsimp only
  rw [if_pos harmed]
  exact congrArg _ (emitHost_answered s (sampled s num) rfl _)

variable (harmed : s.eng.cut.phase = .armed)

include harmed

theorem exec_sysStep_before (habsent : s.eng.absent s.kit = 0) (hany : run.anyStep = false) (hnum : num.toNat < run.params.step.toNat) :
    exec (.sysStep num) s = .next (driven (withEng s (sampled s num)) (toHost s (.sysResume 8))) := by
  have hne : num ≠ run.params.step := fun h => absurd hnum (h ▸ Nat.lt_irrefl _)
  rw [exec_sysStep_sampled num hready hphase hpower, hrun]
  dsimp only
  rw [if_neg (by simp [harmed]), if_neg (by omega), if_neg (by simp [hany, hne]), if_pos hnum]
  exact congrArg _ (emitHost_answered s (sampled s num) rfl _)

/-- A pulse that finds an ABSENT bud, or one past the step, ends the armed cut (R74, R75). -/
theorem exec_sysStep_ends (hends : 0 < s.eng.absent s.kit ∨ (run.anyStep = false ∧ run.params.step.toNat < num.toNat)) :
    exec (.sysStep num) s = .next (withEng s
      (((sampled s num).endCut s.kit s.regs (if 0 < s.eng.absent s.kit then 0x1A else 0x14)).emitHost (.sysResume 8))) := by
  rw [exec_sysStep_sampled num hready hphase hpower, hrun]
  dsimp only
  rw [if_neg (by simp [harmed])]
  by_cases habsent : 0 < s.eng.absent s.kit
  · rw [if_pos habsent, if_pos habsent]
  · obtain ⟨hany, hpast⟩ := hends.resolve_left habsent
    have hne : num ≠ run.params.step := fun h => absurd hpast (h ▸ Nat.lt_irrefl _)
    rw [if_neg habsent, if_neg habsent, if_neg (by simp [hany, hne]), if_neg (by omega)]

end

end

/-! ### Timeouts and deadlines (R79, R106, R107) -/

/-- The engine of a cut whose FREEZE acknowledgements are missing, before the cut ends (R79). -/
def missed (s : State) (run : Running) : Engine :=
  (s.eng.poisonExtents (s.eng.unfrozen run)).raise s.kit s.regs 0x0A (some run.tenant)

theorem missed_cut (s : State) (run : Running) :
    (missed s run).cut = { s.eng.cut with missing := s.eng.cut.missing ++ s.eng.unfrozen run } := Engine.raise_cut ..

theorem same_missed (s : State) (run : Running) : Same [.cut, .fox, .count, .draws, .cycle] s.eng (missed s run) := by
  refine .trans (b := s.eng.poisonExtents (s.eng.unfrozen run)) ?_ ((same_raise ..).mono (by decide))
  simp [Same, Engine.poisonExtents]

theorem exec_freezeAckTimeout {s : State} {run : Running} {region : Nat} (hrun : s.eng.cut.run = some run)
    (hphase : s.eng.cut.phase = .pause ∨ s.eng.cut.phase = .drain) (hregion : region < s.kit.regions)
    (hshort : s.eng.frozenShort s.kit run region = true) :
    exec .freezeAckTimeout s = .next (withEng s ((missed s run).endCut s.kit s.regs 0x21)) := by
  have hany : ((List.range s.kit.regions).any fun g => s.eng.frozenShort s.kit run g) = true :=
    List.any_eq_true.mpr ⟨region, List.mem_range.mpr hregion, hshort⟩
  show execFreezeAckTimeout s = _
  unfold execFreezeAckTimeout
  rw [State.eff_eq, Engine.onRun, hrun]
  dsimp only
  rw [if_pos (by simpa [hany] using hphase)]
  rfl

/-- The engine at the deadline of a plan, with the jobs of its tenant ended (R107). -/
def deadlined (s : State) : Engine := s.eng.endTenantJobs s.kit s.regs s.eng.cut.planTenant 0x63

theorem exec_preemptDeadline {s : State} (hactive : s.eng.cut.planActive = true) (hleft : s.eng.cut.planLeft = 0) :
    exec .preemptDeadline s = .next (withEng s { deadlined s with cut := (deadlined s).cut.endPlan }) := by
  show execPreemptDeadline s = _
  unfold execPreemptDeadline
  rw [State.eff_eq, if_pos (by simp [hactive, hleft])]
  rfl

theorem exec_planCutArm {s : State} (hactive : s.eng.cut.planActive = true) (hwaits : s.eng.cut.planWaits = true)
    (hrun : s.eng.cut.run = none) : exec .planCutArm s =
      .next (withEng s (({ s.eng with cut := { s.eng.cut with planWaits := false } } : Engine).planArm s.kit s.regs)) := by
  show execPlanCutArm s = _
  unfold execPlanCutArm
  rw [State.eff_eq, if_pos (by simp [hactive, hwaits, hrun])]
  rfl

/-- Settles O31: pulses that no armed cut takes, and the events that end a cut or a plan. That P2 does not sample the number (log 23) and that
SOURCE reads 0 after the plan (log 92) are the model's choices. -/
theorem otherPulsesAndTimeoutsEndCuts : Obligations.OtherPulsesAndTimeoutsEndCuts := by
  unfold Obligations.OtherPulsesAndTimeoutsEndCuts
  refine ⟨fun s num => ?pulses, fun s run region hrun hphase hregion hshort => ?missing, fun s hactive hleft => ?deadline,
    fun s hactive hwaits hrun => exec_planCutArm hactive hwaits hrun⟩
  case pulses =>
    intro answered passed
    refine ⟨exec_sysStep_ignored num, fun hready hphase => ⟨exec_sysStep_p2 num hready hphase, exec_sysStep_idle num hready hphase,
      fun hpower run hrun => ⟨exec_sysStep_running num hready hphase hpower hrun,
        fun harmed => exec_sysStep_before num hready hphase hpower hrun harmed, fun harmed hends => ?ends⟩⟩⟩
    case ends =>
      obtain ⟨hcut, -⟩ := Engine.endCut_ends (e := sampled s num) hrun s.kit s.regs (if 0 < s.eng.absent s.kit then 0x1A else 0x14)
      refine ⟨_, exec_sysStep_ends num hready hphase hpower hrun harmed hends, ?_⟩
      rw [withEng_eng, Engine.emitHost_cut, hcut]
      exact ⟨rfl, rfl, rfl, rfl, rfl, rfl⟩
  case missing =>
    have hcut := missed_cut s run
    obtain ⟨hended, -⟩ := Engine.endCut_ends (e := missed s run) (by rw [hcut]; exact hrun) s.kit s.regs 0x21
    refine ⟨missed s run, _, exec_freezeAckTimeout hrun hphase hregion hshort, rfl,
      raised_raise (foxImplemented_of_fixed (by decide) s.kit) (by rfl) (by rfl) (by rfl) _, hcut, same_missed s run, ?_⟩
    rw [withEng_eng, hended]
    exact ⟨rfl, rfl, rfl, rfl, rfl⟩
  case deadline => exact ⟨_, exec_preemptDeadline hactive hleft, rfl, rfl, rfl, rfl⟩

end Sys2Proof

/-!
PROOFS. The pulse of an armed cut (R75, R77, R78, R91, R185, R187): the wave that it sends, and the cut that it freezes.
-/

namespace Sys2Proof.Machine

/-! ### Ranges -/

theorem Engine.range_onRange_same (n : Nat) (f : Range → Range) (e : Engine) : (e.onRange n f).range n = (e.range n).map f := by
  unfold Engine.onRange
  cases h : e.range n with
  | none => exact h
  | some g => exact tabFind_set_same ..

theorem Engine.range_onRange_ne {m n : Nat} (h : m ≠ n) (f : Range → Range) (e : Engine) : (e.onRange n f).range m = e.range m := by
  unfold Engine.onRange
  split
  · exact tabFind_set_ne h ..
  · rfl

/-- Changing ranges touches the guard alone. -/
theorem Engine.forEach_onRange_eq (ns : List Nat) (f : Range → Range) (e : Engine) :
    ∃ g : Guard, (e.forEach ns fun n e => e.onRange n f) = { e with guard := g } := by
  induction ns generalizing e with
  | nil => exact ⟨e.guard, rfl⟩
  | cons n ns ih =>
    have hone : ∃ g : Guard, e.onRange n f = { e with guard := g } := by
      unfold Engine.onRange
      split
      · exact ⟨_, rfl⟩
      · exact ⟨e.guard, rfl⟩
    obtain ⟨g, hg⟩ := hone
    obtain ⟨g', hg'⟩ := ih (e.onRange n f)
    exact ⟨g', hg'.trans (by rw [hg])⟩

/-- Every range of a list without repetition is changed once. -/
theorem Engine.range_forEach_onRange {ns : List Nat} (h : ns.Nodup) (f : Range → Range) (n : Nat) (e : Engine) :
    (e.forEach ns fun m e => e.onRange m f).range n = if n ∈ ns then (e.range n).map f else e.range n := by
  induction ns generalizing e with
  | nil => rfl
  | cons m ns ih =>
    obtain ⟨hm, hns⟩ := List.nodup_cons.mp h
    refine (ih hns (e.onRange m f)).trans ?_
    by_cases hn : n = m
    · subst hn
      rw [if_neg hm, if_pos List.mem_cons_self, Engine.range_onRange_same]
    · rw [Engine.range_onRange_ne hn]
      simp [hn]

theorem nodup_rangesOf (mask : Dword) : (rangesOf mask).Nodup := List.Nodup.filter _ List.nodup_range

/-! ### The wave -/

theorem Engine.broadcastTenant_ready {e : Engine} (h : e.power.sysReady = true) (code : BitVec 4) (t : TenantNo) (delay : Nat) :
    e.broadcastTenant code t delay = { e with
      stem := { e.stem with issued := e.stem.issued ++ [{ code := code, arg := t.setWidth 64 }] }
      out := e.out ++ [.broadcast { code := code, arg := t.setWidth 64 } delay] } := by
  unfold Engine.broadcastTenant Engine.broadcast
  rw [if_pos h]

/-- FREEZE at cc 2, the named ranges armed, RESUME at cc 18, SYS_RESUME behind it (R77, R78, R91). -/
def Engine.waved (k : Kit) (t : TenantNo) (ranges : Dword) (e : Engine) : Engine :=
  (((e.broadcastTenant bcFreeze t 2).forEach (rangesOf ranges) fun n e => e.onRange n Range.arm).broadcastTenant bcResume t 18).emitHost
    (.sysResume (18 + k.stemDepth))

/-- What the wave leaves. -/
theorem Engine.waved_eq {e : Engine} (h : e.power.sysReady = true) (k : Kit) (t : TenantNo) (ranges : Dword) : ∃ g : Guard,
    e.waved k t ranges = { e with
      stem := { e.stem with issued := e.stem.issued ++ [{ code := bcFreeze, arg := t.setWidth 64 }, { code := bcResume, arg := t.setWidth 64 }] }
      guard := g
      out := e.out ++ [.broadcast { code := bcFreeze, arg := t.setWidth 64 } 2, .broadcast { code := bcResume, arg := t.setWidth 64 } 18] ++
        if e.drives then [.sysResume (18 + k.stemDepth)] else [] } ∧
    ∀ n, tabFind n g.ranges = if n ∈ rangesOf ranges then (e.range n).map Range.arm else e.range n := by
  have hfreeze := Engine.broadcastTenant_ready h bcFreeze t 2
  obtain ⟨g, hg⟩ := Engine.forEach_onRange_eq (rangesOf ranges) Range.arm (e.broadcastTenant bcFreeze t 2)
  have hrange := Engine.range_forEach_onRange (nodup_rangesOf ranges) Range.arm (e := e.broadcastTenant bcFreeze t 2)
  refine ⟨g, ?_, fun n => ?_⟩
  · unfold Engine.waved
    rw [hg, hfreeze, Engine.broadcastTenant_ready (by exact h), Engine.emitHost_eq]
    simp only [List.append_assoc, List.cons_append, List.nil_append]
    rfl
  · have hn := hrange n
    rw [hg, hfreeze] at hn
    exact hn

/-! ### The cut is frozen -/

section
variable (k : Kit) (r : Regs) (num : Dword) (run : Running) (e : Engine)

/-- The next epoch taken, and the wave sent (R77, R187). -/
def Engine.pulsed : Engine :=
  (e.drawn.setKept run.tenant.toNat { e.kept run.tenant.toNat with nextEpoch := (e.kept run.tenant.toNat).nextEpoch + 1 }).waved k run.tenant
    run.params.ranges

/-- The run that a pulse freezes (R185, R187). -/
def Engine.frozenRun : Running :=
  let x := e.kept run.tenant.toNat
  let p := { run.params with step := num }
  let ss := e.cutSources k run.tenant p
  let lay := if p.dest = 2 then ([], (glaraxLayout ss).1) else ksfLayout ss
  { run with
    params := p, epoch := x.nextEpoch, slot := targetSlot p x, freezeTime := e.freezeTime, freezeBeat := e.beat.num
    tiles := e.tilesOf run.tenant, sources := lay.2, rooms := lay.1
    dests := (cutDests r run.tenant.toNat p).map fun d => { dest := d, stage := 1, todo := [.clear], unanswered := 0, issued := 0 }
    resumeAt := (e.pulsed k run).stem.issued.length }

/-- The engine as the wave leaves it, before anything of the cut moves: its runs are counted, and its buds are to acknowledge FREEZE. -/
def Engine.frozen : Engine :=
  let a := (e.pulsed k run).bump Ctr.recipeRuns (e.cutSources k run.tenant { run.params with step := num }).length
  let run' := e.frozenRun k r num run
  { a with
    stem := { a.stem with frozen := [] }
    cut := { a.cut with phase := if run'.tiles.isEmpty then .drain else .pause, run := some run', step := num, missing := [] } }

theorem Engine.freeze_eq : e.freeze k r num run =
    (((e.frozen k r num run).beginCopy r (e.frozenRun k r num run)).cutPump k r).guardPump k := rfl

end

end Sys2Proof.Machine

namespace Sys2Proof

open Machine

/-- The pulse of the armed number, or any pulse for a plan's cut, freezes it. -/
theorem exec_sysStep_freezes {s : State} {num : Dword} {run : Running} (hready : s.eng.power.sysReady = true)
    (hpower : s.eng.power.state ≠ 2) (harmed : s.eng.cut.phase = .armed) (hrun : s.eng.cut.run = some run)
    (habsent : s.eng.absent s.kit = 0) (hnum : run.anyStep = true ∨ num = run.params.step) :
    exec (.sysStep num) s = .next (withEng s ((sampled s num).freeze s.kit s.regs num run)) := by
  rw [exec_sysStep_sampled num hready (by simp [harmed]) hpower, hrun]
  dsimp only
  rw [if_neg (by simp [harmed]), if_neg (by omega), if_pos (by simpa using hnum)]

theorem pulsed_sampled {s : State} {num : Dword} {run : Running} (hready : s.eng.power.sysReady = true) : ∃ g : Guard,
    (sampled s num).pulsed s.kit run =
    { sampled s num with
      stem := { s.eng.stem with issued := s.eng.stem.issued ++
        [{ code := bcFreeze, arg := run.tenant.setWidth 64 }, { code := bcResume, arg := run.tenant.setWidth 64 }] }
      guard := g
      body := (s.eng.setKept run.tenant.toNat { s.eng.kept run.tenant.toNat with
        nextEpoch := (s.eng.kept run.tenant.toNat).nextEpoch + 1 }).body
      out := s.eng.out ++ [.broadcast { code := bcFreeze, arg := run.tenant.setWidth 64 } 2,
        .broadcast { code := bcResume, arg := run.tenant.setWidth 64 } 18] ++ toHost s (.sysResume (18 + s.kit.stemDepth))
      draws := s.eng.draws + 1 } ∧
    ∀ n, tabFind n g.ranges = if n ∈ rangesOf run.params.ranges then (s.eng.range n).map Range.arm else s.eng.range n :=
  Engine.waved_eq (by exact hready) ..

/-- Settles O30: the pulse samples its number, and the wave freezes the cut. The time since the last edge is the model's free value (log 9). -/
theorem pulseOfAnArmedCutFreezes : Obligations.PulseOfAnArmedCutFreezes := by
  unfold Obligations.PulseOfAnArmedCutFreezes
  intro s num run x tiles bc hready hpower harmed hrun habsent hnum
  obtain ⟨g, hpulsed, hrange⟩ := pulsed_sampled (num := num) (run := run) hready
  refine ⟨(sampled s num).frozen s.kit s.regs num run, (sampled s num).frozenRun s.kit s.regs num run,
    exec_sysStep_freezes hready hpower harmed hrun habsent hnum, ?cut, rfl, rfl, rfl, rfl, rfl, rfl, rfl, rfl, rfl, rfl, rfl, rfl,
    ?resumeAt, ?kept, fun m hm => ?other, ?issued, rfl, ?out, fun n => ?range, ?same⟩
  case resumeAt =>
    unfold Engine.frozenRun
    dsimp only
    rw [hpulsed]
    simp
  all_goals
    unfold Engine.frozen
    rw [hpulsed]
  case cut =>
    dsimp only
    rw [show ((sampled s num).frozenRun s.kit s.regs num run).tiles = tiles from rfl]
    simp only [List.isEmpty_iff]
    rfl
  case kept => exact Engine.kept_setKept_same ..
  case other => exact Engine.kept_setKept_ne hm ..
  case issued => rfl
  case out => rfl
  case range => exact hrange n
  case same => simp [Same, sampled]

end Sys2Proof

/-!
PROOFS. The guard's check of a line address (R94 to R97, R392).
-/

namespace Sys2Proof.Machine

/-! ### The verdict (R94) -/

section
variable {g : Guard} {addr n granule : Nat}

theorem Guard.judge_outside (h : g.find addr = none) : g.judge addr = none := by
  simp [Guard.judge, Guard.undrainedAt, h]

section
variable {w : Range} (hfind : g.find addr = some (n, granule)) (hrange : tabFind n g.ranges = some w)

include hfind hrange

theorem Guard.judge_drained (h : w.armed = false ∨ w.bit granule = w.parity) : g.judge addr = none := by
  have hdrained : w.undrained granule = false := by
    rcases h with h | h <;> simp [Range.undrained, h]
  simp [Guard.judge, Guard.undrainedAt, hfind, hrange, hdrained]

/-- A check of a chunk that is not in the front, of an undrained granule, is held. -/
theorem Guard.judge_held (harmed : w.armed = true) (hbit : w.bit granule ≠ w.parity)
    (hchunks : ∀ x, g.gran n granule = some x → addr / 4096 % 256 ∉ x.chunks) :
    g.judge addr = some (n, granule, addr / 4096 % 256) := by
  have hundrained : w.undrained granule = true := by simp [Range.undrained, harmed, hbit]
  unfold Guard.judge Guard.undrainedAt
  simp only [hfind, hrange, hundrained, if_true]
  split
  next x hx => rw [if_neg (by simp [hchunks x hx])]
  next => rfl

end

/-- A chunk whose lines are in the front passes (R95). -/
theorem Guard.judge_read (hfind : g.find addr = some (n, granule)) {x : Gran} (hgran : g.gran n granule = some x) (hhot : x.hot = true)
    (hchunk : addr / 4096 % 256 ∈ x.chunks) : g.judge addr = none := by
  unfold Guard.judge Guard.undrainedAt
  simp only [hfind]
  split
  next => rfl
  next n' granule' h =>
    split at h
    · split at h
      · cases h
        simp [hgran, hhot, hchunk]
      · cases h
    · cases h

end

/-! ### The entry of a granule (R95) -/

theorem find_updFirst_map {α : Type} {p : α → Bool} {f : α → α} (h : ∀ y, p y = true → p (f y) = true) (l : List α) :
    (updFirst p f l).find? p = (l.find? p).map f := by
  induction l with
  | nil => rfl
  | cons y l ih =>
    unfold updFirst
    cases hy : p y with
    | true => simp [hy, h y hy]
    | false => simp [hy, ih]

/-- The entry of a granule, or a new one for a granule without one. -/
def Guard.entry (n granule : Nat) (g : Guard) : Gran :=
  (g.gran n granule).getD { range := n, granule := granule, hot := false, prio1 := false, start := 0, chunks := [] }

/-- A change that keeps the key of an entry is seen at that key. -/
theorem Guard.gran_onGran {n granule : Nat} {f : Gran → Gran} (hf : ∀ x, (f x).range = x.range ∧ (f x).granule = x.granule) (g : Guard) :
    (g.onGran n granule f).gran n granule = some (f (g.entry n granule)) := by
  have hkey (x : Gran) : ((f x).range == n && (f x).granule == granule) = (x.range == n && x.granule == granule) := by
    rw [(hf x).1, (hf x).2]
  unfold Guard.onGran Guard.entry
  cases h : g.gran n granule with
  | some x =>
    refine (find_updFirst_map (fun y hy => (hkey y).trans hy) g.grans).trans ?_
    rw [show g.grans.find? _ = _ from h]
    rfl
  | none =>
    refine List.find?_append.trans ?_
    rw [show g.grans.find? _ = _ from h]
    simp [hkey]

/-! ### A check that is held (R95) -/

section
variable (client : Nat) (htag : BitVec 4) (n granule chunk : Nat)

/-- An entry that a hold makes hot (R95). -/
def Gran.heat (x : Gran) : Gran := { x.first chunk with hot := true }

theorem Gran.heat_key (x : Gran) : (x.heat chunk).range = x.range ∧ (x.heat chunk).granule = x.granule := by
  unfold Gran.heat Gran.first
  split <;> exact ⟨rfl, rfl⟩

theorem Gran.heat_prio1 (x : Gran) : (x.heat chunk).prio1 = true := by
  unfold Gran.heat Gran.first
  split
  · assumption
  · rfl

/-- The guard with a check held: its granule is hot, and its chunk queued unless its read has been issued. -/
def Guard.holding (g : Guard) : Guard :=
  let h := g.onGran n granule fun x => x.heat chunk
  { h with
    holds := h.holds ++ [{ client := client, htag := htag, range := n, granule := granule, chunk := chunk }]
    queue := if g.queue.contains (n, granule, chunk) || g.chunkKnown n granule chunk then h.queue else h.queue ++ [(n, granule, chunk)] }

/-- A hold changes no more than the entries, the holds and the queue. -/
theorem Guard.holding_eq (g : Guard) : ∃ xs, g.holding client htag n granule chunk = { g with
    grans := xs
    holds := g.holds ++ [{ client := client, htag := htag, range := n, granule := granule, chunk := chunk }]
    queue := if g.queue.contains (n, granule, chunk) || g.chunkKnown n granule chunk then g.queue else g.queue ++ [(n, granule, chunk)] } := by
  unfold Guard.holding Guard.onGran
  split <;> exact ⟨_, rfl⟩

theorem Guard.gran_holding (g : Guard) : (g.holding client htag n granule chunk).gran n granule = some ((g.entry n granule).heat chunk) :=
  Guard.gran_onGran (Gran.heat_key chunk) g

/-- The chunk's read is under way. -/
def Guard.reads (g : Guard) : Bool := g.reading.any fun x => x.range == n && x.granule == granule && x.chunk == chunk

theorem Guard.reads_holding (g : Guard) : (g.holding client htag n granule chunk).reads n granule chunk = g.reads n granule chunk := by
  obtain ⟨xs, h⟩ := Guard.holding_eq client htag n granule chunk g
  rw [h]
  rfl

section
variable {n granule chunk}

theorem Guard.chunkKnown_of_reads {g : Guard} (h : g.reads n granule chunk = true) : g.chunkKnown n granule chunk = true :=
  Bool.or_eq_true_iff.mpr (.inr h)

variable {g : Guard} (hchunks : ∀ x, g.gran n granule = some x → chunk ∉ x.chunks)

include hchunks

theorem Guard.reads_of_chunkKnown (h : g.chunkKnown n granule chunk = true) : g.reads n granule chunk = true := by
  refine (Bool.or_eq_true_iff.mp h).resolve_left ?_
  split
  next x hx => simpa using hchunks x hx
  next => exact Bool.false_ne_true

/-- The chunk of a check that is held is read or waits to be. -/
theorem Guard.queued_holding : (n, granule, chunk) ∈ (g.holding client htag n granule chunk).queue ∨
    (g.holding client htag n granule chunk).chunkKnown n granule chunk = true := by
  have hreads := Guard.reads_holding client htag n granule chunk g
  obtain ⟨xs, h⟩ := Guard.holding_eq client htag n granule chunk g
  rw [h] at hreads ⊢
  dsimp only
  split
  next hq =>
    rcases Bool.or_eq_true_iff.mp hq with hq | hq
    · exact .inl (List.contains_iff_mem.mp hq)
    · exact .inr (Guard.chunkKnown_of_reads (hreads.trans (Guard.reads_of_chunkKnown hchunks hq)))
  next => exact .inl (by simp)

end

/-- A check of a chunk that is not in the front waits for it. -/
theorem Engine.hold_waits {e : Engine} (hchunks : ∀ x, e.guard.gran n granule = some x → chunk ∉ x.chunks) (k : Kit) :
    e.hold k client htag n granule chunk =
      ((e.onGuard (Guard.holding client htag n granule chunk)).bump Ctr.holds 1).guardPump k := by
  unfold Engine.hold
  dsimp only
  refine if_neg ?_
  split
  next x hx => simpa using hchunks x hx
  next => exact Bool.false_ne_true

end

end Sys2Proof.Machine

namespace Sys2Proof

open Machine

/-- The engine with a check held, before the guard's reads go on (R95). -/
def checkHeld (s : State) (client : Nat) (htag : BitVec 4) (n granule chunk : Nat) : Engine :=
  ((s.eng.emit (.verdict client htag true 4)).onGuard (Guard.holding client htag n granule chunk)).bump Ctr.holds 1

theorem checkHeld_guard (s : State) (client : Nat) (htag : BitVec 4) (n granule chunk : Nat) :
    (checkHeld s client htag n granule chunk).guard = s.eng.guard.holding client htag n granule chunk := rfl

section
variable {s : State} {client : Nat} {addr : BitVec 58} {htag : BitVec 4} (hclient : s.kit.hasClient client = true)

include hclient

theorem exec_grdCheck_notReady (hready : s.eng.grdReady s.kit client = false) :
    exec (.grdCheck client addr htag) s = .next (withEng s (s.eng.bump Ctr.grdBpCc 1)) :=
  (needs_eff hclient _ s).trans (by rw [if_pos (by simp [hready])])

variable (hready : s.eng.grdReady s.kit client = true)

include hready

theorem exec_grdCheck_passes (hjudge : s.eng.guard.judge (64 * addr.toNat) = none) :
    exec (.grdCheck client addr htag) s = .next (driven s [.verdict client htag false 4]) :=
  (needs_eff hclient _ s).trans (by rw [if_neg (by simp [hready]), hjudge]; rfl)

theorem exec_grdCheck_held {n granule chunk : Nat} (hjudge : s.eng.guard.judge (64 * addr.toNat) = some (n, granule, chunk))
    (hchunks : ∀ x, s.eng.guard.gran n granule = some x → chunk ∉ x.chunks) : exec (.grdCheck client addr htag) s =
      .next (withEng s ((checkHeld s client htag n granule chunk).guardPump s.kit)) :=
  (needs_eff hclient _ s).trans (by
    rw [if_neg (by simp [hready]), hjudge]
    exact congrArg (fun e => Host.Outcome.next (withEng s e))
      (Engine.hold_waits (e := s.eng.emit (.verdict client htag true 4)) client htag n granule chunk hchunks s.kit))

end

/-- Settles O33: a check that waits for request-ready, the checks that pass, and one that is held. That a check held back
counts once in GRD_BP_CC is the model's choice (log 9). -/
theorem guardHoldsUndrainedGranules : Obligations.GuardHoldsUndrainedGranules := by
  unfold Obligations.GuardHoldsUndrainedGranules
  intro s client addr htag hclient a chunk
  refine ⟨fun hready => ?notReady, fun hready => ⟨fun hfind => ?outside, fun n granule g hfind hrange => ⟨fun hdrained => ?drained,
    fun x hgran hhot hchunk => ?read, fun harmed hbit hchunks => ?held⟩⟩⟩
  case notReady =>
    exact ⟨_, exec_grdCheck_notReady hclient hready, only_of_same (same_bump ..), Engine.counter_bump_same ..⟩
  case outside => exact exec_grdCheck_passes hclient hready (Guard.judge_outside hfind)
  case drained => exact exec_grdCheck_passes hclient hready (Guard.judge_drained hfind hrange hdrained)
  case read => exact exec_grdCheck_passes hclient hready (Guard.judge_read hfind hgran hhot hchunk)
  case held =>
    have hjudge : s.eng.guard.judge a = some (n, granule, chunk) := Guard.judge_held hfind hrange harmed hbit hchunks
    obtain ⟨xs, hguard⟩ := Guard.holding_eq client htag n granule chunk s.eng.guard
    refine ⟨checkHeld s client htag n granule chunk, exec_grdCheck_held hclient hready hjudge hchunks, rfl, ?holds,
      ⟨_, Guard.gran_holding .., rfl, Gran.heat_prio1 .., fun hnone => ?start⟩, Guard.queued_holding client htag hchunks, ?ranges,
      Engine.counter_bump_same .., by simp [Same, checkHeld, Engine.onGuard]⟩
    case holds => rw [checkHeld_guard, hguard]
    case start =>
      rw [Guard.entry, show (Engine.emit _ s.eng).guard.gran n granule = none from hnone]
      rfl
    case ranges => rw [checkHeld_guard, hguard]

end Sys2Proof

/-!
PROOFS. A job that starts and completes (R14, R266, R277), and the jobs that register a guard range and take one out (R90, R91, R257, R272).
-/

namespace Sys2Proof.Machine

/-! ### A job that nothing stands against (R14, R434) -/

theorem noneHolds_append {l l' : List (Bool × Code)} : NoneHolds (l ++ l') ↔ NoneHolds l ∧ NoneHolds l' := List.forall_mem_append

theorem noneHolds_cons {p : Bool × Code} {l : List (Bool × Code)} : NoneHolds (p :: l) ↔ p.1 = false ∧ NoneHolds l := List.forall_mem_cons

theorem noneHolds_nil : NoneHolds [] := fun _ h => absurd h List.not_mem_nil

/-- A job with nothing against its entry or its data goes (R434). -/
theorem Engine.judgedData_go {k : Kit} {r : Regs} {n : Nat} {x : Entry} {conds : List (Bool × Code)} {bs : List Byte}
    {later : List Byte → List (Bool × Code)} {go : List Byte → Engine → Engine} {e : Engine} (hheader : x.badHeader = false)
    (hconds : NoneHolds conds) (hlater : NoneHolds (later bs)) : e.judgedData k r n x conds (.ok bs) later go = go bs e := by
  unfold Engine.judgedData
  rw [Engine.judged_go hheader (judge_none.mpr hconds)]
  dsimp only
  rw [judge_none.mpr hlater]

/-! ### Ranges taken out (R91) -/

theorem Engine.onGuard_forget_range_same (g : Nat) (e : Engine) : (e.onGuard (Guard.forget fun m => m == g)).range g = none := by
  refine (tabFind_filter_key (fun m => !(m == g)) g e.guard.ranges).trans ?_
  simp

theorem Engine.onGuard_forget_range_ne {g m : Nat} (h : m ≠ g) (e : Engine) :
    (e.onGuard (Guard.forget fun m => m == g)).range m = e.range m := by
  refine (tabFind_filter_key (fun m => !(m == g)) m e.guard.ranges).trans ?_
  simp [h, Engine.range]

/-- A range number keeps its parity when ranges are taken out (R91). -/
theorem Guard.forget_parities {m : Nat} (h : m < 64) (p : Nat → Bool) (g : Guard) :
    (g.forget p).parities.getLsbD m = g.parity m := by
  refine (BitVec.getLsbD_ofBoolListLE ..).trans ?_
  simp [h]

end Sys2Proof.Machine

namespace Sys2Proof

open Machine

/-! ### A job that starts -/

section
variable {s : State} {n : Nat}

/-- A job whose turn it is finds the engine with its entry taken. -/
theorem Starts.startJob {op : Nat} {x : Entry} (h : Starts s n op x) {p : Entry → Bool} (hp : p x = true) (f : Entry → Engine → Engine) :
    s.eng.startJob s.regs n p f = f x (taken s n) := by
  obtain ⟨⟨rest, hready⟩, hstart, -, -⟩ := h
  exact Engine.startJob_go hready hstart hp

theorem Starts.opcode {op : Nat} {x : Entry} (h : Starts s n op x) : x.opcode = op := by
  obtain ⟨-, -, hopcode, -⟩ := h
  exact hopcode

theorem Starts.header {op : Nat} {x : Entry} (h : Starts s n op x) : x.badHeader = false := by
  obtain ⟨-, -, -, hheader⟩ := h
  exact hheader

theorem taken_tenant (s : State) (n t : Nat) : (taken s n).tenant t = s.eng.tenant t := by
  unfold Engine.tenant taken
  rw [Engine.takeEntry_tenants]

/-- Nothing about its tenant stands against a job of an attested ring (R316, R332). -/
theorem Attested.tenantConds (h : Attested s n) : NoneHolds ((taken s n).tenantConds (s.regs.ringTenant n)) := by
  obtain ⟨hstate, hreleasing⟩ := h
  simp [NoneHolds, Engine.tenantConds, taken_tenant, hstate, hreleasing]

theorem same_taken (s : State) (n : Nat) : Same [.rings, .budget, .count] s.eng (taken s n) := by simp [Same, taken]

theorem taken_range (s : State) (n m : Nat) : (taken s n).range m = s.eng.range m := by
  unfold Engine.range taken
  rw [Engine.takeEntry_guard]

theorem taken_mode (s : State) (n : Nat) : (taken s n).mode = s.eng.mode := by simp [Engine.mode, taken]

end

/-! ### A job that completes -/

theorem same_complete (k : Kit) (r : Regs) (id : JobId) (code : Code) (result : List Byte) (e : Engine) :
    Same [.rings, .mem, .out, .vault] e (e.complete k r id code result) := by simp [Same]

/-- A job whose ring has only had its entry taken completes behind what the completion ring held (R266). -/
theorem completed_complete {s : State} {n : Nat} {e : Engine} (hring : e.ring n = (taken s n).ring n) (x : Entry) (code : Code)
    (result : List Byte) : Completed s (withEng s (e.complete s.kit s.regs (x.jobId n) code result)) n x code result ∧
      Taken s (withEng s (e.complete s.kit s.regs (x.jobId n) code result)) n := by
  have hring : e.ring n = _ := hring.trans (Engine.takeEntry_ring ..)
  obtain ⟨head, more, hcq⟩ := Engine.complete_cq s.kit s.regs (x.jobId n) code result e
  have hready := Engine.complete_ready s.kit s.regs (x.jobId n) code result n e
  have hn : (x.jobId n).ring = n := rfl
  rw [hn, hring] at hcq
  rw [hring] at hready
  exact ⟨⟨head, more, hcq⟩, hready⟩

/-! ### GUARD_ADD (R90, R91) -/

/-- An entry of ring `n` that asks for a range to be registered, against which no condition stands, with its coordinates `bs` and the
lowest free number `g`. -/
structure GuardAsked (s : State) (n : Nat) (x : Entry) (bs : List Byte) (g : Nat) : Prop where
  start : Starts s n 0x0A x
  attested : Attested s n
  granules : 1 ≤ leAt 8 4 x.params ∧ leAt 8 4 x.params ≤ 262144
  cls : leAt 12 1 x.params = 0 ∨ (3 ≤ leAt 12 1 x.params ∧ leAt 12 1 x.params ≤ 7)
  count : 1 ≤ leAt 24 4 x.params ∧ leAt 24 4 x.params ≤ 4096
  reserved : zeroAt 13 3 x.params = true ∧ zeroAt 28 20 x.params = true
  apart : ∀ w ∈ s.eng.guard.ranges, granulesMeet (leAt 0 8 x.params / 2 ^ 20) (leAt 8 4 x.params) w.2 = false
  aligned : leAt 0 8 x.params % 2 ^ 20 = 0 ∧ leAt 16 8 x.params % 64 = 0
  base : s.regs.inRegions (s.regs.ringTenant n).toNat (leAt 0 8 x.params) (leAt 8 4 x.params * 2 ^ 20) = true
  coords : s.regs.inRegions (s.regs.ringTenant n).toNat (leAt 16 8 x.params) (192 * leAt 24 4 x.params) = true
  mode : s.eng.mode ≠ .recovery
  room : s.eng.guard.ranges.length < 64
  quota : s.eng.beat.sealed = true → (s.eng.guard.ranges.filter fun w => w.2.owner == s.regs.ringTenant n).length <
    s.regs.quotaRanges (s.regs.ringTenant n).toNat
  list : tlistBad (leAt 24 4 x.params) bs = false
  below : g < 64
  free : s.eng.range g = none
  lowest : ∀ m, m < g → s.eng.range m ≠ none

/-- The range that such an entry registers (R90): not armed, and every granule drained (R91). -/
def askedRange (s : State) (n : Nat) (x : Entry) (bs : List Byte) (g : Nat) : Range :=
  { base := leAt 0 8 x.params / 2 ^ 20, granules := leAt 8 4 x.params, owner := s.regs.ringTenant n, cls := leAt 12 1 x.params
    coords := (List.range (leAt 24 4 x.params)).map fun i => coordOf (slice (192 * i) 192 bs)
    armed := false, parity := s.eng.guard.parities.getLsbD g, flag := s.eng.guard.parities.getLsbD g, flipped := [] }

/-- The engine with that range registered. -/
def registered (s : State) (n : Nat) (x : Entry) (bs : List Byte) (g : Nat) : Engine :=
  { taken s n with guard := { s.eng.guard with ranges := tabSet g (askedRange s n x bs g) s.eng.guard.ranges } }

theorem exec_guardAdd {s : State} {ring : BitVec 8} {x : Entry} {bs : List Byte} {g : Nat} (h : GuardAsked s ring.toNat x bs g) :
    exec (.guardAdd ring (.ok bs)) s = .next (withEng s
      ((registered s ring.toNat x bs g).complete s.kit s.regs (x.jobId ring.toNat) 0 (natLE 1 g))) := by
  have hlow : lowestFrom (fun i => ((taken s ring.toNat).range i).isNone) 0 64 = some g := by
    refine lowestFrom_eq_some g.zero_le (by have := h.below; omega) ?_ fun m _ hm => ?_
    · rw [taken_range, h.free]
      rfl
    · rw [taken_range]
      simpa [Option.isSome_iff_ne_none] using h.lowest m hm
  have hguard : (taken s ring.toNat).guard = s.eng.guard := Engine.takeEntry_guard ..
  have hbeat : (taken s ring.toNat).beat = s.eng.beat := Engine.takeEntry_beat ..
  show execGuardAdd ring (.ok bs) s = _
  unfold execGuardAdd
  rw [State.eff_eq, h.start.startJob (by simp [h.start.opcode])]
  dsimp only
  rw [Engine.judgedData_go h.start.header (noneHolds_append.mpr ⟨h.attested.tenantConds, ?conds⟩) (noneHolds_cons.mpr ⟨h.list, noneHolds_nil⟩),
    hlow, hguard]
  case conds =>
    obtain ⟨hlow, hhigh⟩ := h.granules
    obtain ⟨hsome, hmany⟩ := h.count
    obtain ⟨hrsv, hrsv'⟩ := h.reserved
    obtain ⟨hbase, haddr⟩ := h.aligned
    simp only [noneHolds_cons, noneHolds_nil, and_true, hguard, hbeat, taken_mode]
    refine ⟨?fields, ?apart, ?aligned, ?regions, ?mode, ?room⟩
    case fields =>
      have hcls := h.cls
      simp [hrsv, hrsv']
      omega
    case apart => exact List.any_eq_false.mpr fun w hw => ne_true_of_eq_false (h.apart w hw)
    case aligned => rw [hbase, haddr]; rfl
    case regions => rw [h.base, h.coords]; rfl
    case mode => exact beq_eq_false_iff_ne.mpr h.mode
    case room =>
      have hroom := h.room
      refine Bool.or_eq_false_iff.mpr ⟨by simpa using hroom, ?_⟩
      cases hsealed : s.eng.beat.sealed with
      | false => rfl
      | true => simpa using h.quota hsealed
  rfl

theorem registered_range_same (s : State) (n : Nat) (x : Entry) (bs : List Byte) (g : Nat) :
    (registered s n x bs g).range g = some (askedRange s n x bs g) := tabFind_set_same ..

theorem registered_range_ne {g m : Nat} (h : m ≠ g) (s : State) (n : Nat) (x : Entry) (bs : List Byte) :
    (registered s n x bs g).range m = s.eng.range m := tabFind_set_ne h ..

/-- Every granule of the range is drained: its bit is the parity (R91). -/
theorem askedRange_bit (s : State) (n : Nat) (x : Entry) (bs : List Byte) (g i : Nat) :
    (askedRange s n x bs g).bit i = (askedRange s n x bs g).parity := by simp [Range.bit, askedRange]

theorem same_registered (s : State) (n : Nat) (x : Entry) (bs : List Byte) (g : Nat) :
    Same [.rings, .budget, .count, .guard] s.eng (registered s n x bs g) := by simp [Same, registered, taken]

theorem complete_guard (s : State) (id : JobId) (code : Code) (result : List Byte) (e : Engine) :
    (withEng s (e.complete s.kit s.regs id code result)).eng.guard = e.guard :=
  Engine.complete_guard s.kit s.regs id code result e

theorem complete_range (s : State) (id : JobId) (code : Code) (result : List Byte) (e : Engine) (m : Nat) :
    (withEng s (e.complete s.kit s.regs id code result)).eng.range m = e.range m :=
  congrArg (fun g : Guard => tabFind m g.ranges) (complete_guard s id code result e)

/-! ### GUARD_REMOVE (R90, R272) -/

/-- The engine with the entry taken and range `g` no longer registered. -/
def unregistered (s : State) (n g : Nat) : Engine := (taken s n).onGuard (Guard.forget fun m => m == g)

theorem same_unregistered (s : State) (n g : Nat) : Same [.rings, .budget, .count, .guard] s.eng (unregistered s n g) := by
  simp [Same, unregistered, taken, Engine.onGuard]

theorem unregistered_parity {s : State} {n g : Nat} {w : Range} (h : g < 64) (hrange : s.eng.range g = some w) :
    (unregistered s n g).guard.parities.getLsbD g = w.parity := by
  refine (Guard.forget_parities h _ (taken s n).guard).trans ?_
  rw [taken, Engine.takeEntry_guard, Guard.parity, show tabFind g s.eng.guard.ranges = some w from hrange]

theorem exec_guardRemove {s : State} {ring : BitVec 8} {x : Entry} {w : Range} (hattested : Attested s ring.toNat)
    (hstart : Starts s ring.toNat 0x0B x) (hbelow : leAt 0 1 x.params < 64) (hrange : s.eng.range (leAt 0 1 x.params) = some w)
    (howner : w.owner = s.regs.ringTenant ring.toNat) (hreserved : zeroAt 1 15 x.params = true)
    (hidle : s.eng.rangeBusy (leAt 0 1 x.params) = false) :
    exec (.guardRemove ring) s = .next (withEng s
      ((unregistered s ring.toNat (leAt 0 1 x.params)).complete s.kit s.regs (x.jobId ring.toNat) 0 [])) := by
  have hbusy : (taken s ring.toNat).rangeBusy (leAt 0 1 x.params) = false := by
    unfold Engine.rangeBusy at hidle ⊢
    rwa [taken, Engine.takeEntry_cut]
  show execGuardRemove ring s = _
  unfold execGuardRemove
  rw [State.eff_eq, hstart.startJob (by simp [hstart.opcode])]
  dsimp only
  rw [Engine.judged_go hstart.header (judge_none.mpr (noneHolds_append.mpr ⟨hattested.tenantConds, ?conds⟩))]
  case conds =>
    simp only [noneHolds_cons, noneHolds_nil, and_true, taken_range, hrange]
    refine ⟨by simp [howner], ?_, hbusy⟩
    simp [hbelow, hreserved]
  rfl

/-- Settles O46: nothing stands against either job, so what it does is to set, or to take out, one entry of the table of ranges. That
BASE lies in the tenant's host regions is DEDUCED (log 17). -/
theorem guardRangesAreAddedAndRemoved : Obligations.GuardRangesAreAddedAndRemoved := by
  intro s ring x n tn base granules cls addr count hattested
  constructor
  · intro bs g hstart hsome hmany hcls hfew hcount hrsv hrsv' hapart hbase haddr hin hin' hmode hroom hquota hlist hbelow hfree hlow
    have h : GuardAsked s ring.toNat x bs g := ⟨hstart, hattested, ⟨hsome, hmany⟩, hcls, ⟨hfew, hcount⟩, ⟨hrsv, hrsv'⟩, hapart,
      ⟨hbase, haddr⟩, hin, hin', hmode, hroom, hquota, hlist, hbelow, hfree, hlow⟩
    obtain ⟨hcompleted, htaken⟩ := completed_complete (e := registered s ring.toNat x bs g) rfl x 0 (natLE 1 g)
    have hranges := complete_range s (x.jobId ring.toNat) 0 (natLE 1 g) (registered s ring.toNat x bs g)
    have hlength : (askedRange s ring.toNat x bs g).coords.length = count := by simp [askedRange, count]
    refine ⟨_, askedRange s ring.toNat x bs g, exec_guardAdd h, (hranges g).trans (registered_range_same ..), rfl, rfl, rfl, rfl, hlength,
      rfl, rfl, askedRange_bit s ring.toNat x bs g, fun m hm => (hranges m).trans (registered_range_ne hm ..), hcompleted, htaken,
      only_of_same ?_⟩
    exact ((same_registered ..).mono (by decide)).trans ((same_complete ..).mono (by decide))
  · intro w hstart hbelow hrange howner hreserved hidle
    obtain ⟨hcompleted, htaken⟩ := completed_complete (e := unregistered s ring.toNat (leAt 0 1 x.params)) rfl x 0 []
    have hranges := complete_range s (x.jobId ring.toNat) 0 [] (unregistered s ring.toNat (leAt 0 1 x.params))
    refine ⟨_, exec_guardRemove hattested hstart hbelow hrange howner hreserved hidle,
      (hranges _).trans (Engine.onGuard_forget_range_same ..), ?parity,
      fun m hm => ((hranges m).trans (Engine.onGuard_forget_range_ne hm _)).trans (taken_range ..), hcompleted, htaken,
      only_of_same (((same_unregistered ..).mono (by decide)).trans ((same_complete ..).mono (by decide)))⟩
    case parity =>
      rw [complete_guard]
      exact unregistered_parity hbelow hrange

end Sys2Proof

/-!
PROOFS. A cut that arms: by a CUT to which no condition applies (R71 to R73, R327), and by a pre-emption notice (R105, R106).
-/

namespace Sys2Proof.Machine

/-! ### A cut is armed (R73, R105, R327) -/

section
variable (t : TenantNo) (p : CutParams) (job : Option JobId) (plan : Bool)

/-- The run of a cut that is armed: nothing is frozen, and any pulse takes a plan's cut (R105, R185). -/
def Engine.armedRun (e : Engine) : Running :=
  let x := e.kept t.toNat
  { params := p, tenant := t, job := job, plan := plan, anyStep := plan, xtsEpoch := x.xtsNext, epoch := 0
    prevEpoch := if x.valid then x.lastEpoch else 0, slot := false, freezeTime := 0, freezeBeat := 0, tiles := [], sources := []
    rooms := [], image := [], held := [], shards := [], dests := [], manifest := [], record := [], waitBody := false, resumeAt := 0 }

/-- Arming sends ARM, and the XTS epoch of the tenant rises by one (R73, R327). -/
theorem Engine.armCut_ready {e : Engine} (h : e.power.sysReady = true) : e.armCut t p job plan = { e with
    body := (e.setKept t.toNat { e.kept t.toNat with xtsNext := (e.kept t.toNat).xtsNext + 1 }).body
    stem := { e.stem with issued := e.stem.issued ++ [{ code := bcArm, arg := t.setWidth 64 }] }
    out := e.out ++ [.broadcast { code := bcArm, arg := t.setWidth 64 } 0]
    cut := { e.cut with phase := .armed, run := some (e.armedRun t p job plan), lastTenant := t, step := p.step } } := by
  unfold Engine.armCut
  dsimp only
  rw [Engine.broadcastTenant_ready (by exact h)]
  rfl

end

/-- No cut arms before SYS_READY (R72). -/
theorem Engine.sysReady_of_cutConds {k : Kit} {r : Regs} {t : TenantNo} {p : CutParams} {e : Engine} (h : NoneHolds (e.cutConds k r t p)) :
    e.power.sysReady = true := by
  have hcond := h (!e.power.sysReady || decide (0 < e.absent k), 0x1A) (by simp [Engine.cutConds])
  simpa using (Bool.or_eq_false_iff.mp hcond).1

/-- A CUT that is not refused is not counted as refused (R172). -/
theorem Engine.judged_countRecipe_go {k : Kit} {r : Regs} {n : Nat} {x : Entry} {conds mine : List (Bool × Code)} {go : Engine → Engine}
    {e : Engine} (hheader : x.badHeader = false) (h : NoneHolds conds) :
    (e.countRecipe ((x.badHeader, 0x11) :: conds) mine).judged k r n x conds go = go e := by
  rw [Engine.judged_go hheader (judge_none.mpr h), Engine.countRecipe, judge_none.mpr (noneHolds_cons.mpr ⟨hheader, h⟩)]

/-! ### The plan arms its cut (R105, R106) -/

section
variable {k : Kit} {r : Regs} {e : Engine}

theorem Engine.planArm_none (h : tabFind e.cut.planTenant.toNat e.cut.template = none) :
    e.planArm k r = e.raise k r 0x0C (some e.cut.planTenant) := by
  unfold Engine.planArm
  dsimp only
  rw [h]

theorem Engine.planArm_arms {p : CutParams} (h : tabFind e.cut.planTenant.toNat e.cut.template = some p)
    (hconds : NoneHolds (e.cutConds k r e.cut.planTenant p)) : e.planArm k r = e.armCut e.cut.planTenant p none true := by
  unfold Engine.planArm
  dsimp only
  rw [h]
  dsimp only
  rw [judge_none.mpr hconds]

theorem Engine.planCut_idle (h : e.cut.run = none) : e.planCut k r = e.planArm k r := by
  unfold Engine.planCut
  rw [h]

variable {run : Running} (h : e.cut.run = some run)

include h

/-- A cut of the plan's tenant becomes the plan's. -/
theorem Engine.planCut_adopts (htenant : run.tenant = e.cut.planTenant) :
    e.planCut k r = e.setRun { run with plan := true, anyStep := run.anyStep || e.cut.phase == .armed } := by
  unfold Engine.planCut
  rw [h]
  exact if_pos htenant

/-- A cut of another tenant that is armed only ends. -/
theorem Engine.planCut_replaces (htenant : run.tenant ≠ e.cut.planTenant) (hphase : e.cut.phase = .armed) :
    e.planCut k r = (e.endCut k r 0x63).planArm k r := by
  unfold Engine.planCut
  rw [h]
  exact (if_neg htenant).trans (if_pos hphase)

theorem Engine.planCut_waits (htenant : run.tenant ≠ e.cut.planTenant) (hphase : e.cut.phase ≠ .armed) :
    e.planCut k r = { e with cut := { e.cut with planWaits := true } } := by
  unfold Engine.planCut
  rw [h]
  exact (if_neg htenant).trans (if_neg hphase)

end

end Sys2Proof.Machine

namespace Sys2Proof

open Machine

/-! ### CUT -/

/-- The engine with the entry taken and its job begun. -/
def cutBegun (s : State) (n : Nat) (x : Entry) : Engine :=
  (taken s n).addJob { id := x.jobId n, tenant := some (s.regs.ringTenant n), kind := .cut, spans := (taken s n).cutSpans (cutParamsOf x.params) }

/-- The engine with the cut armed and its parameters kept as the tenant's template (R105). -/
def cutArmed (s : State) (n : Nat) (x : Entry) : Engine :=
  let e := (cutBegun s n x).armCut (s.regs.ringTenant n) (cutParamsOf x.params) (some (x.jobId n)) false
  { e with cut := { e.cut with template := tabSet (s.regs.ringTenant n).toNat (cutParamsOf x.params) e.cut.template } }

theorem taken_cutSpans (s : State) (n : Nat) (p : CutParams) : (taken s n).cutSpans p = s.eng.cutSpans p := by
  unfold Engine.cutSpans
  simp only [taken_range]

/-- What a CUT is judged by (R71, R72). -/
def cutChecks (s : State) (n : Nat) (x : Entry) : List (Bool × Code) :=
  let e := taken s n
  e.tenantConds (s.regs.ringTenant n) ++ e.cutConds s.kit s.regs (s.regs.ringTenant n) (cutParamsOf x.params) ++
    [(cutParamsRsv x.params, 0x11), (e.stepPast (cutParamsOf x.params), 0x14), (e.mode == .recovery, 0x14), (e.cut.run.isSome, 0x58)]

theorem exec_cut {s : State} {ring : BitVec 8} {x : Entry} (hstart : Starts s ring.toNat 1 x) (hattested : Attested s ring.toNat)
    (hconds : NoneHolds ((taken s ring.toNat).cutConds s.kit s.regs (s.regs.ringTenant ring.toNat) (cutParamsOf x.params)))
    (hrsv : cutParamsRsv x.params = false) (hstep : (taken s ring.toNat).stepPast (cutParamsOf x.params) = false)
    (hmode : (taken s ring.toNat).mode ≠ .recovery) (hrun : s.eng.cut.run = none) :
    exec (.cut ring) s = .next (withEng s (cutArmed s ring.toNat x)) := by
  have hidle : (taken s ring.toNat).cut.run.isSome = false := by simp [taken, hrun]
  have hnone : NoneHolds (cutChecks s ring.toNat x) := by
    simp only [cutChecks, noneHolds_append, noneHolds_cons]
    exact ⟨⟨hattested.tenantConds, hconds⟩, hrsv, hstep, beq_eq_false_iff_ne.mpr hmode, hidle, noneHolds_nil⟩
  show execCut ring s = _
  unfold execCut
  rw [State.eff_eq, hstart.startJob (by simp [hstart.opcode])]
  exact congrArg (fun e => (.next (withEng s e) : Out)) (Engine.judged_countRecipe_go hstart.header hnone)

/-- What arming leaves. -/
theorem cutArmed_ready {s : State} (h : s.eng.power.sysReady = true) (n : Nat) (x : Entry) : cutArmed s n x =
    let t := s.regs.ringTenant n
    let p := cutParamsOf x.params
    { cutBegun s n x with
      body := (s.eng.setKept t.toNat { s.eng.kept t.toNat with xtsNext := (s.eng.kept t.toNat).xtsNext + 1 }).body
      stem := { s.eng.stem with issued := s.eng.stem.issued ++ [{ code := bcArm, arg := t.setWidth 64 }] }
      out := s.eng.out ++ [.broadcast { code := bcArm, arg := t.setWidth 64 } 0]
      cut := { s.eng.cut with phase := .armed, run := some (s.eng.armedRun t p (some (x.jobId n)) false), lastTenant := t, step := p.step
                              template := tabSet t.toNat p s.eng.cut.template } } := by
  have hpower : (cutBegun s n x).power = s.eng.power := Engine.takeEntry_power ..
  have hbody : (cutBegun s n x).body = s.eng.body := Engine.takeEntry_body ..
  have hstem : (cutBegun s n x).stem = s.eng.stem := Engine.takeEntry_stem ..
  have hout : (cutBegun s n x).out = s.eng.out := Engine.takeEntry_out ..
  have hcut : (cutBegun s n x).cut = s.eng.cut := Engine.takeEntry_cut ..
  unfold cutArmed
  rw [Engine.armCut_ready _ _ _ _ (hpower ▸ h)]
  simp only [Engine.armedRun, Engine.kept, Engine.setKept, hbody, hstem, hout, hcut]
  rfl

theorem cutBegun_jobs (s : State) (n : Nat) (x : Entry) : (cutBegun s n x).rings.jobs = s.eng.rings.jobs ++
    [{ id := x.jobId n, tenant := some (s.regs.ringTenant n), kind := .cut, spans := s.eng.cutSpans (cutParamsOf x.params) }] := by
  rw [← Engine.takeEntry_jobs s.regs n s.eng, ← taken_cutSpans s n]
  rfl

/-- Settles O29: nothing stands against the job, so it begins and its cut is armed. -/
theorem cutJobArms : Obligations.CutJobArms := by
  unfold Obligations.CutJobArms
  intro s ring x n e tn p hstart hattested hconds hrsv hstep hmode hrun template
  have hready : s.eng.power.sysReady = true := (congrArg Power.sysReady (Engine.takeEntry_power ..)).symm.trans (Engine.sysReady_of_cutConds hconds)
  refine ⟨_, s.eng.armedRun tn p (some (x.jobId ring.toNat)) false, exec_cut hstart hattested hconds hrsv hstep hmode hrun, ?_⟩
  rw [cutArmed_ready hready]
  refine ⟨rfl, rfl, rfl, rfl, rfl, rfl, rfl, Engine.kept_setKept_same .., fun m hm => Engine.kept_setKept_ne hm .., rfl, rfl,
    cutBegun_jobs .., congrArg Ring.ready (Engine.takeEntry_ring s.regs ring.toNat s.eng), only_of_same ?_⟩
  simp [Same, cutBegun, taken, Engine.addJob]

/-! ### The pre-emption notice (R105, R106) -/

/-- The engine with the plan ACTIVE. -/
def noticed (s : State) : Engine :=
  { s.eng with cut := { s.eng.cut with planActive := true, planTenant := s.regs.planTenant, planSource := 1, planLeft := s.regs.planDeadline } }

section
variable {s : State} (hstate : s.eng.power.state = 0) (hentering : s.eng.power.entering = false)

include hstate hentering

/-- In P0 there is nothing to wake (R369). -/
theorem exec_notice : exec .sysPreemptNFall s = .next (withEng s (s.eng.notice s.kit s.regs 1)) := by
  show execSysPreemptNFall s = _
  unfold execSysPreemptNFall
  rw [State.eff_eq, Engine.wake_awake hentering hstate]
  rfl

theorem exec_notice_ignored (h : s.regs.planEnable = false ∨ s.eng.cut.planActive = true) : exec .sysPreemptNFall s = .next s := by
  rw [exec_notice hstate hentering, Engine.notice, if_neg (by simpa [or_iff_not_imp_left] using h)]
  rfl

variable (henable : s.regs.planEnable = true) (hactive : s.eng.cut.planActive = false)

include henable hactive

theorem exec_notice_planCut : exec .sysPreemptNFall s = .next (withEng s ((noticed s).planCut s.kit s.regs)) := by
  rw [exec_notice hstate hentering, Engine.notice, if_pos (by simp [henable, hactive])]
  rfl

end

theorem same_noticed (s : State) : Same [.cut] s.eng (noticed s) := by simp [Same, noticed]

/-- Settles O32: a notice that is not ignored makes the plan ACTIVE, and the cut that stands decides its cut (R106). That CUT_STEP is the
template's STEP is the model's choice (log 91); a plan that a condition keeps from arming (log 57) is not spoken of here. -/
theorem preemptionNoticeArmsThePlansCut : Obligations.PreemptionNoticeArmsThePlansCut := by
  unfold Obligations.PreemptionNoticeArmsThePlansCut
  intro s hstate hentering plan tn
  refine ⟨exec_notice_ignored hstate hentering, fun henable hactive => ?_⟩
  have hexec := exec_notice_planCut hstate hentering henable hactive
  refine ⟨fun p hrun htemplate hconds => ?arms, fun hrun htemplate => ?lacks, fun run hrun => ⟨fun htenant => ?adopts,
    fun htenant hphase => ?waits, fun htenant hphase => ?replaces⟩⟩
  case arms =>
    have hready : (noticed s).power.sysReady = true := Engine.sysReady_of_cutConds hconds
    rw [Engine.planCut_idle (by exact hrun), Engine.planArm_arms (by exact htemplate) (by exact hconds),
      Engine.armCut_ready _ _ _ _ hready] at hexec
    refine ⟨_, (noticed s).armedRun tn p none true, hexec, rfl, rfl, rfl, rfl, rfl, rfl, ?_, only_of_same ?_⟩
    · exact congrArg Kept.xtsNext (Engine.kept_setKept_same ..)
    · simp [Same, noticed]
  case lacks =>
    rw [Engine.planCut_idle (by exact hrun), Engine.planArm_none (by exact htemplate)] at hexec
    exact ⟨_, hexec, Engine.raise_cut .., raised_raise (foxImplemented_of_fixed (by decide) s.kit) (by rfl) (by rfl) (by rfl) _,
      only_of_same (((same_noticed s).mono (by decide)).trans ((same_raise ..).mono (by decide)))⟩
  case adopts =>
    rw [Engine.planCut_adopts (by exact hrun) (by exact htenant)] at hexec
    exact ⟨_, hexec, only_of_same (by simp [Same, noticed, Engine.setRun]), rfl⟩
  case waits =>
    rw [Engine.planCut_waits (by exact hrun) (by exact htenant) (by exact hphase)] at hexec
    exact ⟨_, hexec, only_of_same (by simp [Same, noticed]), rfl⟩
  case replaces => rw [hexec, Engine.planCut_replaces (e := noticed s) hrun htenant hphase]; rfl

end Sys2Proof

/-!
PROOFS. The banks and the lines of the body read after they are written (R118, R129), and the counts of a bank in the error window.
-/

namespace Sys2Proof.Machine

/-! ### Banks -/

@[simp] theorem Body.bank_setBank_same (p : Nat) (v : Bank) (b : Body) : (b.setBank p v).bank p = v := tabGet_put_same _ _ _ _

theorem Body.bank_setBank_ne {q p : Nat} (h : q ≠ p) (v : Bank) (b : Body) : (b.setBank p v).bank q = b.bank q := tabGet_put_ne h _ _

theorem Body.bank_countWrite_same (p : Nat) (b : Body) : (b.countWrite p).bank p = { b.bank p with writes := (b.bank p).writes + 1 } :=
  Body.bank_setBank_same ..

theorem Body.writes_countWrite_same (p : Nat) (b : Body) : ((b.countWrite p).bank p).writes = (b.bank p).writes + 1 :=
  congrArg Bank.writes (Body.bank_countWrite_same ..)

theorem Body.bank_countWrite_ne {q p : Nat} (h : q ≠ p) (b : Body) : (b.countWrite p).bank q = b.bank q := Body.bank_setBank_ne h ..

@[simp] theorem Engine.bankErrors_setBankErrors_same (p : Nat) (v : BankErrors) (e : Engine) : (e.setBankErrors p v).bankErrors p = v :=
  tabGet_put_same _ _ _ _

theorem Engine.writeFail_countWriteFail (p : Nat) (e : Engine) :
    ((e.countWriteFail p).bankErrors p).writeFail = (e.bankErrors p).writeFail + 1 :=
  congrArg BankErrors.writeFail (Engine.bankErrors_setBankErrors_same ..)

/-! ### Stored lines -/

/-- A key at which a line of zeros without an owner is stored holds no data (log 5). -/
theorem Body.line_store_same (key : Nat) (l : Line) (b : Body) : (b.store key l).line key = if l = Line.empty then none else some l := by
  show tabFind key (tabPut (fun _ => Line.empty) key l b.lines) = _
  unfold tabPut
  split
  · exact tabFind_erase_same ..
  · exact tabFind_set_same ..

theorem Body.line_store_ne {m key : Nat} (h : m ≠ key) (l : Line) (b : Body) : (b.store key l).line m = b.line m := Body.line_setLine_ne h l b

theorem Engine.line_storeLine_same {l : Line} (h : l ≠ Line.empty) (key : Nat) (e : Engine) : (e.storeLine key l).body.line key = some l :=
  (Body.line_store_same ..).trans (if_neg h)

theorem Engine.line_storeLine_ne {m key : Nat} (h : m ≠ key) (l : Line) (e : Engine) : (e.storeLine key l).body.line m = e.body.line m :=
  Body.line_store_ne h ..

theorem Engine.writes_storeLine (key : Nat) (l : Line) (e : Engine) :
    ((e.storeLine key l).body.bank (key / bankLines)).writes = (e.body.bank (key / bankLines)).writes + 1 := Body.writes_countWrite_same ..

end Sys2Proof.Machine

/-!
PROOFS. The end of a body write (R118, R129, R188).
-/

namespace Sys2Proof

open Machine

section
variable {s : State} {w : BodyWrite} {rest : List BodyWrite} (hwrites : s.eng.bulb.writes = w :: rest)

include hwrites

/-- What the oldest body write leaves when it is tried again: the attempt counted for its bank, and the write first in the list. -/
theorem exec_bodyWrite_again (hfew : w.attempts < 3) :
    exec (.bodyWriteComplete false) s = .next (withEng s
      (({ s.eng with
          bulb := { s.eng.bulb with writes := { w with attempts := w.attempts + 1 } :: rest }
          body := s.eng.body.countWrite (s.eng.writeBank w.use) } : Engine).bump Ctr.writeRetries 1)) := by
  show execBodyWriteComplete false s = _
  unfold execBodyWriteComplete
  rw [State.eff_eq]
  dsimp only
  rw [hwrites]
  dsimp only
  rw [if_neg Bool.false_ne_true, if_pos (.inl hfew)]
  cases w.use <;> rfl

/-- A write that has verified is done with. -/
theorem exec_bodyWrite_done : exec (.bodyWriteComplete true) s = .next (withEng s (s.eng.bodyDone s.kit s.regs w)) := by
  show execBodyWriteComplete true s = _
  unfold execBodyWriteComplete
  rw [State.eff_eq]
  dsimp only
  rw [hwrites]
  rfl

/-- A write that has failed for the fourth time has failed for good. -/
theorem exec_bodyWrite_failed (hmany : 3 ≤ w.attempts) (hmay : s.eng.mayFail w.use = true) :
    exec (.bodyWriteComplete false) s = .next (withEng s (s.eng.bodyFailed s.kit s.regs w)) := by
  show execBodyWriteComplete false s = _
  unfold execBodyWriteComplete
  rw [State.eff_eq]
  dsimp only
  rw [hwrites]
  dsimp only
  rw [if_neg Bool.false_ne_true, if_neg (not_or.mpr ⟨Nat.not_lt.mpr hmany, by simp [hmay]⟩)]
  rfl

theorem popWrite_bulb : s.eng.popWrite.bulb = { s.eng.bulb with writes := rest } := by
  unfold Engine.popWrite
  rw [hwrites]
  rfl

end

/-! ### What a write that verifies does, by what it is for -/

theorem Engine.bodyDone_vault {w : BodyWrite} {n ver : Nat} (huse : w.use = .vault n ver) (k : Kit) (r : Regs) (e : Engine) :
    e.bodyDone k r w = (e.popWrite.storeLine (e.bodyKey n) w.line).settleLine k r (.body n) ver 0 := by
  unfold Engine.bodyDone
  rw [huse]
  rfl

theorem Engine.bodyDone_copy {w : BodyWrite} {n : Nat} (huse : w.use = .copy n) (k : Kit) (r : Regs) (e : Engine) :
    e.bodyDone k r w = (((e.popWrite.storeLine (e.bodyKey n) w.line).unfail (.body n)).settleLine k r (.body n) (e.verOf (.body n)) 0).copyNext r := by
  unfold Engine.bodyDone
  rw [huse]
  rfl

theorem same_popWrite_storeLine (key : Nat) (l : Line) (e : Engine) : Same [.body, .bulb] e (e.popWrite.storeLine key l) := by
  simp [Same, Engine.popWrite, Engine.storeLine]

/-- The engine with the attempt of a body write for `use`, which has failed for good, counted, and its failure counted for the bank. -/
def failureCounted (s : State) (use : BodyFor) : Engine := (s.eng.popWrite.countAttempt use).countWriteFail (s.eng.writeBank use)

theorem same_failureCounted (s : State) (use : BodyFor) : Same [.body, .bulb] s.eng (failureCounted s use) := by
  simp [Same, failureCounted, Engine.popWrite, Engine.countAttempt, Engine.countWriteFail, Engine.setBankErrors]

/-- The engine with the write of COMMIT_STATE of tenant `u` counted and stored (R188). -/
def commitStored (s : State) (u : Nat) (run : Running) : Engine :=
  let e := s.eng.popWrite.countAttempt (.commitState u)
  e.setKept u ((e.kept u).committed run.slot run.epoch run.params.step)

theorem same_commitStored (s : State) (u : Nat) (run : Running) : Same [.body, .bulb] s.eng (commitStored s u run) := by
  simp [Same, commitStored, Engine.popWrite, Engine.countAttempt]

theorem bodyDone_commitState {s : State} {w : BodyWrite} {u : Nat} {run : Running} (huse : w.use = .commitState u)
    (hrun : s.eng.cut.run = some run) :
    s.eng.bodyDone s.kit s.regs w = ((commitStored s u run).commitCut s.kit s.regs run).pumpWindows s.kit s.regs := by
  unfold Engine.bodyDone
  rw [huse]
  dsimp only
  unfold Engine.onRun
  rw [show (s.eng.popWrite.countAttempt (.commitState u)).cut.run = some run from hrun]
  rfl

theorem bodyFailed_vault {s : State} {w : BodyWrite} {n ver : Nat} (huse : w.use = .vault n ver) :
    s.eng.bodyFailed s.kit s.regs w =
      ((failureCounted s w.use).raise s.kit s.regs 0x14 (some w.line.tenant)).settleLine s.kit s.regs (.body n) ver 0x26 := by
  unfold Engine.bodyFailed
  rw [huse]
  rfl

/-- Settles O36: a write is tried again, done, or failed for good. That the record of 0x14 names the tenant of the line (log 73) and that
COMMIT_STATE stands in the bank of the logical bank with the tenant's number (log 76) are choices of the model. -/
theorem bodyWritesAreVerifiedOrRetried : Obligations.BodyWritesAreVerifiedOrRetried := by
  unfold Obligations.BodyWritesAreVerifiedOrRetried
  intro s w rest hwrites bank line
  have hdone := exec_bodyWrite_done hwrites
  have hbulb := popWrite_bulb hwrites
  refine ⟨fun hfew => ?again, fun n ver huse => ⟨?vault, fun hmany => ?failed⟩, fun n huse => ?copy, fun u run huse hrun => ?commit⟩
  case again =>
    refine ⟨_, exec_bodyWrite_again hwrites hfew, rfl, Engine.counter_bump_same .., rfl, only_of_same ?_⟩
    simp [Same]
  case vault =>
    rw [Engine.bodyDone_vault huse] at hdone
    exact ⟨_, hdone, fun hdata => Engine.line_storeLine_same hdata .., fun m hm => Engine.line_storeLine_ne hm .., Engine.writes_storeLine ..,
      hbulb, same_popWrite_storeLine ..⟩
  case failed =>
    have hfailed := exec_bodyWrite_failed hwrites hmany (by rw [huse]; rfl)
    rw [bodyFailed_vault huse] at hfailed
    refine ⟨_, hfailed, raised_raise (e := failureCounted s w.use) (foxImplemented_of_fixed (by decide) s.kit) rfl rfl rfl _,
      ?body, ?count, ?writes, ?same⟩
    case body => exact Engine.raise_body ..
    case count =>
      unfold Engine.bankErrors
      rw [Engine.raise_bulb]
      exact Engine.writeFail_countWriteFail ..
    case writes =>
      rw [Engine.raise_bulb]
      exact congrArg Bulb.writes hbulb
    case same => exact ((same_failureCounted ..).mono (by decide)).trans ((same_raise ..).mono (by decide))
  case copy =>
    rw [Engine.bodyDone_copy huse] at hdone
    exact ⟨s.eng.popWrite.storeLine (s.eng.bodyKey n) w.line, hdone, fun hdata => Engine.line_storeLine_same hdata ..,
      fun m hm => Engine.line_storeLine_ne hm .., hbulb, same_popWrite_storeLine ..⟩
  case commit =>
    rw [bodyDone_commitState huse hrun] at hdone
    have hbank : bank = s.eng.body.map u := congrArg s.eng.writeBank huse
    have hkept : (commitStored s u run).kept u = ((s.eng.kept u).committed run.slot run.epoch run.params.step) := Engine.kept_setKept_same ..
    refine ⟨commitStored s u run, hdone, ?_, fun m hm => Engine.kept_setKept_ne hm .., rfl, ?_, same_commitStored ..⟩
    · rw [hkept]
      exact ⟨rfl, rfl, rfl, rfl⟩
    · rw [hbank]
      exact Body.writes_countWrite_same ..

end Sys2Proof

/-!
PROOFS. Retirement, rotation and the switch of a remap (R118, R130 to R134).
-/

namespace Sys2Proof.Machine

/-! ### A retirement starts (R132 to R134) -/

section
variable {p l target : Nat} {e : Engine} (hlogical : e.body.logicalOf p = some l)

include hlogical

theorem Engine.startRetire_worn (hnone : e.body.banksIn .free = []) :
    e.startRetire p = { e with body := e.body.setBank p { e.body.bank p with state := .worn } } := by
  unfold Engine.startRetire
  rw [hlogical, hnone]
  rfl

section
variable (htarget : e.body.leastWritten (e.body.banksIn .free) = some target)

include htarget

theorem Engine.startRetire_idle (hremap : e.bulb.remap = none) :
    e.startRetire p = { e with bulb := { e.bulb with
      remap := some { logical := l, source := p, target := target, pointer := 0, retire := true } } } := by
  unfold Engine.startRetire
  rw [hlogical, htarget]
  dsimp only
  rw [hremap]

/-- A rotation gives way to a retirement (R133). -/
theorem Engine.startRetire_rotating {old : Remap} (hremap : e.bulb.remap = some old) (hrotates : old.retire = false) :
    e.startRetire p = { e with
      body := e.body.foldBack old
      bulb := { e.bulb with remap := some { logical := l, source := p, target := target, pointer := 0, retire := true } } } := by
  unfold Engine.startRetire Engine.abandonRemap
  rw [hlogical, htarget]
  dsimp only
  rw [hremap]
  dsimp only
  rw [hrotates]
  rfl

/-- A retirement waits for the one that runs (R133). -/
theorem Engine.startRetire_waits {old : Remap} (hremap : e.bulb.remap = some old) (hretires : old.retire = true) (hother : old.source ≠ p)
    (hnew : e.bulb.due.contains p = false) : e.startRetire p = { e with bulb := { e.bulb with due := e.bulb.due ++ [p] } } := by
  unfold Engine.startRetire
  rw [hlogical, htarget]
  dsimp only
  rw [hremap]
  dsimp only
  rw [if_pos hretires, if_neg (by simp only [hother, hnew]; decide)]

end

end

/-! ### The failed lines of a bank are written again (R118) -/

theorem Engine.remap_rewrite (k : Kit) (r : Regs) (key : FrontKey) (e : Engine) : (e.rewrite k r key).bulb.remap = e.bulb.remap := by
  unfold Engine.rewrite
  split
  · next n l _ =>
    have hread := (same_readFront_staged k r l (e.unfail (.body n))).groups.bulb.resolve_left (by decide)
    exact (congrArg Bulb.remap hread :)
  · rfl

theorem same_rewrite (k : Kit) (r : Regs) (key : FrontKey) (e : Engine) :
    Same [.bulb, .count, .fox, .draws, .vault, .front, .cycle] e (e.rewrite k r key) := by
  unfold Engine.rewrite
  have hunfail : Same [.bulb, .count, .fox, .draws, .vault, .front, .cycle] e (e.unfail key) := (same_vault e _).mono (by decide)
  split
  · next l _ =>
    refine (hunfail.trans ((same_readFront_staged k r l _).mono (by decide))).trans ?_
    simp [Same, Engine.pushBodyWrite]
  · exact hunfail

theorem Engine.remap_rewriteBank (k : Kit) (r : Regs) (l : Nat) (e : Engine) : (e.rewriteBank k r l).bulb.remap = e.bulb.remap := by
  unfold Engine.rewriteBank
  refine Engine.forEach_keeps (fun e => e.bulb.remap) _ (fun x e => ?_) _ _
  split
  · split
    · exact Engine.remap_rewrite ..
    · rfl
  · rfl

theorem same_rewriteBank (k : Kit) (r : Regs) (l : Nat) (e : Engine) :
    Same [.bulb, .count, .fox, .draws, .vault, .front, .cycle] e (e.rewriteBank k r l) := by
  unfold Engine.rewriteBank
  refine Same.forEach (fun x e => ?_) _ _
  split
  · split
    · exact same_rewrite ..
    · exact Same.refl _ e
  · exact Same.refl _ e

/-! ### The switch (R132 to R134) -/

theorem same_raiseSpares (k : Kit) (r : Regs) (before : Nat) (e : Engine) :
    Same [.cycle, .count, .fox, .draws] e (e.raiseSpares k r before) := by
  have hraise {c : Prop} [Decidable c] (src : Nat) (e : Engine) :
      Same [.cycle, .count, .fox, .draws] e (if c then e.raise k r src none else e) := by
    split
    · exact same_raise ..
    · exact Same.refl _ e
  unfold Engine.raiseSpares
  exact (hraise 0x16 e).trans (hraise 0x17 _)

/-- The body with the map entry of a remap switched to its target, and its source RETIRED, or FREE after a rotation. -/
def Body.switched (m : Remap) (b : Body) : Body :=
  let b := { b with remap := tabPut (fun i => i) m.logical m.target b.remap }
  let b := b.setBank m.target { b.bank m.target with state := .inUse }
  b.setBank m.source { b.bank m.source with state := if m.retire then .retired else .free }

section
variable (m : Remap) (b : Body)

theorem Body.map_switched_same : (b.switched m).map m.logical = m.target := tabGet_put_same _ _ _ _

theorem Body.map_switched_ne {l : Nat} (h : l ≠ m.logical) : (b.switched m).map l = b.map l := tabGet_put_ne h _ _

theorem Body.state_switched_source : ((b.switched m).bank m.source).state = if m.retire then .retired else .free :=
  congrArg Bank.state (Body.bank_setBank_same m.source _ _)

theorem Body.state_switched_target (h : m.source ≠ m.target) : ((b.switched m).bank m.target).state = .inUse :=
  (congrArg Bank.state (Body.bank_setBank_ne h.symm _ _)).trans (congrArg Bank.state (Body.bank_setBank_same m.target _ _))

theorem Body.bank_switched_ne {p : Nat} (hsource : p ≠ m.source) (htarget : p ≠ m.target) : (b.switched m).bank p = b.bank p :=
  (Body.bank_setBank_ne hsource _ _).trans (Body.bank_setBank_ne htarget _ _)

end

/-- The engine with the map entry switched, and no remap running. -/
def Engine.mapSwitched (m : Remap) (e : Engine) : Engine := { e with body := e.body.switched m, bulb := { e.bulb with remap := none } }

/-- A retirement has ended: SPARE_STATUS is free, and the spare is counted and told (R132, R357). -/
def Engine.spareTold (k : Kit) (r : Regs) (e : Engine) : Engine :=
  (({ e with units := { e.units with spareBusy := false } } : Engine).bump Ctr.sparesUsed 1).raise k r 0x15 none

/-- The engine in which a remap has been switched, before the next retirement starts: what it tells, and the failed lines of a retired bank,
which are written again. -/
def Engine.remapSwitched (k : Kit) (r : Regs) (m : Remap) (e : Engine) : Engine :=
  let told := ((e.mapSwitched m).when m.retire (Engine.spareTold k r)).raiseSpares k r e.body.freeBanks
  if m.retire then told.rewriteBank k r m.logical else told

/-- What follows on the switch of a map entry may change the front, the vault's marks and what is counted and told. -/
abbrev switchGroups : List Grp := [.bulb, .units, .count, .fox, .draws, .vault, .front, .cycle]

section
variable (k : Kit) (r : Regs) (m : Remap) (e : Engine)

theorem same_spareTold : Same switchGroups e (e.spareTold k r) := by
  refine Same.trans ?_ ((same_raise ..).mono (by decide))
  simp [Same]

theorem same_remapSwitched_mapSwitched : Same switchGroups (e.mapSwitched m) (e.remapSwitched k r m) := by
  have htold := (Same.when (e := e.mapSwitched m) m.retire (same_spareTold k r _)).trans
    ((same_raiseSpares k r e.body.freeBanks _).mono (by decide))
  unfold Engine.remapSwitched
  dsimp only
  split
  · exact htold.trans ((same_rewriteBank ..).mono (by decide))
  · exact htold

theorem Engine.body_remapSwitched : (e.remapSwitched k r m).body = e.body.switched m :=
  (same_remapSwitched_mapSwitched k r m e).groups.body.resolve_left (by decide)

theorem same_remapSwitched : Same [.body, .bulb, .units, .count, .fox, .draws, .vault, .front, .cycle] e (e.remapSwitched k r m) := by
  refine Same.trans ?_ ((same_remapSwitched_mapSwitched k r m e).mono (by decide))
  simp [Same, Engine.mapSwitched]

theorem Engine.remap_remapSwitched : (e.remapSwitched k r m).bulb.remap = none := by
  have hspare (e : Engine) : (e.spareTold k r).bulb.remap = e.bulb.remap := congrArg Bulb.remap (Engine.raise_bulb ..)
  have hspares (e : Engine) (n : Nat) : (e.raiseSpares k r n).bulb.remap = e.bulb.remap :=
    congrArg Bulb.remap ((same_raiseSpares k r n e).groups.bulb.resolve_left (by decide))
  have htold : (((e.mapSwitched m).when m.retire (Engine.spareTold k r)).raiseSpares k r e.body.freeBanks).bulb.remap = none :=
    (hspares _ _).trans (Engine.when_keeps (fun e => e.bulb.remap) _ _ hspare _)
  unfold Engine.remapSwitched
  dsimp only
  split
  · exact (Engine.remap_rewriteBank ..).trans htold
  · exact htold

end

end Sys2Proof.Machine

namespace Sys2Proof

open Machine

/-! ### The commands of remaps -/

section
variable {s : State}

theorem exec_bankRetire {bank : Nat} (hbank : bank < 272) (hstate : (s.eng.body.bank bank).state = .inUse)
    (hdue : s.eng.retireDue s.regs bank = true) : exec (.bankRetire bank) s = .next (withEng s (s.eng.startRetire bank)) :=
  (needs_eff (decide_eq_true hbank) _ s).trans (by rw [if_pos ⟨hstate, hdue⟩])

theorem exec_wearRotate {p q l : Nat} (hremap : s.eng.bulb.remap = none) (hmost : s.eng.body.mostWritten (s.eng.body.banksIn .inUse) = some p)
    (hleast : s.eng.body.leastWritten (s.eng.body.banksIn .free) = some q) (hlogical : s.eng.body.logicalOf p = some l)
    (hgap : s.regs.rotateGap * 2 ^ 32 < (s.eng.body.bank p).writes.toNat - (s.eng.body.bank q).writes.toNat) :
    exec .wearRotate s = .next (withEng s { s.eng with bulb := { s.eng.bulb with
      remap := some { logical := l, source := p, target := q, pointer := 0, retire := false } } }) := by
  show execWearRotate s = _
  unfold execWearRotate
  rw [State.eff_eq]
  dsimp only
  rw [hremap, hmost, hleast]
  dsimp only
  rw [if_pos hgap, hlogical]
  rfl

theorem exec_remapSwitch {m : Remap} (hremap : s.eng.bulb.remap = some m) (hend : bankLines ≤ m.pointer) :
    exec .remapSwitch s = .next (withEng s (s.eng.remapSwitched s.kit s.regs m).nextRetire) := by
  show execRemapSwitch s = _
  unfold execRemapSwitch
  rw [State.eff_eq]
  dsimp only
  rw [hremap]
  dsimp only
  rw [if_neg (Nat.not_lt.mpr hend)]
  rfl

end

end Sys2Proof

/-!
PROOFS. The error window and the calibration pass (R129, R135, R137).
-/

namespace Sys2Proof.Machine

/-! ### The outcome of a bank's test lines (R137) -/

/-- The engine with the pulse step of a bank set. -/
def Engine.stepSet (step : BitVec 3) (p : Nat) (e : Engine) : Engine :=
  { e with body := e.body.setBank p { e.body.bank p with step := step } }

theorem Engine.bank_stepSet_same (step : BitVec 3) (p : Nat) (e : Engine) :
    (e.stepSet step p).body.bank p = { e.body.bank p with step := step } := Body.bank_setBank_same ..

theorem Engine.bank_stepSet_ne {q p : Nat} (h : q ≠ p) (step : BitVec 3) (e : Engine) : (e.stepSet step p).body.bank q = e.body.bank q :=
  Body.bank_setBank_ne h ..

section
variable (k : Kit) (r : Regs) (p : Nat) (outcomes : List CalOutcome)

/-- What the setting of a pulse step, the count of a failure and the raise of 0x18 all keep is kept. -/
theorem Engine.calibrated_keeps {β : Type} (g : Engine → β)
    (hstep : ∀ st (e : Engine), g (e.stepSet st p) = g e)
    (hfail : ∀ e : Engine, g (e.countWriteFail p) = g e) (hraise : ∀ e : Engine, g (e.raise k r 0x18 none) = g e) (e : Engine) :
    g (e.calibrated k r p outcomes) = g e := by
  unfold Engine.calibrated
  split
  · rfl
  · next o _ =>
    exact (Engine.when_keeps g o.failed _ (fun e => (hraise _).trans (hfail e)) _).trans (hstep o.step e)

theorem Engine.calibrated_cal (e : Engine) : (e.calibrated k r p outcomes).bulb.cal = e.bulb.cal :=
  Engine.calibrated_keeps k r p outcomes (fun e => e.bulb.cal) (fun _ _ => rfl) (fun _ => rfl) (fun _ => congrArg Bulb.cal (Engine.raise_bulb ..)) e

theorem Engine.calibrated_lines (e : Engine) : (e.calibrated k r p outcomes).body.lines = e.body.lines :=
  Engine.calibrated_keeps k r p outcomes (fun e => e.body.lines) (fun _ _ => rfl) (fun _ => rfl) (fun _ => congrArg Body.lines (Engine.raise_body ..)) e

theorem Engine.calibrated_writes (e : Engine) : ((e.calibrated k r p outcomes).body.bank p).writes = (e.body.bank p).writes :=
  Engine.calibrated_keeps k r p outcomes (fun e => (e.body.bank p).writes) (fun _ _ => by rw [Engine.bank_stepSet_same])
    (fun _ => rfl) (fun _ => congrArg (fun b : Body => (b.bank p).writes) (Engine.raise_body ..)) e

theorem Engine.calibrated_bank_ne {q : Nat} (h : q ≠ p) (e : Engine) : (e.calibrated k r p outcomes).body.bank q = e.body.bank q :=
  Engine.calibrated_keeps k r p outcomes (fun e => e.body.bank q) (fun _ _ => Engine.bank_stepSet_ne h ..)
    (fun _ => rfl) (fun _ => congrArg (Body.bank q) (Engine.raise_body ..)) e

theorem same_calibrated (e : Engine) : Same [.body, .bulb, .fox, .count, .draws, .cycle] e (e.calibrated k r p outcomes) := by
  unfold Engine.calibrated
  split
  · exact Same.refl _ e
  · refine ((same_body e _).mono (by decide)).trans (Same.when _ (Same.trans ?_ ((same_raise ..).mono (by decide))))
    simp [Same, Engine.countWriteFail, Engine.setBankErrors]

end

section
variable {k : Kit} {r : Regs} {p : Nat} {outcomes : List CalOutcome} {o : CalOutcome} {e : Engine}
  (hfind : (outcomes.find? fun x => x.bank == p) = some o)

include hfind

theorem Engine.calibrated_passed (hpassed : o.failed = false) : e.calibrated k r p outcomes = e.stepSet o.step p := by
  unfold Engine.calibrated
  rw [hfind]
  dsimp only
  rw [hpassed]
  rfl

theorem Engine.calibrated_failed (hfailed : o.failed = true) :
    e.calibrated k r p outcomes = ((e.stepSet o.step p).countWriteFail p).raise k r 0x18 none := by
  unfold Engine.calibrated
  rw [hfind]
  dsimp only
  rw [hfailed]
  rfl

theorem Engine.calibrated_writeFail (hfailed : o.failed = true) :
    ((e.calibrated k r p outcomes).bankErrors p).writeFail = (e.bankErrors p).writeFail + 1 := by
  rw [Engine.calibrated_failed hfind hfailed]
  unfold Engine.bankErrors
  rw [Engine.raise_bulb]
  exact Engine.writeFail_countWriteFail p (e.stepSet o.step p)

theorem Engine.calibrated_step : ((e.calibrated k r p outcomes).body.bank p).step = o.step := by
  cases hfailed : o.failed with
  | false => rw [Engine.calibrated_passed hfind hfailed, Engine.bank_stepSet_same]
  | true =>
    rw [Engine.calibrated_failed hfind hfailed, Engine.raise_body]
    exact congrArg Bank.step (Engine.bank_stepSet_same o.step p e)

end

/-! ### One access of a pass (R129, R135) -/

/-- The engine with the access at the position of a pass made: a test write, which counts for its bank, or a test read. -/
def Engine.testAccess (c : Calibration) (e : Engine) : Engine :=
  { e with
    body := if c.pos % 2 = 0 then e.body.countWrite (c.pos / 8) else e.body
    bulb := { e.bulb with cal := if c.pos = 2175 then none else some { c with pos := c.pos + 1 } } }

section
variable (c : Calibration) (e : Engine)

theorem same_testAccess : Same [.body, .bulb] e (e.testAccess c) := by simp [Same, Engine.testAccess]

theorem Engine.testAccess_lines : (e.testAccess c).body.lines = e.body.lines := by
  unfold Engine.testAccess
  dsimp only
  split <;> rfl

theorem Engine.testAccess_writes :
    ((e.testAccess c).body.bank (c.pos / 8)).writes = (e.body.bank (c.pos / 8)).writes + (if c.pos % 2 = 0 then 1 else 0) := by
  unfold Engine.testAccess
  dsimp only
  split
  · exact Body.writes_countWrite_same ..
  · exact (BitVec.add_zero _).symm

theorem Engine.testAccess_step : ((e.testAccess c).body.bank (c.pos / 8)).step = (e.body.bank (c.pos / 8)).step := by
  unfold Engine.testAccess
  dsimp only
  split
  · rw [Body.bank_countWrite_same]
  · rfl

theorem Engine.testAccess_bank_ne {q : Nat} (h : q ≠ c.pos / 8) : (e.testAccess c).body.bank q = e.body.bank q := by
  unfold Engine.testAccess
  dsimp only
  split
  · exact Body.bank_countWrite_ne h ..
  · rfl

end

/-- The engine with an access of a pass made, and, after the eighth one to a bank, with the outcome of the bank taken. -/
def Engine.accessMade (k : Kit) (r : Regs) (c : Calibration) (e : Engine) : Engine :=
  (e.testAccess c).when (c.pos % 8 == 7) (Engine.calibrated k r (c.pos / 8) c.outcomes)

section
variable (k : Kit) (r : Regs) (c : Calibration) (e : Engine)

theorem Engine.accessMade_cal : (e.accessMade k r c).bulb.cal = if c.pos = 2175 then none else some { c with pos := c.pos + 1 } :=
  Engine.when_keeps (fun e => e.bulb.cal) _ _ (Engine.calibrated_cal k r _ _) _

theorem Engine.accessMade_lines : (e.accessMade k r c).body.lines = e.body.lines :=
  (Engine.when_keeps (fun e => e.body.lines) _ _ (Engine.calibrated_lines k r _ _) _).trans (Engine.testAccess_lines c e)

theorem Engine.accessMade_writes : ((e.accessMade k r c).body.bank (c.pos / 8)).writes =
    (e.body.bank (c.pos / 8)).writes + (if c.pos % 2 = 0 then 1 else 0) :=
  (Engine.when_keeps (fun e => (e.body.bank (c.pos / 8)).writes) _ _ (Engine.calibrated_writes k r _ _) _).trans (Engine.testAccess_writes c e)

theorem Engine.accessMade_bank_ne {q : Nat} (h : q ≠ c.pos / 8) : (e.accessMade k r c).body.bank q = e.body.bank q :=
  (Engine.when_keeps (fun e => e.body.bank q) _ _ (Engine.calibrated_bank_ne k r _ _ h) _).trans (Engine.testAccess_bank_ne c e h)

theorem same_accessMade : Same [.body, .bulb, .fox, .count, .draws, .cycle] e (e.accessMade k r c) :=
  ((same_testAccess c e).mono (by decide)).trans (Same.when _ (same_calibrated ..))

theorem Engine.accessMade_last (h : c.pos % 8 = 7) : e.accessMade k r c = (e.testAccess c).calibrated k r (c.pos / 8) c.outcomes := by
  unfold Engine.accessMade
  rw [beq_iff_eq.mpr h, Engine.when_true]

theorem Engine.accessMade_more (h : c.pos % 8 ≠ 7) : e.accessMade k r c = e.testAccess c := by
  unfold Engine.accessMade
  rw [beq_eq_false_iff_ne.mpr h, Engine.when_false]

end

/-- An even beat with cycles for a write makes one access of a running pass. -/
theorem Engine.calBeat_access {c : Calibration} {e : Engine} (hcal : e.bulb.cal = some c) (heven : e.beat.num.getLsbD 0 = false)
    (hcycles : writeCc e.beat.cc ≤ e.budget.bulb) (hpos : c.pos < 2176) (k : Kit) (r : Regs) :
    e.calBeat k r = (e.accessMade k r c).spendBulb (writeCc e.beat.cc) := by
  have hnext : (if c.pos + 1 < 272 * calAccesses then some { c with pos := c.pos + 1 } else none) =
      if c.pos = 2175 then none else some { c with pos := c.pos + 1 } := by
    unfold calAccesses
    by_cases hlast : c.pos = 2175
    · rw [if_neg (by omega), if_pos hlast]
    · rw [if_pos (by omega), if_neg hlast]
  have heighth : (c.pos % calAccesses + 1 == calAccesses) = (c.pos % 8 == 7) := by
    unfold calAccesses
    rw [Bool.eq_iff_iff, beq_iff_eq, beq_iff_eq]
    omega
  unfold Engine.calBeat
  rw [hcal]
  dsimp only
  rw [if_neg (by rw [heven]; simp only [Bool.false_eq_true, false_or]; omega), hnext, heighth]
  rfl

end Sys2Proof.Machine

namespace Sys2Proof

open Machine

section
variable {s : State}

/-- After 24 hours a new error window begins (R129). -/
theorem exec_errorWindowEnd (hdue : 43200000000 ≤ s.eng.beat.sinceWindow) :
    exec .errorWindowEnd s = .next (withEng s { s.eng with
      bulb := { s.eng.bulb with errors := [] }, beat := { s.eng.beat with sinceWindow := 0 } }) := by
  show execErrorWindowEnd s = _
  unfold execErrorWindowEnd
  rw [State.eff_eq, if_pos hdue]
  rfl

theorem exec_calibrationPass (temp : BitVec 8) (outcomes : List CalOutcome) (hdue : 500000 ≤ s.eng.beat.sinceCal) :
    exec (.calibrationPass temp outcomes) s = .next (withEng s { s.eng with
      bulb := { s.eng.bulb with vwbGoal := Config.vwbTarget temp, cal := some { outcomes := outcomes, pos := 0 } },
      beat := { s.eng.beat with sinceCal := 0 } }) := by
  show execCalibrationPass temp outcomes s = _
  unfold execCalibrationPass
  rw [State.eff_eq, if_pos hdue]
  rfl

end

/-- Settles O37: the four ways of a retirement, a rotation, the switch, the window, and each access of a calibration pass. That of several
banks with the most writes the lowest-numbered one is rotated (log 77), what an abandoned rotation wrote goes back (log 78), and the accesses of a pass and the
step set with the eighth (log 28) are choices of the model. -/
theorem banksAreRetiredAndCalibrated : Obligations.BanksAreRetiredAndCalibrated := by
  unfold Obligations.BanksAreRetiredAndCalibrated
  refine ⟨⟨fun s bank l hbank hstate hdue hlogical => ?retire, fun s p q l => exec_wearRotate, fun s m hremap hend hne => ?switch⟩,
    fun s hdue => ?window, fun s => exec_calibrationPass, fun s c o hcal heven hcycles hpos => ?access⟩
  case retire =>
    have hexec := exec_bankRetire hbank hstate hdue
    refine ⟨fun target htarget => ⟨fun hremap => ?_, fun old hremap hrotates => ?_, fun old hremap hretires hother hnew => ?_⟩, fun hnone => ?_⟩
    · rw [hexec, Engine.startRetire_idle hlogical htarget hremap]
    · rw [hexec, Engine.startRetire_rotating hlogical htarget hremap hrotates]
    · rw [hexec, Engine.startRetire_waits hlogical htarget hremap hretires hother hnew]
    · rw [Engine.startRetire_worn hlogical hnone] at hexec
      exact ⟨_, hexec, congrArg Bank.state (Body.bank_setBank_same bank _ s.eng.body), fun p hp => Body.bank_setBank_ne hp .., rfl,
        only_of_same (same_body ..)⟩
  case switch =>
    have hbody := Engine.body_remapSwitched s.kit s.regs m s.eng
    refine ⟨_, exec_remapSwitch hremap hend, Engine.remap_remapSwitched .., ?_⟩
    rw [hbody]
    exact ⟨Body.map_switched_same .., fun l hl => Body.map_switched_ne _ _ hl, Body.state_switched_target _ _ hne, Body.state_switched_source ..,
      fun p hsource htarget => Body.bank_switched_ne _ _ hsource htarget, rfl, rfl, same_remapSwitched ..⟩
  case window =>
    exact ⟨_, exec_errorWindowEnd hdue, fun p => rfl, rfl, rfl, only_of_same (by simp [Same])⟩
  case access =>
    rw [Engine.calBeat_access hcal heven hcycles hpos]
    refine ⟨Engine.accessMade_cal .., ?budget, Engine.accessMade_lines .., Engine.accessMade_writes .., fun q hq => Engine.accessMade_bank_ne _ _ _ _ hq,
      ?same, fun hlast hfind => ?last, fun hmore => ?more⟩
    case budget =>
      have hbudget := (same_accessMade s.kit s.regs c s.eng).groups.budget.resolve_left (by decide)
      exact congrArg (fun b : Budget => { b with bulb := b.bulb - writeCc s.eng.beat.cc }) hbudget
    case same =>
      refine ((same_accessMade s.kit s.regs c s.eng).mono (by decide)).trans ?_
      simp [Same, Engine.spendBulb]
    case last =>
      rw [Engine.accessMade_last _ _ _ _ hlast]
      refine ⟨Engine.calibrated_step hfind, fun hfailed => ⟨Engine.calibrated_writeFail (e := s.eng.testAccess c) hfind hfailed, ?_⟩,
        fun hpassed => ?_⟩
      · rw [Engine.calibrated_failed hfind hfailed]
        exact raised_raise (e := ((s.eng.testAccess c).stepSet o.step (c.pos / 8)).countWriteFail (c.pos / 8))
          (foxImplemented_of_fixed (by decide) s.kit) rfl rfl rfl none
      · rw [Engine.calibrated_passed hfind hpassed]
        rfl
    case more =>
      rw [Engine.accessMade_more _ _ _ _ hmore]
      exact ⟨Engine.testAccess_step .., rfl⟩

end Sys2Proof

/-!
PROOFS. Lines of a partition that are scrubbed (R115, R118, R122, R273): what a scrubbed line leaves of itself, what it leaves of other
lines, and the marks of its slot.
-/

namespace Sys2Proof.Machine

/-! ### Lines taken from the front -/

theorem Front.find_drop_same (key : FrontKey) (f : Front) : (f.drop key).find key = none := by
  unfold Front.drop Front.find
  rw [List.find?_eq_none]
  intro l hl
  simpa using (List.mem_filter.mp hl).2

theorem Front.find_drop_ne {key key' : FrontKey} (h : key' ≠ key) (f : Front) : (f.drop key).find key' = f.find key' := by
  unfold Front.drop Front.find
  dsimp only
  rw [List.find?_filter]
  congr 1
  funext l
  by_cases hl : l.key = key'
  · simp [hl, h]
  · simp [hl]

/-- A line that the front does not hold is not there to be dropped. -/
theorem Front.drop_of_find_none {key : FrontKey} {f : Front} (h : f.find key = none) : f.drop key = f := by
  have hkept : (f.lines.filter fun l => !(l.key == key)) = f.lines :=
    List.filter_eq_self.mpr fun l hl => by simpa using List.find?_eq_none.mp h l hl
  unfold Front.drop
  rw [hkept]

/-! ### A partition that is read and written -/

theorem Engine.notOurs_eq_false_iff {r : Regs} {t off : Nat} {e : Engine} :
    e.notOurs r t off = false ↔ ∀ l, e.partRead r t off = some l → l.tenant = BitVec.ofNat 4 t := by
  unfold Engine.notOurs
  split
  · next l hl => simp [hl]
  · next hl => simp [hl]

/-- No line of a range in which nothing is foreign belongs to another tenant (R114). -/
theorem Engine.notOurs_of_foreign {r : Regs} {t : TenantNo} {first lines off : Nat} {e : Engine}
    (h : e.foreign r t (64 * first) (64 * lines) = false) (hlow : first ≤ off) (hhigh : off < first + lines) : e.notOurs r t.toNat off = false := by
  have hmem : off ∈ lineRange (64 * first) (64 * lines) := by
    unfold lineRange ceilDiv
    exact List.mem_map.mpr ⟨off - first, List.mem_range.mpr (by omega), by omega⟩
  have hline := List.any_eq_false.mp h off hmem
  refine Engine.notOurs_eq_false_iff.mpr fun l hl => ?_
  rw [hl] at hline
  simpa using hline

/-! ### A line of the body replaced -/

theorem Body.upset_setUpset_same (key : Nat) (u : Upset) (b : Body) : (b.setUpset key u).upset key = u := tabGet_put_same _ _ _ _

theorem Body.upset_setUpset_ne {m key : Nat} (h : m ≠ key) (u : Upset) (b : Body) : (b.setUpset key u).upset m = b.upset m := tabGet_put_ne h _ _

theorem Body.upset_store_same (key : Nat) (l : Line) (b : Body) : (b.store key l).upset key = Upset.none := Body.upset_setUpset_same ..

theorem Body.upset_store_ne {m key : Nat} (h : m ≠ key) (l : Line) (b : Body) : (b.store key l).upset m = b.upset m := Body.upset_setUpset_ne h ..

/-- The engine with `l` stored over a line of the body, no front copy of it left, and the attempts counted. -/
def Engine.lineReplaced (n : Nat) (l : Line) (e : Engine) : Engine :=
  let key := e.bodyKey n
  let u := e.body.upset key
  ({ e with
      front := e.front.drop (.body n)
      body := ((e.body.setUpset key u).countWrites (key / bankLines) (min (u.fails + 1) 4)).store key l } : Engine).bump
    Ctr.writeRetries (min u.fails 3)

section
variable (n : Nat) (l : Line) (e : Engine)

theorem Engine.bodyKey_lineReplaced (m : Nat) : (e.lineReplaced n l).bodyKey m = e.bodyKey m := rfl

theorem Engine.kept_lineReplaced : (e.lineReplaced n l).body.kept = e.body.kept := rfl

theorem same_lineReplaced : Same [.count, .body, .front] e (e.lineReplaced n l) := by simp [Same, Engine.lineReplaced]

theorem Engine.find_lineReplaced_same : (e.lineReplaced n l).front.find (.body n) = none := Front.find_drop_same ..

theorem Engine.find_lineReplaced_ne {m : Nat} (h : m ≠ n) : (e.lineReplaced n l).front.find (.body m) = e.front.find (.body m) :=
  Front.find_drop_ne (fun hm => h (FrontKey.body.inj hm)) _

/-- A line that the front does not hold is not put there. -/
theorem Engine.find_lineReplaced_none {m : Nat} (h : e.front.find (.body m) = none) : (e.lineReplaced n l).front.find (.body m) = none := by
  by_cases hm : m = n
  · rw [hm, Engine.find_lineReplaced_same]
  · rw [Engine.find_lineReplaced_ne n l e hm, h]

theorem Engine.line_lineReplaced_same {x : Line} (h : (e.lineReplaced n l).body.line (e.bodyKey n) = some x) : x = l := by
  rw [show (e.lineReplaced n l).body.line (e.bodyKey n) = if l = Line.empty then none else some l from Body.line_store_same ..] at h
  split at h
  · cases h
  · exact (Option.some.inj h).symm

/-- What the body holds after a line has been replaced: the new line, or what it held. -/
theorem Engine.line_lineReplaced {key : Nat} {x : Line} (h : (e.lineReplaced n l).body.line key = some x) : x = l ∨ e.body.line key = some x := by
  by_cases hkey : key = e.bodyKey n
  · rw [hkey] at h
    exact .inl (Engine.line_lineReplaced_same n l e h)
  · exact .inr ((show (e.lineReplaced n l).body.line key = e.body.line key from Body.line_store_ne hkey ..).symm.trans h)

/-- A stored line is sound: no trouble of its next write is left. -/
theorem Engine.fails_lineReplaced_le (key : Nat) : ((e.lineReplaced n l).body.upset key).fails ≤ (e.body.upset key).fails := by
  by_cases hkey : key = e.bodyKey n
  · rw [hkey, show (e.lineReplaced n l).body.upset (e.bodyKey n) = Upset.none from Body.upset_store_same ..]
    exact Nat.zero_le _
  · rw [show (e.lineReplaced n l).body.upset key = _ from Body.upset_store_ne hkey ..]
    exact Nat.le_of_eq (congrArg Upset.fails (Body.upset_setUpset_ne hkey ..))

/-- A reader of a partition finds the new line, or what it found before. -/
theorem Engine.partRead_lineReplaced {r : Regs} {t off : Nat} {x : Line} (h : (e.lineReplaced n l).partRead r t off = some x) :
    x = l ∨ e.partRead r t off = some x := by
  unfold Engine.partRead Engine.partLine at h ⊢
  by_cases hn : r.partLine t off = n
  · rw [hn, Engine.find_lineReplaced_same] at h
    refine .inl (Engine.line_lineReplaced_same n l e ?_)
    rwa [show (e.lineReplaced n l).partKey r t off = e.bodyKey n from congrArg e.bodyKey hn] at h
  · rw [Engine.find_lineReplaced_ne n l e hn] at h
    cases hfind : e.front.find (.body (r.partLine t off)) with
    | some f =>
      rw [hfind] at h
      exact .inr h
    | none =>
      rw [hfind] at h
      exact Engine.line_lineReplaced n l e h

/-- A line write of which one attempt verifies (R118, R129). -/
theorem Engine.rewriteLine_verified {key : Nat} (k : Kit) (r : Regs) {e : Engine} (h : (e.body.upset key).fails < 4) :
    e.rewriteLine k r key l = ({ e with
      body := (e.body.countWrites (key / bankLines) (min ((e.body.upset key).fails + 1) 4)).store key l } : Engine).bump
        Ctr.writeRetries (min (e.body.upset key).fails 3) := by
  unfold Engine.rewriteLine
  dsimp only
  rw [if_pos h]
  rfl

end

/-! ### A line is scrubbed -/

/-- A scrub may write line `off` of the partition of tenant `t`: no other tenant owns it, and one of its four attempts verifies. -/
def Engine.Scrubbable (r : Regs) (t : TenantNo) (off : Nat) (e : Engine) : Prop :=
  e.notOurs r t.toNat off = false ∧ (e.body.upset (e.partKey r t.toNat off)).fails < 4

/-- Line `off` of the partition of tenant `t` reads zero, and from the body itself. -/
def Engine.Wiped (r : Regs) (t : TenantNo) (off : Nat) (e : Engine) : Prop :=
  (∀ l, e.body.line (e.partKey r t.toNat off) = some l → l.data = 0) ∧ e.front.find (.body (r.partLine t.toNat off)) = none

/-- A front copy of a line that a scrub writes is gone (R115). -/
theorem Engine.scrubFront_written (n : Nat) (l : Line) (e : Engine) : e.scrubFront n l false = e.onFront (Front.drop (.body n)) := by
  unfold Engine.scrubFront
  split
  · next hnone => rw [Engine.onFront, Front.drop_of_find_none hnone]
  · next f hf => rw [if_neg Bool.false_ne_true, show f.key = .body n from by simpa using List.find?_some hf]

theorem Engine.scrubLine_eq {r : Regs} {t : TenantNo} {off : Nat} {e : Engine} (h : e.Scrubbable r t off) (k : Kit) :
    e.scrubLine k r t off false = e.lineReplaced (r.partLine t.toNat off) (Line.ofData 0 t 0 false) := by
  obtain ⟨hours, hfails⟩ := h
  have hfew : (false || decide (4 ≤ (e.body.upset (e.bodyKey (r.partLine t.toNat off))).fails)) = false := decide_eq_false (Nat.not_le.mpr hfails)
  unfold Engine.scrubLine
  rw [hours, if_neg Bool.false_ne_true]
  dsimp only
  rw [if_neg Bool.false_ne_true, hfew, Engine.scrubFront_written, Engine.rewriteLine_verified]
  · generalize Line.ofData 0 t 0 false = l
    unfold Engine.onFront Engine.lineReplaced
    dsimp only
    rw [Body.upset_setUpset_same]
  · exact (congrArg Upset.fails (Body.upset_setUpset_same ..)).trans_lt hfails

section
variable {r : Regs} {t : TenantNo} {o n : Nat} {l : Line} {e : Engine}

theorem Engine.Scrubbable.lineReplaced (h : e.Scrubbable r t o) (hl : l.tenant = t) (n : Nat) : (e.lineReplaced n l).Scrubbable r t o := by
  obtain ⟨hours, hfails⟩ := h
  refine ⟨Engine.notOurs_eq_false_iff.mpr fun x hx => ?_, (Engine.fails_lineReplaced_le ..).trans_lt hfails⟩
  rcases Engine.partRead_lineReplaced n l e hx with rfl | hx
  · simp [hl]
  · exact Engine.notOurs_eq_false_iff.mp hours x hx

theorem Engine.Wiped.lineReplaced (h : e.Wiped r t o) (hl : l.data = 0) (n : Nat) : (e.lineReplaced n l).Wiped r t o := by
  obtain ⟨hzero, hfront⟩ := h
  refine ⟨fun x hx => ?_, Engine.find_lineReplaced_none n l e hfront⟩
  rcases Engine.line_lineReplaced n l e hx with rfl | hx
  · exact hl
  · exact hzero x hx

theorem Engine.wiped_lineReplaced (hl : l.data = 0) : (e.lineReplaced (r.partLine t.toNat o) l).Wiped r t o :=
  ⟨fun _ hx => (Engine.line_lineReplaced_same _ l e hx) ▸ hl, Engine.find_lineReplaced_same ..⟩

end

/-! ### The marks of a slot (R273) -/

/-- The stored values of a tenant one of whose slots has been scrubbed. -/
def Kept.scrubbed (slot : Bool) (x : Kept) : Kept :=
  let x := x.setComplete slot false
  if x.valid && x.lastSlot == slot then { x with valid := false } else x

/-- The COMPLETE bit of a slot. -/
def Kept.complete (slot : Bool) (x : Kept) : Bool := if slot then x.bComplete else x.aComplete

theorem Kept.scrubbed_eq (slot : Bool) (x : Kept) :
    x.scrubbed slot = { x.setComplete slot false with valid := x.valid && x.lastSlot != slot } := by
  have hvalid : (x.setComplete slot false).valid = x.valid := by cases slot <;> rfl
  have hlast : (x.setComplete slot false).lastSlot = x.lastSlot := by cases slot <;> rfl
  unfold Kept.scrubbed
  dsimp only
  by_cases h : (x.valid && x.lastSlot == slot) = true
  · rw [if_pos (by rwa [hvalid, hlast]), show (x.valid && x.lastSlot != slot) = false by simp_all]
  · rw [if_neg (by rwa [hvalid, hlast]), show (x.valid && x.lastSlot != slot) = (x.setComplete slot false).valid by rw [hvalid]; simp_all]

theorem Kept.scrubbed_lastSlot (slot : Bool) (x : Kept) : (x.scrubbed slot).lastSlot = x.lastSlot := by
  rw [Kept.scrubbed_eq]
  cases slot <;> rfl

theorem Kept.scrubbed_complete (slot : Bool) (x : Kept) : (x.scrubbed slot).complete slot = false := by
  rw [Kept.scrubbed_eq]
  cases slot <;> rfl

theorem Kept.scrubbed_complete_of {other : Bool} {x : Kept} (h : x.complete other = false) (slot : Bool) :
    (x.scrubbed slot).complete other = false := by
  by_cases hslot : other = slot
  · rw [hslot, Kept.scrubbed_complete]
  · obtain rfl := Bool.eq_not_of_ne (Ne.symm hslot)
    rw [Kept.scrubbed_eq]
    cases other <;> exact h

theorem Kept.scrubbed_valid {slot : Bool} {x : Kept} (h : x.lastSlot = slot) : (x.scrubbed slot).valid = false := by
  rw [Kept.scrubbed_eq]
  simp [h]

theorem Kept.scrubbed_valid_of {x : Kept} (h : x.valid = false) (slot : Bool) : (x.scrubbed slot).valid = false := by
  rw [Kept.scrubbed_eq]
  simp [h]

/-- What scrubbing a slot brings about and scrubbing another keeps holds once all have been scrubbed. -/
theorem Kept.scrubbed_all {p : Kept → Prop} {slots : List Bool} {slot : Bool} (hslot : slot ∈ slots) (hset : ∀ x, p (Kept.scrubbed slot x))
    (hkeep : ∀ b x, p x → p (Kept.scrubbed b x)) (x : Kept) : p (slots.foldl (fun x b => x.scrubbed b) x) := by
  obtain ⟨before, after, rfl⟩ := List.append_of_mem hslot
  rw [List.foldl_append, List.foldl_cons]
  exact List.foldlRecOn after _ (hset _) fun x hx b _ => hkeep b x hx

theorem Kept.scrubbed_all_complete {slots : List Bool} {slot : Bool} (hslot : slot ∈ slots) (x : Kept) :
    (slots.foldl (fun x b => x.scrubbed b) x).complete slot = false :=
  Kept.scrubbed_all (p := fun x => x.complete slot = false) hslot (Kept.scrubbed_complete slot) (fun b _ hx => Kept.scrubbed_complete_of hx b) x

theorem Kept.scrubbed_all_valid {slots : List Bool} {x : Kept} (hslot : x.lastSlot ∈ slots) :
    (slots.foldl (fun x b => x.scrubbed b) x).valid = false := by
  have hlast : (slots.foldl (fun x b => x.scrubbed b) x).lastSlot = x.lastSlot :=
    List.foldlRecOn slots _ (motive := fun y : Kept => y.lastSlot = x.lastSlot) rfl fun y hy b _ => (y.scrubbed_lastSlot b).trans hy
  refine Kept.scrubbed_all (p := fun y => y.lastSlot = x.lastSlot → y.valid = false) hslot (fun y hy => Kept.scrubbed_valid ?_)
    (fun b y h hy => Kept.scrubbed_valid_of (h ?_) b) x hlast
  · rwa [Kept.scrubbed_lastSlot] at hy
  · rwa [Kept.scrubbed_lastSlot] at hy

/-! ### Slots are scrubbed (R273) -/

/-- How an engine may differ from one of which lines of tenant `t` have been scrubbed: the map of the body is as it was, what a scrub might
write it may write still, and what reads zero reads zero still. -/
structure Scrubs (r : Regs) (t : TenantNo) (a b : Engine) : Prop where
  same : Same [.count, .bulb, .body, .front] a b
  key : ∀ n, b.bodyKey n = a.bodyKey n
  scrubbable : ∀ off, a.Scrubbable r t off → b.Scrubbable r t off
  wiped : ∀ off, a.Wiped r t off → b.Wiped r t off

theorem Scrubs.refl (r : Regs) (t : TenantNo) (e : Engine) : Scrubs r t e e := ⟨Same.refl _ e, fun _ => rfl, fun _ h => h, fun _ h => h⟩

theorem Scrubs.trans {r : Regs} {t : TenantNo} {a b c : Engine} (h : Scrubs r t a b) (h' : Scrubs r t b c) : Scrubs r t a c :=
  ⟨h.same.trans h'.same, fun n => (h'.key n).trans (h.key n), fun off ha => h'.scrubbable off (h.scrubbable off ha),
    fun off ha => h'.wiped off (h.wiped off ha)⟩

section
variable (k : Kit) (r : Regs) (t : TenantNo)

theorem scrubs_lineReplaced {l : Line} (ht : l.tenant = t) (hdata : l.data = 0) (n : Nat) (e : Engine) : Scrubs r t e (e.lineReplaced n l) :=
  ⟨(same_lineReplaced n l e).mono (by decide), Engine.bodyKey_lineReplaced n l e, fun _ h => h.lineReplaced ht n, fun _ h => h.lineReplaced hdata n⟩

theorem scrubs_setKept (m : Nat) (x : Kept) (e : Engine) : Scrubs r t e (e.setKept m x) :=
  ⟨(same_body e _).mono (by decide), fun _ => rfl, fun _ h => h, fun _ h => h⟩

theorem scrubs_writes (ws : List BodyWrite) (e : Engine) : Scrubs r t e { e with bulb := { e.bulb with writes := ws } } :=
  ⟨by simp [Same], fun _ => rfl, fun _ h => h, fun _ h => h⟩

/-- The lines `first + i` of the partition of tenant `t` scrubbed, for every `i` of a list. -/
def Engine.scrubLines (first : Nat) (is : List Nat) (e : Engine) : Engine := e.forEach is fun i e => e.scrubLine k r t (first + i) false

theorem scrubs_scrubLines {first : Nat} {is : List Nat} {e : Engine} (h : ∀ i ∈ is, e.Scrubbable r t (first + i)) :
    Scrubs r t e (e.scrubLines k r t first is) ∧ (∀ i ∈ is, (e.scrubLines k r t first is).Wiped r t (first + i)) ∧
      (e.scrubLines k r t first is).body.kept = e.body.kept := by
  induction is generalizing e with
  | nil => exact ⟨Scrubs.refl r t e, fun _ hi => absurd hi List.not_mem_nil, rfl⟩
  | cons i is ih =>
    have hline := Engine.scrubLine_eq (h i List.mem_cons_self) k
    have hscrubs : Scrubs r t e (e.scrubLine k r t (first + i) false) := by
      rw [hline]
      exact scrubs_lineReplaced r t rfl rfl _ e
    have hwiped : (e.scrubLine k r t (first + i) false).Wiped r t (first + i) := by
      rw [hline]
      exact Engine.wiped_lineReplaced rfl
    obtain ⟨hrest, hwipes, hkept⟩ := ih fun j hj => hscrubs.scrubbable _ (h j (List.mem_cons_of_mem _ hj))
    refine ⟨hscrubs.trans hrest, fun j hj => ?_, hkept.trans ?_⟩
    · rcases List.mem_cons.mp hj with rfl | hj
      · exact hrest.wiped _ hwiped
      · exact hwipes j hj
    · rw [hline, Engine.kept_lineReplaced]

/-- One slot of the partition scrubbed: its lines, then its marks. -/
def Engine.scrubSlot (slot : Bool) (e : Engine) : Engine :=
  let e := e.scrubLines k r t (b2n slot * r.slotLines t.toNat) (List.range (r.slotLines t.toNat))
  e.setKept t.toNat ((e.kept t.toNat).scrubbed slot)

/-- What the scrub of slots leaves of the tenants' stored values. -/
def KeptScrubbed (t : TenantNo) (slots : List Bool) (a b : Engine) : Prop :=
  b.kept t.toNat = slots.foldl (fun x slot => x.scrubbed slot) (a.kept t.toNat) ∧ ∀ m, m ≠ t.toNat → b.kept m = a.kept m

theorem scrubs_scrubSlot {slot : Bool} {e : Engine}
    (h : ∀ i, i < r.slotLines t.toNat → e.Scrubbable r t (b2n slot * r.slotLines t.toNat + i)) :
    Scrubs r t e (e.scrubSlot k r t slot) ∧
      (∀ i, i < r.slotLines t.toNat → (e.scrubSlot k r t slot).Wiped r t (b2n slot * r.slotLines t.toNat + i)) ∧
      KeptScrubbed t [slot] e (e.scrubSlot k r t slot) := by
  obtain ⟨hlines, hwiped, hkept⟩ := scrubs_scrubLines k r t (first := b2n slot * r.slotLines t.toNat) (is := List.range (r.slotLines t.toNat))
    fun i hi => h i (List.mem_range.mp hi)
  unfold Engine.scrubSlot
  generalize e.scrubLines k r t (b2n slot * r.slotLines t.toNat) (List.range (r.slotLines t.toNat)) = a at hlines hwiped hkept
  have hkeptOf (m : Nat) : a.kept m = e.kept m := congrArg (tabGet (fun _ => Kept.made) m) hkept
  have hmarks := scrubs_setKept r t t.toNat ((a.kept t.toNat).scrubbed slot) a
  refine ⟨hlines.trans hmarks, fun i hi => hmarks.wiped _ (hwiped i (List.mem_range.mpr hi)), ?_, fun m hm => ?_⟩
  · exact (Engine.kept_setKept_same ..).trans (congrArg (Kept.scrubbed slot) (hkeptOf _))
  · exact (Engine.kept_setKept_ne hm ..).trans (hkeptOf m)

theorem Engine.forEach_cons {α : Type} (y : α) (ys : List α) (f : α → Engine → Engine) (e : Engine) :
    e.forEach (y :: ys) f = (f y e).forEach ys f := rfl

theorem scrubs_scrubSlots {slots : List Bool} {e : Engine}
    (h : ∀ b ∈ slots, ∀ i, i < r.slotLines t.toNat → e.Scrubbable r t (b2n b * r.slotLines t.toNat + i)) :
    Scrubs r t e (e.forEach slots (Engine.scrubSlot k r t)) ∧
      (∀ b ∈ slots, ∀ i, i < r.slotLines t.toNat → (e.forEach slots (Engine.scrubSlot k r t)).Wiped r t (b2n b * r.slotLines t.toNat + i)) ∧
      KeptScrubbed t slots e (e.forEach slots (Engine.scrubSlot k r t)) := by
  induction slots generalizing e with
  | nil => exact ⟨Scrubs.refl r t e, fun _ hb => absurd hb List.not_mem_nil, rfl, fun _ _ => rfl⟩
  | cons b slots ih =>
    obtain ⟨hslot, hwiped, hmine, hothers⟩ := scrubs_scrubSlot k r t (h b List.mem_cons_self)
    obtain ⟨hrest, hwipes, hmine', hothers'⟩ := ih fun c hc i hi => hslot.scrubbable _ (h c (List.mem_cons_of_mem _ hc) i hi)
    rw [Engine.forEach_cons]
    refine ⟨hslot.trans hrest, fun c hc i hi => ?_, hmine'.trans ?_, fun m hm => (hothers' m hm).trans (hothers m hm)⟩
    · rcases List.mem_cons.mp hc with rfl | hc
      · exact hrest.wiped _ (hwiped i hi)
      · exact hwipes c hc i hi
    · rw [hmine]
      rfl

/-- A scrub of slots in which no line fails takes the body writes that it merges out of the list, and scrubs slot after slot (R115, R273). -/
theorem Engine.scrubSlots_eq (slots : List Bool) (e : Engine) :
    ∃ ws, e.scrubSlots k r t slots [] = ({ e with bulb := { e.bulb with writes := ws } } : Engine).forEach slots (Engine.scrubSlot k r t) :=
  ⟨_, rfl⟩

end

end Sys2Proof.Machine

/-!
PROOFS. DRAIN, SCRUB, TELEMETRY and ADMIN_SEND (R116, R224, R226, R273, R274, R276).
-/

namespace Sys2Proof

open Machine

/-! ### What a job finds when its entry has been taken -/

theorem taken_bodyKey (s : State) (n m : Nat) : (taken s n).bodyKey m = s.eng.bodyKey m := by
  unfold Engine.bodyKey Engine.physOf taken
  rw [Engine.takeEntry_bulb, Engine.takeEntry_body]

theorem taken_partKey (s : State) (n t off : Nat) : (taken s n).partKey s.regs t off = s.eng.partKey s.regs t off := taken_bodyKey ..

theorem taken_upset (s : State) (n key : Nat) : (taken s n).body.upset key = s.eng.body.upset key := by
  unfold taken
  rw [Engine.takeEntry_body]

theorem taken_kept (s : State) (n t : Nat) : (taken s n).kept t = s.eng.kept t := by
  unfold Engine.kept taken
  rw [Engine.takeEntry_body]

theorem taken_sess (s : State) (n t i : Nat) : (taken s n).sess t i = s.eng.sess t i := by
  unfold Engine.sess taken
  rw [Engine.takeEntry_pollen]

theorem taken_shadowBeat (s : State) (n : Nat) : (taken s n).count.shadowBeat = s.eng.count.shadowBeat := by
  have hturn : (s.eng.takeTurn s.regs n).count = s.eng.count := by
    unfold Engine.takeTurn
    split <;> rfl
  have hend (e : Engine) : (e.endTurn n).count = e.count := by
    unfold Engine.endTurn
    refine Engine.when_keeps (fun e => e.count) _ _ (fun _ => ?_) e
    rfl
  unfold taken Engine.takeEntry
  rw [hend]
  exact (congrArg Counters.shadowBeat hturn :)

/-! ### DRAIN -/

/-- The dirty lines of the ring's tenant in the front, which a DRAIN covers. -/
def drainKeys (s : State) (n : Nat) : List FrontKey :=
  (taken s n).flushKeys fun key => match (taken s n).front.find key with
    | some l => l.line.tenant == s.regs.ringTenant n
    | none => false

/-- A DRAIN in flight: it waits for the lines whose write-back has not failed, and takes note of the others (log 16). -/
def drainOf (s : State) (n : Nat) (x : Entry) : Drain :=
  { job := x.jobId n
    waits := (taken s n).withVers ((drainKeys s n).filter fun key => ((taken s n).backFailed key).isNone)
    failures := (drainKeys s n).filterMap fun key => ((taken s n).backFailed key).map fun c => (key.offset, c) }

/-- The engine with a DRAIN in flight. -/
def drainBegun (s : State) (n : Nat) (x : Entry) : Engine :=
  let e := (taken s n).addJob { id := x.jobId n, tenant := some (s.regs.ringTenant n), kind := .drain }
  { e with vault := { e.vault with drains := e.vault.drains ++ [drainOf s n x] } }

theorem exec_drain {s : State} {ring : BitVec 8} {x : Entry} (hattested : Attested s ring.toNat) (hstart : Starts s ring.toNat 2 x) :
    exec (.drain ring) s = .next (withEng s (((drainBegun s ring.toNat x).pumpWindows s.kit s.regs).endDrains s.kit s.regs)) := by
  show execDrain ring s = _
  unfold execDrain
  rw [State.eff_eq, hstart.startJob (by simp [hstart.opcode])]
  dsimp only
  rw [Engine.judged_go hstart.header (judge_none.mpr hattested.tenantConds)]
  rfl

theorem same_drainBegun (s : State) (n : Nat) (x : Entry) : Same [.rings, .budget, .count, .vault] s.eng (drainBegun s n x) := by
  simp [Same, drainBegun, taken, Engine.addJob]

/-- A dirty vault line of the tenant is covered by its DRAIN. -/
theorem mem_drainKeys {s : State} {n : Nat} {l : FrontLine} (hl : l ∈ s.eng.front.lines) (hdirty : l.dirty = true) (hpart : l.part = .vault)
    (hfind : s.eng.front.find l.key = some l) (htenant : l.line.tenant = s.regs.ringTenant n) : l.key ∈ drainKeys s n := by
  have hfront : (taken s n).front = s.eng.front := Engine.takeEntry_front ..
  unfold drainKeys Engine.flushKeys
  refine List.mem_map_of_mem (List.mem_filter.mpr ⟨by rwa [hfront], ?_⟩)
  simp [hfront, hfind, hdirty, hpart, htenant]

/-! ### SCRUB -/

/-- An entry of ring `n` that asks for slots to be scrubbed, against which no condition stands. -/
structure ScrubAsked (s : State) (n : Nat) (x : Entry) (slots : List Bool) : Prop where
  start : Starts s n 8 x
  attested : Attested s n
  named : slotsNamed (leAt 0 1 x.params) = slots
  sel : 1 ≤ leAt 0 1 x.params ∧ leAt 0 1 x.params ≤ 3
  reserved : zeroAt 1 15 x.params = true
  body : s.regs.bodyBanks (s.regs.ringTenant n).toNat ≠ 0
  idle : s.eng.cut.run = none ∧ s.eng.bulb.copies = []
  unread : ∀ b, (taken s n).bodyRead (s.regs.ringTenant n) b = false
  ours : ∀ b ∈ slots, (taken s n).foreign s.regs (s.regs.ringTenant n) (64 * (b2n b * s.regs.slotLines (s.regs.ringTenant n).toNat))
    (64 * s.regs.slotLines (s.regs.ringTenant n).toNat) = false

theorem exec_scrub {s : State} {ring : BitVec 8} {x : Entry} {slots : List Bool} (h : ScrubAsked s ring.toNat x slots) :
    exec (.scrub ring []) s = .next (withEng s
      ((((taken s ring.toNat).scrubSlots s.kit s.regs (s.regs.ringTenant ring.toNat) slots []).settleClean s.kit s.regs).refuse s.kit s.regs
        (x.jobId ring.toNat) 0)) := by
  obtain ⟨hrun, hcopies⟩ := h.idle
  have hcut : (taken s ring.toNat).cut.run = none := (congrArg Cut.run (Engine.takeEntry_cut ..)).trans hrun
  have hbulb : (taken s ring.toNat).bulb.copies = [] := (congrArg Bulb.copies (Engine.takeEntry_bulb ..)).trans hcopies
  show execScrub ring [] s = _
  unfold execScrub
  rw [State.eff_eq, h.start.startJob (by simp [h.start.opcode])]
  dsimp only
  rw [Engine.judged_go h.start.header (judge_none.mpr (noneHolds_append.mpr ⟨h.attested.tenantConds, ?conds⟩)), h.named]
  case conds =>
    simp only [noneHolds_cons, noneHolds_nil, and_true, h.named, hcut, hbulb, h.unread]
    refine ⟨List.any_eq_false.mpr fun b hb => ne_true_of_eq_false (h.ours b hb), ?sel, beq_eq_false_iff_ne.mpr h.body, rfl⟩
    case sel =>
      have hsel := h.sel
      simp [h.reserved]
      omega
  rfl

/-- What such a job leaves of the slots that it names when none of their lines fails: every line reads zero, and the slots have lost their
marks. -/
theorem ScrubAsked.scrubs {s : State} {n : Nat} {x : Entry} {slots : List Bool} {t : TenantNo} (htenant : s.regs.ringTenant n = t)
    (h : ScrubAsked s n x slots) (hfails : ∀ b ∈ slots, ∀ i, i < s.regs.slotLines t.toNat →
      (s.eng.body.upset (s.eng.partKey s.regs t.toNat (b2n b * s.regs.slotLines t.toNat + i))).fails < 4) :
    let e := (taken s n).scrubSlots s.kit s.regs t slots []
    Scrubs s.regs t (taken s n) e ∧
      (∀ b ∈ slots, ∀ i, i < s.regs.slotLines t.toNat → e.Wiped s.regs t (b2n b * s.regs.slotLines t.toNat + i)) ∧
      KeptScrubbed t slots (taken s n) e := by
  subst htenant
  obtain ⟨ws, hscrub⟩ := Engine.scrubSlots_eq s.kit s.regs (s.regs.ringTenant n) slots (taken s n)
  have hwrites := scrubs_writes s.regs (s.regs.ringTenant n) ws (taken s n)
  rw [hscrub]
  obtain ⟨hscrubs, hwiped, hkept⟩ := scrubs_scrubSlots s.kit s.regs (s.regs.ringTenant n) fun b hb i hi => hwrites.scrubbable _
    ⟨Engine.notOurs_of_foreign (h.ours b hb) (Nat.le_add_right ..) (by omega), by
      rw [taken_upset, taken_partKey]
      exact hfails b hb i hi⟩
  exact ⟨hwrites.trans hscrubs, hwiped, hkept⟩

/-! ### TELEMETRY and ADMIN_SEND -/

theorem exec_telemetry {s : State} {ring : BitVec 8} {x : Entry} (hstart : Starts s ring.toNat 9 x)
    (hconds : NoneHolds ((taken s ring.toNat).telemetryConds s.regs ring.toNat x.params)) :
    exec (.telemetry ring) s = .next (withEng s
      (((taken s ring.toNat).addJob
        { id := x.jobId ring.toNat, tenant := some (s.regs.ringTenant ring.toNat), kind := .wait (natLE 8 s.eng.count.shadowBeat.toNat)
          spans := [(leAt 0 8 x.params, 8 + leAt 12 4 x.params)] }).writeJob s.kit (x.jobId ring.toNat) (leAt 0 8 x.params)
        (natLE 8 s.eng.count.shadowBeat.toNat ++ (spanOffsets (leAt 8 4 x.params) (leAt 12 4 x.params)).flatMap fun o =>
          natLE 8 ((taken s ring.toNat).shadowAt o).toNat))) := by
  show execTelemetry ring s = _
  unfold execTelemetry
  rw [State.eff_eq, hstart.startJob (by simp [hstart.opcode])]
  dsimp only
  rw [Engine.judged_go hstart.header (judge_none.mpr hconds), taken_shadowBeat]
  rfl

theorem exec_adminSend {s : State} {ring : BitVec 8} {x : Entry} {t : TenantNo} {i p : Nat} (htenant : s.regs.ringTenant ring.toNat = t)
    (hattested : Attested s ring.toNat) (hstart : Starts s ring.toNat 0x0D x) (hnotice : leAt 0 1 x.params = 1)
    (hreserved : zeroAt 1 1 x.params = true) (hreserved' : zeroAt 4 12 x.params = true)
    (hpeer : peerSlot s.regs t.toNat (leAt 2 2 x.params) = some i) (hkeyed : (s.eng.sess t.toNat i).state = .keyed)
    (hport : lowestPort (s.eng.sess t.toNat i).live = some p) :
    exec (.adminSend ring) s = .next (withEng s
      (((taken s ring.toNat).addJob
        { id := x.jobId ring.toNat, tenant := some t, kind := .adminSend t.toNat i p ((s.eng.sess t.toNat i).port p).seqAhead }).sendSeq
        s.regs t.toNat i p (Frame.bare ftAdmin 1))) := by
  subst htenant
  show execAdminSend ring s = _
  unfold execAdminSend
  rw [State.eff_eq, hstart.startJob (by simp [hstart.opcode])]
  dsimp only
  rw [Engine.judged_go hstart.header (judge_none.mpr (noneHolds_append.mpr ⟨hattested.tenantConds, ?conds⟩)), hpeer]
  case conds =>
    simp only [noneHolds_cons, noneHolds_nil, and_true, hpeer, taken_sess]
    exact ⟨by simp [hnotice, hreserved, hreserved'], by simp [hkeyed]⟩
  dsimp only
  rw [taken_sess, hport]
  rfl

/-- Settles O47: nothing stands against any of the four jobs. That a DRAIN does not write failed lines again is the model's reading
(log 16). -/
theorem serviceJobsDoTheirWork : Obligations.ServiceJobsDoTheirWork := by
  unfold Obligations.ServiceJobsDoTheirWork
  intro s ring x n tn id hattested
  refine ⟨fun hstart => ?drain, fun slots hstart hslots hsome hsel hreserved hbody hrun hcopies hread hfails hours => ?scrub,
    fun hstart => exec_telemetry hstart, fun i p => exec_adminSend rfl hattested⟩
  case drain =>
    have hfront : (taken s n).front = s.eng.front := Engine.takeEntry_front ..
    have hvault : (taken s n).vault = s.eng.vault := Engine.takeEntry_vault ..
    have hfailed (key : FrontKey) : (taken s n).backFailed key = s.eng.backFailed key := by
      unfold Engine.backFailed
      rw [hvault]
    refine ⟨drainBegun s n x, drainOf s n x, exec_drain hattested hstart, ?jobs, ?drains, rfl, fun l hl hdirty hpart hfind htenant => ?covered,
      same_drainBegun s n x⟩
    case jobs => exact congrArg (· ++ _) (Engine.takeEntry_jobs ..)
    case drains => exact congrArg (fun v : Vault => v.drains ++ _) hvault
    case covered =>
      have hmem := mem_drainKeys hl hdirty hpart hfind htenant
      refine ⟨fun hsound => ?_, fun code hcode => ?_⟩
      · have hver : (taken s n).verOf l.key = l.ver := by
          unfold Engine.verOf
          rw [hfront, hfind]
          rfl
        have hwaits : (l.key, (taken s n).verOf l.key) ∈ (drainOf s n x).waits :=
          List.mem_map_of_mem (List.mem_filter.mpr ⟨hmem, by rw [hfailed, hsound]; rfl⟩)
        rwa [hver] at hwaits
      · exact List.mem_filterMap.mpr ⟨l.key, hmem, by rw [hfailed, hcode]; rfl⟩
  case scrub =>
    have hasked : ScrubAsked s n x slots :=
      ⟨hstart, hattested, hslots, ⟨hsome, hsel⟩, hreserved, hbody, ⟨hrun, hcopies⟩, hread, hours⟩
    obtain ⟨hscrubs, hwiped, hmine, hothers⟩ := hasked.scrubs rfl hfails
    rw [taken_kept] at hmine
    refine ⟨_, exec_scrub hasked, fun b hb i hi => ?lines, ?marks, fun m hm => (hothers m hm).trans (taken_kept ..),
      ((same_taken s n).mono (by decide)).trans (hscrubs.same.mono (by decide))⟩
    case lines =>
      obtain ⟨hzero, hfront⟩ := hwiped b hb i hi
      refine ⟨fun l hl => hzero l ?_, hfront⟩
      rw [← hl]
      exact congrArg (fun key => Body.line key _) ((hscrubs.key _).trans (taken_bodyKey ..))
    case marks =>
      dsimp only
      rw [hmine]
      exact ⟨fun b hb => Kept.scrubbed_all_complete hb _, fun b hb hlast => Kept.scrubbed_all_valid (hlast ▸ hb)⟩

end Sys2Proof

/-!
PROOFS. Units with spares (R157, R331, R356, R357): the maps, the BAD marks and the free spares, a unit replaced by a free spare, and the cases
of a write of SPARE_CTRL.
-/

namespace Sys2Proof.Machine

/-! ### The maps of the units -/

theorem Units.map_set (x y : UnitKind) (l : Nat) (v : UnitMap) (u : Units) :
    (u.set x l v).map y = if y = x then tabPut unitIdentity l v (u.map x) else u.map y := by
  cases x <;> cases y <;> rfl

@[simp] theorem Units.at_set_same (x : UnitKind) (l : Nat) (v : UnitMap) (u : Units) : (u.set x l v).at x l = v := by
  unfold Units.at
  rw [Units.map_set, if_pos rfl, tabGet_put_same]

theorem Units.at_set_ne {l m : Nat} (h : m ≠ l) (x : UnitKind) (v : UnitMap) (u : Units) : (u.set x l v).at x m = u.at x m := by
  unfold Units.at
  rw [Units.map_set, if_pos rfl, tabGet_put_ne h]

theorem Units.at_set_kind_ne {x y : UnitKind} (h : y ≠ x) (l m : Nat) (v : UnitMap) (u : Units) : (u.set x l v).at y m = u.at y m := by
  unfold Units.at
  rw [Units.map_set, if_neg h]

@[simp] theorem Units.at_spareCode (x : UnitKind) (m : Nat) (c : Code) (u : Units) : ({ u with spareCode := c } : Units).at x m = u.at x m := by
  cases x <;> rfl

/-- A logical unit that is not withdrawn uses its physical unit. -/
theorem Units.used_at {x : UnitKind} {l : Nat} {u : Units} (hl : l < x.logical) (hlive : (u.at x l).withdrawn = false) :
    u.used x (u.at x l).phys = true :=
  List.any_eq_true.mpr ⟨l, List.mem_range.mpr hl, by simp [hlive]⟩

/-! ### BAD marks and free spares (R356) -/

theorem Body.mem_bad_markBad {x : UnitKind} {p q : Nat} {b : Body} : q ∈ (b.markBad x p).bad x ↔ q ∈ b.bad x ∨ q = p := by
  unfold Body.markBad
  split
  next hmarked =>
    have hp : p ∈ b.bad x := List.contains_iff_mem.mp hmarked
    exact ⟨Or.inl, fun h => h.elim id fun hq => hq ▸ hp⟩
  next => cases x <;> simp [Body.bad]

/-- Marking a unit that is in use takes no spare: it was not free. -/
theorem freeSpares_markBad {x : UnitKind} {p : Nat} {u : Units} (hused : u.used x p = true) (b : Body) :
    freeSpares x u (b.markBad x p) = freeSpares x u b := by
  refine List.filter_congr fun q _ => ?_
  by_cases hq : q = p
  · rw [hq, hused, Bool.not_true, Bool.and_false, Bool.and_false]
  · have hbad : ((b.markBad x p).bad x).contains q = (b.bad x).contains q := by
      rw [Bool.eq_iff_iff, List.contains_iff_mem, List.contains_iff_mem, Body.mem_bad_markBad, or_iff_left hq]
    rw [hbad]

/-! ### A unit taken out of service (R157, R331) -/

/-- The engine with logical unit `l` moved to physical unit `p`, and the unit it left marked BAD and counted. -/
def Engine.unitMoved (x : UnitKind) (l p : Nat) (e : Engine) : Engine :=
  ({ e with body := e.body.markBad x (e.units.at x l).phys, units := e.units.set x l { phys := p, withdrawn := false } } : Engine).bump
    Ctr.sparesUsed 1

theorem Engine.takeOut_replaced {k : Kit} {r : Regs} {x : UnitKind} {l p : Nat} {rest : List Nat} {e : Engine} (hl : l < x.logical)
    (hlive : (e.units.at x l).withdrawn = false) (hfree : freeSpares x e.units e.body = p :: rest) :
    e.takeOut k r x l = e.unitMoved x l p := by
  have hmarked : freeSpares x e.units (e.body.markBad x (e.units.at x l).phys) = p :: rest :=
    (freeSpares_markBad (Units.used_at hl hlive) e.body).trans hfree
  unfold Engine.takeOut
  simp only [hlive, Bool.false_eq_true, if_false, Engine.bump_units, Engine.bump_body, hmarked]
  rfl

theorem Engine.sparesUsed_unitMoved (x : UnitKind) (l p : Nat) (e : Engine) :
    (e.unitMoved x l p).counter Ctr.sparesUsed = e.counter Ctr.sparesUsed + 1 := by
  unfold Engine.unitMoved
  rw [Engine.counter_bump_same]
  rfl

theorem same_unitMoved (x : UnitKind) (l p : Nat) (e : Engine) : Same [.units, .body, .count] e (e.unitMoved x l p) := by
  simp [Same, Engine.unitMoved]

/-! ### The procedure of a pipeline unit (R157, R331, R357) -/

/-- The source that the fault of a unit raises. -/
def UnitKind.faultSource : UnitKind → Nat
  | .enc => 0x1C
  | .dec => 0x1C
  | .cipher => 0x20
  | .hash => 0x21

/-- The counter of the faults of a unit. -/
def UnitKind.faultCounter : UnitKind → Nat
  | .enc => Ctr.laneFaults
  | .dec => Ctr.laneFaults
  | .cipher => Ctr.cipherFaults
  | .hash => Ctr.hashFaults

/-- The engine in which the fault of a unit is raised and counted. -/
def Engine.unitFaulted (k : Kit) (r : Regs) (x : UnitKind) (e : Engine) : Engine := (e.raise k r x.faultSource none).bump x.faultCounter 1

section
variable (k : Kit) (r : Regs) (x : UnitKind) (e : Engine)

@[simp] theorem Engine.unitFaulted_units : (e.unitFaulted k r x).units = e.units := Engine.raise_units ..
@[simp] theorem Engine.unitFaulted_body : (e.unitFaulted k r x).body = e.body := Engine.raise_body ..

theorem same_unitFaulted : Same [.cycle, .count, .fox, .draws] e (e.unitFaulted k r x) :=
  (same_raise ..).trans ((same_bump ..).mono (by decide))

/-- A raise counts itself and its escalation only. -/
theorem Engine.raise_counter {off : Nat} (hraised : off ≠ Ctr.faultsRaised) (hescalated : off ≠ Ctr.escalations) (s : Nat) (t : Option TenantNo) :
    (e.raise k r s t).counter off = e.counter off := by
  cases himpl : foxImplemented k s with
  | false => rw [Engine.raise_none r t e himpl]
  | true =>
    have hcount : (e.raise k r s t).counter off = (e.raiseAt k r s t e.stamp).counter off := by
      rw [Engine.raise_eq r t e himpl]
      rfl
    rw [hcount]
    unfold Engine.raiseAt
    simp only [himpl, if_true]
    split
    · rw [Engine.counter_bump_ne hescalated, Engine.counter_bump_ne hraised]
      rfl
    · rw [Engine.counter_bump_ne hraised]
      rfl

theorem Engine.sparesUsed_unitFaulted : (e.unitFaulted k r x).counter Ctr.sparesUsed = e.counter Ctr.sparesUsed := by
  have hother : Ctr.sparesUsed ≠ x.faultCounter := by cases x <;> decide
  exact (Engine.counter_bump_ne hother ..).trans (Engine.raise_counter k r e (by decide) (by decide) ..)

/-- Each kind runs the same procedure: the fault is told, and the unit is taken out. -/
theorem Engine.spareUnit_eq {l : Nat} (hl : l < x.logical) : e.spareUnit k r x l = (e.unitFaulted k r x).takeOut k r x l := by
  cases x with
  | enc => rfl
  | dec => rfl
  | cipher =>
    have hcore : l % 48 = l := Nat.mod_eq_of_lt hl
    show (e.unitFaulted k r .cipher).takeOut k r .cipher (l % 48) = _
    rw [hcore]
  | hash =>
    have hcore : l % 24 = l := Nat.mod_eq_of_lt hl
    show (e.unitFaulted k r .hash).takeOut k r .hash (l % 24) = _
    rw [hcore]

theorem Engine.spareUnit_replaced {l p : Nat} {rest : List Nat} (hl : l < x.logical) (hlive : (e.units.at x l).withdrawn = false)
    (hfree : freeSpares x e.units e.body = p :: rest) : e.spareUnit k r x l = (e.unitFaulted k r x).unitMoved x l p := by
  rw [Engine.spareUnit_eq k r x e hl]
  exact Engine.takeOut_replaced hl (by rwa [Engine.unitFaulted_units]) (by rwa [Engine.unitFaulted_units, Engine.unitFaulted_body])

end

/-! ### A body bank (R132, R357) -/

section
variable {e : Engine} {l : Nat}

theorem Engine.spareBank_busy {m : Remap} (hremap : e.bulb.remap = some m) (hretires : m.retire = true) : e.spareBank l = e.spareCode 0x58 := by
  unfold Engine.spareBank
  simp only [hremap, hretires, if_true]

theorem Engine.spareBank_none (hnone : e.body.freeBanks = 0) (hrotates : ∀ m, e.bulb.remap = some m → m.retire = false) :
    e.spareBank l = e.spareCode 0x57 := by
  unfold Engine.spareBank
  cases hremap : e.bulb.remap with
  | none => simp only [Bool.false_eq_true, if_false, hnone, if_true]
  | some m => simp only [hrotates m hremap, Bool.false_eq_true, if_false, hnone, if_true]

theorem Body.freeBanks_ne_zero {target : Nat} {b : Body} (htarget : b.leastWritten (b.banksIn .free) = some target) : b.freeBanks ≠ 0 := by
  intro hnone
  rw [List.length_eq_zero_iff.mp hnone] at htarget
  exact nomatch htarget

theorem Engine.spareBank_starts {l' target : Nat} (hremap : e.bulb.remap = none) (hlogical : e.body.logicalOf (e.body.map l) = some l')
    (htarget : e.body.leastWritten (e.body.banksIn .free) = some target) :
    e.spareBank l = { e with
      bulb := { e.bulb with remap := some { logical := l', source := e.body.map l, target := target, pointer := 0, retire := true } }
      units := { e.units with spareCode := 0, spareBusy := true } } := by
  unfold Engine.spareBank
  simp only [hremap, Bool.false_eq_true, if_false, Body.freeBanks_ne_zero htarget]
  rw [Engine.startRetire_idle hlogical htarget hremap]
  rfl

end

/-! ### The cases of a write (R357) -/

section
variable (k : Kit) (r : Regs) {value : Word} {e : Engine}

theorem Engine.spareWrite_idle (hgo : value.getLsbD 31 = false) : e.spareWrite k r value = e := by
  unfold Engine.spareWrite
  simp only [hgo, Bool.not_false, if_true]

section
variable (hgo : value.getLsbD 31 = true)

include hgo

theorem Engine.spareWrite_bank (hkind : bits 27 24 value.toNat = 1) :
    e.spareWrite k r value = if bits 8 0 value.toNat < 256 then e.spareBank (bits 8 0 value.toNat) else e.spareCode 0x11 := by
  unfold Engine.spareWrite
  simp only [hgo, Bool.not_true, Bool.false_eq_true, if_false, hkind, if_true]

theorem Engine.spareWrite_undefined (hkind : bits 27 24 value.toNat ≠ 1) (hnone : spareKind (bits 27 24 value.toNat) = none) :
    e.spareWrite k r value = e.spareCode 0x11 := by
  unfold Engine.spareWrite
  simp only [hgo, Bool.not_true, Bool.false_eq_true, if_false, hkind, hnone]

theorem Engine.spareWrite_unit {x : UnitKind} (hkind : bits 27 24 value.toNat ≠ 1) (hunit : spareKind (bits 27 24 value.toNat) = some x) :
    e.spareWrite k r value =
      if x.logical ≤ bits 8 0 value.toNat then e.spareCode 0x11
      else if (freeSpares x e.units e.body).isEmpty then e.spareCode 0x57
      else (e.spareUnit k r x (bits 8 0 value.toNat)).spareCode 0 := by
  unfold Engine.spareWrite
  simp only [hgo, Bool.not_true, Bool.false_eq_true, if_false, hkind, hunit]

end

end

end Sys2Proof.Machine

namespace Sys2Proof

open Machine

/-- An open CFG port answers the write after what it does (R383). -/
theorem exec_spareCtrl {s : State} {value : Word} {e : Engine} (hopen : s.eng.cfgOpen = true) (hwrite : s.eng.spareWrite s.kit s.regs value = e) :
    exec (.spareCtrl value) s = .next (driven (withEng s e) [.cfgDone]) := by
  show execSpareCtrl value s = _
  unfold execSpareCtrl State.effCfg
  rw [State.eff_eq]
  simp only [hopen, if_true, hwrite]
  rfl

/-- An answer changes the outputs only. -/
theorem only_answered {gs : List Grp} {s : State} {e : Engine} (hout : Grp.out ∈ gs) (h : Same gs s.eng e) (o : Output) :
    Only gs s (driven (withEng s e) [o]) := by
  have hemit : Same gs e (e.emit o) := by simp [Same, Engine.emit, hout]
  exact only_of_same (h.trans hemit)

/-- The engine after a SPARE_CTRL write that moved logical unit `l` to spare `p`. -/
def unitReplaced (s : State) (x : UnitKind) (l p : Nat) : Engine := ((s.eng.unitFaulted s.kit s.regs x).unitMoved x l p).spareCode 0

section
variable (s : State) (x : UnitKind) (l p : Nat)

theorem unitReplaced_units :
    (unitReplaced s x l p).units = { s.eng.units.set x l { phys := p, withdrawn := false } with spareCode := 0 } := by
  show { (s.eng.unitFaulted s.kit s.regs x).units.set x l _ with spareCode := 0 } = _
  rw [Engine.unitFaulted_units]

theorem unitReplaced_at_same : (unitReplaced s x l p).units.at x l = { phys := p, withdrawn := false } := by
  rw [unitReplaced_units, Units.at_spareCode, Units.at_set_same]

theorem unitReplaced_at_ne {m : Nat} (h : m ≠ l) : (unitReplaced s x l p).units.at x m = s.eng.units.at x m := by
  rw [unitReplaced_units, Units.at_spareCode, Units.at_set_ne h]

theorem unitReplaced_at_kind_ne {y : UnitKind} (h : y ≠ x) (m : Nat) : (unitReplaced s x l p).units.at y m = s.eng.units.at y m := by
  rw [unitReplaced_units, Units.at_spareCode, Units.at_set_kind_ne h]

theorem unitReplaced_body : (unitReplaced s x l p).body = s.eng.body.markBad x (s.eng.units.at x l).phys := by
  show (s.eng.unitFaulted s.kit s.regs x).body.markBad x ((s.eng.unitFaulted s.kit s.regs x).units.at x l).phys = _
  rw [Engine.unitFaulted_body, Engine.unitFaulted_units]

theorem unitReplaced_sparesUsed : (unitReplaced s x l p).counter Ctr.sparesUsed = s.eng.counter Ctr.sparesUsed + 1 := by
  show ((s.eng.unitFaulted s.kit s.regs x).unitMoved x l p).counter Ctr.sparesUsed = _
  rw [Engine.sparesUsed_unitMoved, Engine.sparesUsed_unitFaulted]

theorem same_unitReplaced : Same [.units, .body, .count, .fox, .draws, .cycle] s.eng (unitReplaced s x l p) := by
  have hcode (e : Engine) : Same [.units] e (e.spareCode 0) := by simp [Same, Engine.spareCode]
  exact ((same_unitFaulted ..).mono (by decide)).trans (((same_unitMoved ..).mono (by decide)).trans ((hcode _).mono (by decide)))

end

/-- Settles O34: every KIND goes the way of its case of the write. That the spare is the lowest-numbered free one is the model's choice (log
93). -/
theorem spareControlReplacesUnits : Obligations.SpareControlReplacesUnits := by
  unfold Obligations.SpareControlReplacesUnits
  intro s value hopen kind l coded
  have hcoded {c : Code} (hwrite : s.eng.spareWrite s.kit s.regs value = s.eng.spareCode c) : exec (.spareCtrl value) s = .next (coded c) :=
    exec_spareCtrl hopen hwrite
  refine ⟨fun hgo => exec_spareCtrl hopen (Engine.spareWrite_idle _ _ hgo), fun hgo => ?_⟩
  have hbank (hkind : kind = 1) (hl : l < 256) : s.eng.spareWrite s.kit s.regs value = s.eng.spareBank l :=
    (Engine.spareWrite_bank _ _ hgo hkind).trans (if_pos hl)
  refine ⟨fun hkind hnone => hcoded (Engine.spareWrite_undefined _ _ hgo hkind hnone),
    fun hkind hl => hcoded ((Engine.spareWrite_bank _ _ hgo hkind).trans (if_neg (Nat.not_lt.mpr hl))),
    fun hkind hl hnone hrotates => hcoded ((hbank hkind hl).trans (Engine.spareBank_none hnone hrotates)),
    fun m hkind hl hremap hretires => hcoded ((hbank hkind hl).trans (Engine.spareBank_busy hremap hretires)),
    fun l' target hkind hl hremap hlogical htarget => ?retired, fun u hkind hunit => ?unit⟩
  case retired =>
    exact ⟨_, exec_spareCtrl hopen ((hbank hkind hl).trans (Engine.spareBank_starts hremap hlogical htarget)), rfl, rfl, rfl,
      only_answered (by decide) (by simp [Same]) _⟩
  case unit =>
    have hwrite := Engine.spareWrite_unit s.kit s.regs (e := s.eng) hgo hkind hunit
    refine ⟨fun hl => hcoded (hwrite.trans (if_pos hl)), fun hl hnone => hcoded ?noSpare, fun p rest hl hlive hfree => ?replaced⟩
    case noSpare => rw [hwrite, if_neg (Nat.not_le.mpr hl), hnone, List.isEmpty_nil, if_pos rfl]
    case replaced =>
      have hdone : s.eng.spareWrite s.kit s.regs value = unitReplaced s u l p := by
        rw [hwrite, if_neg (Nat.not_le.mpr hl), hfree, Engine.spareUnit_replaced _ _ _ _ hl hlive hfree]
        rfl
      exact ⟨_, exec_spareCtrl hopen hdone, unitReplaced_at_same s u l p, fun m hm => unitReplaced_at_ne s u l p hm,
        fun v m hv => unitReplaced_at_kind_ne s u l p hv m, unitReplaced_body s u l p, rfl, unitReplaced_sparesUsed s u l p,
        only_answered (by decide) ((same_unitReplaced s u l p).mono (by decide)) _⟩

end Sys2Proof

/-!
PROOFS. The recipe jobs: LOAD, UNLOAD, BIND and UNBIND (R167 to R171).
-/

namespace Sys2Proof.Machine

section
variable {k : Kit} {r : Regs} {n : Nat} {x : Entry} {e : Engine}

/-- A recipe job that nothing stands against goes, and RECIPE_REFUSED keeps its count (R434). -/
theorem Engine.recipeJob_go {others mine : List (Bool × Code)} {go : Engine → Engine} (hheader : x.badHeader = false)
    (hothers : NoneHolds others) (hmine : NoneHolds mine) : e.recipeJob k r n x others mine go = go e :=
  Engine.judged_countRecipe_go hheader (noneHolds_append.mpr ⟨hothers, hmine⟩)

/-- A recipe job whose image has come and has nothing against it gets the bytes (R434). -/
theorem Engine.recipeData_go {bs : List Byte} {later : List Byte → List (Bool × Code)} {go : List Byte → Engine → Engine}
    (hlater : NoneHolds (later bs)) : e.recipeData k r n x (.ok bs) later go = go bs e := by
  unfold Engine.recipeData
  dsimp only
  rw [judge_none.mpr hlater]

end

/-- A set of the tenant's own is not another's (R171). -/
theorem Engine.setForeign_own {t : TenantNo} {m : Nat} {b : BindSet} {e : Engine} (hset : tabFind m e.recipes.sets = some b)
    (htenant : b.tenant = t) : e.setForeign t m = false := by
  unfold Engine.setForeign
  rw [hset]
  exact bne_eq_false_iff_eq.mpr htenant

end Sys2Proof.Machine

namespace Sys2Proof

open Machine

/-! ### What a recipe job finds -/

section
variable (s : State) (n : Nat)

theorem taken_recipes : (taken s n).recipes = s.eng.recipes := Engine.takeEntry_recipes ..

theorem taken_recipe (m : Nat) : (taken s n).recipe m = s.eng.recipe m :=
  congrArg (fun v : Recipes => tabFind m v.held) (taken_recipes s n)

theorem taken_recipesOf (t : TenantNo) : (taken s n).recipesOf t = s.eng.recipesOf t := by
  unfold Engine.recipesOf
  rw [taken_recipes]

theorem taken_recipeBusy (m : Nat) : (taken s n).recipeBusy m = s.eng.recipeBusy m := by
  unfold Engine.recipeBusy
  rw [taken_recipes, taken, Engine.takeEntry_streams]

theorem taken_setForeign (t : TenantNo) (m : Nat) : (taken s n).setForeign t m = s.eng.setForeign t m := by
  unfold Engine.setForeign
  rw [taken_recipes]

theorem taken_setBusy (m : Nat) : (taken s n).setBusy m = s.eng.setBusy m := by
  unfold Engine.setBusy
  rw [taken, Engine.takeEntry_cut]

theorem taken_bindConds (t : TenantNo) (bs : List Byte) : (taken s n).bindConds t bs = s.eng.bindConds t bs := by
  unfold Engine.bindConds
  simp only [taken_recipe]

end

/-! ### A recipe job that is carried out -/

/-- The state after the recipe job `x` of ring `n`: the store holds these recipes and sets, and the job has completed with this RESULT. -/
def storeSet (s : State) (n : Nat) (x : Entry) (held : Tab Recipe) (sets : Tab BindSet) (result : List Byte) : State :=
  withEng s (((taken s n).setRecipes { held := held, sets := sets }).complete s.kit s.regs (x.jobId n) 0 result)

section
variable (s : State) (n : Nat) (x : Entry) (held : Tab Recipe) (sets : Tab BindSet) (result : List Byte)

theorem storeSet_recipes : (storeSet s n x held sets result).eng.recipes = { held := held, sets := sets } := Engine.complete_recipes ..

theorem storeSet_held : (storeSet s n x held sets result).eng.recipes.held = held := congrArg Recipes.held (storeSet_recipes ..)

theorem storeSet_sets : (storeSet s n x held sets result).eng.recipes.sets = sets := congrArg Recipes.sets (storeSet_recipes ..)

theorem storeSet_recipe (m : Nat) : (storeSet s n x held sets result).eng.recipe m = tabFind m held := congrArg (tabFind m) (storeSet_held ..)

theorem storeSet_set (m : Nat) : tabFind m (storeSet s n x held sets result).eng.recipes.sets = tabFind m sets :=
  congrArg (tabFind m) (storeSet_sets ..)

/-- The job completes and its entry goes; beside that only the store changes. -/
theorem storeSet_frame : Completed s (storeSet s n x held sets result) n x 0 result ∧ Taken s (storeSet s n x held sets result) n ∧
    Only [.rings, .budget, .count, .mem, .out, .vault, .recipes] s (storeSet s n x held sets result) := by
  obtain ⟨hcompleted, htaken⟩ := completed_complete (e := (taken s n).setRecipes { held := held, sets := sets }) rfl x 0 result
  have hstore (v : Recipes) (e : Engine) : Same [.recipes] e (e.setRecipes v) := by simp [Same, Engine.setRecipes]
  exact ⟨hcompleted, htaken, only_of_same (((same_taken s n).mono (by decide)).trans
    (((hstore ..).mono (by decide)).trans ((same_complete ..).mono (by decide))))⟩

end

/-! ### The four operations -/

section
variable {s : State} {ring : BitVec 8} {x : Entry}

theorem isRecipeOp_eq {n op m : Nat} (hstart : Starts s n 6 x) (hop : (loadParamsOf x.params).op = op) : isRecipeOp m x = (op == m) := by
  rw [isRecipeOp, hstart.opcode, show leAt 0 1 x.params = op from hop]
  rfl

variable {t : TenantNo} {p : LoadParams} (htn : s.regs.ringTenant ring.toNat = t) (hp : loadParamsOf x.params = p)
  (hattested : Attested s ring.toNat) (hstart : Starts s ring.toNat 6 x) (hrsv : p.rsv = false)
include htn hp hattested hstart hrsv

/-- The lowest free index is the one that LOAD looks for (R167, R168, R337). -/
theorem exec_recipeLoad {bs : List Byte} {i : Nat} (hop : p.op = 1) (hindex : p.index = 0) (haddr : p.addr % 64 = 0)
    (hin : s.regs.inRegions t.toNat p.addr p.len = true) (himage : NoneHolds (imageConds p.len bs)) (hi : i < 1024)
    (hfree : s.eng.recipe i = none) (hlow : ∀ m, m < i → s.eng.recipe m ≠ none)
    (hquota : s.eng.beat.sealed = true → s.eng.recipesOf t < s.regs.quotaRecipes t.toNat) :
    exec (.recipeLoad ring (.ok bs)) s = .next (storeSet s ring.toNat x (tabSet i (recipeOf t bs) s.eng.recipes.held) s.eng.recipes.sets
      (natLE 2 i)) := by
  subst htn hp
  have hlowest : lowestFrom (fun m => ((taken s ring.toNat).recipe m).isNone) 0 1024 = some i := by
    refine lowestFrom_eq_some i.zero_le (by omega) ?_ fun m _ hm => ?_
    · rw [taken_recipe, hfree]
      rfl
    · rw [taken_recipe]
      simpa [Option.isSome_iff_ne_none] using hlow m hm
  have hbeat : (taken s ring.toNat).beat = s.eng.beat := Engine.takeEntry_beat ..
  show execRecipeLoad ring (.ok bs) s = _
  unfold execRecipeLoad
  rw [State.eff_eq, hstart.startJob (by simp [isRecipeOp_eq hstart hop, hstart.opcode])]
  dsimp only
  rw [Engine.recipeJob_go hstart.header (noneHolds_append.mpr ⟨hattested.tenantConds, ?entry⟩) ?room, Engine.recipeData_go himage, hlowest,
    taken_recipes]
  case entry => simp [noneHolds_cons, noneHolds_nil, hop, hrsv, hindex, haddr, hin]
  case room =>
    rw [hlowest, hbeat, taken_recipesOf]
    refine noneHolds_cons.mpr ⟨?_, noneHolds_nil⟩
    cases hsealed : s.eng.beat.sealed with
    | false => rfl
    | true => simpa using hquota hsealed
  rfl

/-- UNLOAD (R169). -/
theorem exec_unload {rc : Recipe} (hop : p.op = 2) (haddr : p.addr = 0) (hlen : p.len = 0) (hrecipe : s.eng.recipe p.index = some rc)
    (htenant : rc.tenant = t) (hidle : s.eng.recipeBusy p.index = false) :
    exec (.unload ring) s = .next (storeSet s ring.toNat x (tabErase p.index s.eng.recipes.held) s.eng.recipes.sets []) := by
  subst htn hp
  show execUnload ring s = _
  unfold execUnload
  rw [State.eff_eq, hstart.startJob (isRecipeOp_eq hstart hop)]
  dsimp only
  rw [Engine.recipeJob_go hstart.header (noneHolds_append.mpr ⟨hattested.tenantConds, ?entry⟩) ?store, taken_recipes]
  case entry => simp [noneHolds_cons, noneHolds_nil, hrsv, haddr, hlen]
  case store => simp [noneHolds_cons, noneHolds_nil, taken_recipe, taken_recipeBusy, hrecipe, htenant, hidle]
  rfl

/-- BIND (R170, R171). -/
theorem exec_bind {bs : List Byte} (hop : p.op = 3) (haddr : p.addr % 64 = 0) (hin : s.regs.inRegions t.toNat p.addr p.len = true)
    (hlen : p.len = 32) (hown : s.eng.setForeign t p.index = false) (hidle : s.eng.setBusy p.index = false)
    (himage : NoneHolds (s.eng.bindConds t bs)) :
    exec (.bind ring (.ok bs)) s = .next (storeSet s ring.toNat x s.eng.recipes.held
      (tabSet p.index { tenant := t, entries := bindEntries bs } s.eng.recipes.sets) []) := by
  subst htn hp
  show execBind ring (.ok bs) s = _
  unfold execBind
  rw [State.eff_eq, hstart.startJob (isRecipeOp_eq hstart hop)]
  dsimp only
  rw [Engine.recipeJob_go hstart.header (noneHolds_append.mpr ⟨hattested.tenantConds, ?entry⟩) ?store,
    Engine.recipeData_go (by rwa [taken_bindConds]), taken_recipes]
  case entry => simp [noneHolds_cons, noneHolds_nil, hrsv, haddr, hin]
  case store => simp [noneHolds_cons, noneHolds_nil, taken_setForeign, taken_setBusy, hown, hlen, hidle]
  rfl

/-- UNBIND (R171). -/
theorem exec_unbind {b : BindSet} (hop : p.op = 4) (haddr : p.addr = 0) (hlen : p.len = 0)
    (hset : tabFind p.index s.eng.recipes.sets = some b) (htenant : b.tenant = t) (hidle : s.eng.setBusy p.index = false) :
    exec (.unbind ring) s = .next (storeSet s ring.toNat x s.eng.recipes.held (tabErase p.index s.eng.recipes.sets) []) := by
  subst htn hp
  show execUnbind ring s = _
  unfold execUnbind
  rw [State.eff_eq, hstart.startJob (isRecipeOp_eq hstart hop)]
  dsimp only
  rw [Engine.recipeJob_go hstart.header (noneHolds_append.mpr ⟨hattested.tenantConds, ?entry⟩) ?store, taken_recipes]
  case entry => simp [noneHolds_cons, noneHolds_nil, hrsv, haddr, hlen]
  case store =>
    simp [noneHolds_cons, noneHolds_nil, taken_setForeign, taken_setBusy, taken_recipes, Engine.setForeign_own hset htenant, hset, hidle]
  rfl

end

/-- Settles O48: nothing stands against any of the four, so each sets, or takes out, one entry of one table of the store. -/
theorem recipeJobsKeepTheStore : Obligations.RecipeJobsKeepTheStore := by
  unfold Obligations.RecipeJobsKeepTheStore
  intro s ring x n tn p old hattested hstart hrsv
  refine ⟨?load, ?unload, ?bind, ?unbind⟩
  case load =>
    intro bs i hop hindex haddr hin himage hi hfree hlow hquota
    exact ⟨_, exec_recipeLoad rfl rfl hattested hstart hrsv hop hindex haddr hin himage hi hfree hlow hquota,
      (storeSet_recipe ..).trans (tabFind_set_same ..), fun m hm => (storeSet_recipe ..).trans (tabFind_set_ne hm ..),
      storeSet_sets .., storeSet_frame ..⟩
  case unload =>
    intro rc hop haddr hlen hrecipe htenant hidle
    exact ⟨_, exec_unload rfl rfl hattested hstart hrsv hop haddr hlen hrecipe htenant hidle,
      (storeSet_recipe ..).trans (tabFind_erase_same ..), fun m hm => (storeSet_recipe ..).trans (tabFind_erase_ne hm ..),
      storeSet_sets .., storeSet_frame ..⟩
  case bind =>
    intro bs hop haddr hin hlen hown hidle himage
    exact ⟨_, exec_bind rfl rfl hattested hstart hrsv hop haddr hin hlen hown hidle himage,
      (storeSet_set ..).trans (tabFind_set_same ..), fun m hm => (storeSet_set ..).trans (tabFind_set_ne hm ..),
      storeSet_held .., storeSet_frame ..⟩
  case unbind =>
    intro b hop haddr hlen hset htenant hidle
    exact ⟨_, exec_unbind rfl rfl hattested hstart hrsv hop haddr hlen hset htenant hidle,
      (storeSet_set ..).trans (tabFind_erase_same ..), fun m hm => (storeSet_set ..).trans (tabFind_erase_ne hm ..),
      storeSet_held .., storeSet_frame ..⟩

end Sys2Proof


/-!
PROOFS. Frames that this engine puts on a port (R199, R201, R202, R207, R212).
-/

namespace Sys2Proof.Machine

/-! ### Sound frames -/

/-- A closed frame is sound: neither TAG nor CRC is among the bytes that it covers. -/
theorem sound_close (key : BitVec 256) (f : Frame) : Sound key (f.close key) := ⟨rfl, rfl⟩

theorem bodyLo_bodyOf (lo : BitVec 256) (hi : Word) : (bodyOf lo hi).setWidth 256 = lo := by
  unfold bodyOf
  rw [BitVec.setWidth_append, dif_pos (by decide), BitVec.setWidth_append, dif_pos (by decide), BitVec.setWidth_eq]

theorem Engine.canSend_iff {r : Regs} {e : Engine} :
    e.canSend r = true ↔ e.power.sysReady = true ∧ r.self ≠ 0xFFFF ∧ e.power.state ≠ 2 := by
  simp [Engine.canSend, and_assoc]

/-! ### A session's port -/

theorem Engine.sess_onPort (t i p : Nat) (f : PortSess → PortSess) (e : Engine) :
    (e.onPort t i p f).sess t i = (e.sess t i).setPort p (f ((e.sess t i).port p)) := Engine.sess_setSess_same ..

theorem same_onPort (t i p : Nat) (f : PortSess → PortSess) (e : Engine) : Same [.pollen] e (e.onPort t i p f) := by
  simp [Same, Engine.onPort]

/-! ### A frame goes out -/

/-- The engine with the frame `g` on port `p`, counted. -/
def Engine.framed (p : Nat) (g : Frame) (e : Engine) : Engine := (e.emit (.frame p g)).bump Ctr.framesTx 1

theorem Engine.framed_out (p : Nat) (g : Frame) (e : Engine) : (e.framed p g).out = e.out ++ [.frame p g] := rfl

theorem Engine.framed_sess (p : Nat) (g : Frame) (t i : Nat) (e : Engine) : (e.framed p g).sess t i = e.sess t i := rfl

theorem same_framed (p : Nat) (g : Frame) (e : Engine) : Same [.count, .out] e (e.framed p g) := by simp [Same, Engine.framed]

/-- A frame of a setup goes out under the key of the setup (R207). -/
theorem Engine.sendSetup_sends {r : Regs} {e : Engine} (hcan : e.canSend r = true) (t i p : Nat) (type : BitVec 8) (body : BitVec 320)
    (id : Word) (key : BitVec 256) :
    ∃ g, e.sendSetup r t i p type body id key = e.framed p g ∧ g.type = type ∧ g.sessionId = id ∧ g.body = body ∧ Sound key g := by
  unfold Engine.sendSetup
  rw [if_pos hcan]
  exact ⟨_, rfl, rfl, rfl, rfl, sound_close ..⟩

/-- A control frame goes out under the key of the session, and carries the acknowledgement that was owed (R212). -/
theorem Engine.sendControl_sends {r : Regs} {e : Engine} (hcan : e.canSend r = true) (t i p : Nat) (type : BitVec 8) (body : BitVec 320) :
    ∃ g, e.sendControl r t i p type body = (e.framed p g).onPort t i p (fun ps => { ps with owed := 0 }) ∧ g.type = type ∧
      g.ackSeq = ((e.sess t i).port p).expect ∧ g.creditLimit = ((e.sess t i).port p).limitOut ∧ Sound (e.sess t i).key g := by
  unfold Engine.sendControl
  rw [if_pos hcan]
  exact ⟨_, rfl, rfl, rfl, rfl, sound_close ..⟩

theorem same_framed_onPort (t i p : Nat) (g : Frame) (f : PortSess → PortSess) (e : Engine) :
    Same [.pollen, .count, .out] e ((e.framed p g).onPort t i p f) :=
  ((same_framed p g e).mono (by decide)).trans ((same_onPort ..).mono (by decide))

end Sys2Proof.Machine


/-!
PROOFS. Received frames that no SEQ orders: the checks, the drop, and what an accepted one leaves before its row (R204, R205, R213, R214, R222).
-/

namespace Sys2Proof.Machine

/-! ### The row of a received frame -/

theorem State.frameIn_eq {s : State} {port : Nat} (hport : s.kit.hasPort port = true) (ty : BitVec 8) (f : Frame)
    (act : Kit → Regs → Nat → Nat → Engine → Engine) :
    s.frameIn ty port f act = .next (withEng s (s.eng.receive s.kit s.regs ty port f (act s.kit s.regs))) := by
  unfold State.frameIn
  rw [hport]
  rfl

theorem exec_frameCommands {s : State} {port : Nat} (hport : s.kit.hasPort port = true) (f : Frame) : ∀ p ∈ frameCommands port f,
    ∃ act, exec p.2 s = .next (withEng s (s.eng.receive s.kit s.regs p.1 port f act)) := by
  simp only [frameCommands, List.mem_cons, List.not_mem_nil, or_false, forall_eq_or_imp, forall_eq]
  and_intros <;> exact ⟨_, State.frameIn_eq hport ..⟩

theorem frameCommands_type_ne_zero (port : Nat) (f : Frame) : ∀ p ∈ frameCommands port f, p.1 ≠ 0 := by
  simp only [frameCommands, List.mem_cons, List.not_mem_nil, or_false, forall_eq_or_imp, forall_eq]
  decide

section
variable {k : Kit} {r : Regs} {ty : BitVec 8} {port : Nat} {f : Frame} {act : Nat → Nat → Engine → Engine} {e : Engine}

theorem Engine.receive_ignored (h : f.type ≠ ty ∨ e.listening port = false) : e.receive k r ty port f act = e := by
  unfold Engine.receive
  rw [if_pos (h.imp_right fun hl => by simp [hl])]

theorem Engine.receive_dropped {d : Drop} (htype : f.type = ty) (hl : e.listening port = true) (hc : e.checkFrame r port f = .inr d) :
    e.receive k r ty port f act = e.dropFrame k r d := by
  unfold Engine.receive
  rw [if_neg (by simp [htype, hl]), hc]

theorem Engine.checkFrame_crc (h : f.crc ≠ f.crcOf) : e.checkFrame r port f = .inr .crc := if_pos (.inl h)

/-- What the checks of R204 can answer. -/
theorem Engine.checkFrame_cases (r : Regs) (port : Nat) (f : Frame) (e : Engine) :
    e.checkFrame r port f = .inr .crc ∨ e.checkFrame r port f = .inr .bad ∨ e.checkFrame r port f = .inr (.stranger port) ∨
      ∃ t i key, e.matchFrame r f = some (t, i, key) ∧ e.checkFrame r port f = .inl (t, i) := by
  unfold Engine.checkFrame
  split
  · exact .inl rfl
  · split
    · exact .inr (.inl rfl)
    · split
      · exact .inr (.inr (.inl rfl))
      · split
        · exact .inr (.inr (.inl rfl))
        next t i key hmatch =>
          split
          · exact .inr (.inr (.inr ⟨t, i, key, hmatch, rfl⟩))
          · exact .inr (.inr (.inl rfl))

/-- A stranger is met at the port on which the frame came. -/
theorem Engine.checkFrame_stranger_port {n : Nat} (h : e.checkFrame r port f = .inr (.stranger n)) : n = port := by
  rcases Engine.checkFrame_cases r port f e with hc | hc | hc | ⟨t, i, key, -, hc⟩ <;> cases hc.symm.trans h
  rfl

theorem mem_slotsOf_lt {src : Nat} {x : Nat × Nat} (h : x ∈ slotsOf r src) : x.2 < 16 := by
  obtain ⟨n, -, hn⟩ := List.mem_filterMap.mp h
  split at hn <;> cases hn
  exact Nat.mod_lt _ (by decide)

theorem Engine.mem_slotsOf_of_matchFrame {t i : Nat} {key : BitVec 256} (h : e.matchFrame r f = some (t, i, key)) :
    (t, i) ∈ slotsOf r f.srcPeer.toNat := by
  obtain ⟨⟨u, j⟩, hmem, hfound⟩ := List.exists_of_findSome?_eq_some h
  have hslot : (u, j) = (t, i) := by
    -- every branch that finds a key answers with the slot asked about
    dsimp only at hfound
    grind [Option.map_eq_some_iff]
  exact hslot ▸ hmem

/-- The session of an accepted frame stands at a peer slot. -/
theorem Engine.checkFrame_slot {t i : Nat} (h : e.checkFrame r port f = .inl (t, i)) : i < 16 := by
  rcases Engine.checkFrame_cases r port f e with hc | hc | hc | ⟨u, j, key, hmatch, hc⟩ <;> cases hc.symm.trans h
  exact mem_slotsOf_lt (Engine.mem_slotsOf_of_matchFrame hmatch)

end

end Sys2Proof.Machine


/-!
PROOFS. Accepted frames that no SEQ orders, and what they leave before their row (R204, R213, R214, R222); an ADMIN frame in sequence (R226).
-/

namespace Sys2Proof.Machine

/-! ### What the header of an accepted frame leaves -/

/-- A session's port once it has heard a frame that belongs to no setup: what ACK_SEQ acknowledges is released, a later CREDIT_LIMIT is taken. -/
def PortSess.hear (f : Frame) (ps : PortSess) : PortSess :=
  if seqBefore (ps.ack f.ackSeq).limitIn f.creditLimit then { ps.ack f.ackSeq with limitIn := f.creditLimit } else ps.ack f.ackSeq

theorem Engine.heard_setup {f : Frame} (h : f.ofSetup = true) (t i p : Nat) (e : Engine) : e.heard t i p f = e := if_pos h

theorem Engine.heard_session {f : Frame} (h : f.ofSetup = false) (t i p : Nat) (e : Engine) :
    e.heard t i p f = e.onPort t i p (PortSess.hear f) := if_neg (by simp [h])

theorem Engine.sess_heard (t i p : Nat) (f : Frame) (e : Engine) :
    (e.heard t i p f).sess t i = if f.ofSetup then e.sess t i else (e.sess t i).setPort p (((e.sess t i).port p).hear f) := by
  cases h : f.ofSetup with
  | true => rw [Engine.heard_setup h, if_pos rfl]
  | false => rw [Engine.heard_session h, Engine.sess_onPort, if_neg Bool.false_ne_true]

theorem Engine.counter_of_count {a b : Engine} (h : b.count = a.count) (off : Nat) : b.counter off = a.counter off :=
  congrArg (fun c : Counters => tabGet (fun _ => 0) off c.live) h

theorem Engine.heard_count (t i p : Nat) (f : Frame) (e : Engine) : (e.heard t i p f).count = e.count := by
  unfold Engine.heard
  split <;> rfl

/-- The session of the peer that a frame comes from counts no beats of silence (R222). -/
theorem Engine.sess_alive (r : Regs) {t i : Nat} (hi : i < 16) (e : Engine) : (e.alive r t i).sess t i = { e.sess t i with sinceRx := 0 } := by
  have ht : (16 * t + i) / 16 = t := by omega
  have hm : (16 * t + i) % 16 = i := by omega
  have hmap : (e.alive r t i).pollen.sess = e.pollen.sess.map fun x =>
      (x.1, if r.peerId (x.1 / 16) (x.1 % 16) = r.peerId t i then { x.2 with sinceRx := 0 } else x.2) := by
    refine List.map_congr_left fun x _ => ?_
    dsimp only
    split <;> rfl
  unfold Engine.sess tabGet
  rw [hmap, tabFind_map]
  cases tabFind (16 * t + i) e.pollen.sess with
  | none => rfl
  | some v => simp [ht, hm]

/-- What each completion keeps, the completions of acknowledged ADMIN_SEND jobs keep. -/
theorem Engine.endAdmin_keeps {β : Type} (g : Engine → β) (k : Kit) (r : Regs) (h : ∀ (id : JobId) (e : Engine), g (e.refuse k r id 0) = g e)
    (t i p : Nat) (e : Engine) : g (e.endAdmin k r t i p) = g e := by
  refine Engine.forEach_keeps g _ (fun j e => ?_) _ e
  split
  · split
    · exact h ..
    · rfl
  · rfl

theorem Engine.count_endAdmin (k : Kit) (r : Regs) (t i p : Nat) (e : Engine) : (e.endAdmin k r t i p).count = e.count :=
  Engine.endAdmin_keeps (fun e => e.count) k r (fun id e => Engine.complete_count k r id 0 [] e) t i p e

theorem Engine.sess_endAdmin (k : Kit) (r : Regs) (t i p u j : Nat) (e : Engine) : (e.endAdmin k r t i p).sess u j = e.sess u j := by
  unfold Engine.sess
  rw [Engine.pollen_endAdmin]

/-! ### A frame that no SEQ orders -/

theorem Engine.sequenceFrame_unsequenced {f : Frame} (h : sequenced f.type = false) (k : Kit) (r : Regs) (t i p : Nat) (e : Engine) :
    e.sequenceFrame k r t i p f = ((e.heard t i p f).bump Ctr.framesRx 1, true) := if_pos (by rw [h]; rfl)

/-- The engine in which the row of an accepted frame begins, if no SEQ orders the frame. -/
def Engine.taking (k : Kit) (r : Regs) (t i p : Nat) (f : Frame) (e : Engine) : Engine :=
  (((e.alive r t i).heard t i p f).bump Ctr.framesRx 1).endAdmin k r t i p

theorem Engine.receive_taking {r : Regs} {ty : BitVec 8} {port t i : Nat} {f : Frame} {e : Engine} (htype : f.type = ty)
    (hseq : sequenced ty = false) (hl : e.listening port = true) (hc : e.checkFrame r port f = .inl (t, i)) (k : Kit)
    (act : Nat → Nat → Engine → Engine) : e.receive k r ty port f act = act t i (e.taking k r t i port f) := by
  subst htype
  unfold Engine.receive
  rw [if_neg (by simp [hl]), hc]
  dsimp only
  rw [Engine.sequenceFrame_unsequenced hseq, hseq, if_pos rfl, if_neg Bool.false_ne_true]
  rfl

section
variable (k : Kit) (r : Regs) (t i p : Nat) (f : Frame) (e : Engine)

theorem linkMoved_taking : LinkMoved e (e.taking k r t i p f) :=
  (((linkMoved_alive ..).trans (linkMoved_heard ..)).trans (linkMoved_bump ..)).trans (linkMoved_endAdmin ..)

theorem Engine.framesRx_taking : (e.taking k r t i p f).counter Ctr.framesRx = e.counter Ctr.framesRx + 1 := by
  rw [Engine.taking, Engine.counter_of_count (Engine.count_endAdmin ..), Engine.counter_bump_same,
    Engine.counter_of_count (Engine.heard_count ..)]
  rfl

variable {i}

theorem Engine.sess_taking (hi : i < 16) : let v := { e.sess t i with sinceRx := 0 }
    (e.taking k r t i p f).sess t i = if f.ofSetup then v else v.setPort p ((v.port p).hear f) := by
  unfold Engine.taking
  rw [Engine.sess_endAdmin, ← Engine.sess_alive r hi e]
  exact Engine.sess_heard ..

theorem Engine.live_taking (hi : i < 16) : ((e.taking k r t i p f).sess t i).live = (e.sess t i).live := by
  rw [Engine.sess_taking k r t p f e hi]
  dsimp only
  split <;> rfl

end

theorem heard_taking {s : State} {port t i : Nat} (hi : i < 16) (f : Frame) :
    Heard s t i port f (s.eng.taking s.kit s.regs t i port f) := by
  have hsess := Engine.sess_taking s.kit s.regs t port f s.eng hi
  have hmoved := linkMoved_taking s.kit s.regs t i port f s.eng
  refine ⟨?port, ?since, ?state, ?key, Engine.framesRx_taking .., ?tenants, ?draws, hmoved.same⟩
  case port =>
    rw [hsess]
    dsimp only
    split
    · rfl
    · rw [Session.port_setPort_same]
      rfl
  case since =>
    rw [hsess]
    dsimp only
    split <;> rfl
  case state =>
    rw [hsess]
    dsimp only
    split <;> rfl
  case key =>
    rw [hsess]
    dsimp only
    split <;> rfl
  case tenants =>
    obtain ⟨_, _, _, _, _, _, heq⟩ := hmoved
    rw [heq]
  case draws =>
    obtain ⟨_, _, _, _, _, _, heq⟩ := hmoved
    rw [heq]

end Sys2Proof.Machine


/-!
PROOFS. A dropped frame and a stranger (R204, R205); an ADMIN frame in sequence (R226); the rows of the received frames.
-/

namespace Sys2Proof.Machine

/-! ### Drops -/

/-- The engine with one more stranger met at port `p`. -/
def Engine.strangerMet (p : Nat) (e : Engine) : Engine :=
  let e := e.bump Ctr.strangerDrops 1
  { e with pollen := { e.pollen with strangers := tabPut (fun _ => 0) p (e.strangersAt p + 1) e.pollen.strangers } }

theorem Engine.strangersAt_strangerMet (p : Nat) (e : Engine) : (e.strangerMet p).strangersAt p = e.strangersAt p + 1 :=
  tabGet_put_same (fun _ => 0) p (e.strangersAt p + 1) e.pollen.strangers

theorem Engine.count_strangerMet (p : Nat) (e : Engine) : (e.strangerMet p).count = (e.bump Ctr.strangerDrops 1).count := rfl

theorem Engine.counter_strangerMet {off : Nat} (h : off ≠ Ctr.strangerDrops) (p : Nat) (e : Engine) :
    (e.strangerMet p).counter off = e.counter off :=
  (Engine.counter_of_count (Engine.count_strangerMet p e) off).trans (Engine.counter_bump_ne h 1 e)

theorem Engine.strangerDrops_strangerMet (p : Nat) (e : Engine) :
    (e.strangerMet p).counter Ctr.strangerDrops = e.counter Ctr.strangerDrops + 1 := by
  rw [Engine.counter_of_count (Engine.count_strangerMet p e), Engine.counter_bump_same]
  rfl

theorem same_strangerMet (p : Nat) (e : Engine) : Same [.pollen, .count] e (e.strangerMet p) := by simp [Same, Engine.strangerMet]

/-- The 65th stranger of a port raises the Pollen-stranger source, when it is the first of the beat to do so (R205). -/
theorem Engine.dropFrame_stranger_raises {p : Nat} {e : Engine} (hmet : e.strangersAt p = 64) (hfirst : ∀ x ∈ e.pollen.strangers, x.2 ≤ 64)
    (k : Kit) (r : Regs) : e.dropFrame k r (.stranger p) = (e.strangerMet p).raise k r 0x28 none := by
  have hbefore : (e.pollen.strangers.any fun x => decide (64 < x.2)) = false :=
    List.any_eq_false.mpr fun x hx => by simpa using hfirst x hx
  have hnow : 64 < (e.strangerMet p).strangersAt p := by rw [Engine.strangersAt_strangerMet, hmet]; decide
  have hraises : (!(e.pollen.strangers.any fun x => decide (64 < x.2)) && decide (64 < (e.strangerMet p).strangersAt p)) = true := by
    rw [hbefore, decide_eq_true hnow]
    rfl
  exact congrArg (fun c => (e.strangerMet p).when c fun e => e.raise k r 0x28 none) hraises

/-- What a raise leaves is about Foxglove, the stamp and the count of raises alone: a state that agrees on them sees the same raise. -/
theorem raised_of_agrees {s s' u : State} {src : Nat} {t : Option TenantNo} (hregs : s'.regs = s.regs) (hfox : s'.eng.fox = s.eng.fox)
    (hstamp : s'.eng.stamp = s.eng.stamp) (hcount : s'.eng.counter Ctr.faultsRaised = s.eng.counter Ctr.faultsRaised)
    (h : Raised s' u src t) : Raised s u src t := by
  unfold Raised at h ⊢
  rwa [hregs, hfox, hstamp, hcount] at h

/-! ### An ADMIN frame in sequence -/

theorem Engine.onPort_count (t i p : Nat) (f : PortSess → PortSess) (e : Engine) : (e.onPort t i p f).count = e.count := rfl

theorem LinkMoved.wake_eq {a b : Engine} (h : LinkMoved a b) (hentering : a.power.entering = false) (hstate : a.power.state = 0) : b.wake = b := by
  obtain ⟨_, _, _, _, _, _, rfl⟩ := h
  exact Engine.wake_awake hentering hstate

theorem LinkMoved.power {a b : Engine} (h : LinkMoved a b) : b.power = a.power := by
  obtain ⟨_, _, _, _, _, _, rfl⟩ := h
  rfl

theorem LinkMoved.mayDraw {a b : Engine} (h : LinkMoved a b) : b.mayDraw = a.mayDraw := by
  obtain ⟨_, _, _, _, _, _, rfl⟩ := h
  rfl

theorem LinkMoved.tenants {a b : Engine} (h : LinkMoved a b) : b.tenants = a.tenants := by
  obtain ⟨_, _, _, _, _, _, rfl⟩ := h
  rfl

theorem foxImplemented_stranger (k : Kit) : foxImplemented k 0x28 = true := rfl

/-- An ACK for a port that owes 8 of them (R212). -/
def Engine.ackDue (r : Regs) (t i p : Nat) (e : Engine) : Engine := if 8 ≤ ((e.sess t i).port p).owed then e.sendAck r t i p else e

section
variable (r : Regs) (t i p : Nat) (e : Engine)

theorem linkMoved_ackDue : LinkMoved e (e.ackDue r t i p) := by
  unfold Engine.ackDue
  split
  · exact linkMoved_sendAck ..
  · exact LinkMoved.refl e

theorem Engine.expects_ackDue : (e.ackDue r t i p).expects t i p = e.expects t i p := by
  unfold Engine.ackDue
  split
  · exact Engine.expects_sendAck ..
  · rfl

/-- A frame that this engine sends does not count as received. -/
theorem Engine.framesRx_sendControl (type : BitVec 8) (body : BitVec 320) :
    (e.sendControl r t i p type body).counter Ctr.framesRx = e.counter Ctr.framesRx := by
  cases hcan : e.canSend r with
  | true =>
    obtain ⟨g, hsends, -⟩ := Engine.sendControl_sends hcan t i p type body
    rw [hsends, Engine.counter_of_count (Engine.onPort_count ..)]
    exact Engine.counter_bump_ne (by decide) 1 _
  | false => rw [Engine.sendControl, hcan, if_neg Bool.false_ne_true]

theorem Engine.framesRx_ackDue : (e.ackDue r t i p).counter Ctr.framesRx = e.counter Ctr.framesRx := by
  unfold Engine.ackDue
  split
  · exact Engine.framesRx_sendControl ..
  · rfl

end

theorem Engine.framesRx_counted (t i p : Nat) (f : Frame) (e : Engine) :
    (e.counted t i p f).counter Ctr.framesRx = e.counter Ctr.framesRx + 1 := by
  unfold Engine.counted
  rw [Engine.counter_bump_same]
  exact congrArg (· + 1) (Engine.counter_of_count (Engine.heard_count t i p f _) _)

/-- An ADMIN frame next in sequence is accepted: it has no lines that could lack credit (R204, R211). -/
theorem Engine.sequenceFrame_admin {t i p : Nat} {f : Frame} {e : Engine} (htype : f.type = ftAdmin) (hseq : f.seq = e.expects t i p)
    (k : Kit) (r : Regs) : e.sequenceFrame k r t i p f = ((e.counted t i p f).ackDue r t i p, true) := by
  have hsequenced : sequenced f.type = true := by rw [htype]; rfl
  have hvault : f.type ≠ ftVault := by rw [htype]; decide
  unfold Engine.sequenceFrame
  rw [if_neg (by rw [hsequenced]; decide)]
  dsimp only
  rw [if_neg (fun h => h hseq), if_neg (fun h => hvault h.1)]
  rfl

/-- The engine in which the row of an accepted ADMIN frame begins. -/
def Engine.takingAdmin (k : Kit) (r : Regs) (t i p : Nat) (f : Frame) (e : Engine) : Engine :=
  (((e.alive r t i).counted t i p f).ackDue r t i p).endAdmin k r t i p

section
variable (k : Kit) (r : Regs) (t i p : Nat) (f : Frame) (e : Engine)

theorem linkMoved_takingAdmin : LinkMoved e (e.takingAdmin k r t i p f) :=
  (((linkMoved_alive ..).trans (linkMoved_counted ..)).trans (linkMoved_ackDue ..)).trans (linkMoved_endAdmin ..)

theorem Engine.expects_takingAdmin : (e.takingAdmin k r t i p f).expects t i p = e.expects t i p + 1 := by
  unfold Engine.takingAdmin
  rw [Engine.expects_endAdmin, Engine.expects_ackDue, Engine.expects_counted]
  exact congrArg (·.expect + 1) (Engine.port_alive ..)

theorem Engine.framesRx_takingAdmin : (e.takingAdmin k r t i p f).counter Ctr.framesRx = e.counter Ctr.framesRx + 1 := by
  unfold Engine.takingAdmin
  rw [Engine.counter_of_count (Engine.count_endAdmin ..), Engine.framesRx_ackDue, Engine.framesRx_counted]
  rfl

end

theorem Engine.receive_admin {r : Regs} {port t i : Nat} {f : Frame} {e : Engine} (htype : f.type = ftAdmin) (hl : e.listening port = true)
    (hc : e.checkFrame r port f = .inl (t, i)) (hseq : f.seq = e.expects t i port) (hstate : e.power.state = 0)
    (hentering : e.power.entering = false) (k : Kit) (act : Nat → Nat → Engine → Engine) :
    e.receive k r ftAdmin port f act = act t i (e.takingAdmin k r t i port f) := by
  have halive : f.seq = (e.alive r t i).expects t i port := by
    unfold Engine.expects
    rw [Engine.port_alive]
    exact hseq
  have hawake : (e.takingAdmin k r t i port f).wake = e.takingAdmin k r t i port f :=
    (linkMoved_takingAdmin k r t i port f e).wake_eq hentering hstate
  unfold Engine.receive
  rw [if_neg (by simp [htype, hl]), hc]
  dsimp only
  rw [Engine.sequenceFrame_admin htype halive, if_pos rfl, show sequenced ftAdmin = true from rfl, if_pos rfl]
  dsimp only
  rw [← Engine.takingAdmin, hawake]

/-! ### The responder of a setup -/

/-- The session of a responder that has taken an OPEN and has not drawn NONCE_R yet (R207, R330). -/
def Session.opened (port : Nat) (f : Frame) (v : Session) : Session :=
  { v with
    state := if v.state = .keyed then .keyed else .opening
    initiator := false, newId := f.sessionId, newNonceI := f.bodyLo, newNonceR := 0, newKey := 0, newSetup := true, openBeats := 0,
    drawWait := some port }

/-- The session of a setup once NONCE_R and the key that it gives are known (R207). -/
def Session.agreed (nonceR key : BitVec 256) (v : Session) : Session := { v with newNonceR := nonceR, newKey := key }

/-- The same at the responder, which waits for no draw any more. -/
def Session.answered (nonceR key : BitVec 256) (v : Session) : Session := { v.agreed nonceR key with drawWait := Option.none }

section
variable {r : Regs} {t i p : Nat} {e : Engine}

theorem Engine.answerOpen_waits (h : e.mayDraw = false) : e.answerOpen r t i = e := by
  unfold Engine.answerOpen
  dsimp only
  split
  · rw [h, if_pos (by decide)]
  · rfl

/-- The ACCEPT of an OPEN whose NONCE_R may be drawn (R207, R330). -/
theorem Engine.answerOpen_sends {kp : BitVec 256} (hkey : (e.tenant t).pollenKey = some kp) (hwait : (e.sess t i).drawWait = some p)
    (hdraw : e.mayDraw = true) (hcan : e.canSend r = true) :
    let key := sessionKey kp (e.sess t i).newNonceI e.noise256 (r.peerId t i) r.self (e.sess t i).newId
    ∃ g, e.answerOpen r t i = (e.drawn.setSess t i ((e.sess t i).answered e.noise256 key)).framed p g ∧ g.type = ftAccept ∧
      g.sessionId = (e.sess t i).newId ∧ g.bodyLo = e.noise256 ∧ Sound key g := by
  intro key
  obtain ⟨g, hsends, htype, hid, hbody, hsound⟩ := Engine.sendSetup_sends (e := e.drawn.setSess t i ((e.sess t i).answered e.noise256 key)) hcan
    t i p ftAccept (bodyOf e.noise256 (BitVec.ofNat 32 (r.reported t i))) (e.sess t i).newId key
  refine ⟨g, ?_, htype, hid, ?_, hsound⟩
  · unfold Engine.answerOpen
    dsimp only
    rw [hkey, hwait]
    dsimp only
    rw [hdraw, if_neg (by decide)]
    exact hsends
  · rw [Frame.bodyLo, hbody, bodyLo_bodyOf]

/-- The answer to an OPEN that has just been taken: the session in use stays, and the setup is the one that the OPEN names (R207, R208). -/
theorem Engine.answerOpen_opened {kp : BitVec 256} {f : Frame} (hkey : (e.tenant t).pollenKey = some kp) (hdraw : e.mayDraw = true)
    (hcan : e.canSend r = true) :
    ∃ d g, (e.setSess t i ((e.sess t i).opened p f)).answerOpen r t i = d ∧ d.out = e.out ++ [.frame p g] ∧ g.type = ftAccept ∧
      g.sessionId = f.sessionId ∧
      let v := d.sess t i
      v.newSetup = true ∧ v.newId = f.sessionId ∧ v.newNonceI = f.bodyLo ∧ g.bodyLo = v.newNonceR ∧ Sound v.newKey g ∧
        v.newKey = sessionKey kp f.bodyLo v.newNonceR (r.peerId t i) r.self f.sessionId ∧ v.key = (e.sess t i).key := by
  have hopened := Engine.sess_setSess_same t i ((e.sess t i).opened p f) e
  obtain ⟨g, hsends, htype, hid, hbody, hsound⟩ := Engine.answerOpen_sends (r := r) (t := t) (i := i) (p := p)
    (e := e.setSess t i ((e.sess t i).opened p f)) hkey (by rw [hopened]; rfl) hdraw hcan
  rw [hopened] at hsends hid hsound
  refine ⟨_, g, hsends, by rw [Engine.framed_out, Engine.setSess_out, Engine.drawn_out, Engine.setSess_out], htype, hid, ?_⟩
  rw [Engine.framed_sess, Engine.sess_setSess_same]
  exact ⟨rfl, rfl, rfl, hbody, hsound, rfl, rfl⟩

end

end Sys2Proof.Machine


/-!
PROOFS. The rows of the received frames, and O52.
-/

namespace Sys2Proof

open Machine

/-! ### Frames that are dropped -/

section
variable {s : State} {port : Nat} {f : Frame} (hport : s.kit.hasPort port = true) (hl : s.eng.listening port = true)

include hport

theorem exec_frame_ignored : ∀ p ∈ frameCommands port f, f.type ≠ p.1 ∨ s.eng.listening port = false → exec p.2 s = .next s := by
  intro p hp h
  obtain ⟨act, hexec⟩ := exec_frameCommands hport f p hp
  rw [hexec, Engine.receive_ignored h]
  rfl

include hl

theorem exec_droppedFrame_none : exec (.droppedFrame port none) s = .next (withEng s (s.eng.dropFrame s.kit s.regs .crc)) := by
  show execDroppedFrame port none s = _
  unfold execDroppedFrame
  rw [hport, State.needs_true, State.eff_eq, hl]
  rfl

theorem exec_droppedFrame_some {d : Drop} (hc : s.eng.checkFrame s.regs port f = .inr d) :
    exec (.droppedFrame port (some f)) s = .next (withEng s (s.eng.dropFrame s.kit s.regs d)) := by
  show execDroppedFrame port (some f) s = _
  unfold execDroppedFrame
  rw [hport, State.needs_true, State.eff_eq, hl]
  dsimp only
  rw [hc]
  rfl

/-- A frame that fails a check is dropped by whichever row it comes to (R204). -/
theorem exec_frame_dropped {d : Drop} (hc : s.eng.checkFrame s.regs port f = .inr d) :
    ∀ p ∈ (0, Instr.droppedFrame port (some f)) :: frameCommands port f, p.1 = 0 ∨ f.type = p.1 →
      exec p.2 s = .next (withEng s (s.eng.dropFrame s.kit s.regs d)) := by
  intro p hp htype
  rcases List.mem_cons.mp hp with rfl | hp
  · exact exec_droppedFrame_some hport hl hc
  · obtain ⟨act, hexec⟩ := exec_frameCommands hport f p hp
    rw [hexec, Engine.receive_dropped (htype.resolve_left (frameCommands_type_ne_zero port f p hp)) hl hc]

end

theorem crcDrop_counted (s : State) : ((withEng s (s.eng.dropFrame s.kit s.regs .crc)).eng.counter Ctr.crcDrops = s.eng.counter Ctr.crcDrops + 1) ∧
    Only [.count] s (withEng s (s.eng.dropFrame s.kit s.regs .crc)) :=
  ⟨Engine.counter_bump_same .., only_of_same (same_bump ..)⟩

/-- The 65th stranger of a port is counted and raises 0x28 (R205, R343). -/
theorem strangerDrop_raises {s : State} {p : Nat} (hmet : s.eng.strangersAt p = 64) (hfirst : ∀ x ∈ s.eng.pollen.strangers, x.2 ≤ 64) :
    let t := withEng s (s.eng.dropFrame s.kit s.regs (.stranger p))
    Raised s t 0x28 none ∧ t.eng.counter Ctr.strangerDrops = s.eng.counter Ctr.strangerDrops + 1 ∧
      Only [.pollen, .fox, .count, .draws, .cycle] s t := by
  rw [Engine.dropFrame_stranger_raises hmet hfirst]
  refine ⟨?_, ?_, only_of_same (((same_strangerMet p s.eng).mono (by decide)).trans ((same_raise ..).mono (by decide)))⟩
  · exact raised_of_agrees (s' := withEng s (s.eng.strangerMet p)) rfl rfl rfl (Engine.counter_strangerMet (by decide) p s.eng)
      (raised_raise (s := withEng s (s.eng.strangerMet p)) (foxImplemented_stranger s.kit) rfl rfl rfl none)
  · exact (Engine.raise_counter _ _ _ (by decide) (by decide) ..).trans (Engine.strangerDrops_strangerMet p s.eng)

/-! ### Frames that are carried out -/

/-- A frame of the session in slot `i` of tenant `t` that passes checks 1 to 6 of R204. -/
structure FrameOf (s : State) (port t i : Nat) (f : Frame) : Prop where
  hasPort : s.kit.hasPort port = true
  listening : s.eng.listening port = true
  passes : s.eng.checkFrame s.regs port f = .inl (t, i)

/-- The engine in which the row of the frame begins. -/
def begun (s : State) (port t i : Nat) (f : Frame) : Engine := s.eng.taking s.kit s.regs t i port f

theorem linkMoved_begun (s : State) (port t i : Nat) (f : Frame) : LinkMoved s.eng (begun s port t i f) := linkMoved_taking ..

section
variable {s : State} {port t i : Nat} {f : Frame} (h : FrameOf s port t i f)

theorem begun_tenant (n : Nat) : (begun s port t i f).tenant n = s.eng.tenant n :=
  congrArg (tabGet (fun _ => Tenant.none) n) (linkMoved_begun s port t i f).tenants

include h

theorem FrameOf.frameIn {ty : BitVec 8} (htype : f.type = ty) (hseq : sequenced ty = false) (act : Kit → Regs → Nat → Nat → Engine → Engine) :
    s.frameIn ty port f act = .next (withEng s (act s.kit s.regs t i (begun s port t i f))) := by
  rw [State.frameIn_eq h.hasPort, Engine.receive_taking htype hseq h.listening h.passes]
  rfl

theorem FrameOf.heard : Heard s t i port f (begun s port t i f) := heard_taking (Engine.checkFrame_slot h.passes) f

theorem FrameOf.state_begun : ((begun s port t i f).sess t i).state = (s.eng.sess t i).state := by
  obtain ⟨-, -, hstate, -⟩ := h.heard
  exact hstate

theorem FrameOf.key_begun : ((begun s port t i f).sess t i).key = (s.eng.sess t i).key := by
  obtain ⟨-, -, -, hkey, -⟩ := h.heard
  exact hkey

theorem FrameOf.live_begun : ((begun s port t i f).sess t i).live = (s.eng.sess t i).live :=
  Engine.live_taking s.kit s.regs t port f s.eng (Engine.checkFrame_slot h.passes)

theorem FrameOf.canSend (hself : s.regs.self ≠ 0xFFFF) : (begun s port t i f).canSend s.regs = true := by
  have hlisten := h.listening
  simp only [Engine.listening, Bool.and_eq_true, bne_iff_ne] at hlisten
  rw [Engine.canSend_iff, (linkMoved_begun s port t i f).power]
  exact ⟨hlisten.1.2, hself, hlisten.2⟩

theorem FrameOf.ack (htype : f.type = ftAck) :
    exec (.ack port f) s = .next (withEng s ((begun s port t i f).servePort s.kit s.regs t i port)) := h.frameIn htype rfl _

theorem FrameOf.credit (htype : f.type = ftCredit) :
    exec (.credit port f) s = .next (withEng s ((begun s port t i f).servePort s.kit s.regs t i port)) := h.frameIn htype rfl _

theorem FrameOf.nak (htype : f.type = ftNak) : exec (.nak port f) s =
    .next (withEng s (((begun s port t i f).onPort t i port (PortSess.goBack f.ackSeq)).servePort s.kit s.regs t i port)) :=
  h.frameIn htype rfl _

theorem FrameOf.close (htype : f.type = ftClose) :
    exec (.close port f) s = .next (withEng s ((begun s port t i f).removeSess s.kit s.regs t i 0x34 false)) := h.frameIn htype rfl _

theorem FrameOf.probe (htype : f.type = ftProbe) : exec (.probe port f) s = .next (withEng s
    ((begun s port t i f).sendControl s.regs t i port ftProbeReply (bodyOf 0 (BitVec.ofNat 32 (s.regs.reported t i))))) :=
  h.frameIn htype rfl _

/-- A PROBE_REPLY on a port that is live brings SLOT_PAGES (R222). -/
theorem FrameOf.probeReply (htype : f.type = ftProbeReply) (hlive : (s.eng.sess t i).live.getLsbD port = true) :
    exec (.probeReply port f) s = .next (withEng s (((begun s port t i f).setSess t i
      { (begun s port t i f).sess t i with pages := f.bodyHi.toNat % 2 ^ 28 }).servePort s.kit s.regs t i port)) := by
  have hbegun : ((begun s port t i f).sess t i).live.getLsbD port = true := by
    rwa [h.live_begun]
  refine (h.frameIn htype rfl _).trans ?_
  dsimp only
  rw [hbegun, Bool.true_or, if_pos rfl]

/-- An OPEN that this engine takes waits for the draw of its NONCE_R (R207, R330). -/
theorem FrameOf.open_waiting {kp : BitVec 256} (htype : f.type = ftOpen) (hkey : (s.eng.tenant t).pollenKey = some kp)
    (hinit : initiates s.regs t i = false) : exec (.open_ port f) s = .next (withEng s
      (((begun s port t i f).setSess t i (((begun s port t i f).sess t i).opened port f)).answerOpen s.regs t i)) := by
  refine (h.frameIn htype rfl _).trans ?_
  rw [if_neg (by simp [begun_tenant, hkey, hinit])]
  rfl

theorem FrameOf.open_answered {kp : BitVec 256} (htype : f.type = ftOpen) (hkey : (s.eng.tenant t).pollenKey = some kp)
    (hinit : initiates s.regs t i = false) (hnoise : s.eng.units.noise = .healthy) (hself : s.regs.self ≠ 0xFFFF) :
    ∃ u g, exec (.open_ port f) s = .next u ∧ u.eng.out = (begun s port t i f).out ++ [.frame port g] ∧ g.type = ftAccept ∧
      g.sessionId = f.sessionId ∧
      let v := u.eng.sess t i
      v.newSetup = true ∧ v.newId = f.sessionId ∧ v.newNonceI = f.bodyLo ∧ g.bodyLo = v.newNonceR ∧ Sound v.newKey g ∧
        v.newKey = sessionKey kp f.bodyLo v.newNonceR (s.regs.peerId t i) s.regs.self f.sessionId ∧ v.key = (s.eng.sess t i).key := by
  have hkey' : ((begun s port t i f).tenant t).pollenKey = some kp := by rw [begun_tenant, hkey]
  have hdraw : (begun s port t i f).mayDraw = true := by rw [(linkMoved_begun s port t i f).mayDraw, Engine.mayDraw, hnoise]; rfl
  obtain ⟨d, g, hanswer, hout, htype', hid, hsetup, hid', hnonce, hbody, hsound, hnew, hold⟩ :=
    Engine.answerOpen_opened (p := port) (f := f) hkey' hdraw (h.canSend hself)
  exact ⟨withEng s d, g, by rw [h.open_waiting htype hkey hinit, hanswer], hout, htype', hid, hsetup, hid', hnonce, hbody, hsound, hnew,
    hold.trans h.key_begun⟩

theorem FrameOf.open_held {kp : BitVec 256} (htype : f.type = ftOpen) (hkey : (s.eng.tenant t).pollenKey = some kp)
    (hinit : initiates s.regs t i = false) (hnoise : s.eng.units.noise ≠ .healthy) :
    ∃ u, exec (.open_ port f) s = .next u ∧ u.eng.out = (begun s port t i f).out ∧ (u.eng.sess t i).newSetup = true ∧
      (u.eng.sess t i).drawWait = some port ∧ (u.eng.sess t i).key = (s.eng.sess t i).key := by
  have hdraw : (begun s port t i f).mayDraw = false := by
    rw [(linkMoved_begun s port t i f).mayDraw]
    exact beq_false_of_ne hnoise
  refine ⟨_, (h.open_waiting htype hkey hinit).trans (by rw [Engine.answerOpen_waits (by exact hdraw)]), rfl, ?_⟩
  rw [withEng_eng, Engine.sess_setSess_same]
  exact ⟨rfl, rfl, h.key_begun⟩

/-- The ACCEPT of the setup that this engine initiated makes the session KEYED, and CONFIRM goes out (R207). -/
theorem FrameOf.accept {kp : BitVec 256} (htype : f.type = ftAccept) (hkey : (s.eng.tenant t).pollenKey = some kp)
    (hsetup : ((begun s port t i f).sess t i).newSetup = true) (hinit : initiates s.regs t i = true) :
    ∃ v, v.state = .keyed ∧ v.id = ((begun s port t i f).sess t i).newId ∧ v.newSetup = false ∧ v.ports = [] ∧
      v.key = sessionKey kp ((begun s port t i f).sess t i).newNonceI f.bodyLo s.regs.self (s.regs.peerId t i)
        ((begun s port t i f).sess t i).newId ∧
      exec (.accept port f) s = .next (withEng s
        ((((begun s port t i f).setSess t i v).sendSetup s.regs t i port ftConfirm 0 v.id v.key).serveSess s.kit s.regs t i)) := by
  refine ⟨(((begun s port t i f).sess t i).agreed f.bodyLo (sessionKey kp ((begun s port t i f).sess t i).newNonceI f.bodyLo s.regs.self
      (s.regs.peerId t i) ((begun s port t i f).sess t i).newId)).install ((begun s port t i f).upMask (s.regs.peerMask t i))
      (f.bodyHi.toNat % 2 ^ 28), rfl, rfl, rfl, rfl, rfl, (h.frameIn htype rfl _).trans ?_⟩
  dsimp only
  rw [begun_tenant, hkey]
  dsimp only
  rw [hsetup, hinit, if_neg (by decide)]
  rfl

/-- The CONFIRM of the setup that this engine answered makes the session KEYED (R207). -/
theorem FrameOf.confirm (htype : f.type = ftConfirm) (hsetup : ((begun s port t i f).sess t i).newSetup = true)
    (hwait : ((begun s port t i f).sess t i).drawWait = none) (hinit : initiates s.regs t i = false) (hstate : (s.eng.sess t i).state ≠ .keyed) :
    ∃ v, v.state = .keyed ∧ v.id = ((begun s port t i f).sess t i).newId ∧ v.key = ((begun s port t i f).sess t i).newKey ∧
      v.newSetup = false ∧ v.ports = [] ∧
      exec (.confirm port f) s = .next (withEng s (((begun s port t i f).setSess t i v).serveSess s.kit s.regs t i)) := by
  have hunkeyed : ((begun s port t i f).sess t i).state ≠ .keyed := by rwa [h.state_begun]
  refine ⟨((begun s port t i f).sess t i).install ((begun s port t i f).upMask (s.regs.peerMask t i)) ((begun s port t i f).sess t i).pages,
    rfl, rfl, rfl, rfl, rfl, (h.frameIn htype rfl _).trans ?_⟩
  dsimp only
  rw [hsetup, hwait, hinit, if_neg (by decide), if_neg hunkeyed]

/-- An ADMIN frame in sequence runs the plan of its tenant (R226). -/
theorem FrameOf.admin (htype : f.type = ftAdmin) (hseq : f.seq = ((s.eng.sess t i).port port).expect) (hstate : s.eng.power.state = 0)
    (hentering : s.eng.power.entering = false) :
    ∃ e, ((e.sess t i).port port).expect = f.seq + 1 ∧ e.cut = s.eng.cut ∧ e.tenants = s.eng.tenants ∧
      e.counter Ctr.framesRx = s.eng.counter Ctr.framesRx + 1 ∧ exec (.admin port f) s = .next (withEng s
        (if f.body.extractLsb' 0 8 = 1 ∧ s.regs.planTenant = BitVec.ofNat 4 t then e.notice s.kit s.regs 2 else e)) := by
  have hmoved := linkMoved_takingAdmin s.kit s.regs t i port f s.eng
  refine ⟨s.eng.takingAdmin s.kit s.regs t i port f, ?_, hmoved.cut, hmoved.tenants, Engine.framesRx_takingAdmin .., ?_⟩
  · rw [hseq]
    exact Engine.expects_takingAdmin ..
  · refine (State.frameIn_eq h.hasPort ..).trans ?_
    rw [Engine.receive_admin htype h.listening h.passes hseq hstate hentering]

end

/-- Settles O52: a row ignores, drops or accepts its frame, and an accepted frame is carried out by the row of its type. -/
theorem framesAreCheckedAndCarriedOut : Obligations.FramesAreCheckedAndCarriedOut := by
  unfold Obligations.FramesAreCheckedAndCarriedOut
  intro s port f hport
  refine ⟨exec_frame_ignored hport, fun hl => ⟨?framing, ?crc, fun d hc => exec_frame_dropped hport hl hc, ?strangers, ?accepted⟩⟩
  case framing => exact ⟨_, exec_droppedFrame_none hport hl, crcDrop_counted s⟩
  case crc =>
    intro hcrc p hp htype
    exact ⟨_, exec_frame_dropped hport hl (Engine.checkFrame_crc hcrc) p hp htype, crcDrop_counted s⟩
  case strangers =>
    intro n hmet hfirst hc
    obtain rfl := Engine.checkFrame_stranger_port hc
    exact ⟨rfl, _, exec_droppedFrame_some hport hl hc, strangerDrop_raises hmet hfirst⟩
  case accepted =>
    intro t i hc
    have h : FrameOf s port t i f := ⟨hport, hl, hc⟩
    exact ⟨⟨_, h.heard, h.ack, h.credit, h.nak, h.close, h.probe, h.probeReply, fun kp => h.open_answered, fun kp => h.open_held,
      fun kp => h.accept, h.confirm⟩, h.admin⟩

end Sys2Proof


/-!
PROOFS. Session timers and port changes (R207, R209, R212 to R214, R222 to R225), and O53.
-/

namespace Sys2Proof.Machine

/-! ### A setup starts -/

/-- The session once this engine has started a setup (R207). -/
def Session.setupStarted (id : Word) (nonce : BitVec 256) (v : Session) : Session :=
  { v with
    state := if v.state = .keyed then .keyed else .opening
    initiator := true, newId := id, newNonceI := nonce, newNonceR := 0, newKey := 0, newSetup := true, openBeats := 0, drawWait := Option.none }

section
variable {r : Regs} {t i p : Nat} {e : Engine}

theorem Engine.canSend_of_maySetup (h : e.maySetup r t i = true) : e.canSend r = true := by
  simp only [Engine.maySetup, Bool.and_eq_true] at h
  exact h.1.1.1

/-- OPEN goes out with the values just drawn (R207, R330). -/
theorem Engine.startSetup_sends {kp : BitVec 256} (hkey : (e.tenant t).pollenKey = some kp)
    (hport : lowestPort (e.upMask (r.peerMask t i)) = some p) (hdraw : e.mayDraw = true) (hcan : e.canSend r = true) :
    ∃ id g, e.startSetup r t i = (e.drawn.drawn.setSess t i ((e.sess t i).setupStarted id e.noise256)).framed p g ∧ g.type = ftOpen ∧
      g.sessionId = id ∧ g.bodyLo = e.noise256 ∧ Sound kp g := by
  let id : Word := (Config.noise e.drawn.draws).setWidth 32
  obtain ⟨g, hsends, htype, hid, hbody, hsound⟩ := Engine.sendSetup_sends
    (e := e.drawn.drawn.setSess t i ((e.sess t i).setupStarted id e.noise256)) hcan t i p ftOpen (bodyOf e.noise256 (e.tenant t).keyId) id kp
  refine ⟨id, g, ?_, htype, hid, by rw [Frame.bodyLo, hbody, bodyLo_bodyOf], hsound⟩
  unfold Engine.startSetup
  rw [hkey, hport]
  dsimp only
  rw [hdraw, if_neg (by decide)]
  exact hsends

theorem same_drawn_twice : Same [.draws] e e.drawn.drawn := by simp [Same]

theorem same_setSess (v : Session) : Same [.pollen] e (e.setSess t i v) := by simp [Same, Engine.setSess]

/-! ### PROBE on several ports -/

/-- One PROBE goes out on each port of a list (R222). -/
theorem Engine.probes_send (r : Regs) (t i : Nat) (ps : List Nat) {e : Engine} (hcan : e.canSend r = true) :
    let d := e.forEach ps fun p e => e.sendControl r t i p ftProbe 0
    ∃ gs, d.out = e.out ++ gs ∧ Same [.pollen, .count, .out] e d ∧ gs.length = ps.length ∧
      ∀ o ∈ gs, ∃ p g, o = .frame p g ∧ g.type = ftProbe ∧ p ∈ ps := by
  induction ps generalizing e with
  | nil => exact ⟨[], (List.append_nil _).symm, Same.refl .., rfl, fun o ho => absurd ho List.not_mem_nil⟩
  | cons p ps ih =>
    obtain ⟨g, hsends, htype, -⟩ := Engine.sendControl_sends hcan t i p ftProbe 0
    have hcan' : (e.sendControl r t i p ftProbe 0).canSend r = true := by rw [hsends]; exact hcan
    obtain ⟨gs, hout, hsame, hlen, hall⟩ := ih hcan'
    refine ⟨.frame p g :: gs, ?_, ?_, congrArg (· + 1) hlen, fun o ho => ?_⟩
    · exact hout.trans (by rw [hsends]; exact List.append_assoc ..)
    · exact Same.trans (by rw [hsends]; exact same_framed_onPort ..) hsame
    · rcases List.mem_cons.mp ho with rfl | ho
      · exact ⟨p, g, rfl, htype, List.mem_cons_self⟩
      · obtain ⟨q, g', rfl, htype', hq⟩ := hall o ho
        exact ⟨q, g', rfl, htype', List.mem_cons_of_mem _ hq⟩

theorem Engine.sess_removeSess (k : Kit) (code : Code) (lost : Bool) : (e.removeSess k r t i code lost).sess t i = Session.none :=
  Engine.sess_setSess_same ..

end

end Sys2Proof.Machine

namespace Sys2Proof

open Machine

/-! ### Setup, rekey -/

section
variable {s : State} {tenant : TenantNo} {slot : BitVec 4} {c : Instr} (hmay : s.eng.maySetup s.regs tenant.toNat slot.toNat = true)
  (hc : (c = .sessionOpen tenant slot ∧ (s.eng.sess tenant.toNat slot.toNat).state = .none) ∨
    (c = .openRetry tenant slot ∧ (s.eng.sess tenant.toNat slot.toNat).newSetup = true ∧ 64 ≤ (s.eng.sess tenant.toNat slot.toNat).openBeats))

include hmay hc

/-- The two rows that start a setup do so (R207). -/
theorem exec_setup_starts : exec c s = .next (withEng s (s.eng.startSetup s.regs tenant.toNat slot.toNat)) := by
  rcases hc with ⟨rfl, hnone⟩ | ⟨rfl, hsetup, hbeats⟩
  · show execSessionOpen tenant slot s = _
    unfold execSessionOpen
    rw [State.eff_eq]
    dsimp only
    rw [hmay, hnone, if_pos (by decide)]
    rfl
  · show execOpenRetry tenant slot s = _
    unfold execOpenRetry
    rw [State.eff_eq]
    dsimp only
    rw [hmay, hsetup, decide_eq_true hbeats, if_pos (by decide)]
    rfl

theorem exec_setup_opens {kp : BitVec 256} {p : Nat} (hkey : (s.eng.tenant tenant.toNat).pollenKey = some kp)
    (hport : lowestPort (s.eng.upMask (s.regs.peerMask tenant.toNat slot.toNat)) = some p) (hnoise : s.eng.units.noise = .healthy) :
    ∃ u g, exec c s = .next u ∧ u.eng.out = s.eng.out ++ [.frame p g] ∧ g.type = ftOpen ∧ Sound kp g ∧
      (let v := s.eng.sess tenant.toNat slot.toNat
       let w := u.eng.sess tenant.toNat slot.toNat
       w.newSetup = true ∧ w.initiator = true ∧ w.openBeats = 0 ∧ g.sessionId = w.newId ∧ g.bodyLo = w.newNonceI ∧ w.key = v.key ∧
         w.state = (if v.state = .keyed then .keyed else .opening)) ∧
      Only [.pollen, .count, .out, .draws] s u := by
  obtain ⟨id, g, hsends, htype, hid, hbody, hsound⟩ :=
    Engine.startSetup_sends hkey hport (by rw [Engine.mayDraw, hnoise]; rfl) (Engine.canSend_of_maySetup hmay)
  refine ⟨_, g, (exec_setup_starts hmay hc).trans (congrArg (fun e => Host.Outcome.next (withEng s e)) hsends), Engine.framed_out .., htype, hsound,
    ?_, only_of_same ?_⟩
  · rw [withEng_eng, Engine.framed_sess, Engine.sess_setSess_same]
    exact ⟨rfl, rfl, rfl, hid, hbody, rfl, rfl⟩
  · exact ((same_drawn_twice.mono (by decide)).trans ((same_setSess _).mono (by decide))).trans ((same_framed ..).mono (by decide))

end

theorem exec_sessionRekey_high {s : State} {tenant : TenantNo} {slot : BitVec 4} (hkeyed : (s.eng.sess tenant.toNat slot.toNat).state = .keyed)
    (hhigh : (s.eng.sess tenant.toNat slot.toNat).seqHigh = true) :
    let v := s.eng.sess tenant.toNat slot.toNat
    let e := s.eng.setSess tenant.toNat slot.toNat { v with rekey := true }
    exec (.sessionRekey tenant slot) s = .next (withEng s
      (if e.sessIdle tenant.toNat slot.toNat && e.maySetup s.regs tenant.toNat slot.toNat && !v.newSetup
       then e.startSetup s.regs tenant.toNat slot.toNat else e)) := by
  show execSessionRekey tenant slot s = _
  unfold execSessionRekey
  rw [State.eff_eq]
  dsimp only
  rw [if_neg (by simp [hkeyed, hhigh])]
  rfl

/-! ### Timers of a session's port -/

section
variable {s : State} {tenant : TenantNo} {slot : BitVec 4} {port : Nat} (hport : s.kit.hasPort port = true)

include hport

theorem exec_retransmit {x : TxFrame} {rest : List TxFrame}
    (hwaits : ((s.eng.sess tenant.toNat slot.toNat).port port).unacked = x :: rest) :
    exec (.retransmit tenant slot port) s = .next (withEng s ((s.eng.onPort tenant.toNat slot.toNat port
      (PortSess.goBack (x.seq.getD 0))).servePort s.kit s.regs tenant.toNat slot.toNat port)) := by
  show execRetransmit tenant slot port s = _
  unfold execRetransmit
  rw [hport, State.needs_true, State.eff_eq]
  dsimp only
  rw [hwaits]
  rfl

/-- The ACK of ACK_TIMER (R212). -/
theorem exec_ackTimer (howed : 0 < ((s.eng.sess tenant.toNat slot.toNat).port port).owed) (hcan : s.eng.canSend s.regs = true) :
    let v := s.eng.sess tenant.toNat slot.toNat
    ∃ u g, exec (.ackTimer tenant slot port) s = .next u ∧ u.eng.out = s.eng.out ++ [.frame port g] ∧ g.type = ftAck ∧
      g.ackSeq = (v.port port).expect ∧ Sound v.key g ∧
      (u.eng.sess tenant.toNat slot.toNat).port port = { v.port port with owed := 0 } ∧ Only [.pollen, .count, .out] s u := by
  obtain ⟨g, hsends, htype, hack, -, hsound⟩ := Engine.sendControl_sends hcan tenant.toNat slot.toNat port ftAck 0
  have hexec : exec (.ackTimer tenant slot port) s =
      .next (withEng s (s.eng.sendControl s.regs tenant.toNat slot.toNat port ftAck 0)) := by
    show execAckTimer tenant slot port s = _
    unfold execAckTimer
    rw [hport, State.needs_true, State.eff_eq, if_pos howed]
    rfl
  rw [hsends] at hexec
  refine ⟨_, g, hexec, Engine.framed_out .., htype, hack, hsound, ?_, only_of_same (same_framed_onPort ..)⟩
  rw [withEng_eng, Engine.port_onPort, Engine.framed_sess]

/-- The CREDIT of a further 64 lines (R214). -/
theorem exec_creditGrant (hkeyed : (s.eng.sess tenant.toNat slot.toNat).state = .keyed)
    (hlive : (s.eng.sess tenant.toNat slot.toNat).live.getLsbD port = true) (hgranted : s.eng.granted port + 64 ≤ s.regs.inboundLines)
    (hpromised : s.eng.promised s.kit + 64 ≤ Part.size .vault)
    (hturn : (s.eng.creditNext port).getD (16 * tenant.toNat + slot.toNat) = 16 * tenant.toNat + slot.toNat)
    (hcan : s.eng.canSend s.regs = true) :
    let v := s.eng.sess tenant.toNat slot.toNat
    ∃ u g, exec (.creditGrant tenant slot port) s = .next u ∧ u.eng.out = s.eng.out ++ [.frame port g] ∧ g.type = ftCredit ∧
      g.creditLimit = (v.port port).limitOut + 64 ∧ Sound v.key g ∧
      (u.eng.sess tenant.toNat slot.toNat).port port = { v.port port with limitOut := (v.port port).limitOut + 64, owed := 0 } ∧
      Only [.pollen, .count, .out] s u := by
  let turned : Engine := { s.eng with pollen := { s.eng.pollen with
    creditTurn := tabPut (fun _ => 255) port (16 * tenant.toNat + slot.toNat) s.eng.pollen.creditTurn } }
  let granted : Engine := turned.onPort tenant.toNat slot.toNat port fun ps => { ps with limitOut := ps.limitOut + 64 }
  have hkey : (granted.sess tenant.toNat slot.toNat).key = (s.eng.sess tenant.toNat slot.toNat).key := by
    rw [Engine.sess_onPort]
    rfl
  have hps : (granted.sess tenant.toNat slot.toNat).port port = { (s.eng.sess tenant.toNat slot.toNat).port port with
      limitOut := ((s.eng.sess tenant.toNat slot.toNat).port port).limitOut + 64 } := Engine.port_onPort ..
  have hturned : Same [.pollen, .count, .out] s.eng turned := by simp [Same, turned]
  obtain ⟨g, hsends, htype, -, hlimit, hsound⟩ :=
    Engine.sendControl_sends (r := s.regs) (e := granted) hcan tenant.toNat slot.toNat port ftCredit 0
  rw [hkey] at hsound
  rw [hps] at hlimit
  have hexec : exec (.creditGrant tenant slot port) s =
      .next (withEng s (granted.sendControl s.regs tenant.toNat slot.toNat port ftCredit 0)) := by
    show execCreditGrant tenant slot port s = _
    unfold execCreditGrant
    rw [hport, State.needs_true, State.eff_eq]
    dsimp only
    rw [if_pos ⟨hkeyed, hlive, hgranted, hpromised, hturn⟩]
    rfl
  rw [hsends] at hexec
  refine ⟨_, g, hexec, Engine.framed_out .., htype, hlimit, hsound, ?_, only_of_same ?_⟩
  · rw [withEng_eng, Engine.port_onPort, Engine.framed_sess, hps]
  · exact (hturned.trans ((same_onPort ..).mono (by decide))).trans (same_framed_onPort ..)

end

theorem withEng_regs (s : State) (e : Engine) : (withEng s e).regs = s.regs := rfl

/-! ### A peer that is silent -/

section
variable {s : State} {tenant : TenantNo} {slot : BitVec 4}

theorem exec_probeSend (hkeyed : (s.eng.sess tenant.toNat slot.toNat).state = .keyed)
    (hsilent : s.regs.probeInterval ≤ (s.eng.sess tenant.toNat slot.toNat).sinceRx) (hcan : s.eng.canSend s.regs = true) :
    let up := s.eng.upMask (s.regs.peerMask tenant.toNat slot.toNat)
    ∃ u gs, exec (.probeSend tenant slot) s = .next u ∧ u.eng.out = s.eng.out ++ gs ∧ Only [.pollen, .count, .out] s u ∧
      gs.length = ((List.range 48).filter fun p => up.getLsbD p).length ∧
      ∀ o ∈ gs, ∃ p g, o = .frame p g ∧ g.type = ftProbe ∧ up.getLsbD p = true := by
  intro up
  obtain ⟨gs, hout, hsame, hlen, hall⟩ :=
    Engine.probes_send s.regs tenant.toNat slot.toNat ((List.range 48).filter fun p => up.getLsbD p) hcan
  have hexec : exec (.probeSend tenant slot) s = .next (withEng s (s.eng.probe s.regs tenant.toNat slot.toNat)) := by
    show execProbeSend tenant slot s = _
    unfold execProbeSend
    rw [State.eff_eq]
    dsimp only
    rw [if_pos ⟨hkeyed, hsilent⟩]
    rfl
  refine ⟨_, gs, hexec, hout, only_of_same hsame, hlen, fun o ho => ?_⟩
  obtain ⟨p, g, rfl, htype, hp⟩ := hall o ho
  exact ⟨p, g, rfl, htype, (List.mem_filter.mp hp).2⟩

/-- A peer with one session is lost, and the session with it (R222, R224). -/
theorem exec_peerLost {x : Nat × Session} (hkeyed : (s.eng.sess tenant.toNat slot.toNat).state = .keyed)
    (hsilent : 4 * s.regs.probeInterval ≤ (s.eng.sess tenant.toNat slot.toNat).sinceRx)
    (hone : (s.eng.pollen.sess.filter fun y => s.regs.peerId (y.1 / 16) (y.1 % 16) == s.regs.peerId tenant.toNat slot.toNat) = [x])
    (hx : x.1 = 16 * tenant.toNat + slot.toNat) :
    ∃ u, exec (.peerLost tenant slot) s = .next u ∧ u.eng.sess tenant.toNat slot.toNat = Session.none ∧ u.regs = s.regs := by
  have hslot : slot.toNat < 16 := slot.isLt
  have ht : x.1 / 16 = tenant.toNat := by omega
  have hi : x.1 % 16 = slot.toNat := by omega
  have hexec : exec (.peerLost tenant slot) s =
      .next (withEng s (s.eng.removeSess s.kit s.regs tenant.toNat slot.toNat 0x34 true)) := by
    show execPeerLost tenant slot s = _
    unfold execPeerLost
    rw [State.eff_eq]
    dsimp only
    rw [if_neg (by simp [hkeyed, hsilent]), hone, ← ht, ← hi]
    rfl
  exact ⟨_, hexec, by rw [withEng_eng, Engine.sess_removeSess], withEng_regs ..⟩

end

/-! ### A port falls or rises -/

/-- The engine with `mask` for the ports that are up. -/
def portsUp (s : State) (mask : BitVec 48) : Engine := { s.eng with pollen := { s.eng.pollen with portUp := mask } }

section
variable {s : State} {port : Nat} (hport : s.kit.hasPort port = true)

include hport

theorem exec_lnkUpFall : exec (.lnkUpFall port) s = .next (withEng s ((portsUp s (s.eng.pollen.portUp &&& ~~~(1#48 <<< port))).forEach
    s.eng.pollen.sess fun x e => e.failPort s.kit s.regs (x.1 / 16) (x.1 % 16) port 0x31)) := by
  show execLnkUpFall port s = _
  unfold execLnkUpFall
  rw [hport]
  rfl

/-- The PROBEs that a rise sends go to the KEYED sessions (R223). -/
theorem exec_lnkUpRise {xs : List (Nat × Session)} (hkeyed : (s.eng.pollen.sess.filter fun y => y.2.state == .keyed) = xs) :
    exec (.lnkUpRise port) s = .next (withEng s ((portsUp s (s.eng.pollen.portUp ||| (1#48 <<< port))).forEach xs fun x e =>
      if (BitVec.ofNat 48 (s.regs.peerMask (x.1 / 16) (x.1 % 16))).getLsbD port
      then e.sendControl s.regs (x.1 / 16) (x.1 % 16) port ftProbe 0 else e)) := by
  show execLnkUpRise port s = _
  unfold execLnkUpRise
  rw [hport, State.needs_true, State.eff_eq]
  dsimp only
  rw [hkeyed]
  rfl

theorem exec_lnkUpRise_one {x : Nat × Session} (hkeyed : (s.eng.pollen.sess.filter fun y => y.2.state == .keyed) = [x])
    (hmask : (BitVec.ofNat 48 (s.regs.peerMask (x.1 / 16) (x.1 % 16))).getLsbD port = true) :
    exec (.lnkUpRise port) s = .next (withEng s ((portsUp s (s.eng.pollen.portUp ||| (1#48 <<< port))).sendControl s.regs
      (x.1 / 16) (x.1 % 16) port ftProbe 0)) := by
  rw [exec_lnkUpRise hport hkeyed]
  exact congrArg (fun e => Host.Outcome.next (withEng s e)) (if_pos hmask)

theorem exec_lnkUpRise_none (hnone : ∀ x ∈ s.eng.pollen.sess, x.2.state ≠ .keyed) :
    exec (.lnkUpRise port) s = .next (withEng s (portsUp s (s.eng.pollen.portUp ||| (1#48 <<< port)))) :=
  exec_lnkUpRise hport (xs := []) (List.filter_eq_nil_iff.mpr fun x hx => by simpa using hnone x hx)

end

theorem same_portsUp (s : State) (mask : BitVec 48) : Same [.pollen] s.eng (portsUp s mask) := by simp [Same, portsUp]

/-- Settles O53: each timer and each change of a port acts through the one operation that its row names. -/
theorem sessionTimersAndPortsAct : Obligations.SessionTimersAndPortsAct := by
  unfold Obligations.SessionTimersAndPortsAct
  intro s tenant slot t i v
  exact ⟨fun c kp p hmay hc => exec_setup_opens hmay hc, exec_sessionRekey_high, fun port x rest hport => exec_retransmit hport,
    fun port hport => exec_ackTimer hport, fun port hport => exec_creditGrant hport, exec_probeSend, fun x => exec_peerLost,
    fun port hport => ⟨exec_lnkUpFall hport, fun x => exec_lnkUpRise_one hport,
      fun hnone => ⟨_, exec_lnkUpRise_none hport hnone, only_of_same (same_portsUp ..), rfl⟩⟩⟩

end Sys2Proof

/-!
PROOFS. SPILL, REFILL and RESTORE start (R14, R227, R228, R238, R244, R245, R252, R257, R266, R327).
-/

namespace Sys2Proof.Machine

theorem Engine.ring_of_rings {a b : Engine} (h : b.rings = a.rings) (n : Nat) : b.ring n = a.ring n :=
  congrArg (fun v : Rings => tabGet (fun _ => Ring.fresh) n v.rings) h

/-! ### A stream is opened (R227, R257) -/

/-- Between `a` and `b` the stream `m` has been opened as `v` for a job of tenant `t`, behind the other jobs. -/
structure StreamOpened (a b : Engine) (t : TenantNo) (id : JobId) (m : Nat) (v : Stream) : Prop where
  held : b.stream m = some v
  others : ∀ i, i ≠ m → b.stream i = a.stream i
  jobs : b.rings.jobs = a.rings.jobs ++ [{ id := id, tenant := some t, kind := .stream m, spans := v.hostSpans }]
  ring : ∀ n, b.ring n = a.ring n
  same : Same [.rings, .streams] a b

/-- A stream takes the lowest free number (log 29). -/
theorem Engine.openStream_opened {m : Nat} {rest : List Nat} {e : Engine} (hm : e.freeNumbers 1 = m :: rest) (t : TenantNo) (id : JobId)
    (v : Stream) : StreamOpened e (e.openStream t id v) t id m v := by
  have hopen : e.openStream t id v = let a := (e.addJob { id := id, tenant := some t, kind := .stream m, spans := v.hostSpans }).setStream m v
      { a with streams := { a.streams with nextOrder := a.streams.nextOrder + 1 } } := by
    unfold Engine.openStream
    rw [hm]
    rfl
  rw [hopen]
  exact ⟨tabFind_set_same .., fun i hi => tabFind_set_ne hi .., rfl, fun _ => rfl, by simp [Same]⟩

/-! ### A restore is taken on (R244, R252, R257) -/

/-- The restore that is held once its plan is accepted: every entry waits. -/
def Engine.newRestore (t : TenantNo) (id : JobId) (addr n : Nat) (p : Plan) (gs : List Group) (e : Engine) : Restore :=
  { job := id, tenant := t, order := e.streams.nextOrder, numbers := e.freeNumbers n, groups := gs.map Group.data
    entries := p.entries.mapIdx fun i y => waitingEntry (addr + 64 + 128 * p.sources.length + 256 * i + 192) y
    commits := restoreCommits e.keys.uid gs, ending := false }

section
variable (t : TenantNo) (id : JobId) (addr n : Nat) (p : Plan) (gs : List Group) (e : Engine)

theorem Engine.newRestore_length : (e.newRestore t id addr n p gs).entries.length = p.entries.length := List.length_mapIdx

theorem Engine.newRestore_waiting : ∀ z ∈ (e.newRestore t id addr n p gs).entries, z.state = .waiting := by
  intro z hz
  obtain ⟨i, hi, rfl⟩ := List.mem_mapIdx.mp hz
  rfl

end

theorem same_planRead (k : Kit) (r : Regs) (t n : Nat) (e : Engine) : Same readGroups e (e.planRead k r t n) := by
  unfold Engine.planRead
  split
  · split
    · exact Same.refl _ e
    · exact same_readFront ..
  · split
    · exact Same.refl _ e
    · exact same_readBody ..

/-- An accepted restore reads the lines of the body that its plan rests on, and stands behind the other restores. -/
theorem Engine.beginRestore_held (k : Kit) (r : Regs) (t : TenantNo) (id : JobId) (addr len n : Nat) (p : Plan) (gs : List Group) (e : Engine) :
    ∃ a, Same readGroups e a ∧ e.beginRestore k r t id addr len n p gs =
      { a.addJob { id := id, tenant := some t, kind := .restore, spans := planSpans addr len p (gs.map Group.data) } with
        streams := { a.streams with restores := a.streams.restores ++ [e.newRestore t id addr n p gs], nextOrder := a.streams.nextOrder + 1 } } :=
  ⟨_, Same.forEach (fun m e => same_planRead k r t.toNat m e) (gs.flatMap fun g => g.bodyLines (r.slotLines t.toNat)).eraseDups e, rfl⟩

end Sys2Proof.Machine

namespace Sys2Proof

open Machine

/-! ### What a job of the streamer finds -/

/-- The row of a job type, when its ring may start a job of it (R277). -/
theorem Starts.eff {s : State} {n op : Nat} {x : Entry} (h : Starts s n op x) (f : Kit → Regs → Entry → Engine → Engine) :
    (s.eff fun k r e => e.startJob r n (fun x => x.opcode == op) (f k r)) = .next (withEng s (f s.kit s.regs x (taken s n))) := by
  rw [State.eff_eq, h.startJob (by simp [h.opcode])]
  rfl

section
variable (s : State) (n : Nat)

theorem taken_streams : (taken s n).streams = s.eng.streams := Engine.takeEntry_streams ..

theorem taken_freeNumbers (m : Nat) : (taken s n).freeNumbers m = s.eng.freeNumbers m := by
  unfold Engine.freeNumbers Engine.numberUsed
  rw [taken_streams]

theorem taken_newStream (t : TenantNo) (id : JobId) (spill : Bool) (d : Descr) (steps : List StepAt) (f : Fmt) (rate : Nat) (sealed : Bool)
    (epoch : Word) :
    (taken s n).newStream t id spill d steps f rate sealed epoch = s.eng.newStream t id spill d steps f rate sealed epoch := by
  unfold Engine.newStream Engine.fenceHolds
  rw [taken_streams]

end

/-! ### SPILL and REFILL -/

/-- A stream opened by an engine that has the streams as they were and only the entry taken from its ring. -/
theorem Machine.StreamOpened.frame {s : State} {n m : Nat} {e b : Engine} {t : TenantNo} {id : JobId} {v : Stream}
    (h : StreamOpened e b t id m v) (hstreams : e.streams = s.eng.streams) (hrings : e.rings = (taken s n).rings) :
    (∀ i, i ≠ m → b.stream i = s.eng.stream i) ∧
      b.rings.jobs = s.eng.rings.jobs ++ [{ id := id, tenant := some t, kind := .stream m, spans := v.hostSpans }] ∧
      Taken s (withEng s b) n := by
  refine ⟨fun i hi => (h.others i hi).trans (congrArg (fun v : Streams => tabFind i v.held) hstreams), ?jobs, ?entry⟩
  case jobs => rw [h.jobs, hrings, taken, Engine.takeEntry_jobs]
  case entry => exact congrArg Ring.ready ((h.ring n).trans ((Engine.ring_of_rings hrings n).trans (Engine.takeEntry_ring ..)))

/-- The steps of the recipe that a SPILL's descriptor names. -/
def spillSteps (s : State) (x : Entry) : List StepAt := ((s.eng.recipe (descrOf x.params).recipe).map fun c => c.steps).getD []

/-- The stream of a SPILL that nothing stands against (R227). -/
def spillStream (s : State) (n : Nat) (x : Entry) : Stream :=
  let sh := shapeOf (spillSteps s x)
  s.eng.newStream (s.regs.ringTenant n) (x.jobId n) true (descrOf x.params) (spillSteps s x) sh.fmt (sh.code.getD 0) (hasSeal (spillSteps s x))
    (s.eng.kept (s.regs.ringTenant n).toNat).xtsNext

/-- The engine with the entry of a SPILL taken and the tenant's next XTS epoch in use (R327). -/
def epochTaken (s : State) (n : Nat) : Engine :=
  let t := (s.regs.ringTenant n).toNat
  (taken s n).setKept t { s.eng.kept t with xtsNext := (s.eng.kept t).xtsNext + 1 }

theorem exec_spill {s : State} {ring : BitVec 8} {x : Entry} (hstart : Starts s ring.toNat 4 x)
    (hconds : NoneHolds ((taken s ring.toNat).spillConds s.regs (s.regs.ringTenant ring.toNat) x.params)) :
    exec (.spill ring) s = .next (withEng s (((epochTaken s ring.toNat).openStream (s.regs.ringTenant ring.toNat) (x.jobId ring.toNat)
      (spillStream s ring.toNat x)).bump Ctr.recipeRuns 1)) := by
  show execSpill ring s = _
  rw [execSpill, hstart.eff, epochTaken, spillStream, spillSteps]
  dsimp only
  rw [Engine.judged_countRecipe_go hstart.header hconds, taken_newStream, taken_recipe, taken_kept]

theorem epochTaken_kept (s : State) (n : Nat) : (epochTaken s n).kept (s.regs.ringTenant n).toNat =
    { s.eng.kept (s.regs.ringTenant n).toNat with xtsNext := (s.eng.kept (s.regs.ringTenant n).toNat).xtsNext + 1 } :=
  Engine.kept_setKept_same ..

theorem epochTaken_kept_ne {s : State} {n i : Nat} (h : i ≠ (s.regs.ringTenant n).toNat) : (epochTaken s n).kept i = s.eng.kept i :=
  (Engine.kept_setKept_ne h ..).trans (taken_kept ..)

theorem same_epochTaken (s : State) (n : Nat) : Same [.rings, .budget, .count, .body] s.eng (epochTaken s n) :=
  ((same_taken s n).mono (by decide)).trans ((same_body ..).mono (by decide))

/-- The stream of a REFILL that nothing stands against (R228). -/
def refillStream (s : State) (n : Nat) (x : Entry) : Stream :=
  let d := descrOf x.params
  s.eng.newStream (s.regs.ringTenant n) (x.jobId n) false d [] d.fmt (d.format / 16 % 4) (bitOf 6 d.format) (BitVec.ofNat 32 d.xtsEpoch)

theorem exec_refill {s : State} {ring : BitVec 8} {x : Entry} (hstart : Starts s ring.toNat 5 x)
    (hconds : NoneHolds ((taken s ring.toNat).refillConds s.regs (s.regs.ringTenant ring.toNat) x.params)) :
    exec (.refill ring) s = .next (withEng s ((taken s ring.toNat).openStream (s.regs.ringTenant ring.toNat) (x.jobId ring.toNat)
      (refillStream s ring.toNat x))) := by
  show execRefill ring s = _
  rw [execRefill, hstart.eff, refillStream]
  dsimp only
  rw [Engine.judged_go hstart.header (judge_none.mpr hconds), taken_newStream]

/-! ### RESTORE -/

/-- The state after a RESTORE of ring `n` that is refused with `code` for the target entry `entry`, if for one (R266). -/
def restoreRefused (s : State) (n : Nat) (x : Entry) (code : Code) (entry : Option Nat) : State :=
  withEng s ((taken s n).refuseRestore s.kit s.regs (x.jobId n) code entry)

theorem restoreRefused_frame (s : State) (n : Nat) (x : Entry) (code : Code) (entry : Option Nat) :
    Completed s (restoreRefused s n x code entry) n x code (restoreFail entry) ∧ Taken s (restoreRefused s n x code entry) n ∧
      Only [.rings, .budget, .count, .mem, .out, .vault] s (restoreRefused s n x code entry) := by
  obtain ⟨hcompleted, htaken⟩ := completed_complete (s := s) (n := n) rfl x code (restoreFail entry)
  exact ⟨hcompleted, htaken, only_of_same (((same_taken s n).mono (by decide)).trans ((same_complete ..).mono (by decide)))⟩

/-- What planning read at the location of source `i`. -/
def planLocation (locs : List LocationData) (i : Nat) : LocationData := (locs[i]?).getD { reach := 0, slotA := ⟨[], []⟩, slotB := ⟨[], []⟩ }

/-- The groups of the plan `p` with what its locations hold (R246). -/
def planGroups (s : State) (n : Nat) (p : Plan) (locs : List LocationData) : List Group :=
  groupsOf p (p.sources.mapIdx fun i y => (taken s n).location s.regs (s.regs.ringTenant n) y (planLocation locs i))

/-- The codes with which the sources of the plan `p` are out of reach, group by group. -/
def planReach (s : State) (n : Nat) (p : Plan) (locs : List LocationData) : List Code :=
  ((List.range 64).flatMap fun g => (p.sources.mapIdx fun i y => (i, y)).filter fun z => z.2.group == g).map fun z =>
    (taken s n).reachCode s.regs (s.regs.ringTenant n) z.2 (planLocation locs z.1)

/-- The outcome of phase 2 of the planning (R245). -/
def planOutcome (s : State) (n : Nat) (p : Plan) (locs : List LocationData) : Option (Option Nat × Code) :=
  phase2 s.kit s.regs (s.regs.ringTenant n) (s.eng.mode != .normal) (planReach s n p locs) p (planGroups s n p locs)

/-- The engine with the restore of the entry `x` taken on. -/
def restoreBegun (s : State) (n : Nat) (x : Entry) (p : Plan) (locs : List LocationData) : Engine :=
  (taken s n).beginRestore s.kit s.regs (s.regs.ringTenant n) (x.jobId n) (leAt 0 8 x.params) (leAt 8 4 x.params) (leAt 12 1 x.params) p
    (planGroups s n p locs)

/-- A good header adds nothing to what a job is judged by. -/
theorem judge_goodHeader {b : Bool} (h : b = false) (code : Code) (l : List (Bool × Code)) : judge ((b, code) :: l) = judge l := by
  subst h
  cases hl : judge l with
  | none => simp [judge, hl]
  | some c => simp [judge, hl]

section
variable {s : State} {ring : BitVec 8} {x : Entry} (hstart : Starts s ring.toNat 3 x)
include hstart

/-- What stands against the entry of a RESTORE is what it is refused for (R14). -/
theorem exec_restore_refused {code : Code}
    (hcode : judge ((taken s ring.toNat).restoreConds s.regs (s.regs.ringTenant ring.toNat) x.params) = some code) (plan : HostRead)
    (seen : PlanReads) : exec (.restore ring plan seen) s = .next (restoreRefused s ring.toNat x code none) := by
  show execRestore ring plan seen s = _
  rw [execRestore, hstart.eff]
  dsimp only
  rw [judge_goodHeader hstart.header, hcode]
  rfl

variable (hconds : NoneHolds ((taken s ring.toNat).restoreConds s.regs (s.regs.ringTenant ring.toNat) x.params))
include hconds

theorem exec_restore_memError (seen : PlanReads) :
    exec (.restore ring .memError seen) s = .next (restoreRefused s ring.toNat x 0x27 none) := by
  show execRestore ring .memError seen s = _
  rw [execRestore, hstart.eff]
  dsimp only
  rw [judge_goodHeader hstart.header, judge_none.mpr hconds]
  rfl

theorem exec_restore_poison (seen : PlanReads) : exec (.restore ring .poison seen) s = .next (restoreRefused s ring.toNat x 0x21 none) := by
  show execRestore ring .poison seen s = _
  rw [execRestore, hstart.eff]
  dsimp only
  rw [judge_goodHeader hstart.header, judge_none.mpr hconds]
  rfl

variable {bs : List Byte}

theorem exec_restore_planRefused {code : Code}
    (hcode : judge (planConds s.regs (s.regs.ringTenant ring.toNat) (leAt 8 4 x.params) bs) = some code) (seen : PlanReads) :
    exec (.restore ring (.ok bs) seen) s = .next (restoreRefused s ring.toNat x code none) := by
  show execRestore ring (.ok bs) seen s = _
  rw [execRestore, hstart.eff]
  dsimp only
  rw [judge_goodHeader hstart.header, judge_none.mpr hconds]
  dsimp only
  rw [hcode]
  rfl

variable (hplan : NoneHolds (planConds s.regs (s.regs.ringTenant ring.toNat) (leAt 8 4 x.params) bs)) {locs : List LocationData}
include hplan

/-- With nothing against its plan, phase 2 says what becomes of a RESTORE. -/
theorem exec_restore_planned : exec (.restore ring (.ok bs) ⟨locs, []⟩) s = .next
    ((planOutcome s ring.toNat (planOf bs) locs).elim (withEng s (restoreBegun s ring.toNat x (planOf bs) locs)) fun z =>
      restoreRefused s ring.toNat x z.2 z.1) := by
  show execRestore ring (.ok bs) ⟨locs, []⟩ s = _
  rw [execRestore, hstart.eff]
  dsimp only
  rw [judge_goodHeader hstart.header, judge_none.mpr hconds]
  dsimp only
  rw [judge_none.mpr hplan, taken_mode]
  generalize hout : planOutcome s ring.toNat (planOf bs) locs = o
  unfold planOutcome planReach planGroups planLocation at hout
  dsimp only
  rw [hout]
  cases o <;> rfl

end

/-! ### The accepted RESTORE -/

/-- The job of an accepted RESTORE. -/
def restoreJob (s : State) (n : Nat) (x : Entry) (p : Plan) (locs : List LocationData) : Job :=
  let spans := planSpans (leAt 0 8 x.params) (leAt 8 4 x.params) p ((planGroups s n p locs).map Group.data)
  { id := x.jobId n, tenant := some (s.regs.ringTenant n), kind := .restore, spans := spans }

/-- The restore that a RESTORE leaves. -/
def restoreOf (s : State) (n : Nat) (x : Entry) (p : Plan) (locs : List LocationData) : Restore :=
  (taken s n).newRestore (s.regs.ringTenant n) (x.jobId n) (leAt 0 8 x.params) (leAt 12 1 x.params) p (planGroups s n p locs)

/-- What a RESTORE taken on leaves. -/
theorem restoreBegun_frame (s : State) (n : Nat) (x : Entry) (p : Plan) (locs : List LocationData) :
    (restoreBegun s n x p locs).streams.restores = s.eng.streams.restores ++ [restoreOf s n x p locs] ∧
      (restoreBegun s n x p locs).streams.held = s.eng.streams.held ∧
      (restoreBegun s n x p locs).rings.jobs = s.eng.rings.jobs ++ [restoreJob s n x p locs] ∧
      Taken s (withEng s (restoreBegun s n x p locs)) n ∧
      Same [.rings, .budget, .count, .streams, .front, .body, .bulb, .vault, .fox, .draws, .cycle] s.eng (restoreBegun s n x p locs) := by
  obtain ⟨a, hread, hbegun⟩ := Engine.beginRestore_held s.kit s.regs (s.regs.ringTenant n) (x.jobId n) (leAt 0 8 x.params) (leAt 8 4 x.params)
    (leAt 12 1 x.params) p (planGroups s n p locs) (taken s n)
  have hstreams : a.streams = s.eng.streams := (hread.groups.streams.resolve_left (by decide)).trans (taken_streams s n)
  have hrings : a.rings = (taken s n).rings := hread.groups.rings.resolve_left (by decide)
  rw [restoreBegun, hbegun, hstreams]
  refine ⟨rfl, rfl, ?jobs, congrArg Ring.ready ((Engine.ring_of_rings hrings n).trans (Engine.takeEntry_ring ..)), ?same⟩
  case jobs => rw [Engine.addJob_jobs, hrings, taken, Engine.takeEntry_jobs, restoreJob]
  case same => exact ((same_taken s n).mono (by decide)).trans ((hread.mono (by decide)).trans (by simp [Same, Engine.addJob]))

/-- Settles O49: nothing stands against a SPILL or a REFILL, so its stream is opened; a RESTORE is refused at one of its three stages, or is
taken on. That a stream takes the lowest free number is the model's choice (log 29). -/
theorem acceptedStreamJobsAreHeld : Obligations.AcceptedStreamJobsAreHeld := by
  unfold Obligations.AcceptedStreamJobsAreHeld
  intro s ring x n tn id d fenced opened
  refine ⟨fun m rest hm => ⟨fun hstart hconds => ?spill, fun hstart hconds => ?refill⟩, fun hstart => ?restore⟩
  case spill =>
    have hopen := Engine.openStream_opened (e := epochTaken s n) ((taken_freeNumbers s n 1).trans hm) tn id (spillStream s n x)
    obtain ⟨hothers, hjobs, htaken⟩ := hopen.frame (n := n) (taken_streams s n) rfl
    have hbody : ((epochTaken s n).openStream tn id (spillStream s n x)).body = (epochTaken s n).body :=
      hopen.same.groups.body.resolve_left (by decide)
    have hkept (i : Nat) := congrArg (fun b : Body => tabGet (fun _ => Kept.made) i b.kept) hbody
    refine ⟨_, spillStream s n x, exec_spill hstart hconds,
      ⟨hopen.held, rfl, rfl, rfl, rfl, rfl, rfl, rfl, rfl, rfl, hothers, hjobs, htaken⟩, rfl, rfl, (hkept _).trans (epochTaken_kept s n),
      fun i hi => (hkept i).trans (epochTaken_kept_ne hi), only_of_same ?_⟩
    exact ((same_epochTaken s n).mono (by decide)).trans ((hopen.same.mono (by decide)).trans ((same_bump ..).mono (by decide)))
  case refill =>
    have hopen := Engine.openStream_opened (e := taken s n) ((taken_freeNumbers s n 1).trans hm) tn id (refillStream s n x)
    obtain ⟨hothers, hjobs, htaken⟩ := hopen.frame (n := n) (taken_streams s n) rfl
    exact ⟨_, refillStream s n x, exec_refill hstart hconds,
      ⟨hopen.held, rfl, rfl, rfl, rfl, rfl, rfl, rfl, rfl, rfl, hothers, hjobs, htaken⟩, rfl, rfl, rfl,
      only_of_same (((same_taken s n).mono (by decide)).trans (hopen.same.mono (by decide)))⟩
  case restore =>
    refine ⟨fun code plan locs faults hcode => ⟨_, exec_restore_refused hstart hcode .., restoreRefused_frame ..⟩,
      fun hconds locs faults => ⟨⟨_, exec_restore_memError hstart hconds _, restoreRefused_frame ..⟩,
        ⟨_, exec_restore_poison hstart hconds _, restoreRefused_frame ..⟩,
        fun bs code hcode => ⟨_, exec_restore_planRefused hstart hconds hcode _, restoreRefused_frame ..⟩⟩,
      fun bs locs hconds hplan => ?_⟩
    have hexec := exec_restore_planned hstart hconds hplan (locs := locs)
    refine ⟨fun i code (hout : planOutcome s n (planOf bs) locs = _) => ?refused, fun (hout : planOutcome s n (planOf bs) locs = _) => ?begun⟩
    case refused =>
      rw [hout] at hexec
      exact ⟨_, hexec, restoreRefused_frame ..⟩
    case begun =>
      rw [hout] at hexec
      obtain ⟨hrestores, hheld, hjobs, htaken, hsame⟩ := restoreBegun_frame s n x (planOf bs) locs
      exact ⟨_, restoreOf s n x (planOf bs) locs, hexec, hrestores, rfl, rfl, taken_freeNumbers .., Engine.newRestore_length ..,
        Engine.newRestore_waiting _ _ _ _ _ _ _, hheld, hjobs, htaken, only_of_same hsame⟩

end Sys2Proof

/-!
PROOFS. MEM responses: lines that are staged, streams that halt or note an error, completion writes, the last write of a job (R20, R240, R241,
R243, R266, R269, R387, R388).
-/

namespace Sys2Proof.Machine

/-! ### Lines staged (R20, R388) -/

/-- What a reader of a front line gets, and whose it is. -/
def FrontLine.content (l : FrontLine) : LineData × Bool × TenantNo := (l.line.data, l.line.poison, l.line.tenant)

section
variable (t : TenantNo) (n : Nat) (sealed : Bool) (coded : Nat → Bool)

/-- The lines `ps`, with their numbers, staged for stream `n` of tenant `t`. -/
def Engine.stageAll (ps : List (Nat × MemBeat)) (e : Engine) : Engine :=
  e.forEach ps fun p e => e.stageLine t n p.1 8 sealed (coded p.1) p.2

theorem Engine.stageLine_find (i cls : Nat) (c : Bool) (b : MemBeat) (e : Engine) :
    ((e.stageLine t n i cls sealed c b).front.find (.stream n i)).map FrontLine.content = some (b.data, b.poison, t) := by
  obtain ⟨place, hfind⟩ := Front.find_put_same (FrontLine.made .stream (.stream n i)
    { Line.ofData b.data t (BitVec.ofNat 4 cls) b.poison with sealed := sealed, coded := c } false 0) e.front
  exact congrArg (Option.map FrontLine.content) hfind

theorem Engine.stageAll_find_ne {key : FrontKey} {ps : List (Nat × MemBeat)} (h : ∀ p ∈ ps, key ≠ .stream n p.1) (e : Engine) :
    (e.stageAll t n sealed coded ps).front.find key = e.front.find key := by
  induction ps generalizing e with
  | nil => rfl
  | cons q ps ih =>
    obtain ⟨hq, hps⟩ := List.forall_mem_cons.mp h
    exact (ih hps _).trans (Front.find_put_ne hq _)

/-- No line is staged twice, so each stands as it came. -/
theorem Engine.stageAll_find {ps : List (Nat × MemBeat)} (h : (ps.map Prod.fst).Nodup) (e : Engine) :
    ∀ p ∈ ps, ((e.stageAll t n sealed coded ps).front.find (.stream n p.1)).map FrontLine.content = some (p.2.data, p.2.poison, t) := by
  induction ps generalizing e with
  | nil => exact fun p hp => absurd hp List.not_mem_nil
  | cons q ps ih =>
    obtain ⟨hq, hps⟩ := List.nodup_cons.mp h
    refine List.forall_mem_cons.mpr ⟨?_, ih hps _⟩
    have hlater : ∀ p ∈ ps, FrontKey.stream n q.1 ≠ .stream n p.1 := by
      intro p hp heq
      injection heq with _ heq
      exact hq (heq ▸ List.mem_map_of_mem hp)
    exact (congrArg (Option.map FrontLine.content) (Engine.stageAll_find_ne t n sealed coded hlater _)).trans (Engine.stageLine_find ..)

theorem same_stageAll (ps : List (Nat × MemBeat)) (e : Engine) : Same [.front] e (e.stageAll t n sealed coded ps) :=
  Same.forEach (fun _ e => same_onFront _ e) ps e

end

theorem nodup_fst_zip {α β : Type} {xs : List α} (h : xs.Nodup) (ys : List β) : ((xs.zip ys).map Prod.fst).Nodup := by
  rw [List.zip_eq_zip_take_min, List.map_fst_zip (by simp)]
  exact h.sublist (List.take_sublist ..)

/-- Stream `v` with a read of `m` lines answered. -/
def Stream.readOver (m : Nat) (v : Stream) : Stream := { v with reads := v.reads - 1, reading := v.reading - m }

section
variable {n : Nat} {v : Stream} {e : Engine} (hv : e.stream n = some v)
include hv

theorem Engine.streamLines_eq (k : Kit) (r : Regs) (lines : List Nat) (beats : List MemBeat) : e.streamLines k r n lines beats =
    (((e.setStream n (v.readOver lines.length)).releaseAwaited lines.length).stageAll v.tenant n (!v.spill && v.sealed)
      (fun i => !v.spill && (rateGeom v.rate).isSome && decide (i < v.codedElem)) (lines.zip beats)).makeReady k r n := by
  unfold Engine.streamLines
  rw [hv]
  rfl

/-! ### Halts and failures (R240, R241, R243) -/

theorem Engine.haltStream_read (hstate : v.state = .running) (addr : Nat) (lines : List Nat) : e.haltStream n addr false lines =
    ((e.releaseAwaited lines.length).setStream n { v.readOver lines.length with
      state := .halted, position := lines.headD 0, toRead := lines ++ v.toRead, haltWrite := false }).noticeHalt v.job addr (lines.headD 0) n := by
  unfold Engine.haltStream
  simp only [hv, hstate, ne_eq, not_true_eq_false, if_false, Bool.false_eq_true]
  rfl

theorem Engine.haltStream_write (hstate : v.state = .running) (addr : Nat) (lines : List Nat) : e.haltStream n addr true lines =
    (e.setStream n { v with
      state := .halted, position := lines.headD 0, haltWrite := true, writes := v.writes - 1
      toWrite := (lines.filter fun i => (tabFind i v.out).isSome && !v.toWrite.contains i) ++ v.toWrite }).noticeHalt v.job addr
        (lines.headD 0) n := by
  unfold Engine.haltStream
  simp only [hv, hstate, ne_eq, not_true_eq_false, if_false, if_true]

/-- A halted stream notes the first error of its requests and waits (R243). -/
theorem Engine.failRead_halted (hstate : v.state = .halted) (k : Kit) (r : Regs) (lines : List Nat) (code : Code) :
    (e.dropAwaited n lines).failStream k r n code = ((e.setStream n (v.readOver lines.length)).releaseAwaited lines.length).setStream n
      { v.readOver lines.length with failing := if v.failing = 0 then code else v.failing } := by
  have hdrop : e.dropAwaited n lines = (e.setStream n (v.readOver lines.length)).releaseAwaited lines.length := by
    unfold Engine.dropAwaited
    rw [hv]
    rfl
  have hheld : (e.dropAwaited n lines).stream n = some (v.readOver lines.length) := by
    rw [hdrop]
    exact Engine.stream_setStream_same ..
  have hhalted : (v.readOver lines.length).state = .halted := hstate
  unfold Engine.failStream
  rw [hheld]
  dsimp only
  rw [if_pos hhalted, hdrop]
  rfl

end

section
variable (id : JobId) (addr position n : Nat) (e : Engine)

theorem same_noticeHalt : Same [.count, .rings] e (e.noticeHalt id addr position n) := by simp [Same, Engine.noticeHalt]

theorem Engine.noticeHalt_waiting : ((e.noticeHalt id addr position n).ring id.ring).waiting =
    (e.ring id.ring).waiting ++ [.halt id.cmdId id.index (BitVec.ofNat 64 addr) position n] :=
  congrArg Ring.waiting (Engine.ring_setRing_same ..)

theorem Engine.noticeHalt_halts : (e.noticeHalt id addr position n).counter Ctr.streamHalts = e.counter Ctr.streamHalts + 1 :=
  Engine.counter_bump_same ..

end

/-! ### Completion writes (R266, R269) -/

/-- Issuing a completion write notes it in its ring and changes nothing else of the rings. -/
theorem Engine.issueCq_rings (k : Kit) (r : Regs) (n : Nat) (e : Engine) :
    (∃ out, (e.issueCq k r n).ring n = { e.ring n with cqOut := out }) ∧ (∀ m, m ≠ n → (e.issueCq k r n).ring m = e.ring m) ∧
      (e.issueCq k r n).rings.jobs = e.rings.jobs := by
  unfold Engine.issueCq
  dsimp only
  split
  · exact ⟨⟨_, rfl⟩, fun _ _ => rfl, rfl⟩
  · split
    · exact ⟨⟨_, rfl⟩, fun _ _ => rfl, rfl⟩
    · exact ⟨⟨_, Engine.ring_setRing_same ..⟩, fun m hm => Engine.ring_setRing_ne hm .., rfl⟩

theorem same_setRing (n : Nat) (v : Ring) (e : Engine) : Same [.rings] e (e.setRing n v) := by simp [Same]

theorem same_issueCq (k : Kit) (r : Regs) (n : Nat) (e : Engine) : Same [.rings, .mem, .out] e (e.issueCq k r n) := by simp [Same]

/-- The ring of a completion write that is answered: the oldest completion on its way is written. -/
def Ring.cqAnswered (g : Ring) : Ring :=
  { g with cq := updFirst (fun x => !x.written) (fun x => { x with written := true }) g.cq, cqOut := none, cqFailed := false }

theorem Engine.completionAnswered_good (k : Kit) (r : Regs) (n : Nat) (e : Engine) :
    e.completionAnswered k r n 0 = (e.setRing n (e.ring n).cqAnswered).issueCq k r n := by
  unfold Engine.completionAnswered
  rw [if_pos rfl]
  rfl

theorem Engine.completionAnswered_bad (k : Kit) (r : Regs) (n : Nat) {code : Code} (h : code ≠ 0) (e : Engine) :
    e.completionAnswered k r n code = (e.setRing n { e.ring n with cqFailed := true }).raise k r 0x2D (r.ringConcerned n) := if_neg h

/-! ### A job that has its completion (R266) -/

theorem Engine.completeOne_jobs (k : Kit) (r : Regs) (id : JobId) (code : Code) (plan : Bool) (result : List Byte) (e : Engine) :
    (e.completeOne k r id code plan result).rings.jobs = e.rings.jobs.filter fun j => !(j.id == id) := by
  obtain ⟨-, -, hjobs⟩ := Engine.issueCq_rings k r id.ring _
  exact hjobs

/-- A job that has its completion is no longer in flight. -/
theorem Engine.complete_over (k : Kit) (r : Regs) (id : JobId) (code : Code) (result : List Byte) (e : Engine) :
    ∀ y ∈ (e.complete k r id code result).rings.jobs, y.id ≠ id := by
  unfold Engine.complete Engine.completeWith Engine.endDrains Engine.forEach
  refine List.foldlRecOn (motive := fun a : Engine => ∀ y ∈ a.rings.jobs, y.id ≠ id) _ _ ?first fun a ha d _ => ?drain
  case first =>
    intro y hy
    rw [Engine.completeOne_jobs] at hy
    simpa using (List.mem_filter.mp hy).2
  case drain =>
    dsimp only
    split
    · intro y hy
      rw [Engine.completeOne_jobs] at hy
      exact ha y (List.mem_filter.mp hy).1
    · exact ha

theorem Engine.waitAnswered_last {k : Kit} {r : Regs} {id : JobId} {j : Job} {result : List Byte} {e : Engine}
    (hlast : (e.mem.reqs.any fun y => y.use == MemFor.job id) = false) (hjob : (e.rings.jobs.find? fun y => y.id == id) = some j)
    (hkind : j.kind = .wait result) : e.waitAnswered k r id 0 = e.complete k r id 0 result := by
  unfold Engine.waitAnswered
  simp only [ne_eq, not_true_eq_false, if_false, hlast, Bool.false_eq_true, hjob, hkind]

theorem memCode_ne {code : Code} (h : code ≠ 0) : memCode code ≠ 0 := by
  unfold memCode
  split
  · exact h
  · decide

end Sys2Proof.Machine

namespace Sys2Proof

open Machine

/-! ### The responses -/

theorem same_dropReq (q : MemReq) (e : Engine) : Same [.mem] e (e.dropReq q) := by simp [Same, Engine.dropReq]

section
variable {s : State} {channel : Nat} {tag : BitVec 12} (hchannel : s.kit.hasChannel channel = true)
include hchannel

theorem exec_memReadResponse_none (hnone : s.eng.mem.find channel tag false = none) (code : Code) (beats : List MemBeat)
    (faults : List CoreFault) : exec (.memReadResponse channel tag code beats faults) s = .next s := by
  refine (needs_eff hchannel _ s).trans ?_
  rw [hnone]
  rfl

theorem exec_memWriteResponse_none (hnone : s.eng.mem.find channel tag true = none) (code : Code) :
    exec (.memWriteResponse channel tag code) s = .next s := by
  refine (needs_eff hchannel _ s).trans ?_
  rw [hnone]
  rfl

variable {q : MemReq}

section
variable {n : Nat} {lines : List Nat} (hq : s.eng.mem.find channel tag false = some q) (huse : q.use = .streamRead n lines)
include hq huse

theorem exec_memReadResponse_lines {beats : List MemBeat} (hlen : beats.length = q.lines) :
    exec (.memReadResponse channel tag 0 beats []) s = .next (withEng s ((s.eng.dropReq q).streamLines s.kit s.regs n lines beats)) := by
  refine (needs_eff hchannel _ s).trans ?_
  simp only [hq, huse]
  rw [if_neg (fun h => h.2 hlen)]
  rfl

theorem exec_memReadResponse_poisoned (beats : List MemBeat) :
    exec (.memReadResponse channel tag 0x28 beats []) s = .next (withEng s ((s.eng.dropReq q).haltStream n q.addr false lines)) := by
  refine (needs_eff hchannel _ s).trans ?_
  simp only [hq, huse]
  rfl

theorem exec_memReadResponse_error (beats : List MemBeat) : exec (.memReadResponse channel tag 0x27 beats []) s =
    .next (withEng s (((s.eng.dropReq q).dropAwaited n lines).failStream s.kit s.regs n 0x27)) := by
  refine (needs_eff hchannel _ s).trans ?_
  simp only [hq, huse]
  rfl

end

section
variable (hq : s.eng.mem.find channel tag true = some q)
include hq

theorem exec_memWriteResponse_halts {n : Nat} {lines : List Nat} (huse : q.use = .streamWrite n lines) :
    exec (.memWriteResponse channel tag 0x28) s = .next (withEng s ((s.eng.dropReq q).haltStream n q.addr true lines)) := by
  refine (needs_eff hchannel _ s).trans ?_
  simp only [hq, huse]
  rfl

theorem exec_memWriteResponse_completion {n : Nat} (huse : q.use = .completion n) (code : Code) : exec (.memWriteResponse channel tag code) s =
    .next (withEng s ((s.eng.dropReq q).completionAnswered s.kit s.regs n (memCode code))) := by
  refine (needs_eff hchannel _ s).trans ?_
  simp only [hq, huse]

theorem exec_memWriteResponse_job {id : JobId} (huse : q.use = .job id) (code : Code) : exec (.memWriteResponse channel tag code) s =
    .next (withEng s ((s.eng.dropReq q).waitAnswered s.kit s.regs id (memCode code))) := by
  refine (needs_eff hchannel _ s).trans ?_
  simp only [hq, huse]

end

end

/-- Settles O51: the request that a response answers says what goes on with it. That a halted stream keeps its first error is the model's choice
(log 29), and so is the TENANT of a raise of 0x2D (log 73). -/
theorem memResponsesReachWhoAsked : Obligations.MemResponsesReachWhoAsked := by
  unfold Obligations.MemResponsesReachWhoAsked
  intro s channel tag hchannel
  refine ⟨fun code beats faults hnone => exec_memReadResponse_none hchannel hnone code beats faults,
    fun code hnone => exec_memWriteResponse_none hchannel hnone code,
    fun q n lines v beats hq huse hv => ⟨fun hlen hnodup => ?lines, fun hstate => ?halt, fun hstate => ?noted⟩,
    fun q n lines v hq huse hv hstate => ?haltWrite, fun q n code hq huse => ⟨?answered, fun hcode => ?failed⟩,
    fun q id j result hq huse hlast hjob hkind => ?job⟩
  case lines =>
    have hexec := exec_memReadResponse_lines hchannel hq huse hlen
    rw [Engine.streamLines_eq (e := s.eng.dropReq q) hv] at hexec
    have hstaged := same_stageAll v.tenant n (!v.spill && v.sealed) (fun i => !v.spill && (rateGeom v.rate).isSome && decide (i < v.codedElem))
      (lines.zip beats) (((s.eng.dropReq q).setStream n (v.readOver lines.length)).releaseAwaited lines.length)
    refine ⟨_, hexec, (stream_of_same hstaged (by decide) n).trans (Engine.stream_setStream_same ..),
      Engine.stageAll_find _ _ _ _ (nodup_fst_zip hnodup beats) _, fun key hkey => ?_,
      fun m hm => (stream_of_same hstaged (by decide) m).trans (Engine.stream_setStream_ne hm ..),
      hstaged.groups.mem.resolve_left (by decide), ?_⟩
    · exact Engine.stageAll_find_ne _ _ _ _ (fun p hp => hkey p.1 (List.of_mem_zip hp).1) _
    · exact (((same_dropReq ..).mono (by decide)).trans ((same_setStream ..).mono (by decide))).trans
        (((same_onFront ..).mono (by decide)).trans (hstaged.mono (by decide)))
  case halt =>
    have hexec := exec_memReadResponse_poisoned hchannel hq huse beats
    rw [Engine.haltStream_read (e := s.eng.dropReq q) hv hstate] at hexec
    refine ⟨_, hexec, Engine.stream_setStream_same .., Engine.noticeHalt_waiting .., Engine.noticeHalt_halts .., rfl, only_of_same ?_⟩
    exact (((same_dropReq ..).mono (by decide)).trans ((same_onFront ..).mono (by decide))).trans
      (((same_setStream ..).mono (by decide)).trans ((same_noticeHalt ..).mono (by decide)))
  case noted =>
    have hexec := exec_memReadResponse_error hchannel hq huse beats
    rw [Engine.failRead_halted (e := s.eng.dropReq q) hv hstate] at hexec
    refine ⟨_, hexec, Engine.stream_setStream_same .., rfl, only_of_same ?_⟩
    exact (((same_dropReq ..).mono (by decide)).trans ((same_setStream ..).mono (by decide))).trans
      (((same_onFront ..).mono (by decide)).trans ((same_setStream ..).mono (by decide)))
  case haltWrite =>
    have hexec := exec_memWriteResponse_halts hchannel hq huse
    rw [Engine.haltStream_write (e := s.eng.dropReq q) hv hstate] at hexec
    refine ⟨_, hexec, Engine.stream_setStream_same .., Engine.noticeHalt_halts .., rfl, only_of_same ?_⟩
    exact ((same_dropReq ..).mono (by decide)).trans (((same_setStream ..).mono (by decide)).trans ((same_noticeHalt ..).mono (by decide)))
  case answered =>
    have hexec := exec_memWriteResponse_completion hchannel hq huse 0
    rw [show memCode 0 = 0 from rfl, Engine.completionAnswered_good] at hexec
    obtain ⟨⟨out, hring⟩, hothers, -⟩ := Engine.issueCq_rings s.kit s.regs n
      ((s.eng.dropReq q).setRing n ((s.eng.dropReq q).ring n).cqAnswered)
    rw [Engine.ring_setRing_same] at hring
    refine ⟨_, hexec, congrArg Ring.cq hring, congrArg Ring.cqFailed hring, (congrArg Ring.cqTail hring :),
      fun m hm => (hothers m hm).trans (Engine.ring_setRing_ne hm ..), only_of_same ?_⟩
    exact ((same_dropReq ..).mono (by decide)).trans (((same_setRing ..).mono (by decide)).trans ((same_issueCq ..).mono (by decide)))
  case failed =>
    have hexec := exec_memWriteResponse_completion hchannel hq huse code
    rw [Engine.completionAnswered_bad _ _ _ (memCode_ne hcode)] at hexec
    refine ⟨_, hexec, (Engine.ring_of_rings (Engine.raise_rings ..) n).trans (Engine.ring_setRing_same ..),
      raised_raise (foxImplemented_of_fixed (by decide) s.kit) (by rfl) (by rfl) (by rfl) _, only_of_same ?_⟩
    exact ((same_dropReq ..).mono (by decide)).trans (((same_setRing ..).mono (by decide)).trans ((same_raise ..).mono (by decide)))
  case job =>
    have hexec := exec_memWriteResponse_job hchannel hq huse 0
    rw [show memCode 0 = 0 from rfl, Engine.waitAnswered_last (e := s.eng.dropReq q) hlast hjob hkind] at hexec
    obtain ⟨head, more, hcq⟩ := Engine.complete_cq s.kit s.regs id 0 result (s.eng.dropReq q)
    exact ⟨_, head, more, hexec, hcq, Engine.complete_over _ _ _ _ _ _, only_of_same
      (((same_dropReq ..).mono (by decide)).trans ((same_complete ..).mono (by decide)))⟩

end Sys2Proof

/-!
PROOFS. Doorbells of the rings (R261 to R267): a write that is ignored, lines announced and read, completions freed.
-/

namespace Sys2Proof

open Machine

/-- A write on the open CFG port is carried out and then answered (R381, R383). -/
theorem effCfg_open {s : State} (hopen : s.eng.cfgOpen = true) (f : Kit → Regs → Engine → Engine) :
    s.effCfg f = .next (driven (withEng s (f s.kit s.regs s.eng)) [.cfgDone]) := by
  unfold State.effCfg
  rw [State.eff_eq]
  simp only [hopen, if_true]
  rfl

/-- What a raise leaves does not depend on what the engine puts out. -/
theorem Raised.driven {s t : State} {src : Nat} {tenant : Option TenantNo} (h : Raised s t src tenant) (os : List Output) :
    Raised s (driven t os) src tenant := h

/-- A doorbell that is ignored is counted, raises 0x2C and is answered (R261). -/
theorem doorbell_ignored (s : State) (t : Option TenantNo) :
    let u := driven (withEng s ((s.eng.bump Ctr.badDoorbells 1).raise s.kit s.regs 0x2C t)) [.cfgDone]
    Raised s u 0x2C t ∧ u.eng.counter Ctr.badDoorbells = s.eng.counter Ctr.badDoorbells + 1 ∧ u.eng.out = s.eng.out ++ [.cfgDone] ∧
      Only [.count, .fox, .draws, .out, .cycle] s u := by
  have hraised : Raised s (withEng s ((s.eng.bump Ctr.badDoorbells 1).raise s.kit s.regs 0x2C t)) 0x2C t :=
    raised_of_agrees (s := s) (s' := withEng s (s.eng.bump Ctr.badDoorbells 1)) rfl rfl rfl
      (Engine.counter_bump_ne (show Ctr.faultsRaised ≠ Ctr.badDoorbells by decide) 1 s.eng)
      (raised_raise (s := withEng s (s.eng.bump Ctr.badDoorbells 1)) (foxImplemented_of_fixed (by decide) s.kit) rfl rfl rfl t)
  have hcounter : ((s.eng.bump Ctr.badDoorbells 1).raise s.kit s.regs 0x2C t).counter Ctr.badDoorbells =
      s.eng.counter Ctr.badDoorbells + 1 :=
    (Engine.raise_counter _ _ _ (by decide) (by decide) ..).trans (Engine.counter_bump_same ..)
  have hout := Engine.raise_out s.kit s.regs 0x2C t (s.eng.bump Ctr.badDoorbells 1)
  have hsame := ((same_bump Ctr.badDoorbells 1 s.eng).mono (by decide)).trans
    ((same_raise s.kit s.regs 0x2C t _).mono (gs' := [.count, .fox, .draws, .out, .cycle]) (by decide))
  generalize Engine.raise _ _ _ _ _ = e at hraised hcounter hout hsame
  exact ⟨hraised.driven _, hcounter, congrArg (· ++ _) hout, only_answered (by decide) hsame _⟩

end Sys2Proof

namespace Sys2Proof.Machine

/-! ### What a doorbell announces or frees -/

/-- Lines of the submission ring from SQ_HEAD to line `x` (R261, R264). -/
def Engine.sqAhead (r : Regs) (n x : Nat) (e : Engine) : Nat := (x + r.sqSize n - (e.ring n).sqHeadNow (r.sqSize n)) % r.sqSize n

/-- Completion entries from CQ_HEAD to entry `x` (R267). -/
def Engine.cqFreed (r : Regs) (n x : Nat) (e : Engine) : Nat := (x + r.cqSize n - (e.ring n).cqHead) % r.cqSize n

section
variable {k : Kit} {r : Regs} {n : Nat} {value : Word} {e : Engine}

theorem Engine.sqTail_ignored (h : r.ringActive n = false ∨ r.sqSize n ≤ value.toNat ∨
      e.sqAhead r n value.toNat < e.sqAhead r n (e.ring n).tail)
    (lines : List LineRead) : e.sqTail k r n value lines = (e.bump Ctr.badDoorbells 1).raise k r 0x2C (r.ringConcerned n) :=
  if_pos (by simp only [Bool.or_eq_true, Bool.not_eq_true', decide_eq_true_eq, or_assoc]; exact h)

/-- A good SQ_TAIL_DB announces its lines, which are read unless a line waits on its PHASE (R262, R263). -/
theorem Engine.sqTail_good (hactive : r.ringActive n = true) (hsize : value.toNat < r.sqSize n)
    (hahead : e.sqAhead r n (e.ring n).tail ≤ e.sqAhead r n value.toNat) (hstate : e.power.state = 0) (hentering : e.power.entering = false)
    (lines : List LineRead) : e.sqTail k r n value lines =
      let told := e.setRing n { e.ring n with tail := value.toNat }
      if (e.ring n).phaseWait = none then told.frameLines k r n lines else told := by
  have hgood : (!r.ringActive n || decide (r.sqSize n ≤ value.toNat) ||
      decide (e.sqAhead r n value.toNat < e.sqAhead r n (e.ring n).tail)) = false := by simp [hactive, hsize, hahead]
  refine (if_neg (ne_true_of_eq_false hgood)).trans ?_
  dsimp only
  rw [Engine.wake_awake (e := e.setRing n _) hentering hstate]
  cases (e.ring n).phaseWait <;> rfl

theorem Engine.cqHead_ignored (h : r.ringActive n = false ∨ r.cqSize n ≤ value.toNat ∨
      ((e.ring n).cq.filter fun c => c.written).length < e.cqFreed r n value.toNat) :
    e.cqHead k r n value = (e.bump Ctr.badDoorbells 1).raise k r 0x2C (r.ringConcerned n) :=
  if_pos (by simp only [Bool.or_eq_true, Bool.not_eq_true', decide_eq_true_eq, or_assoc]; exact h)

/-- A good CQ_HEAD_DB frees the completions that it passes (R267). -/
theorem Engine.cqHead_good (hactive : r.ringActive n = true) (hsize : value.toNat < r.cqSize n)
    (hfreed : e.cqFreed r n value.toNat ≤ ((e.ring n).cq.filter fun c => c.written).length) : e.cqHead k r n value =
      e.setRing n { e.ring n with cqHead := value.toNat, cq := (e.ring n).cq.drop (e.cqFreed r n value.toNat) } :=
by
  have hgood : (!r.ringActive n || decide (r.cqSize n ≤ value.toNat) ||
      decide (((e.ring n).cq.filter fun c => c.written).length < e.cqFreed r n value.toNat)) = false := by simp [hactive, hsize, hfreed]
  exact if_neg (ne_true_of_eq_false hgood)

end

/-! ### A line that is an entry -/

/-- One line ahead of `i` in a window of `size` lines: `i` is not there, and stands `size - 1` lines behind it. -/
theorem next_line {i size : Nat} (hsize : 2 ≤ size) (hi : i < size) :
    (i + 1) % size ≠ i ∧ ((i + 1) % size + size - i) % size = 1 ∧ ((i + 1) % size + size - 1) % size = i := by
  rcases Nat.lt_or_ge (i + 1) size with h | h
  · rw [Nat.mod_eq_of_lt h]
    refine ⟨by omega, ?_, ?_⟩
    · rw [show i + 1 + size - i = 1 + size by omega, Nat.add_mod_right, Nat.mod_eq_of_lt (by omega)]
    · rw [show i + 1 + size - 1 = i + size by omega, Nat.add_mod_right, Nat.mod_eq_of_lt hi]
  · rw [show i + 1 = size by omega, Nat.mod_self]
    refine ⟨by omega, ?_, ?_⟩
    · rw [show 0 + size - i = 1 by omega, Nat.mod_eq_of_lt (by omega)]
    · rw [show 0 + size - 1 = i by omega, Nat.mod_eq_of_lt hi]

/-- The ring `n` has announced one line and reads nothing yet, and `d` is a line with the PHASE expected that spells a whole entry (R258 to
R260, R263). -/
structure OneLineEntry (r : Regs) (n : Nat) (d : LineData) (e : Engine) : Prop where
  unchained : r.ringChained n = false
  size : 2 ≤ r.sqSize n
  place : (e.ring n).fetch < r.sqSize n
  announced : (e.ring n).tail = ((e.ring n).fetch + 1) % r.sqSize n
  chain : (e.ring n).chain = []
  failing : (e.ring n).failing = none
  may : e.canFetch r n = true
  phase : (headerOf d).phase = (e.ring n).phase
  lines : (headerOf d).lines = 1
  shape : ∃ plen, jobShape (headerOf d).opcode = some (plen, 1)

/-- What a ring that has framed a one-line entry has: the entry is its newest, and its line is consumed. -/
structure FramedOne (n : Nat) (d : LineData) (a b : Engine) : Prop where
  ready : (b.ring n).ready = (a.ring n).ready ++ [entryOf false (a.ring n).fetch [d]]
  fetch : (b.ring n).fetch = (a.ring n).tail
  tail : (b.ring n).tail = (a.ring n).tail
  cq : (b.ring n).cq = (a.ring n).cq
  others : ∀ m, m ≠ n → b.ring m = a.ring m
  same : Same [.rings] a b

section
variable {r : Regs} {n : Nat} {d : LineData} {e : Engine}

/-- An entry whose lines have all been read is ready when its type is defined and has as many lines (R260, R262). -/
theorem Engine.finishEntry_ready {g : Ring} {plen : Nat} (hring : e.ring n = g)
    (hshape : jobShape (entryOf (r.ringChained n) (g.entryStart (r.sqSize n)) g.chain).opcode = some (plen, g.chain.length)) (k : Kit) :
    e.finishEntry k r n =
      let x := entryOf (r.ringChained n) (g.entryStart (r.sqSize n)) g.chain
      e.setRing n { g with chain := [], ready := g.ready ++ [x], opens := g.opens ++ [{ index := x.index, lines := x.lines, done := false }] } := by
  subst hring
  unfold Engine.finishEntry
  dsimp only
  rw [hshape]
  exact if_neg (not_not.mpr rfl)

/-- The entry whose one line has been read is ready (R262). -/
theorem OneLineEntry.finishEntry (h : OneLineEntry r n d e) (k : Kit) :
    FramedOne n d e ((e.setRing n { (e.ring n).advance (r.sqSize n) with chain := [d] }).finishEntry k r n) := by
  obtain ⟨plen, hshape⟩ := h.shape
  obtain ⟨-, -, hback⟩ := next_line h.size h.place
  have hstart : ({ (e.ring n).advance (r.sqSize n) with chain := [d] } : Ring).entryStart (r.sqSize n) = (e.ring n).fetch := by
    have hfailing : ((e.ring n).advance (r.sqSize n)).failing = none := h.failing
    unfold Ring.entryStart
    dsimp only
    rw [hfailing]
    exact hback
  rw [Engine.finishEntry_ready (Engine.ring_setRing_same ..) (by exact hshape), hstart, h.unchained]
  refine ⟨?_, ?_, ?_, ?_, fun m hm => (Engine.ring_setRing_ne hm ..).trans (Engine.ring_setRing_ne hm ..),
    (same_setRing ..).trans (same_setRing ..)⟩ <;> rw [Engine.ring_setRing_same]
  · rfl
  · exact h.announced.symm
  · rfl
  · rfl

/-- The line is framed. -/
theorem OneLineEntry.frameLines (h : OneLineEntry r n d e) (k : Kit) : FramedOne n d e (e.frameLines k r n [.ok d]) := by
  obtain ⟨hne, hone, -⟩ := next_line h.size h.place
  have hline : e.frameLine k r n (.ok d) =
      ((e.setRing n { (e.ring n).advance (r.sqSize n) with chain := [d] }).finishEntry k r n, true) := by
    unfold Engine.frameLine
    dsimp only
    rw [if_neg (by rw [h.announced]; exact hne.symm), h.failing]
    dsimp only
    rw [h.chain, List.isEmpty_nil, if_pos rfl, if_pos h.may]
    unfold Engine.frameFirst
    simp only [h.phase, h.unchained, h.lines, h.announced, hone, ne_eq, not_true_eq_false, Bool.false_eq_true, if_false, Nat.lt_irrefl,
      Nat.reduceLT, or_self, if_true]
  unfold Engine.frameLines
  rw [hline]
  exact h.finishEntry k

/-- What else a ring may fetch does not depend on the lines announced (R267, R277). -/
theorem Engine.canFetch_tail (r : Regs) (n t : Nat) (e : Engine) :
    (e.setRing n { e.ring n with tail := t }).canFetch r n = e.canFetch r n := by
  unfold Engine.canFetch Engine.cqFree Engine.reserved Engine.jobsOf
  rw [Engine.ring_setRing_same]
  rfl

end

end Sys2Proof.Machine

namespace Sys2Proof

open Machine

/-- Settles O38: a doorbell is ignored or it is good; a good one sets one ring, and a line that spells an entry is framed. That the TENANT of
0x2C is none for an inactive ring (log 73), and that SQ_HEAD passes an entry when its completion has been written (log 72), are the model's
readings. -/
theorem doorbellsMoveTheRingPointers : Obligations.DoorbellsMoveTheRingPointers := by
  unfold Obligations.DoorbellsMoveTheRingPointers
  intro s ring value hopen n g t ahead freed
  have htail {lines : List LineRead} {e : Engine} (he : s.eng.sqTail s.kit s.regs n value lines = e) :
      exec (.sqTailDb ring value lines) s = .next (driven (withEng s e) [.cfgDone]) := by
    rw [← he]
    exact effCfg_open hopen fun k r e => e.sqTail k r n value lines
  have hhead {e : Engine} (he : s.eng.cqHead s.kit s.regs n value = e) :
      exec (.cqHeadDb ring value) s = .next (driven (withEng s e) [.cfgDone]) := by
    rw [← he]
    exact effCfg_open hopen fun k r e => e.cqHead k r n value
  refine ⟨fun lines hbad => ⟨_, htail (Engine.sqTail_ignored hbad lines), doorbell_ignored s _⟩,
    fun lines hactive hsize hahead hstate hentering => htail (Engine.sqTail_good hactive hsize hahead hstate hentering lines),
    fun d hactive hunchained htwo hplace hnext hahead hstate hentering hfetch hchain hfailing hwait hmay hphase hlines hshape => ?framed,
    fun hbad => ⟨_, hhead (Engine.cqHead_ignored hbad), doorbell_ignored s _⟩,
    fun hactive hsize hfreed => ⟨_, hhead (Engine.cqHead_good hactive hsize hfreed), Engine.ring_setRing_same ..,
      fun m hm => Engine.ring_setRing_ne hm .., rfl, only_answered (by decide) ((same_setRing ..).mono (by decide)) _⟩⟩
  case framed =>
    have hsize : t < s.regs.sqSize n := hnext ▸ Nat.mod_lt _ (by omega)
    have hring : (s.eng.setRing n { g with tail := t }).ring n = { g with tail := t } := Engine.ring_setRing_same ..
    have hentry : OneLineEntry s.regs n d (s.eng.setRing n { g with tail := t }) := by
      refine ⟨hunchained, htwo, ?place, ?announced, ?chain, ?failing, (Engine.canFetch_tail ..).trans hmay, ?phase, hlines, hshape⟩ <;> rw [hring]
      case place => exact hfetch ▸ hplace
      case announced => exact hfetch ▸ hnext
      case chain => exact hchain
      case failing => exact hfailing
      case phase => exact hphase
    have hexec := htail ((Engine.sqTail_good hactive hsize hahead hstate hentering [.ok d]).trans (if_pos hwait))
    have hframed := hentry.frameLines s.kit
    generalize Engine.frameLines _ _ _ _ _ = b at hexec hframed
    obtain ⟨hready, hfetched, htailed, hcq, hothers, hsame⟩ := hframed
    rw [hring] at hready hfetched htailed hcq
    exact ⟨_, hexec, hready, hfetched, htailed, hcq, fun m hm => (hothers m hm).trans (Engine.ring_setRing_ne hm ..),
      congrArg (· ++ _) (hsame.groups.out.resolve_left (by decide)),
      only_answered (by decide) (((same_setRing ..).trans hsame).mono (by decide)) _⟩

end Sys2Proof

/-!
PROOFS. Ring service (R263, R265, R268, R269, R278): lines read again, completion writes made again, waiting completions, fences.
-/

namespace Sys2Proof.Machine

/-! ### Lines read again (R263, R265) -/

/-- The ring `n` has made one more read of the line that waits on its PHASE. -/
def Engine.lineReread (n m : Nat) (e : Engine) : Engine :=
  (e.bump Ctr.phaseRetries 1).setRing n { e.ring n with phaseWait := some (m + 1), phaseBeat := e.beat.num }

theorem same_lineReread (n m : Nat) (e : Engine) : Same [.rings, .count] e (e.lineReread n m) :=
  ((same_bump ..).mono (by decide)).trans ((same_setRing ..).mono (by decide))

/-- Whether a line has the PHASE expected does not depend on how often it has been read. -/
theorem Engine.phaseBad_lineReread (r : Regs) (n m : Nat) (x : LineRead) (e : Engine) : (e.lineReread n m).phaseBad r n x = e.phaseBad r n x := by
  unfold Engine.phaseBad Engine.lineReread
  rw [Engine.ring_setRing_same]

section
variable {k : Kit} {r : Regs} {n m : Nat} {d : LineData} {rest : List LineRead} {e : Engine}

/-- A line is read again once in a beat. -/
theorem Engine.phaseRing_sameBeat (hwait : (e.ring n).phaseWait = some m) (hbeat : (e.ring n).phaseBeat = e.beat.num) :
    e.phaseRing k r n (.ok d :: rest) = e := by
  unfold Engine.phaseRing
  dsimp only
  rw [hwait]
  exact if_pos hbeat

/-- A line that is read again has the PHASE expected, or it waits on, or its 16 re-reads are used up. -/
theorem Engine.phaseRing_rereads (hwait : (e.ring n).phaseWait = some m) (hbeat : (e.ring n).phaseBeat ≠ e.beat.num) :
    e.phaseRing k r n (.ok d :: rest) =
      if e.phaseBad r n (.ok d) = false then
        ((e.lineReread n m).setRing n { (e.lineReread n m).ring n with phaseWait := none }).frameLines k r n (.ok d :: rest)
      else if m + 1 < 16 then e.lineReread n m
      else (e.lineReread n m).failPhase k r n d := by
  rw [← Engine.phaseBad_lineReread r n m]
  unfold Engine.phaseRing
  dsimp only
  rw [hwait]
  refine (if_neg hbeat).trans ?_
  simp only [Bool.not_eq_true']
  rfl

end

/-! ### Completion entries (R266, R268, R269) -/

theorem same_memWrite (k : Kit) (addr : Nat) (bytes : List Byte) (poison : List Bool) (prio : BitVec 2) (use : MemFor) (e : Engine) :
    Same [.mem, .out] e (e.memWrite k addr bytes poison prio use) := by simp [Same]

section
variable (k : Kit) (r : Regs) (n : Nat) (cmdId : Dword) (code : Code) (notice plan : Bool) (index : Nat) (entry : Option Nat) (irq : Bool)
  (result : List Byte) (e : Engine)

theorem same_pushCq : Same [.rings, .mem, .out] e (e.pushCq k r n cmdId code notice plan index entry irq result) :=
  ((same_setRing ..).mono (by decide)).trans (same_issueCq ..)

/-- A completion entry stands at the tail of its ring, and what waits there waits on (R266). -/
theorem Engine.pushCq_ring : ((e.pushCq k r n cmdId code notice plan index entry irq result).ring n).waiting = (e.ring n).waiting ∧
    ((e.pushCq k r n cmdId code notice plan index entry irq result).ring n).cq = (e.ring n).cq ++
      [{ bytes := cqBytes cmdId code (e.ring n).cqPhase notice plan index ((e.ring n).sqHead (r.sqSize n)) result, irq := irq, entry := entry
         written := false }] := by
  unfold Engine.pushCq
  dsimp only
  obtain ⟨⟨out, hring⟩, -, -⟩ := Engine.issueCq_rings k r n (e.setRing n { e.ring n with
    cq := (e.ring n).cq ++ [{ bytes := cqBytes cmdId code (e.ring n).cqPhase notice plan index ((e.ring n).sqHead (r.sqSize n)) result, irq := irq
                              entry := entry, written := false }]
    cqTail := ((e.ring n).cqTail + 1) % r.cqSize n
    cqPhase := if ((e.ring n).cqTail + 1) % r.cqSize n = 0 then !(e.ring n).cqPhase else (e.ring n).cqPhase })
  rw [hring, Engine.ring_setRing_same]
  exact ⟨rfl, rfl⟩

end

/-- The entry that a waiting completion becomes, with the PHASE of the completion ring and SQ_HEAD (R106, R266, R268). -/
def Waiting.cqEntry (phase : Bool) (head : Nat) : Waiting → CqEntry
  | .halt cmdId index addr position stream =>
    { bytes := cqBytes cmdId 0x28 phase true false index head (natLE 8 addr.toNat ++ natLE 6 position ++ natLE 2 stream)
      irq := true, entry := none, written := false }
  | .plan code result =>
    { bytes := cqBytes (BitVec.allOnes 64) code phase false true 0xFFFF head result, irq := false, entry := none, written := false }

/-- What a waiting completion that is written leaves: it no longer waits, and its entry stands at the tail of the completion ring. -/
structure WaitingWritten (r : Regs) (n : Nat) (w : Waiting) (a b : Engine) : Prop where
  waiting : (b.ring n).waiting = (a.ring n).waiting.erase w
  cq : (b.ring n).cq = (a.ring n).cq ++ [w.cqEntry (a.ring n).cqPhase ((a.ring n).sqHead (r.sqSize n))]
  same : Same [.rings, .mem, .out] a b

/-- A completion that waits is written when the ring is active and an entry is free (R268). -/
theorem Engine.writeWaiting_writes {r : Regs} {n : Nat} {halt : Bool} {w : Waiting} {e : Engine} (hactive : r.ringActive n = true)
    (hfree : e.cqFree r n = true) (hfind : ((e.ring n).waiting.find? fun w => w.isHalt == halt) = some w) (k : Kit) :
    WaitingWritten r n w e (e.writeWaiting k r n halt) := by
  have hgo : (!r.ringActive n || !e.cqFree r n) = false := by rw [hactive, hfree]; rfl
  have hpush (cmdId code notice plan index irq result) := Engine.pushCq_ring k r n cmdId code notice plan index none irq result
    (e.setRing n { e.ring n with waiting := (e.ring n).waiting.erase w })
  rw [Engine.ring_setRing_same] at hpush
  unfold Engine.writeWaiting
  dsimp only
  rw [hfind]
  dsimp only
  rw [hgo, if_neg Bool.false_ne_true]
  cases w with
  | halt cmdId index addr position stream =>
    obtain ⟨hwaiting, hcq⟩ := hpush cmdId 0x28 true false index true (natLE 8 addr.toNat ++ natLE 6 position ++ natLE 2 stream)
    exact ⟨hwaiting, hcq, ((same_setRing ..).mono (by decide)).trans (same_pushCq ..)⟩
  | plan code result =>
    obtain ⟨hwaiting, hcq⟩ := hpush (BitVec.allOnes 64) code false true 0xFFFF false result
    exact ⟨hwaiting, hcq, ((same_setRing ..).mono (by decide)).trans (same_pushCq ..)⟩

end Sys2Proof.Machine

namespace Sys2Proof

open Machine

section
variable {s : State} {ring : BitVec 8}

/-- A completion whose write failed is written again at its place (R269). -/
theorem exec_completionRetry {addr : Nat} {bytes : List Byte} (hout : (s.eng.ring ring.toNat).cqOut = some (addr, bytes))
    (hfailed : (s.eng.ring ring.toNat).cqFailed = true) : exec (.completionRetry ring) s = .next (withEng s
      ((s.eng.setRing ring.toNat { s.eng.ring ring.toNat with cqFailed := false }).memWrite s.kit addr bytes [] 1 (.completion ring.toNat))) := by
  show execCompletionRetry ring s = _
  unfold execCompletionRetry
  rw [State.eff_eq]
  dsimp only
  rw [hout]
  dsimp only
  rw [if_pos hfailed]
  rfl

/-- A fenced entry is released when its fence is met (R278). -/
theorem exec_jobFenceRelease {x : Entry} {rest : List Entry} (hready : (s.eng.ring ring.toNat).ready = x :: rest) (hfence : x.fence = true) :
    exec (.jobFenceRelease ring) s = .next (withEng s (if s.eng.fenceMet ring.toNat = true then
      s.eng.setRing ring.toNat { s.eng.ring ring.toNat with ready := { x with fence := false } :: rest } else s.eng)) := by
  show execJobFenceRelease ring s = _
  unfold execJobFenceRelease
  rw [State.eff_eq]
  dsimp only
  rw [hready]
  dsimp only
  rw [hfence, Bool.true_and]
  rfl

end

/-- Settles O39: each event of the service of a ring, on the ring that it finds. -/
theorem ringServiceGoesOn : Obligations.RingServiceGoesOn := by
  unfold Obligations.RingServiceGoesOn
  intro s ring n g
  refine ⟨fun m d rest hwait => ?lines, fun addr bytes hout hfailed => ?retry, fun hactive hfree => ⟨?halt, ?plan⟩,
    fun x rest hready hfence => ?fence⟩
  case lines =>
    intro again waiting
    have hexec {e : Engine} (he : s.eng.phaseRing s.kit s.regs n (.ok d :: rest) = e) : exec again s = .next (withEng s e) := by
      rw [← he]
      rfl
    refine ⟨fun hbeat => hexec (Engine.phaseRing_sameBeat hwait hbeat), fun hbeat hbad hfew => hexec ?_, fun hbeat hbad hmany => hexec ?_,
      fun hbeat hgood => ⟨_, ?_, ?_, hexec ((Engine.phaseRing_rereads hwait hbeat).trans (if_pos hgood))⟩⟩
    · rw [Engine.phaseRing_rereads hwait hbeat, hbad, if_neg (by decide), if_pos hfew]
      rfl
    · rw [Engine.phaseRing_rereads hwait hbeat, hbad, if_neg (by decide), if_neg (Nat.not_lt.mpr hmany)]
      rfl
    · rw [Engine.ring_setRing_same, Engine.lineReread, Engine.ring_setRing_same]
    · exact (same_lineReread ..).trans ((same_setRing ..).mono (by decide))
  case retry =>
    exact ⟨_, _, exec_completionRetry hout hfailed, Engine.ring_setRing_same .., fun m hm => Engine.ring_setRing_ne hm .., rfl,
      ⟨_, rfl, rfl, rfl, rfl, rfl⟩, only_of_same (((same_setRing ..).mono (by decide)).trans ((same_memWrite ..).mono (by decide)))⟩
  case halt =>
    intro cmdId index addr position stream hfind bytes
    have hwritten := Engine.writeWaiting_writes (halt := true) hactive hfree (by simpa only [beq_true] using hfind) s.kit
    exact ⟨_, rfl, hwritten.waiting, hwritten.cq, only_of_same hwritten.same⟩
  case plan =>
    intro code result hfind bytes
    have hwritten := Engine.writeWaiting_writes (halt := false) hactive hfree (by simpa only [beq_false] using hfind) s.kit
    exact ⟨_, rfl, hwritten.waiting, hwritten.cq, only_of_same hwritten.same⟩
  case fence =>
    have hexec := exec_jobFenceRelease hready hfence
    refine ⟨fun hmet => ?_, fun hunmet => hexec.trans ?_⟩
    · rw [if_pos hmet] at hexec
      exact ⟨_, hexec, Engine.ring_setRing_same .., fun m hm => Engine.ring_setRing_ne hm .., only_of_same (same_setRing ..)⟩
    · rw [if_neg (ne_true_of_eq_false hunmet)]
      rfl

end Sys2Proof

/-!
PROOFS. RING_CREATE (R255, R257, R275): the words of the new ring, its running state, and the job's completion.
-/

namespace Sys2Proof.Machine

/-! ### Words set by an event (R421) -/

section
variable (off v : Nat) (r : Regs)

theorem Regs.word_setBoth_same : (r.setBoth off v).word off = v % 2 ^ 32 := by
  unfold Regs.word Regs.setBoth
  rw [tabGet_put_same, BitVec.toNat_ofNat]

theorem Regs.word_setBoth_ne {o : Nat} (h : o ≠ off) : (r.setBoth off v).word o = r.word o := by
  unfold Regs.word Regs.setBoth
  rw [tabGet_put_ne h]

theorem Regs.shadowWord_setBoth_ne {o : Nat} (h : o ≠ off) : (r.setBoth off v).shadowWord o = r.shadowWord o := by
  unfold Regs.shadowWord Regs.setBoth
  rw [tabGet_put_ne h]

end

/-! ### Fields of bytes and words -/

theorem leNat_lt (bs : List Byte) : leNat bs < 256 ^ bs.length := by
  induction bs with
  | nil => exact Nat.one_pos
  | cons b bs ih =>
    have hb := b.isLt
    show b.toNat + 256 * leNat bs < 256 ^ (bs.length + 1)
    rw [Nat.pow_succ]
    omega

theorem leAt_lt (off len : Nat) (bs : List Byte) : leAt off len bs < 256 ^ len :=
  (leNat_lt _).trans_le (Nat.pow_le_pow_right (by decide) (List.length_take_le ..))

theorem bitOf_eq (i n : Nat) : bitOf i n = decide (n / 2 ^ i % 2 = 1) := Nat.testBit_eq_decide_div_mod_eq

/-! ### The words of the new ring (R275) -/

/-- The parameters of a RING_CREATE fit the fields of the ring's words. -/
structure RingParams.Fits (p : RingParams) : Prop where
  sqBase : p.sqBase < 2 ^ 64
  cqBase : p.cqBase < 2 ^ 64
  sqLog : p.sqLog < 32
  cqLog : p.cqLog < 32
  modeIrq : p.modeIrq < 16
  tenant : p.tenant < 16
  weight : p.weight < 256
  burst : p.burst < 256

/-- The configuration word of the new ring (R275). -/
def RingParams.cfg (p : RingParams) : Nat :=
  2 ^ 31 + 2 ^ 30 * (p.modeIrq % 2) + 2 ^ 27 * (p.modeIrq / 2 % 8) + 2 ^ 22 * p.cqLog + 2 ^ 17 * p.sqLog + p.tenant

/-- The word fits 32 bits, and its highest is set. -/
theorem RingParams.Fits.cfg_range {p : RingParams} (h : p.Fits) : 2 ^ 31 ≤ p.cfg ∧ p.cfg < 2 ^ 32 := by
  obtain ⟨-, -, hsqLog, hcqLog, hmode, htenant, -, -⟩ := h
  unfold RingParams.cfg
  omega

/-- What the register file holds of a ring that RING_CREATE has made (R275). -/
structure RingMade (r : Regs) (n : Nat) (p : RingParams) : Prop where
  active : r.ringActive n = true
  sqBase : r.sqBase n = p.sqBase
  cqBase : r.cqBase n = p.cqBase
  sqSize : r.sqSize n = 2 ^ p.sqLog
  cqSize : r.cqSize n = 2 ^ p.cqLog
  tenant : (r.ringTenant n).toNat = p.tenant
  weight : r.ringWeight n = p.weight
  burst : r.ringBurst n = p.burst

section
variable {n : Nat} {p : RingParams} {r : Regs}

theorem Regs.createRing_made (h : p.Fits) : RingMade (r.createRing n p) n p := by
  obtain ⟨hlow, hhigh⟩ := h.cfg_range
  obtain ⟨hsqBase, hcqBase, hsqLog, hcqLog, hmode, htenant, hweight, hburst⟩ := h
  have hsq : (r.createRing n p).word (ringOff n) = p.sqBase % 2 ^ 32 % 2 ^ 32 ∧
      (r.createRing n p).word (ringOff n + 4) = p.sqBase / 2 ^ 32 % 2 ^ 32 := by
    constructor <;> simp (disch := omega) only [Regs.createRing, List.foldl, Nat.add_zero, Regs.word_setBoth_same, Regs.word_setBoth_ne]
  have hcq : (r.createRing n p).word (ringOff n + 8) = p.cqBase % 2 ^ 32 % 2 ^ 32 ∧
      (r.createRing n p).word (ringOff n + 8 + 4) = p.cqBase / 2 ^ 32 % 2 ^ 32 := by
    constructor <;> simp (disch := omega) only [Regs.createRing, List.foldl, Nat.add_assoc, Nat.reduceAdd, Regs.word_setBoth_same,
      Regs.word_setBoth_ne]
  have hcfg : (r.createRing n p).word (ringOff n + 0x10) = p.cfg := by
    rw [← Nat.mod_eq_of_lt hhigh, RingParams.cfg]
    simp (disch := omega) only [Regs.createRing, List.foldl, Regs.word_setBoth_same, Regs.word_setBoth_ne]
  have hwrr : (r.createRing n p).word (ringOff n + 0x14) = (256 * p.weight + p.burst) % 2 ^ 32 := by
    simp (disch := omega) only [Regs.createRing, List.foldl, Regs.word_setBoth_same]
  obtain ⟨hsqLow, hsqHigh⟩ := hsq
  obtain ⟨hcqLow, hcqHigh⟩ := hcq
  constructor
  case active =>
    rw [Regs.ringActive, hcfg, bitOf_eq, decide_eq_true_eq]
    omega
  case sqBase =>
    rw [Regs.sqBase, Regs.pair, hsqLow, hsqHigh]
    omega
  case cqBase =>
    rw [Regs.cqBase, Regs.pair, hcqLow, hcqHigh]
    omega
  case sqSize =>
    rw [Regs.sqSize, Regs.fld, hcfg, bits, RingParams.cfg]
    exact congrArg (2 ^ ·) (by omega)
  case cqSize =>
    rw [Regs.cqSize, Regs.fld, hcfg, bits, RingParams.cfg]
    exact congrArg (2 ^ ·) (by omega)
  case tenant =>
    rw [Regs.ringTenant, Regs.fld, hcfg, bits, BitVec.toNat_ofNat, RingParams.cfg]
    omega
  case weight =>
    rw [Regs.ringWeight, Regs.fld, hwrr, bits]
    omega
  case burst =>
    rw [Regs.ringBurst, Regs.fld, hwrr, bits]
    omega

/-- RING_CREATE sets the six words of its ring alone (R275). -/
theorem Regs.createRing_others {off : Nat} (h : off < ringOff n ∨ ringOff n + 0x18 ≤ off) :
    (r.createRing n p).word off = r.word off ∧ (r.createRing n p).shadowWord off = r.shadowWord off := by
  constructor <;> simp (disch := omega) only [Regs.createRing, List.foldl, Regs.word_setBoth_ne, Regs.shadowWord_setBoth_ne]

end

/-! ### The conditions of a RING_CREATE -/

/-- Parameters against which no condition stands fit their fields (R275). -/
theorem ringParams_fits {r : Regs} {n : Nat} {x : Entry} {e : Engine} (h : NoneHolds (e.ringConds r n x)) : (ringParamsOf x.params).Fits := by
  unfold Engine.ringConds at h
  simp only [noneHolds_cons] at h
  obtain ⟨-, -, -, -, hfields, -⟩ := h
  simp only [Bool.or_eq_false_iff, Bool.not_eq_false', Bool.and_eq_true, decide_eq_true_eq, decide_eq_false_iff_not] at hfields
  obtain ⟨⟨⟨⟨⟨⟨⟨⟨-, hsq⟩, ⟨-, hcq⟩⟩, hmode⟩, -⟩, -⟩, -⟩, hburst⟩, -⟩ := hfields
  exact
    { sqBase := leAt_lt 0 8 x.params, cqBase := leAt_lt 8 8 x.params, sqLog := by omega, cqLog := by omega, modeIrq := by omega
      tenant := Nat.mod_lt _ (by decide), weight := leAt_byte_lt 20 x.params, burst := by omega }

theorem lowestFrom_holds {p : Nat → Bool} {k fuel n : Nat} (h : lowestFrom p k fuel = some n) : p n = true := by
  induction fuel generalizing k with
  | zero => cases h
  | succ fuel ih =>
    unfold lowestFrom at h
    split at h
    next hp =>
      cases h
      exact hp
    next => exact ih h

/-- The ring that a RING_CREATE makes is not active (R255). -/
theorem Regs.freeRing_inactive {r : Regs} {m : Nat} (h : r.freeRing = some m) : r.ringActive m = false := by
  simpa using lowestFrom_holds h

/-! ### Rings that a completion leaves (R266, R276) -/

theorem Engine.completeOne_ring_ne (k : Kit) (r : Regs) {id : JobId} {m : Nat} (h : m ≠ id.ring) (code : Code) (plan : Bool)
    (result : List Byte) (e : Engine) : (e.completeOne k r id code plan result).ring m = e.ring m := by
  unfold Engine.completeOne Engine.pushCq
  dsimp only
  obtain ⟨-, hothers, -⟩ := Engine.issueCq_rings k r id.ring _
  rw [hothers m h, Engine.ring_setRing_ne h, Engine.ring_setRing_ne h]
  rfl

/-- Where no DRAIN is in flight, none ends. -/
theorem Engine.endDrains_idle {e : Engine} (h : e.vault.drains = []) (k : Kit) (r : Regs) : e.endDrains k r = e := by
  unfold Engine.endDrains
  rw [h]
  rfl

/-- A completion leaves every other ring when no DRAIN is in flight. -/
theorem Engine.complete_ring_ne {e : Engine} (hdrains : e.vault.drains = []) (k : Kit) (r : Regs) {id : JobId} {m : Nat} (h : m ≠ id.ring)
    (code : Code) (result : List Byte) : (e.complete k r id code result).ring m = e.ring m := by
  unfold Engine.complete Engine.completeWith
  rw [Engine.endDrains_idle ((congrArg Vault.drains (Engine.completeOne_vault ..)).trans hdrains), Engine.completeOne_ring_ne k r h]

end Sys2Proof.Machine

namespace Sys2Proof

open Machine

/-- That an entry has been taken and has its completion is about the engine alone. -/
theorem completed_of_eng {s t u : State} {n : Nat} {x : Entry} {code : Code} {result : List Byte} (heng : u.eng = t.eng)
    (h : Completed s t n x code result ∧ Taken s t n) : Completed s u n x code result ∧ Taken s u n := by
  unfold Completed Taken at h ⊢
  rwa [heng]

/-- A ring that starts an entry is active (R277). -/
theorem Starts.active {s : State} {n op : Nat} {x : Entry} (h : Starts s n op x) : s.regs.ringActive n = true := by
  obtain ⟨-, hstart, -, -⟩ := h
  unfold Engine.mayStart Engine.entryReady at hstart
  simp only [Bool.and_eq_true] at hstart
  obtain ⟨⟨-, ⟨⟨⟨hactive, -⟩, -⟩, -⟩⟩, -⟩ := hstart
  exact hactive

section
variable {s : State} {ring : BitVec 8} {x : Entry}

/-- The engine with the entry taken and ring `m` as it is when it has just become active. -/
def ringStarted (s : State) (n m : Nat) : Engine := (taken s n).setRing m Ring.fresh

theorem same_ringStarted {n m : Nat} : Same [.rings, .budget, .count] s.eng (ringStarted s n m) :=
  (same_taken s n).trans ((same_setRing ..).mono (by decide))

/-- The state once a RING_CREATE has made ring `m` and completed. -/
def ringCreated (s : State) (n m : Nat) (x : Entry) : State :=
  { s with regs := s.regs.createRing m (ringParamsOf x.params)
           eng := (ringStarted s n m).complete s.kit s.regs (x.jobId n) 0 (natLE 1 m) }

theorem ringCreated_eng (s : State) (n m : Nat) (x : Entry) :
    (ringCreated s n m x).eng = (ringStarted s n m).complete s.kit s.regs (x.jobId n) 0 (natLE 1 m) := by
  dsimp only [ringCreated]

theorem exec_ringCreate_made {m : Nat} (hstart : Starts s ring.toNat 0x0C x)
    (hnone : NoneHolds ((taken s ring.toNat).ringConds s.regs ring.toNat x)) (hfree : s.regs.freeRing = some m) :
    exec (.ringCreate ring) s = .next (ringCreated s ring.toNat m x) := by
  have hjudge : judge ((s.eng.takeEntry s.regs ring.toNat).ringConds s.regs ring.toNat x) = none := judge_none.mpr hnone
  obtain ⟨⟨rest, hready⟩, hmay, hopcode, -⟩ := hstart
  show execRingCreate ring s = _
  unfold execRingCreate
  rw [State.effRegs_eq]
  simp only [hready, hmay, hopcode, bne_self_eq_false, Bool.not_true, Bool.or_self, Bool.false_eq_true, if_false, hjudge, hfree]
  rfl

theorem exec_ringCreate_refused {code : Code} (hstart : Starts s ring.toNat 0x0C x)
    (hcode : judge ((taken s ring.toNat).ringConds s.regs ring.toNat x) = some code) : exec (.ringCreate ring) s =
      .next (withEng s ((taken s ring.toNat).complete s.kit s.regs (x.jobId ring.toNat) code [])) := by
  have hjudge : judge ((s.eng.takeEntry s.regs ring.toNat).ringConds s.regs ring.toNat x) = some code := hcode
  obtain ⟨⟨rest, hready⟩, hmay, hopcode, -⟩ := hstart
  show execRingCreate ring s = _
  unfold execRingCreate
  rw [State.effRegs_eq]
  simp only [hready, hmay, hopcode, bne_self_eq_false, Bool.not_true, Bool.or_self, Bool.false_eq_true, if_false, hjudge]
  rfl

end

/-- Settles O41: nothing stands against the job, so it makes a ring and completes; or a condition holds, and it is refused. The lowest free
ring is not active, so it is not the ring of the job. -/
theorem ringCreateMakesTheLowestFreeRing : Obligations.RingCreateMakesTheLowestFreeRing := by
  unfold Obligations.RingCreateMakesTheLowestFreeRing
  intro s ring x n p hstart
  refine ⟨fun m hnone hfree => ?made, fun code hcode => ?refused⟩
  case made =>
    have hne : n ≠ m := by
      rintro rfl
      exact Bool.false_ne_true ((Regs.freeRing_inactive hfree).symm.trans hstart.active)
    have hmade := Regs.createRing_made (n := m) (r := s.regs) (ringParams_fits hnone)
    obtain ⟨hcompleted, htaken⟩ := completed_of_eng (u := ringCreated s n m x) rfl
      (completed_complete (e := ringStarted s n m) (Engine.ring_setRing_ne hne ..) x 0 (natLE 1 m))
    have hsame : Same [.rings, .budget, .count, .mem, .out, .vault] s.eng (ringCreated s n m x).eng := by
      rw [ringCreated_eng]
      exact (same_ringStarted.mono (by decide)).trans ((same_complete ..).mono (by decide))
    refine ⟨ringCreated s n m x, exec_ringCreate_made hstart hnone hfree, hmade.active, hmade.sqBase, hmade.cqBase, hmade.sqSize, hmade.cqSize,
      hmade.tenant, hmade.weight, hmade.burst, fun off hoff => Regs.createRing_others hoff, fun hdrains => ?fresh, hcompleted, htaken, rfl, rfl,
      hsame⟩
    case fresh =>
      have hdrains : (ringStarted s n m).vault.drains = [] := (congrArg Vault.drains (Engine.takeEntry_vault ..)).trans hdrains
      rw [ringCreated_eng, Engine.complete_ring_ne hdrains s.kit s.regs (show m ≠ (x.jobId n).ring from hne.symm)]
      exact Engine.ring_setRing_same ..
  case refused =>
    obtain ⟨hcompleted, htaken⟩ := completed_complete (e := taken s n) rfl x code []
    exact ⟨_, exec_ringCreate_refused hstart hcode, hcompleted, htaken,
      only_of_same (((same_taken s n).mono (by decide)).trans ((same_complete ..).mono (by decide)))⟩

end Sys2Proof

/-!
PROOFS. Host queues of the vault (R261, R263, R265, R286, R287, R309): doorbells, lines read again, resets.
-/

namespace Sys2Proof.Machine

/-! ### What a doorbell announces or frees -/

/-- Lines of the IN window from IN_HEAD to line `x` (R264, R286). -/
def Engine.inAhead (r : Regs) (q x : Nat) (e : Engine) : Nat := (x + r.inSize q - e.inHead r q) % r.inSize q

/-- Lines of the OUT window from OUT_HEAD to line `x` (R287). -/
def Engine.outFreed (r : Regs) (q x : Nat) (e : Engine) : Nat := (x + r.outSize q - (e.vq q).outHead) % r.outSize q

/-- The lines of the IN window of queue `q` up to `t` announced; none that was kept is read again. -/
def Engine.announceIn (q t : Nat) (e : Engine) : Engine :=
  let told := e.setVq q { e.vq q with inTail := t }
  told.setVq q { told.vq q with unread := [] }

theorem Engine.vq_announceIn_same (q t : Nat) (e : Engine) : (e.announceIn q t).vq q = { e.vq q with inTail := t, unread := [] } := by
  unfold Engine.announceIn
  rw [Engine.vq_setVq_same, Engine.vq_setVq_same]

theorem Engine.vq_announceIn_ne {m q : Nat} (h : m ≠ q) (t : Nat) (e : Engine) : (e.announceIn q t).vq m = e.vq m :=
  (Engine.vq_setVq_ne h ..).trans (Engine.vq_setVq_ne h ..)

theorem same_announceIn (q t : Nat) (e : Engine) : Same [.vault] e (e.announceIn q t) := (same_setVq ..).trans (same_setVq ..)

section
variable {k : Kit} {r : Regs} {q : Nat} {value : Word} {e : Engine}

theorem Engine.vqIn_ignored (h : r.vqActive q = false ∨ r.inSize q ≤ value.toNat ∨ e.inAhead r q value.toNat < e.inAhead r q (e.vq q).inTail)
    (lines : List LineRead) : e.vqIn k r q value lines = (e.bump Ctr.badDoorbells 1).raise k r 0x2C (r.queueConcerned q) :=
  if_pos (by simp only [Bool.or_eq_true, Bool.not_eq_true', decide_eq_true_eq, or_assoc]; exact h)

/-- A good VQ_IN_DB announces its lines, which are read unless the next one waits on its PHASE (R263, R286). -/
theorem Engine.vqIn_good (hactive : r.vqActive q = true) (hsize : value.toNat < r.inSize q)
    (hahead : e.inAhead r q (e.vq q).inTail ≤ e.inAhead r q value.toNat) (hstate : e.power.state = 0) (hentering : e.power.entering = false)
    (lines : List LineRead) : e.vqIn k r q value lines =
      if (e.vq q).phaseWait.isSome = true then e.setVq q { e.vq q with inTail := value.toNat }
      else (e.announceIn q value.toNat).frameIn k r q lines := by
  have hgood : (!r.vqActive q || decide (r.inSize q ≤ value.toNat) ||
      decide (e.inAhead r q value.toNat < e.inAhead r q (e.vq q).inTail)) = false := by simp [hactive, hsize, hahead]
  refine (if_neg (ne_true_of_eq_false hgood)).trans ?_
  dsimp only
  rw [Engine.wake_awake (e := e.setVq q _) hentering hstate]
  rfl

theorem Engine.vqOut_ignored (h : r.vqActive q = false ∨ r.outSize q ≤ value.toNat ∨ e.outUnreleased r q < e.outFreed r q value.toNat) :
    e.vqOut k r q value = (e.bump Ctr.badDoorbells 1).raise k r 0x2C (r.queueConcerned q) :=
  if_pos (by simp only [Bool.or_eq_true, Bool.not_eq_true', decide_eq_true_eq, or_assoc]; exact h)

/-- A good VQ_OUT_DB frees the lines that it passes, and what waits for them goes on (R287). -/
theorem Engine.vqOut_good (hactive : r.vqActive q = true) (hsize : value.toNat < r.outSize q)
    (hfreed : e.outFreed r q value.toNat ≤ e.outUnreleased r q) : e.vqOut k r q value =
      ((e.setVq q { e.vq q with outHead := value.toNat }).pumpOut k r q).resumeIn k r q := by
  have hgood : (!r.vqActive q || decide (r.outSize q ≤ value.toNat) || decide (e.outUnreleased r q < e.outFreed r q value.toNat)) = false := by
    simp [hactive, hsize, hfreed]
  exact if_neg (ne_true_of_eq_false hgood)

/-- Where no command has been carried out, nothing goes out. -/
theorem Engine.pumpOut_idle (h : ∀ c ∈ (e.vq q).cmds, c.answer = none) (k : Kit) (r : Regs) : e.pumpOut k r q = e :=
  List.foldlRecOn (motive := fun a => a = e) _ _ rfl fun _ ha _ _ => ha.symm ▸ Engine.serveOut_idle (fun c hc _ => h c hc) _

/-- Where no line has been kept, framing has nothing to go on with. -/
theorem Engine.resumeIn_idle (h : (e.vq q).unread = []) (k : Kit) (r : Regs) : e.resumeIn k r q = e := by
  unfold Engine.resumeIn
  dsimp only
  rw [h]
  rfl

end

/-! ### A header line without payload -/

/-- The IN window of queue `q` has announced one line and reads nothing yet, and `d` is a header line with the PHASE expected and no payload
(R263, R286). -/
structure BarePacket (r : Regs) (q : Nat) (d : LineData) (e : Engine) : Prop where
  size : 2 ≤ r.inSize q
  place : (e.vq q).inFetch < r.inSize q
  announced : (e.vq q).inTail = ((e.vq q).inFetch + 1) % r.inSize q
  chain : (e.vq q).chain = []
  phase : d.getLsbD 0 = (e.vq q).inPhase
  bare : lineCount d = 0

/-- IN window of a queue whose next line has been a packet without payload. -/
def VQueue.packetIn (size : Nat) (d : LineData) (v : VQueue) : VQueue :=
  { v.advance size with chain := [], packets := v.packets ++ [{ hdr := lineHdr d, payload := [], rsv := lineRsv d }] }

/-- What a window that has framed such a line has: the packet is its newest, and its line is consumed. -/
structure BareFramed (r : Regs) (q : Nat) (d : LineData) (a b : Engine) : Prop where
  queue : b.vq q = (a.vq q).packetIn (r.inSize q) d
  others : ∀ m, m ≠ q → b.vq m = a.vq m
  same : Same [.vault] a b

theorem BarePacket.frameIn {r : Regs} {q : Nat} {d : LineData} {e : Engine} (h : BarePacket r q d e) (k : Kit) :
    BareFramed r q d e (e.frameIn k r q [.ok d]) := by
  obtain ⟨hne, hone, -⟩ := next_line h.size h.place
  have hheader : e.frameHeader k r q (.ok d) = (e.setVq q ((e.vq q).packetIn (r.inSize q) d), true) := by
    unfold Engine.frameHeader
    dsimp only
    rw [if_neg (not_not.mpr h.phase), if_neg (by rw [h.bare]; decide), if_neg (by rw [h.bare, h.announced, hone]; decide), if_pos h.bare]
    rfl
  have hline : e.frameIn k r q [.ok d] = e.setVq q ((e.vq q).packetIn (r.inSize q) d) := by
    unfold Engine.frameIn
    dsimp only
    rw [if_neg (by rw [h.announced]; exact hne.symm), h.chain, List.isEmpty_nil, Bool.true_or, if_pos rfl, hheader]
    rfl
  rw [hline]
  exact ⟨Engine.vq_setVq_same .., fun m hm => Engine.vq_setVq_ne hm .., same_setVq ..⟩

/-! ### Lines read again (R263, R265) -/

/-- A window whose line still has another PHASE waits on, up to 16 re-reads. -/
theorem Engine.phaseQueue_waits {r : Regs} {q n : Nat} {d : LineData} {e : Engine} (hwait : (e.vq q).phaseWait = some n)
    (hbeat : (e.vq q).phaseBeat ≠ e.beat.num) (hbad : d.getLsbD 0 ≠ (e.vq q).inPhase) (hfew : n + 1 < 16) (k : Kit) (rest : List LineRead) :
    e.phaseQueue k r q (.ok d :: rest) =
      (e.bump Ctr.phaseRetries 1).setVq q { e.vq q with chain := [d], phaseWait := some (n + 1), phaseBeat := e.beat.num } := by
  unfold Engine.phaseQueue
  simp only [hwait, hbeat, hbad, hfew, if_false, if_true, ne_eq, not_false_eq_true]
  rfl

theorem Engine.phaseQueue_sameBeat {r : Regs} {q n : Nat} {d : LineData} {e : Engine} (hwait : (e.vq q).phaseWait = some n)
    (hbeat : (e.vq q).phaseBeat = e.beat.num) (k : Kit) (rest : List LineRead) : e.phaseQueue k r q (.ok d :: rest) = e := by
  unfold Engine.phaseQueue
  simp only [hwait, hbeat, if_true]

theorem Engine.vq_emit (m : Nat) (o : Output) (e : Engine) : (e.emit o).vq m = e.vq m := rfl

theorem Engine.counter_emit (off : Nat) (o : Output) (e : Engine) : (e.emit o).counter off = e.counter off := rfl

theorem Engine.counter_setVq (off q : Nat) (v : VQueue) (e : Engine) : (e.setVq q v).counter off = e.counter off := rfl

/-! ### Resets (R309) -/

section
variable {q : Nat} {tell : VCmd → Bool} (htell : ∀ c, tell c = false) (k : Kit) (r : Regs) (p : VCmd → Bool) (code : Code) (e : Engine)

include htell

/-- Commands that end without a RESP are dropped, counted and logged. -/
theorem same_abortCmds : Same [.vault, .front, .count, .draws, .cycle] e (e.abortCmds k r q p tell code) := by
  unfold Engine.abortCmds Engine.abortCmd
  refine Same.forEach (fun c e => ?_) _ e
  rw [htell, if_neg Bool.false_ne_true]
  exact ((same_dropCmd q c e).mono (by decide)).trans ((same_countCmd q c code 0 _).mono (by decide))

theorem Engine.counter_abortCmds {off : Nat} (hdone : off ≠ Ctr.cmdsDone) (hfailed : off ≠ Ctr.cmdsFailed) :
    (e.abortCmds k r q p tell code).counter off = e.counter off := by
  unfold Engine.abortCmds Engine.abortCmd
  refine Engine.forEach_keeps (fun e => e.counter off) _ (fun c e => ?_) _ e
  rw [htell, if_neg Bool.false_ne_true]
  exact Engine.countCmd_counter hdone hfailed q c code 0 _

end

/-- Where no command is in flight, none ends. -/
theorem Engine.abortCmds_none {q : Nat} {e : Engine} (h : (e.vq q).cmds = []) (k : Kit) (r : Regs) (p tell : VCmd → Bool) (code : Code) :
    e.abortCmds k r q p tell code = e := by
  unfold Engine.abortCmds
  rw [h]
  rfl

/-- VQ_RESET names a queue that exists and is not being reset, in a word without reserved bits (R309). -/
structure ResetAsked (k : Kit) (value : Word) (e : Engine) : Prop where
  go : value.getLsbD 31 = true
  reserved : bits 30 6 value.toNat = 0
  exists_ : value.toNat % 64 < 16 + k.linkPorts
  idle : (e.vq (value.toNat % 64)).resetting = false

section
variable {k : Kit} {value : Word} {e : Engine}

theorem ResetAsked.accepted (h : ResetAsked k value e) : ¬ (!value.getLsbD 31 ∨ bits 30 6 value.toNat ≠ 0 ∨
    16 + k.linkPorts ≤ value.toNat % 64 ∨ (e.vq (value.toNat % 64)).resetting) := by
  have hexists := h.exists_
  simp [h.go, h.reserved, h.idle]
  omega

/-- The engine whose commands of queue `q` have ended without a RESP, its reset counted. -/
def Engine.resetCounted (k : Kit) (r : Regs) (q : Nat) (e : Engine) : Engine :=
  (e.abortCmds k r q (fun _ => true) (fun _ => false) 0x60).bump Ctr.queueResets 1

theorem same_resetCounted (k : Kit) (r : Regs) (q : Nat) (e : Engine) :
    Same [.vault, .front, .count, .draws, .cycle] e (e.resetCounted k r q) :=
  (same_abortCmds (fun _ => rfl) ..).trans ((same_bump ..).mono (by decide))

theorem Engine.counter_resetCounted (k : Kit) (r : Regs) (q : Nat) (e : Engine) :
    (e.resetCounted k r q).counter Ctr.queueResets = e.counter Ctr.queueResets + 1 := by
  unfold Engine.resetCounted
  rw [Engine.counter_bump_same, Engine.counter_abortCmds (fun _ => rfl) _ _ _ _ _ (by decide) (by decide)]
  rfl

/-- A reset of a host queue (R309): its commands end without a RESP, its writes are forgotten, and it is empty and not active. -/
theorem Engine.vqResetWrite_host (h : ResetAsked k value e) (hhost : value.toNat % 64 < 16) (r : Regs) :
    let q := value.toNat % 64
    ∃ m, e.vqResetWrite k r value = (r.setBoth (vqOff q + 0x10) (r.word (vqOff q + 0x10) % 2 ^ 31),
      ({ e.resetCounted k r q with mem := m } : Engine).setVq q { VQueue.fresh with resetting := true }) := by
  intro q
  have hinside : isHost (value.toNat % 64) = true := decide_eq_true hhost
  unfold Engine.vqResetWrite
  dsimp only
  rw [if_neg h.accepted, hinside, if_pos rfl]
  exact ⟨_, rfl⟩

/-- A reset of a link queue without commands is noted (R309). -/
theorem Engine.vqResetWrite_link (h : ResetAsked k value e) (hlink : 16 ≤ value.toNat % 64) (hcmds : (e.vq (value.toNat % 64)).cmds = [])
    (r : Regs) :
    let q := value.toNat % 64
    e.vqResetWrite k r value = (r, (e.bump Ctr.queueResets 1).setVq q { e.vq q with resetting := true }) := by
  intro q
  have houtside : isHost (value.toNat % 64) = false := decide_eq_false (Nat.not_lt.mpr hlink)
  unfold Engine.vqResetWrite
  dsimp only
  rw [if_neg h.accepted, houtside, if_neg Bool.false_ne_true, Engine.abortCmds_none hcmds]
  rfl

/-- A host queue whose VQ_CFG has lost bit 31 is not active. -/
theorem Regs.vqActive_setBoth (q : Nat) (r : Regs) : (r.setBoth (vqOff q + 0x10) (r.word (vqOff q + 0x10) % 2 ^ 31)).vqActive q = false := by
  rw [Regs.vqActive, Regs.word_setBoth_same, bitOf_eq, decide_eq_false_iff_not]
  omega

end

end Sys2Proof.Machine

namespace Sys2Proof

open Machine

/-- A write of VQ_RESET on the open CFG port is carried out and then answered (R309, R381). -/
theorem exec_vqReset {s : State} {value : Word} {r : Regs} {e : Engine} (hopen : s.eng.cfgOpen = true)
    (hwrite : s.eng.vqResetWrite s.kit s.regs value = (r, e)) :
    exec (.vqReset value) s = .next { s with regs := r, eng := e.emit .cfgDone } := by
  show execVqReset value s = _
  unfold execVqReset
  rw [State.effRegs_eq]
  simp only [hopen, if_true, hwrite]

/-- What a reset of host queue `q` leaves: it is empty and its reset runs, the reset is counted, and other groups are as they were. -/
structure HostReset (q : Nat) (a b : Engine) : Prop where
  queue : b.vq q = { VQueue.fresh with resetting := true }
  counter : b.counter Ctr.queueResets = a.counter Ctr.queueResets + 1
  same : Same [.vault, .front, .count, .draws, .cycle, .mem, .out] a b

theorem hostReset_counted (k : Kit) (r : Regs) (q : Nat) (m : Mem) (e : Engine) :
    HostReset q e ((({ e.resetCounted k r q with mem := m } : Engine).setVq q { VQueue.fresh with resetting := true }).emit .cfgDone) where
  queue := (Engine.vq_emit ..).trans (Engine.vq_setVq_same ..)
  counter := ((Engine.counter_emit ..).trans (Engine.counter_setVq ..)).trans (Engine.counter_resetCounted k r q e)
  same := by
    have hmem (e : Engine) : Same [.mem] e { e with mem := m } := by simp [Same]
    have hemit (e : Engine) : Same [.out] e (e.emit .cfgDone) := by simp [Same]
    exact ((same_resetCounted k r q e).mono (by decide)).trans (((hmem _).mono (by decide)).trans
      (((same_setVq ..).mono (by decide)).trans ((hemit _).mono (by decide))))

/-- Settles O56: a doorbell is ignored or it is good; a window reads its line again or waits; a reset empties a host queue and is noted for a
link queue. That the TENANT of 0x2C is none for a queue that is not active is the model's reading (log 73). -/
theorem vaultDoorbellsAndResets : Obligations.VaultDoorbellsAndResets := by
  unfold Obligations.VaultDoorbellsAndResets
  refine ⟨?doorbells, ?retry, ?reset, ?done⟩
  case doorbells =>
    intro s queue value hopen q v size ahead freed
    have hin {lines : List LineRead} {e : Engine} (he : s.eng.vqIn s.kit s.regs q value lines = e) :
        exec (.vqInDb queue value lines) s = .next (driven (withEng s e) [.cfgDone]) := by
      rw [← he]
      exact effCfg_open hopen fun k r e => e.vqIn k r q value lines
    have hout {e : Engine} (he : s.eng.vqOut s.kit s.regs q value = e) :
        exec (.vqOutDb queue value) s = .next (driven (withEng s e) [.cfgDone]) := by
      rw [← he]
      exact effCfg_open hopen fun k r e => e.vqOut k r q value
    obtain ⟨hraised, -, -, honly⟩ := doorbell_ignored s (s.regs.queueConcerned q)
    refine ⟨fun lines hbad => ⟨_, hin (Engine.vqIn_ignored hbad lines), hraised, honly⟩, fun hactive hsize hahead hstate hentering => ?inDb,
      fun hbad => ⟨_, hout (Engine.vqOut_ignored hbad), hraised, honly⟩, fun hactive hsize hfreed => ?outDb⟩
    case inDb =>
      have hgood (lines : List LineRead) := Engine.vqIn_good (k := s.kit) hactive hsize hahead hstate hentering lines
      have hreads (hwait : v.phaseWait = none) (lines : List LineRead) := (hgood lines).trans (if_neg (by rw [hwait]; decide))
      have hannounced := Engine.vq_announceIn_same q value.toNat s.eng
      refine ⟨fun lines hwait => hin ((hgood lines).trans (if_pos hwait)),
        fun lines hwait => ⟨s.eng.announceIn q value.toNat, hannounced, fun m hm => Engine.vq_announceIn_ne hm .., same_announceIn ..,
          hin (hreads hwait lines)⟩,
        fun d hwait hchain hplace hsome hnext hphase hbare => ?packet⟩
      case packet =>
        have hpacket : BarePacket s.regs q d (s.eng.announceIn q value.toNat) := by
          refine ⟨hsome, ?place, ?announced, ?chain, ?phase, hbare⟩ <;> rw [hannounced]
          case place => exact hplace
          case announced => exact hnext
          case chain => exact hchain
          case phase => exact hphase
        have hexec := hin (hreads hwait [.ok d])
        have hframed := hpacket.frameIn s.kit
        generalize Engine.frameIn _ _ _ _ _ = b at hexec hframed
        obtain ⟨hqueue, hothers, hsame⟩ := hframed
        replace hsame := (same_announceIn ..).trans hsame
        rw [hannounced] at hqueue
        exact ⟨_, hexec, congrArg VQueue.packets hqueue, congrArg VQueue.inTail hqueue, (congrArg VQueue.inFetch hqueue).trans hnext.symm,
          fun m hm => (hothers m hm).trans (Engine.vq_announceIn_ne hm ..), congrArg (· ++ _) (hsame.groups.out.resolve_left (by decide)),
          only_answered (by decide) (hsame.mono (by decide)) _⟩
    case outDb =>
      have hexec := hout (Engine.vqOut_good hactive hsize hfreed)
      refine ⟨hexec, fun hquiet hkept => hexec.trans ?_⟩
      have hqueue := Engine.vq_setVq_same q { v with outHead := value.toNat } s.eng
      rw [Engine.pumpOut_idle (by rw [hqueue]; exact hquiet), Engine.resumeIn_idle (by rw [hqueue]; exact hkept)]
  case retry =>
    intro s queue n d rest q v hwait
    have hexec {e : Engine} (he : s.eng.phaseQueue s.kit s.regs q (.ok d :: rest) = e) :
        exec (.phaseRetry (.queue queue) (.ok d :: rest)) s = .next (withEng s e) := by
      rw [← he]
      rfl
    refine ⟨fun hbeat => hexec (Engine.phaseQueue_sameBeat hwait hbeat ..), fun hbeat hbad hfew => ?_⟩
    refine ⟨_, hexec (Engine.phaseQueue_waits hwait hbeat hbad hfew ..), ?_⟩
    rw [withEng_eng]
    exact ⟨(Engine.counter_setVq ..).trans (Engine.counter_bump_same ..), Engine.vq_setVq_same ..,
      fun m hm => Engine.vq_setVq_ne hm .., only_of_same (((same_bump ..).mono (by decide)).trans ((same_setVq ..).mono (by decide)))⟩
  case reset =>
    intro s value hopen hgo hreserved q hidle
    refine ⟨fun hhost => ?host, fun hlink hexists hcmds => ?link⟩
    case host =>
      have hasked : ResetAsked s.kit value s.eng := ⟨hgo, hreserved, Nat.lt_add_right _ hhost, hidle⟩
      obtain ⟨m, hwrite⟩ := Engine.vqResetWrite_host hasked hhost s.regs
      have hreset := hostReset_counted s.kit s.regs q m s.eng
      have hexec := exec_vqReset hopen hwrite
      generalize Engine.emit _ _ = b at hexec hreset
      exact ⟨_, hexec, hreset.queue, Regs.vqActive_setBoth q s.regs, fun off hoff => ⟨Regs.word_setBoth_ne _ _ _ hoff,
        Regs.shadowWord_setBoth_ne _ _ _ hoff⟩, hreset.counter, rfl, rfl, hreset.same⟩
    case link =>
      have hasked : ResetAsked s.kit value s.eng := ⟨hgo, hreserved, hexists, hidle⟩
      refine ⟨_, exec_vqReset hopen (Engine.vqResetWrite_link hasked hlink hcmds s.regs), ?_⟩
      dsimp only
      simp only [Engine.vq_emit, Engine.counter_emit]
      exact ⟨Engine.vq_setVq_same .., fun m hm => Engine.vq_setVq_ne hm .., (Engine.counter_setVq ..).trans (Engine.counter_bump_same ..), rfl,
        only_answered (by decide) (((same_bump ..).mono (by decide)).trans ((same_setVq ..).mono (by decide))) _⟩
  case done =>
    intro s queue
    exact ⟨_, rfl, Engine.vq_setVq_same .., fun m hm => Engine.vq_setVq_ne hm .., only_of_same (same_setVq ..)⟩

end Sys2Proof

/-!
PROOFS. The condition of a request that comes first (R14), and the jobs of a FREE slot (R316).
-/

namespace Sys2Proof.Machine

/-! ### The order of refusals (R14) -/

/-- No two codes have one rank. -/
theorem refusalRank_injective {c d : Code} (h : refusalRank c = refusalRank d) : c = d := by
  have hc := c.isLt
  have hd := d.isLt
  refine BitVec.eq_of_toNat_eq ?_
  unfold refusalRank at h
  dsimp only at h
  split_ifs at h <;> omega

/-- A request to which a condition applies is refused, with a code whose rank no other condition undercuts. -/
theorem judge_le_of_mem {l : List (Bool × Code)} {c : Code} (h : (true, c) ∈ l) : ∃ d, judge l = some d ∧ refusalRank d ≤ refusalRank c := by
  induction l with
  | nil => cases h
  | cons p l ih =>
    obtain ⟨b, a⟩ := p
    unfold judge
    rcases List.mem_cons.mp h with heq | hmem
    · obtain ⟨rfl, rfl⟩ := Prod.mk.inj heq
      cases judge l with
      | none => exact ⟨c, rfl, le_rfl⟩
      | some d =>
        by_cases hle : refusalRank c ≤ refusalRank d
        · exact ⟨c, by simp [hle], le_rfl⟩
        · exact ⟨d, by simp [hle], by omega⟩
    · obtain ⟨d, hd, hle⟩ := ih hmem
      rw [hd]
      dsimp only
      split
      next hb =>
        simp only [Bool.and_eq_true, decide_eq_true_eq] at hb
        exact ⟨a, rfl, hb.2.trans hle⟩
      next => exact ⟨d, rfl, hle⟩

/-- The condition that comes first in the order of R14 gives the code. -/
theorem judge_eq_some {l : List (Bool × Code)} {c : Code} (h : (true, c) ∈ l)
    (hfirst : ∀ d, (true, d) ∈ l → refusalRank c ≤ refusalRank d) : judge l = some c := by
  obtain ⟨d, hd, hle⟩ := judge_le_of_mem h
  rw [hd, refusalRank_injective (Nat.le_antisymm hle (hfirst d (judge_some_mem hd)))]

/-- A slot that is FREE comes before every other condition. -/
theorem judge_slotFree {l : List (Bool × Code)} (h : (true, 0x40) ∈ l) : judge l = some 0x40 := judge_eq_some h fun _ _ => Nat.zero_le _

section
variable {k : Kit} {r : Regs} {n : Nat} {x : Entry} {conds : List (Bool × Code)} {e : Engine} (h : (true, 0x40) ∈ conds)
include h

theorem judge_header_slotFree : judge ((x.badHeader, 0x11) :: conds) = some 0x40 := judge_slotFree (List.mem_cons_of_mem _ h)

theorem Engine.judged_slotFree (go : Engine → Engine) : e.judged k r n x conds go = e.complete k r (x.jobId n) 0x40 [] :=
  Engine.judged_refuse (judge_header_slotFree h)

theorem Engine.judgedData_slotFree (d : HostRead) (later : List Byte → List (Bool × Code)) (go : List Byte → Engine → Engine) :
    e.judgedData k r n x conds d later go = e.complete k r (x.jobId n) 0x40 [] := Engine.judged_slotFree h _

end

theorem Engine.countRecipe_bump (conds mine : List (Bool × Code)) (e : Engine) :
    e.countRecipe conds mine = e ∨ ∃ m, e.countRecipe conds mine = e.bump Ctr.recipeRefused m := by
  unfold Engine.countRecipe
  cases judge conds with
  | none => exact .inl rfl
  | some c => exact .inr ⟨_, rfl⟩

end Sys2Proof.Machine

namespace Sys2Proof

open Machine

/-! ### Jobs of FREE slots (R316) -/

/-- An engine that only counts have changed since the entry of ring `n` was taken. -/
structure CountedOnly (s : State) (n : Nat) (e : Engine) : Prop where
  rings : e.rings = (taken s n).rings
  same : Same [.rings, .budget, .count] s.eng e

theorem countedOnly_taken (s : State) (n : Nat) : CountedOnly s n (taken s n) := ⟨rfl, same_taken s n⟩

theorem countedOnly_countRecipe (s : State) (n : Nat) (conds mine : List (Bool × Code)) :
    CountedOnly s n ((taken s n).countRecipe conds mine) := by
  rcases Engine.countRecipe_bump conds mine (taken s n) with h | ⟨m, h⟩ <;> rw [h]
  · exact countedOnly_taken s n
  · exact ⟨rfl, (same_taken s n).trans ((same_bump ..).mono (by decide))⟩

/-- The slot of the tenant of ring `n` is FREE. -/
def SlotFree (s : State) (n : Nat) : Prop := (s.eng.tenant (s.regs.ringTenant n).toNat).state = .free

/-- What a job of a FREE slot comes to: it completes with 0x40 and this RESULT, and beside its entry only counts have changed. -/
def RefusedFree (s : State) (n : Nat) (x : Entry) (result : List Byte) (o : Out) : Prop :=
  ∃ e, o = .next (withEng s (e.complete s.kit s.regs (x.jobId n) 0x40 result)) ∧ CountedOnly s n e

theorem RefusedFree.outcome {s : State} {n : Nat} {x : Entry} {result : List Byte} {o : Out} (h : RefusedFree s n x result o) :
    ∃ t, o = .next t ∧ Taken s t n ∧ Completed s t n x 0x40 result ∧ Only [.rings, .budget, .count, .mem, .out, .vault] s t := by
  obtain ⟨e, ho, hrings, hsame⟩ := h
  obtain ⟨hcompleted, htaken⟩ := completed_complete (Engine.ring_of_rings hrings n) x 0x40 result
  exact ⟨_, ho, htaken, hcompleted, only_of_same ((hsame.mono (by decide)).trans ((same_complete ..).mono (by decide)))⟩

section
variable {s : State} {n : Nat} {x : Entry} (hfree : SlotFree s n)
include hfree

/-- A FREE slot stands against every job of its ring (R316). -/
theorem SlotFree.mem_tenantConds : (true, 0x40) ∈ (taken s n).tenantConds (s.regs.ringTenant n) := by
  have hstate : ((taken s n).tenant (s.regs.ringTenant n).toNat).state = .free := by rw [taken_tenant, hfree]
  simp [Engine.tenantConds, hstate]

theorem SlotFree.mem_append (l : List (Bool × Code)) : (true, 0x40) ∈ (taken s n).tenantConds (s.regs.ringTenant n) ++ l :=
  List.mem_append_left _ hfree.mem_tenantConds

end

/-- A job that is refused when it starts, in an engine in which only counts have changed. -/
theorem Starts.refusedFree {s : State} {n : Nat} {x : Entry} (hstart : Starts s n x.opcode x) {p : Entry → Bool} (hp : p x = true)
    {f : Kit → Regs → Entry → Engine → Engine} {e : Engine} {result : List Byte} (he : CountedOnly s n e)
    (hf : f s.kit s.regs x (taken s n) = e.complete s.kit s.regs (x.jobId n) 0x40 result) :
    RefusedFree s n x result (s.eff fun k r e => e.startJob r n p (f k r)) := by
  refine ⟨e, ?_, he⟩
  rw [State.eff_eq, hstart.startJob hp, hf]
  rfl

/-- Every job of a ring's tenant is judged by the state of its slot, among other conditions (R316). -/
theorem exec_ringJob_slotFree {c : Instr} {ring : BitVec 8} {p : Entry → Bool} {s : State} {x : Entry} (hjob : ringJob c = some (ring, p))
    (hstart : Starts s ring.toNat x.opcode x) (hp : p x = true) (hfree : SlotFree s ring.toNat) :
    RefusedFree s ring.toNat x (if x.opcode = 3 then restoreFail none else []) (exec c s) := by
  have hmem := hfree.mem_append
  cases c <;> cases hjob
  case restore =>
    rw [if_pos (beq_iff_eq.mp hp)]
    unfold exec execRestore
    refine hstart.refusedFree hp (countedOnly_taken ..) ?_
    dsimp only [Engine.restoreConds]
    rw [List.append_assoc, judge_header_slotFree (hmem _)]
    rfl
  all_goals
    rw [if_neg fun h => by simp [h, isRecipeOp] at hp]
    unfold exec
  case drain =>
    unfold execDrain
    exact hstart.refusedFree hp (countedOnly_taken ..) (Engine.judged_slotFree hfree.mem_tenantConds _)
  case scrub =>
    unfold execScrub
    exact hstart.refusedFree hp (countedOnly_taken ..) (Engine.judged_slotFree (hmem _) _)
  case guardRemove =>
    unfold execGuardRemove
    exact hstart.refusedFree hp (countedOnly_taken ..) (Engine.judged_slotFree (hmem _) _)
  case adminSend =>
    unfold execAdminSend
    exact hstart.refusedFree hp (countedOnly_taken ..) (Engine.judged_slotFree (hmem _) _)
  case guardAdd =>
    unfold execGuardAdd
    exact hstart.refusedFree hp (countedOnly_taken ..) (Engine.judgedData_slotFree (hmem _) ..)
  case telemetry =>
    unfold execTelemetry Engine.telemetryConds
    refine hstart.refusedFree hp (countedOnly_taken ..) (Engine.judged_slotFree ?_ _)
    simp only [List.append_assoc]
    exact hmem _
  case refill =>
    unfold execRefill Engine.refillConds
    refine hstart.refusedFree hp (countedOnly_taken ..) (Engine.judged_slotFree ?_ _)
    simp only [List.append_assoc]
    exact hmem _
  case spill =>
    unfold execSpill Engine.spillConds
    refine hstart.refusedFree hp (countedOnly_countRecipe ..) (Engine.judged_slotFree ?_ _)
    simp only [List.append_assoc]
    exact hmem _
  case cut =>
    unfold execCut
    refine hstart.refusedFree hp (countedOnly_countRecipe ..) (Engine.judged_slotFree ?_ _)
    simp only [List.append_assoc]
    exact hmem _
  case recipeLoad =>
    unfold execRecipeLoad
    exact hstart.refusedFree hp (countedOnly_countRecipe ..) (Engine.judged_slotFree (List.mem_append_left _ (hmem _)) _)
  case unload =>
    unfold execUnload
    exact hstart.refusedFree hp (countedOnly_countRecipe ..) (Engine.judged_slotFree (List.mem_append_left _ (hmem _)) _)
  case bind =>
    unfold execBind
    exact hstart.refusedFree hp (countedOnly_countRecipe ..) (Engine.judged_slotFree (List.mem_append_left _ (hmem _)) _)
  case unbind =>
    unfold execUnbind
    exact hstart.refusedFree hp (countedOnly_countRecipe ..) (Engine.judged_slotFree (List.mem_append_left _ (hmem _)) _)

/-- Settles O40: among the conditions of every job stands that of its slot, which comes first in the order of R14. -/
theorem jobsOfFreeSlotsAreRefused : Obligations.JobsOfFreeSlotsAreRefused := by
  unfold Obligations.JobsOfFreeSlotsAreRefused
  intro c ring p s x hjob hstart hp hfree
  exact (exec_ringJob_slotFree hjob hstart hp hfree).outcome

end Sys2Proof

/-!
PROOFS. The DBG port (R333, R334, R411, R412): reads and writes of registers, SCAN_TEST, IDCODE.
-/

namespace Sys2Proof.Machine

/-! ### What an access shows -/

/-- The result of an access as the port shows it: in the data register, and driven out (R412). -/
structure DbgShown (word : BitVec 56) (a b : Engine) : Prop where
  dr : b.dbg.dr = word
  testMode : b.dbg.testMode = a.dbg.testMode
  out : b.out = a.out ++ [.dbgOut word]

section
variable (write : Bool) (addr : BitVec 20) (data : Word) (status : BitVec 2) (e : Engine)

/-- An engine with the port and the outputs of the state shows the result of an access on them. -/
theorem dbgShown_dbgResult {a : Engine} (hdbg : e.dbg = a.dbg) (hout : e.out = a.out) :
    DbgShown (dbgWord write addr data status) a (e.dbgResult write addr data status) :=
  ⟨rfl, (congrArg Dbg.testMode hdbg :), congrArg (· ++ _) hout⟩

theorem same_dbgResult : Same [.dbg, .out] e (e.dbgResult write addr data status) := by simp [Same, Engine.dbgResult]

theorem Engine.tenant_dbgResult (n : Nat) : (e.dbgResult write addr data status).tenant n = e.tenant n := rfl

theorem Engine.counter_dbgResult (off : Nat) : (e.dbgResult write addr data status).counter off = e.counter off := rfl

end

theorem same_setTenant (n : Nat) (v : Tenant) (e : Engine) : Same [.tenants] e (e.setTenant n v) := by simp [Same]

theorem Engine.tenant_bump (off m n : Nat) (e : Engine) : (e.bump off m).tenant n = e.tenant n := rfl

theorem Engine.counter_setTenant (off n : Nat) (v : Tenant) (e : Engine) : (e.setTenant n v).counter off = e.counter off := rfl

/-! ### Reads (R333) -/

/-- The offset of the word that an access addresses, as a whole or by one of its bits (R426). -/
def dbgOffset (addr : BitVec 20) : Nat := if addr.toNat < 0x80000 then addr.toNat else (aliasOf addr.toNat).1

/-- The engine with an access of tenant `n`'s values remembered and counted (R333). -/
def Engine.dbgConsented (n : Nat) (e : Engine) : Engine :=
  (e.setTenant n { e.tenant n with debugAccessed := true }).bump (Ctr.dbgReads n) 1

theorem same_dbgConsented (n : Nat) (e : Engine) : Same [.count, .tenants] e (e.dbgConsented n) :=
  ((same_setTenant ..).mono (by decide)).trans ((same_bump ..).mono (by decide))

theorem Engine.tenant_dbgConsented (n : Nat) (e : Engine) : (e.dbgConsented n).tenant n = { e.tenant n with debugAccessed := true } :=
  Engine.tenant_setTenant_same ..

theorem Engine.counter_dbgConsented (n : Nat) (e : Engine) : (e.dbgConsented n).counter (Ctr.dbgReads n) = e.counter (Ctr.dbgReads n) + 1 :=
  Engine.counter_bump_same ..

section
variable {k : Kit} {r : Regs} {addr : BitVec 20} {e : Engine}

theorem Engine.dbgRead_unreadable (h : cfgRead k r e addr.toNat = none) : e.dbgRead k r addr = e.dbgResult false addr 0 1 := by
  unfold Engine.dbgRead
  dsimp only
  rw [h]

variable {v : Word} (h : cfgRead k r e addr.toNat = some v)
include h

theorem Engine.dbgRead_untenanted (htenant : wordTenant r e (dbgOffset addr) = none) : e.dbgRead k r addr = e.dbgResult false addr v 0 := by
  unfold dbgOffset at htenant
  unfold Engine.dbgRead
  dsimp only
  rw [h]
  dsimp only
  rw [htenant]

/-- A tenant's value is shown under DEBUG_CONSENT alone. -/
theorem Engine.dbgRead_tenanted {n : Nat} (htenant : wordTenant r e (dbgOffset addr) = some n) :
    e.dbgRead k r addr = if (e.tenant n).policy.getLsbD 1 = true then (e.dbgConsented n).dbgResult false addr v 0
      else (e.bump Ctr.dbgDenied 1).dbgResult false addr 0 2 := by
  unfold dbgOffset at htenant
  unfold Engine.dbgRead
  dsimp only
  rw [h]
  dsimp only
  rw [htenant]
  rfl

end

/-! ### Writes (R384) -/

theorem rwWord_cmtCtrl (k : Kit) : rwWord k 0x1000 = none := rfl

theorem Regs.shadowWord_setShadow_same (off : Nat) (v : Word) (r : Regs) : (r.setShadow off v).shadowWord off = v.toNat :=
  congrArg BitVec.toNat (tabGet_put_same ..)

theorem Regs.shadowWord_setShadow_ne {o off : Nat} (h : o ≠ off) (v : Word) (r : Regs) :
    (r.setShadow off v).shadowWord o = r.shadowWord o := congrArg BitVec.toNat (tabGet_put_ne h ..)

/-- A write of an RW word enters the shadow and nothing else (R413). -/
theorem Engine.cfgWrite_rwWord {k : Kit} {addr : Nat} {i : WordInfo} (haligned : addr % 4 = 0) (hbelow : addr < 0x80000)
    (hword : rwWord k addr = some i) (r : Regs) (value : Word) (e : Engine) :
    e.cfgWrite k r addr value = { regs := r.setShadow addr value, eng := e, error := false } := by
  have hne : addr ≠ 0x1000 := by
    rintro rfl
    rw [rwWord_cmtCtrl] at hword
    cases hword
  unfold Engine.cfgWrite Engine.wordWrite
  rw [if_neg (not_not.mpr haligned), if_pos hbelow, if_neg hne, hword]
  exact if_pos rfl

/-! ### Key slots zeroised (R334) -/

theorem Tenant.zeroise_zeroise (x : Tenant) : x.zeroise.zeroise = x.zeroise := rfl

/-- The slots of a list changed in one way, which a second time changes nothing more. -/
theorem Engine.tenant_forEach_setTenant {f : Tenant → Tenant} (hf : ∀ x, f (f x) = f x) (ns : List Nat) (n : Nat) (e : Engine) :
    (e.forEach ns fun m e => e.setTenant m (f (e.tenant m))).tenant n = if n ∈ ns then f (e.tenant n) else e.tenant n := by
  induction ns generalizing e with
  | nil => rfl
  | cons m ns ih =>
    rw [Engine.forEach_cons, ih]
    by_cases hn : n = m
    · subst hn
      simp [hf]
    · simp [hn, Engine.tenant_setTenant_ne hn]

end Sys2Proof.Machine

namespace Sys2Proof

open Machine

section
variable {s : State} {dr : BitVec 56} (hopen : s.eng.cfgOpen = true)
include hopen

theorem exec_cfgAccess_read (hread : dr.getLsbD 55 = false) :
    exec (.cfgAccess dr) s = .next (withEng s (s.eng.dbgRead s.kit s.regs (dr.extractLsb' 35 20))) := by
  show execCfgAccess dr s = _
  unfold execCfgAccess
  rw [State.effRegs_eq]
  simp only [hopen, hread, Bool.not_true, Bool.false_eq_true, if_false]
  rfl

theorem exec_cfgAccess_write (hwrite : dr.getLsbD 55 = true) :
    exec (.cfgAccess dr) s = .next { s with
      regs := (s.eng.cfgWrite s.kit s.regs (dr.extractLsb' 35 20).toNat (dr.extractLsb' 3 32)).regs
      eng := (s.eng.dbgWrite s.kit s.regs (dr.extractLsb' 35 20) (dr.extractLsb' 3 32)).2 } := by
  show execCfgAccess dr s = _
  unfold execCfgAccess
  rw [State.effRegs_eq]
  simp only [hopen, hwrite, Bool.not_true, Bool.false_eq_true, if_false, if_true]
  rfl

end

/-- The engine with every key slot zeroised (R334). -/
def Machine.Engine.zeroised (e : Engine) : Engine := e.forEach (List.range 16) fun t e => e.setTenant t (e.tenant t).zeroise

/-- The engine in test mode, with its front empty (R334). -/
def Machine.Engine.testing (e : Engine) : Engine := { e with front := { e.front with lines := [] }, dbg := { e.dbg with testMode := true } }

theorem exec_scanTest (s : State) : exec .scanTest s = .next (if s.eng.allFree = true then withEng s s.eng.zeroised.testing else s) := by
  show execScanTest s = _
  unfold execScanTest
  rw [State.eff_eq]
  cases s.eng.allFree <;> rfl

theorem same_zeroised (e : Engine) : Same [.tenants] e e.zeroised := Same.forEach (fun _ _ => same_setTenant ..) _ e

theorem same_testing (e : Engine) : Same [.dbg, .front] e e.testing := by simp [Same, Engine.testing]

theorem Machine.Engine.tenant_testing (n : Nat) (e : Engine) : e.testing.tenant n = e.tenant n := rfl

theorem Machine.Engine.tenant_zeroised {n : Nat} (h : n < 16) (e : Engine) : e.zeroised.tenant n = (e.tenant n).zeroise := by
  unfold Engine.zeroised
  rw [Engine.tenant_forEach_setTenant Tenant.zeroise_zeroise, if_pos (List.mem_range.mpr h)]

/-- Bit 0 of the identity code is 1 (R411). -/
theorem idcodeWord_bit0 : idcodeWord.getLsbD 0 = true := by
  unfold idcodeWord
  rw [BitVec.getLsbD_append]
  rfl

/-- Settles O60: a read is answered by what the register is and whose value it holds; a write enters the shadow; test mode is entered with
the keys and the front gone. Whose value a register holds is the model's map (log 53). -/
theorem debugPortAsksForConsent : Obligations.DebugPortAsksForConsent := by
  unfold Obligations.DebugPortAsksForConsent
  refine ⟨?reads, ?writes, ?scan, fun s => ⟨idcodeWord, rfl, idcodeWord_bit0⟩⟩
  case reads =>
    intro s dr v hopen hread addr off shown
    have hexec {e : Engine} (he : s.eng.dbgRead s.kit s.regs addr = e) : exec (.cfgAccess dr) s = .next (withEng s e) := by
      rw [← he]
      exact exec_cfgAccess_read hopen hread
    have hshown {e : Engine} (data : Word) (status : BitVec 2) (hdbg : e.dbg = s.eng.dbg) (hout : e.out = s.eng.out) :
        shown (withEng s (e.dbgResult false addr data status)) data status := by
      obtain ⟨hdr, hmode, hdriven⟩ := dbgShown_dbgResult false addr data status e hdbg hout
      exact ⟨hdr, hmode, hdriven⟩
    refine ⟨fun hnone => ⟨_, hexec (Engine.dbgRead_unreadable hnone), hshown 0 1 rfl rfl, only_of_same (same_dbgResult ..)⟩,
      fun hsome => ⟨fun htenant => ⟨_, hexec (Engine.dbgRead_untenanted hsome htenant), hshown v 0 rfl rfl,
        only_of_same (same_dbgResult ..)⟩, fun n htenant => ⟨fun hdenied => ?denied, fun hconsent => ?consented⟩⟩⟩
    case denied =>
      exact ⟨_, hexec ((Engine.dbgRead_tenanted hsome htenant).trans (if_neg (ne_true_of_eq_false hdenied))), hshown 0 2 rfl rfl,
        Engine.counter_bump_same .., only_of_same (((same_bump ..).mono (by decide)).trans ((same_dbgResult ..).mono (by decide)))⟩
    case consented =>
      exact ⟨_, hexec ((Engine.dbgRead_tenanted hsome htenant).trans (if_pos hconsent)), hshown v 0 rfl rfl,
        Engine.tenant_dbgConsented n s.eng, Engine.counter_dbgConsented n s.eng,
        only_of_same (((same_dbgConsented n s.eng).mono (by decide)).trans ((same_dbgResult ..).mono (by decide)))⟩
  case writes =>
    intro s dr i hopen hwrite addr haligned hbelow hword
    have hexec := exec_cfgAccess_write hopen hwrite
    rw [Engine.dbgWrite, Engine.cfgWrite_rwWord haligned hbelow hword] at hexec
    exact ⟨_, hexec, Regs.shadowWord_setShadow_same .., fun off hoff => Regs.shadowWord_setShadow_ne hoff .., rfl, rfl, rfl, rfl,
      same_dbgResult ..⟩
  case scan =>
    intro s
    have hexec := exec_scanTest s
    refine ⟨fun hheld => hexec.trans (by rw [if_neg (ne_true_of_eq_false hheld)]), fun hfree => ?_⟩
    rw [if_pos hfree] at hexec
    have hport : s.eng.zeroised.dbg = s.eng.dbg := (same_zeroised s.eng).groups.dbg.resolve_left (by decide)
    refine ⟨_, hexec, congrArg (fun d : Dbg => { d with testMode := true }) hport, rfl, fun n hn => ?_,
      only_of_same (((same_zeroised s.eng).mono (by decide)).trans ((same_testing _).mono (by decide)))⟩
    rw [withEng_eng, Engine.tenant_testing, Engine.tenant_zeroised hn]
    exact ⟨rfl, rfl, rfl⟩

end Sys2Proof

/-!
PROOFS. The responder of a slot (R313, R319), and the key and policy messages (R322 to R324).
-/

namespace Sys2Proof.Machine

/-! ### A request relayed to the responder (R319) -/

section
variable {k : Kit} {r : Regs} {t : TenantNo} {q : SpdmReq} {e : Engine}

/-- The responder of a slot that is taken answers a request that need not wait, unless its signature failed. -/
theorem Engine.relay_answers (hstate : (e.tenant t.toNat).state ≠ .free) (hreleasing : (e.tenant t.toNat).releasing = none)
    (hmay : e.mayRespond q = true) {kind : SpdmRsp} {bs : List Byte} {a : Engine} (hrespond : e.respond k r t q = (kind, bs, a))
    (hkind : kind ≠ .signFailed) : e.relay k r t q = a.emit (.spdm t kind bs) := by
  unfold Engine.relay
  dsimp only
  rw [if_neg (by simp [hstate, hreleasing, hmay]), hrespond]
  dsimp only
  rw [show (kind != .signFailed) = true from bne_iff_ne.mpr hkind]
  rfl

end

/-! ### What a key and policy message is refused for (R323) -/

section
variable {r : Regs} {t : TenantNo} {p : VendorPayload} {e : Engine}

/-- The codes with which a message can be refused; 0x10 stands for an unknown VOP. -/
theorem Engine.vendorConds_code {d : Code} (h : (true, d) ∈ e.vendorConds r t p) :
    (d = 0x10 ∧ (p.vop.toNat < 1 ∨ 4 < p.vop.toNat)) ∨ d = 0x11 ∨ d = 0x14 ∨ d = 0x58 := by
  unfold Engine.vendorConds at h
  simp only [List.mem_cons, Prod.mk.injEq, List.not_mem_nil, or_false] at h
  obtain ⟨hvop, rfl⟩ | ⟨-, rfl⟩ | ⟨-, rfl⟩ | ⟨-, rfl⟩ | ⟨-, rfl⟩ | ⟨-, rfl⟩ | ⟨-, rfl⟩ | ⟨-, rfl⟩ | ⟨-, rfl⟩ | ⟨-, rfl⟩ := h
  · exact .inl ⟨rfl, by simpa using hvop.symm⟩
  all_goals simp

/-- An unknown VOP comes first. -/
theorem Engine.judge_vendor_unknown (h : 4 < p.vop.toNat) : judge (e.vendorConds r t p) = some 0x10 := by
  refine judge_eq_some (by simp [Engine.vendorConds, h]) fun d hd => ?_
  rcases Engine.vendorConds_code hd with ⟨rfl, -⟩ | rfl | rfl | rfl <;> decide

/-- Equal halves of a SEAL key are a bad field, which comes first where the VOP is known. -/
theorem Engine.judge_vendor_equalHalves (hvop : p.vop = 1) (hkind : p.kind = 1)
    (h : (p.key.extractLsb' 0 256 : BitVec 256) = p.key.extractLsb' 256 256) : judge (e.vendorConds r t p) = some 0x11 := by
  refine judge_eq_some (by simp [Engine.vendorConds, hvop, hkind, h]) fun d hd => ?_
  rcases Engine.vendorConds_code hd with ⟨rfl, hbad⟩ | rfl | rfl | rfl
  · rw [hvop] at hbad
    exact absurd hbad (by decide)
  all_goals decide

end

section
variable {r : Regs} {t : TenantNo} {e : Engine}

/-- Nothing stands against a SEAL key whose halves differ, bound or unbound while no job uses one (R323). -/
theorem Engine.vendorConds_setSeal {key : BitVec 512} (hne : (key.extractLsb' 0 256 : BitVec 256) ≠ key.extractLsb' 256 256)
    (hidle : e.sealInUse t = false) : NoneHolds (e.vendorConds r t { vop := 1, kind := 1, rsv := 0, arg := 0, key := key }) := by
  simp [Engine.vendorConds, noneHolds_cons, noneHolds_nil, hidle, hne.symm]

theorem Engine.vendorConds_clearSeal (hidle : e.sealInUse t = false) :
    NoneHolds (e.vendorConds r t { vop := 2, kind := 1, rsv := 0, arg := 0, key := 0 }) := by
  simp [Engine.vendorConds, noneHolds_cons, noneHolds_nil, hidle]

theorem Engine.vendorConds_setPollen {keyId : Word} {key : BitVec 512} (hhigh : (key.extractLsb' 256 256 : BitVec 256) = 0) :
    NoneHolds (e.vendorConds r t { vop := 1, kind := 2, rsv := 0, arg := keyId, key := key }) := by
  simp [Engine.vendorConds, noneHolds_cons, noneHolds_nil, hhigh]

theorem Engine.vendorConds_clearPollen : NoneHolds (e.vendorConds r t { vop := 2, kind := 2, rsv := 0, arg := 0, key := 0 }) := by
  simp [Engine.vendorConds, noneHolds_cons, noneHolds_nil]

/-- A policy has four bits, the highest of them in sealed mode alone (R323). -/
theorem Engine.vendorConds_setPolicy {policy : Word} (h : policy.toNat < 8 ∨ (policy.toNat < 16 ∧ r.sealedMode = true)) :
    NoneHolds (e.vendorConds r t { vop := 3, kind := 0, rsv := 0, arg := policy, key := 0 }) := by
  have hbelow : policy.toNat < 16 := by omega
  have hsealed : (bitOf 3 policy.toNat && !r.sealedMode) = false := by
    rcases h with hlow | ⟨-, hsealed⟩
    · rw [bitOf_eq, decide_eq_false (by omega)]
      rfl
    · rw [hsealed, Bool.not_true, Bool.and_false]
  simp [Engine.vendorConds, noneHolds_cons, noneHolds_nil, hsealed, hbelow]

theorem Engine.vendorConds_getState : NoneHolds (e.vendorConds r t { vop := 4, kind := 0, rsv := 0, arg := 0, key := 0 }) := by
  simp [Engine.vendorConds, noneHolds_cons, noneHolds_nil]

end

/-! ### An accepted message -/

/-- The slot becomes ATTESTED with the first message that completes (R323). -/
def Engine.attestSlot (t : TenantNo) (e : Engine) : Engine := e.setTenant t.toNat (e.tenant t.toNat).attest

section
variable (t : TenantNo) (e : Engine)

theorem Engine.tenant_attestSlot_same : (e.attestSlot t).tenant t.toNat = { e.tenant t.toNat with state := .attested } :=
  Engine.tenant_setTenant_same ..

theorem Engine.tenant_attestSlot_ne {m : Nat} (h : m ≠ t.toNat) : (e.attestSlot t).tenant m = e.tenant m := Engine.tenant_setTenant_ne h ..

theorem Engine.kept_attestSlot (m : Nat) : (e.attestSlot t).kept m = e.kept m := rfl

/-- The answer to a message does not tell the state of the slot (R322). -/
theorem Engine.vendorAnswer_attestSlot (vop : Byte) (code : Code) (matched : Bool) :
    (e.attestSlot t).vendorAnswer t vop code matched = e.vendorAnswer t vop code matched := by
  unfold Engine.vendorAnswer
  rw [Engine.tenant_attestSlot_same, Engine.kept_attestSlot]

theorem same_attestSlot : Same [.tenants] e (e.attestSlot t) := same_setTenant ..

end

/-! ### Keys bound and unbound (R324) -/

section
variable (t : TenantNo) (key : BitVec 512) (e : Engine)

theorem Engine.tenant_setKept (n m : Nat) (v : Kept) : (e.setKept n v).tenant m = e.tenant m := rfl

theorem Engine.kept_setTenant (n m : Nat) (v : Tenant) : (e.setTenant n v).kept m = e.kept m := rfl

/-- The stored values of a slot once a SEAL key is bound: XTS_NEXT restarts where the check value is another (R324). -/
def Kept.bound (x : Kept) : Kept := if sealCheck key = x.kcv then x else { x with kcv := sealCheck key, xtsNext := 0 }

theorem Engine.tenant_bindSeal_same : (e.bindSeal t key).tenant t.toNat = { e.tenant t.toNat with sealKey := some key } := by
  unfold Engine.bindSeal
  dsimp only
  split
  · exact Engine.tenant_setTenant_same ..
  · exact (Engine.tenant_setKept ..).trans (Engine.tenant_setTenant_same ..)

theorem Engine.tenant_bindSeal_ne {m : Nat} (h : m ≠ t.toNat) : (e.bindSeal t key).tenant m = e.tenant m := by
  unfold Engine.bindSeal
  dsimp only
  split
  · exact Engine.tenant_setTenant_ne h ..
  · exact (Engine.tenant_setKept ..).trans (Engine.tenant_setTenant_ne h ..)

theorem Engine.kept_bindSeal_same : (e.bindSeal t key).kept t.toNat = (e.kept t.toNat).bound key := by
  unfold Engine.bindSeal Kept.bound
  dsimp only
  split
  · rfl
  · exact Engine.kept_setKept_same ..

theorem Engine.kept_bindSeal_ne {m : Nat} (h : m ≠ t.toNat) : (e.bindSeal t key).kept m = e.kept m := by
  unfold Engine.bindSeal
  dsimp only
  split
  · rfl
  · exact (Engine.kept_setKept_ne h ..).trans (Engine.kept_setTenant ..)

theorem same_bindSeal : Same [.tenants, .body] e (e.bindSeal t key) := by
  unfold Engine.bindSeal
  dsimp only
  split
  · exact (same_setTenant ..).mono (by decide)
  · exact ((same_setTenant ..).mono (by decide)).trans ((same_body ..).mono (by decide))

/-- A Pollen key and its KEY_ID are those that were bound, whatever became of the sessions. -/
theorem Engine.tenant_bindPollen (k : Kit) (r : Regs) (pollen : Option (BitVec 256)) (id : Word) :
    ((e.bindPollen k r t pollen id).tenant t.toNat).pollenKey = pollen ∧ ((e.bindPollen k r t pollen id).tenant t.toNat).keyId = id := by
  unfold Engine.bindPollen
  dsimp only
  rw [Engine.tenant_setTenant_same]
  exact ⟨rfl, rfl⟩

end

/-! ### The policy set (R323, R324) -/

/-- The engine with the policy of a slot set. -/
def Engine.setPolicy (t : TenantNo) (policy : Word) (e : Engine) : Engine :=
  e.setTenant t.toNat { e.tenant t.toNat with policy := policy.setWidth 4 }

/-- The answer to a message that has set a policy of four bits tells that policy. -/
theorem Engine.vendorAnswer_setPolicy {policy : Word} (h : policy.toNat < 16) (t : TenantNo) (vop : Byte) (code : Code) (matched : Bool)
    (e : Engine) : (e.setPolicy t policy).vendorAnswer t vop code matched =
      [vop, code, BitVec.ofNat 8 (b2n matched), 0] ++ natLE 4 policy.toNat ++ natLE 4 (e.kept t.toNat).xtsNext.toNat ++ zeroBytes 4 := by
  unfold Engine.vendorAnswer Engine.setPolicy
  rw [Engine.tenant_setTenant_same, Engine.kept_setTenant]
  simp only [BitVec.toNat_setWidth, Nat.mod_eq_of_lt (show policy.toNat < 2 ^ 4 from h)]

/-! ### The messages and what carries them -/

/-- The message that a command brings (R322). -/
def vendorPayload : Instr → Option (TenantNo × VendorPayload)
  | .setKey slot kind keyId key => some (slot, { vop := 1, kind := keyKindCode kind, rsv := 0, arg := keyId, key := key })
  | .clearKey slot kind => some (slot, { vop := 2, kind := keyKindCode kind, rsv := 0, arg := 0, key := 0 })
  | .setPolicy slot policy => some (slot, { vop := 3, kind := 0, rsv := 0, arg := policy, key := 0 })
  | .getState slot => some (slot, { vop := 4, kind := 0, rsv := 0, arg := 0, key := 0 })
  | .vendorDefinedRequest slot true p => some (slot, p)
  | _ => none

end Sys2Proof.Machine

namespace Sys2Proof

open Machine

/-- A key and policy message goes to the responder of its slot. -/
theorem exec_vendor {c : Instr} {slot : TenantNo} {p : VendorPayload} (h : vendorPayload c = some (slot, p)) (s : State) :
    exec c s = .next (withEng s (s.eng.relay s.kit s.regs slot (.vendorDefined true p))) := by
  cases c
  case vendorDefinedRequest t inSession p' =>
    cases inSession <;> cases h
    rfl
  all_goals cases h
  all_goals rfl

/-- The state once an accepted message, which has left the engine `a`, has made its slot ATTESTED and has been answered. -/
def vendorDone (s : State) (slot : TenantNo) (a : Engine) (bs : List Byte) : State :=
  withEng s ((a.attestSlot slot).emit (.spdm slot .vendor bs))

section
variable (s : State) (slot : TenantNo) (a : Engine) (bs : List Byte)

theorem vendorDone_tenant_same : (vendorDone s slot a bs).eng.tenant slot.toNat = { a.tenant slot.toNat with state := .attested } :=
  Engine.tenant_attestSlot_same ..

theorem vendorDone_tenant_ne {m : Nat} (h : m ≠ slot.toNat) : (vendorDone s slot a bs).eng.tenant m = a.tenant m :=
  Engine.tenant_attestSlot_ne slot a h

theorem vendorDone_kept (m : Nat) : (vendorDone s slot a bs).eng.kept m = a.kept m := rfl

theorem vendorDone_regs : (vendorDone s slot a bs).regs = s.regs := rfl

theorem vendorDone_out : (vendorDone s slot a bs).eng.out = a.out ++ [.spdm slot .vendor bs] := rfl

theorem vendorDone_frame {gs : List Grp} (hslot : .tenants ∈ gs) (hout : .out ∈ gs) (h : Same gs s.eng a) :
    Only gs s (vendorDone s slot a bs) := by
  have hanswer (o : Output) (e : Engine) : Same [.out] e (e.emit o) := by simp [Same]
  exact only_of_same (h.trans (((same_attestSlot slot a).mono (by simpa using hslot)).trans ((hanswer ..).mono (by simpa using hout))))

end

section
variable {s : State} {c : Instr} {slot : TenantNo} {p : VendorPayload} (hstate : (s.eng.tenant slot.toNat).state ≠ .free)
  (hreleasing : (s.eng.tenant slot.toNat).releasing = none)
include hstate hreleasing

/-- Outside a session a message is unexpected and does nothing (R322). -/
theorem relay_vendor_unexpected {inSession : Bool} (hout : (inSession && (s.eng.tenant slot.toNat).session) = false) :
    s.eng.relay s.kit s.regs slot (.vendorDefined inSession p) = s.eng.emit (.spdm slot .unexpected []) := by
  refine Engine.relay_answers hstate hreleasing rfl ?_ (by decide)
  unfold Engine.respond
  dsimp only
  rw [if_neg (ne_true_of_eq_false hout)]

variable (hsession : (s.eng.tenant slot.toNat).session = true)
include hsession

/-- A message that a condition refuses is answered with its code and does nothing (R323). -/
theorem relay_vendor_refused {code : Code} (hcode : judge (s.eng.vendorConds s.regs slot p) = some code) :
    s.eng.relay s.kit s.regs slot (.vendorDefined true p) = s.eng.emit (.spdm slot .vendor (s.eng.vendorAnswer slot p.vop code false)) := by
  refine Engine.relay_answers hstate hreleasing rfl ?_ (by decide)
  unfold Engine.respond Engine.vendorMessage
  dsimp only
  rw [hsession, Bool.true_and, if_pos rfl, hcode]

/-- A message that nothing stands against is carried out, makes the slot ATTESTED and is answered (R322 to R324). -/
theorem exec_vendor_accepted (hc : vendorPayload c = some (slot, p)) (hnone : NoneHolds (s.eng.vendorConds s.regs slot p)) {a : Engine}
    (ha : s.eng.vendorEffect s.kit s.regs slot p = a) :
    exec c s = .next (vendorDone s slot a (a.vendorAnswer slot p.vop 0
      (p.vop.toNat == 1 && p.kind.toNat == 1 && sealCheck p.key == (s.eng.kept slot.toNat).kcv))) := by
  subst ha
  rw [exec_vendor hc, Engine.relay_answers (kind := .vendor) hstate hreleasing rfl ?_ (by decide)]
  · rfl
  · unfold Engine.respond Engine.vendorMessage
    dsimp only
    rw [hsession, Bool.true_and, if_pos rfl, judge_none.mpr hnone]
    exact congrArg (fun bs => (_, bs, _)) (Engine.vendorAnswer_attestSlot ..)

end

/-- What a state has of a slot whose Pollen key has been bound or unbound. -/
structure PollenBound (s t : State) (slot : TenantNo) (pollen : Option (BitVec 256)) (id : Word) : Prop where
  key : (t.eng.tenant slot.toNat).pollenKey = pollen
  keyId : (t.eng.tenant slot.toNat).keyId = id
  state : (t.eng.tenant slot.toNat).state = .attested
  regs : t.regs = s.regs

theorem vendorDone_bindPollen (s : State) (slot : TenantNo) (pollen : Option (BitVec 256)) (id : Word) (bs : List Byte) :
    PollenBound s (vendorDone s slot (s.eng.bindPollen s.kit s.regs slot pollen id) bs) slot pollen id := by
  obtain ⟨hkey, hid⟩ := Engine.tenant_bindPollen slot s.eng s.kit s.regs pollen id
  have hslot := vendorDone_tenant_same s slot (s.eng.bindPollen s.kit s.regs slot pollen id) bs
  exact ⟨by simpa only [hslot] using hkey, by simpa only [hslot] using hid, by rw [hslot], vendorDone_regs ..⟩

/-- Outside a session a message is unexpected, whichever command brings it. -/
theorem exec_vendor_unexpected {s : State} {c : Instr} {slot : TenantNo} {p : VendorPayload} (hc : vendorPayload c = some (slot, p))
    (hstate : (s.eng.tenant slot.toNat).state ≠ .free) (hreleasing : (s.eng.tenant slot.toNat).releasing = none)
    (hsession : (s.eng.tenant slot.toNat).session = false) : exec c s = .next (driven s [.spdm slot .unexpected []]) := by
  rw [exec_vendor hc, relay_vendor_unexpected hstate hreleasing (by rw [hsession]; rfl)]
  rfl

/-- Settles O45: a message is unexpected, or refused by the condition that comes first, or carried out; then its slot is ATTESTED. -/
theorem keyMessagesBindKeysAndPolicy : Obligations.KeyMessagesBindKeysAndPolicy := by
  unfold Obligations.KeyMessagesBindKeysAndPolicy
  intro s slot n x kept answer hstate hreleasing
  refine ⟨fun hout c hc => ?outside, fun p => ?unmarked, fun hsession => ?inside⟩
  case outside =>
    simp only [List.mem_cons, List.not_mem_nil, or_false] at hc
    rcases hc with rfl | rfl | rfl | rfl <;> exact exec_vendor_unexpected rfl hstate hreleasing hout
  case unmarked => exact congrArg (fun e => Host.Outcome.next (withEng s e)) (relay_vendor_unexpected hstate hreleasing rfl)
  case inside =>
    have hrefused {c : Instr} {p : VendorPayload} {code : Code} (hc : vendorPayload c = some (slot, p))
        (hcode : judge (s.eng.vendorConds s.regs slot p) = some code) :
        exec c s = .next (driven s [answer p.vop code false x.policy.toNat kept.xtsNext.toNat]) := by
      rw [exec_vendor hc, relay_vendor_refused hstate hreleasing hsession hcode]
      rfl
    have haccepted {c : Instr} {p : VendorPayload} (hc : vendorPayload c = some (slot, p))
        (hnone : NoneHolds (s.eng.vendorConds s.regs slot p)) {a : Engine} (ha : s.eng.vendorEffect s.kit s.regs slot p = a) :=
      exec_vendor_accepted hstate hreleasing hsession hc hnone ha
    have hset (y : Tenant) : Same [.tenants, .out] s.eng (s.eng.setTenant n y) := (same_setTenant ..).mono (by decide)
    refine ⟨fun p hvop => hrefused rfl (Engine.judge_vendor_unknown hvop), fun keyId key heq => ?equalHalves,
      fun key hne hidle => ?setSeal, fun keyId key hhigh => ?setPollen, fun hidle => ?clearSeal, ?clearPollen, fun policy hpolicy => ?policy,
      ?state⟩
    case equalHalves =>
      have hbad (keyId : Word) := hrefused (c := .setKey slot .seal keyId key) rfl (Engine.judge_vendor_equalHalves rfl rfl heq)
      exact ⟨hbad 0, fun _ => hbad keyId⟩
    case setSeal =>
      refine ⟨_, haccepted (c := .setKey slot .seal 0 key) rfl (Engine.vendorConds_setSeal hne hidle) rfl, ?_,
        (vendorDone_kept ..).trans (Engine.kept_bindSeal_same ..), fun m hm => ⟨?_, ?_⟩,
        vendorDone_frame _ _ _ _ (by decide) (by decide) ((same_bindSeal ..).mono (by decide))⟩
      · exact (vendorDone_tenant_same ..).trans (congrArg Tenant.attest (Engine.tenant_bindSeal_same ..))
      · exact (vendorDone_tenant_ne _ _ _ _ hm).trans (Engine.tenant_bindSeal_ne _ _ _ hm)
      · exact (vendorDone_kept ..).trans (Engine.kept_bindSeal_ne _ _ _ hm)
    case setPollen =>
      have hbound (bs : List Byte) := vendorDone_bindPollen s slot (some (key.setWidth 256)) keyId bs
      exact ⟨_, haccepted (c := .setKey slot .pollen keyId key) rfl (Engine.vendorConds_setPollen hhigh) rfl, (hbound _).key, (hbound _).keyId,
        (hbound _).state, (hbound _).regs⟩
    case clearSeal =>
      refine ⟨_, haccepted (c := .clearKey slot .seal) rfl (Engine.vendorConds_clearSeal hidle) rfl, ?_, rfl,
        vendorDone_frame _ _ _ _ (by decide) (by decide) (hset _)⟩
      exact (vendorDone_tenant_same ..).trans (congrArg Tenant.attest (Engine.tenant_setTenant_same ..))
    case clearPollen =>
      have hbound (bs : List Byte) := vendorDone_bindPollen s slot none 0 bs
      exact ⟨_, haccepted (c := .clearKey slot .pollen) rfl Engine.vendorConds_clearPollen rfl, (hbound _).key, (hbound _).state⟩
    case policy =>
      refine ⟨_, haccepted (c := .setPolicy slot policy) (a := s.eng.setPolicy slot policy) rfl (Engine.vendorConds_setPolicy hpolicy) rfl,
        ?_, ?_, vendorDone_frame _ _ _ _ (by decide) (by decide) (hset _)⟩
      · exact (vendorDone_tenant_same ..).trans (congrArg Tenant.attest (Engine.tenant_setTenant_same ..))
      · rw [vendorDone_out, Engine.vendorAnswer_setPolicy (by omega)]
        rfl
    case state =>
      exact ⟨_, haccepted (c := .getState slot) rfl Engine.vendorConds_getState rfl, vendorDone_tenant_same .., rfl,
        vendorDone_frame _ _ _ _ (by decide) (by decide) (Same.refl ..)⟩

end Sys2Proof

/-!
PROOFS. ADMIT (R313 to R315): the slot given out, and its stored values under another owner.
-/

namespace Sys2Proof.Machine

/-! ### Stored values under a scrub (R115, R118, R273) -/

theorem Engine.keepDirty_body (n : Nat) (l : Line) (e : Engine) : (e.keepDirty n l).body = e.body := by
  unfold Engine.keepDirty
  dsimp only
  split
  · rfl
  · split <;> rfl

/-- A background write of a line leaves the tenants' stored values, whether it succeeds or not. -/
theorem Engine.rewriteLine_kept (k : Kit) (r : Regs) (key : Nat) (l : Line) (e : Engine) :
    (e.rewriteLine k r key l).body.kept = e.body.kept := by
  unfold Engine.rewriteLine
  dsimp only
  split
  · rfl
  · split
    · rw [Engine.keepDirty_body, Engine.raise_body]
      rfl
    · rw [Engine.raise_body]
      rfl

theorem Engine.scrubFront_body (n : Nat) (l : Line) (bad : Bool) (e : Engine) : (e.scrubFront n l bad).body = e.body := by
  unfold Engine.scrubFront
  split
  · rfl
  · split <;> rfl

theorem same_scrubFront (n : Nat) (l : Line) (bad : Bool) (e : Engine) : Same [.front] e (e.scrubFront n l bad) := by
  unfold Engine.scrubFront
  split
  · exact Same.refl _ e
  · split <;> exact same_onFront ..

section
variable (k : Kit) (r : Regs) (t : TenantNo)

theorem Engine.scrubLine_kept (off : Nat) (fails : Bool) (e : Engine) : (e.scrubLine k r t off fails).body.kept = e.body.kept := by
  unfold Engine.scrubLine
  split
  · rfl
  · dsimp only
    rw [Engine.rewriteLine_kept, Engine.scrubFront_body]
    rfl

theorem same_scrubLine (off : Nat) (fails : Bool) (e : Engine) : Same readGroups e (e.scrubLine k r t off fails) := by
  unfold Engine.scrubLine
  split
  · exact Same.refl _ e
  · exact ((same_body ..).mono (by decide)).trans (((same_scrubFront ..).mono (by decide)).trans (same_rewriteLine ..))

theorem same_scrubSlot (slot : Bool) (e : Engine) : Same readGroups e (e.scrubSlot k r t slot) :=
  (Same.forEach (fun _ _ => same_scrubLine ..) _ e).trans ((same_body ..).mono (by decide))

/-- A slot that is scrubbed loses its marks, and no other stored value changes (R273). -/
theorem keptScrubbed_scrubSlot (slot : Bool) (e : Engine) : KeptScrubbed t [slot] e (e.scrubSlot k r t slot) := by
  have hlines : (e.scrubLines k r t (b2n slot * r.slotLines t.toNat) (List.range (r.slotLines t.toNat))).body.kept = e.body.kept :=
    Engine.forEach_keeps (fun e => e.body.kept) _ (fun _ _ => Engine.scrubLine_kept ..) _ e
  unfold Engine.scrubSlot
  generalize e.scrubLines k r t (b2n slot * r.slotLines t.toNat) (List.range (r.slotLines t.toNat)) = a at hlines
  have hkept (m : Nat) : a.kept m = e.kept m := congrArg (tabGet (fun _ => Kept.made) m) hlines
  exact ⟨(Engine.kept_setKept_same ..).trans (congrArg (Kept.scrubbed slot) (hkept _)),
    fun m hm => (Engine.kept_setKept_ne hm ..).trans (hkept m)⟩

theorem keptScrubbed_forEach (slots : List Bool) (e : Engine) : KeptScrubbed t slots e (e.forEach slots (Engine.scrubSlot k r t)) := by
  induction slots generalizing e with
  | nil => exact ⟨rfl, fun _ _ => rfl⟩
  | cons slot slots ih =>
    obtain ⟨hmine, hothers⟩ := keptScrubbed_scrubSlot k r t slot e
    obtain ⟨hmine', hothers'⟩ := ih (e.scrubSlot k r t slot)
    refine ⟨hmine'.trans ?_, fun m hm => (hothers' m hm).trans (hothers m hm)⟩
    rw [hmine]
    rfl

/-- What a scrub of slots leaves, whichever of their lines could be written. -/
theorem scrubSlots_frame (slots : List Bool) (e : Engine) :
    KeptScrubbed t slots e (e.scrubSlots k r t slots []) ∧ Same readGroups e (e.scrubSlots k r t slots []) := by
  obtain ⟨ws, h⟩ := Engine.scrubSlots_eq k r t slots e
  have hwrites : Same readGroups e { e with bulb := { e.bulb with writes := ws } } := by simp [Same]
  rw [h]
  exact ⟨keptScrubbed_forEach k r t slots _, hwrites.trans (Same.forEach (fun _ _ => same_scrubSlot ..) _ _)⟩

end

/-! ### A new owner (R315) -/

theorem Kept.newOwner_scrubbed (uid : BitVec 128) (slot : Bool) (x : Kept) : (x.scrubbed slot).newOwner uid = x.newOwner uid := by
  rw [Kept.scrubbed_eq]
  cases slot <;> rfl

/-- A new owner finds nothing of what the scrub took. -/
theorem Kept.newOwner_scrubbed_all (uid : BitVec 128) (slots : List Bool) (x : Kept) :
    (slots.foldl (fun x slot => x.scrubbed slot) x).newOwner uid = x.newOwner uid := by
  induction slots generalizing x with
  | nil => rfl
  | cons slot slots ih => exact (ih _).trans (Kept.newOwner_scrubbed uid slot x)

/-- The engine with slot `m` given to the owner of its stored values. -/
def Engine.readmitted (m : Nat) (uid : BitVec 128) (e : Engine) : Engine := e.setTenant m (Tenant.admitted uid)

/-- The engine with slot `m` given to another owner: its partition is scrubbed first, and its stored values are those of a new owner. -/
def Engine.newlyAdmitted (k : Kit) (r : Regs) (m : Nat) (uid : BitVec 128) (e : Engine) : Engine :=
  let a := e.scrubSlots k r (BitVec.ofNat 4 m) [false, true] []
  (a.setKept m ((a.kept m).newOwner uid)).setTenant m (Tenant.admitted uid)

theorem Engine.admitTo_eq (k : Kit) (r : Regs) (id : JobId) (m : Nat) (uid : BitVec 128) (e : Engine) :
    e.admitTo k r id m uid [] = (if (e.kept m).owner = uid then e.readmitted m uid else e.newlyAdmitted k r m uid).complete k r id 0
      (natLE 1 m) := by
  unfold Engine.admitTo
  split <;> rfl

/-- A slot given out: it is ADMITTED with the initial policy, and no other slot nor its stored values have changed (R314). -/
structure SlotGiven (m : Nat) (uid : BitVec 128) (x : Kept) (a b : Engine) : Prop where
  slot : b.tenant m = Tenant.admitted uid
  kept : b.kept m = x
  others : ∀ n, n ≠ m → b.tenant n = a.tenant n ∧ b.kept n = a.kept n

theorem slotGiven_readmitted (m : Nat) (uid : BitVec 128) (e : Engine) : SlotGiven m uid (e.kept m) e (e.readmitted m uid) :=
  ⟨Engine.tenant_setTenant_same .., rfl, fun _ hn => ⟨Engine.tenant_setTenant_ne hn .., rfl⟩⟩

theorem slotGiven_newlyAdmitted (k : Kit) (r : Regs) {m : Nat} (h : m < 16) (uid : BitVec 128) (e : Engine) :
    SlotGiven m uid ((e.kept m).newOwner uid) e (e.newlyAdmitted k r m uid) := by
  have hm : (BitVec.ofNat 4 m).toNat = m := Nat.mod_eq_of_lt h
  obtain ⟨⟨hmine, hothers⟩, hsame⟩ := scrubSlots_frame k r (BitVec.ofNat 4 m) [false, true] e
  have htenants := hsame.groups.tenants.resolve_left (by decide)
  unfold Engine.newlyAdmitted
  generalize e.scrubSlots k r (BitVec.ofNat 4 m) [false, true] [] = a at hmine hothers htenants
  rw [hm] at hmine hothers
  refine ⟨Engine.tenant_setTenant_same .., ?_, fun n hn => ⟨?_, ?_⟩⟩
  · rw [Engine.kept_setTenant, Engine.kept_setKept_same, hmine, Kept.newOwner_scrubbed_all]
  · rw [Engine.tenant_setTenant_ne hn, Engine.tenant_setKept]
    exact congrArg (tabGet (fun _ => Tenant.none) n) htenants
  · rw [Engine.kept_setTenant, Engine.kept_setKept_ne hn, hothers n hn]

/-- A completion leaves the slots and their stored values. -/
theorem SlotGiven.complete {m : Nat} {uid : BitVec 128} {x : Kept} {a b : Engine} (h : SlotGiven m uid x a b) (k : Kit) (r : Regs)
    (id : JobId) (code : Code) (result : List Byte) : SlotGiven m uid x a (b.complete k r id code result) := by
  have htenant (n : Nat) : (b.complete k r id code result).tenant n = b.tenant n :=
    congrArg (tabGet (fun _ => Tenant.none) n) (Engine.complete_tenants ..)
  have hkept (n : Nat) : (b.complete k r id code result).kept n = b.kept n :=
    congrArg (fun v : Body => tabGet (fun _ => Kept.made) n v.kept) (Engine.complete_body ..)
  refine ⟨(htenant m).trans h.slot, (hkept m).trans h.kept, fun n hn => ?_⟩
  rw [htenant, hkept]
  exact h.others n hn

end Sys2Proof.Machine

namespace Sys2Proof

open Machine

/-! ### ADMIT -/

theorem taken_freeSlot (s : State) (n : Nat) : (taken s n).freeSlot = s.eng.freeSlot := by
  unfold Engine.freeSlot
  simp only [taken_tenant]

theorem taken_uidHeld (s : State) (n uid : Nat) : (taken s n).uidHeld uid = s.eng.uidHeld uid := by
  unfold Engine.uidHeld
  simp only [taken_tenant]

/-- The slot that an ADMIT takes is the lowest that is FREE (R314). -/
theorem Machine.Engine.freeSlot_eq_some {m : Nat} {e : Engine} (h : e.freeSlot = some m) :
    m < 16 ∧ (e.tenant m).state = .free ∧ ∀ n, n < m → (e.tenant n).state ≠ .free := by
  obtain ⟨hfree, hbelow, hlow⟩ := List.find?_range_eq_some.mp h
  exact ⟨List.mem_range.mp hbelow, by simpa using hfree, fun n hn => by simpa using hlow n hn⟩

/-- An entry that asks for a slot for a TENANT_UID that no slot holds, where slot `m` is the lowest that is FREE (R313, R314). -/
structure AdmitAsked (s : State) (x : Entry) (m : Nat) : Prop where
  start : Starts s 0 7 x
  op : isKeyBind 1 x = true
  uid : leAt 24 16 x.params ≠ 0
  reserved : zeroAt 1 23 x.params = true ∧ zeroAt 40 8 x.params = true
  free : s.eng.freeSlot = some m
  unheld : s.eng.uidHeld (leAt 24 16 x.params) = false
  untested : s.eng.selfTest.running = false

theorem exec_keyBindAdmit {s : State} {x : Entry} {m : Nat} (h : AdmitAsked s x m) :
    exec (.keyBindAdmit 0 []) s = .next (withEng s ((taken s 0).admitTo s.kit s.regs (x.jobId 0) m (BitVec.ofNat 128 (leAt 24 16 x.params)) [])) := by
  obtain ⟨hlow, hhigh⟩ := h.reserved
  have hfree : (taken s 0).freeSlot = some m := (taken_freeSlot s 0).trans h.free
  have htest : (taken s 0).selfTest.running = false := by rw [taken, Engine.takeEntry_selfTest, h.untested]
  show execKeyBindAdmit 0 [] s = _
  unfold execKeyBindAdmit
  rw [State.eff_eq, show (0 : BitVec 8).toNat = 0 from rfl, h.start.startJob h.op]
  dsimp only
  rw [Engine.judged_go h.start.header (judge_none.mpr ?conds), hfree]
  case conds => simp [hlow, hhigh, h.uid, hfree, taken_uidHeld, h.unheld, htest]
  rfl

/-- Settles O42: nothing stands against the job, so the lowest FREE slot is given out, after a scrub where its stored values are another
owner's. That a scrub that fails leaves the slot FREE is the model's (log 40). -/
theorem admitTakesTheLowestFreeSlot : Obligations.AdmitTakesTheLowestFreeSlot := by
  unfold Obligations.AdmitTakesTheLowestFreeSlot
  intro s ring x m uid hring hstart hop huid hlow hhigh hfree hunheld htest
  obtain rfl : ring = 0 := BitVec.eq_of_toNat_eq hring
  obtain ⟨hbelow, hstate, hlowest⟩ := Engine.freeSlot_eq_some hfree
  have hexec := exec_keyBindAdmit ⟨hstart, hop, huid, ⟨hlow, hhigh⟩, hfree, hunheld, htest⟩
  rw [Engine.admitTo_eq, taken_kept] at hexec
  refine ⟨hstate, hlowest, ?_⟩
  have hothers {y : Kept} {b : Engine} (h : SlotGiven m uid y (taken s 0) b) (n : Nat) (hn : n ≠ m) :
      b.tenant n = s.eng.tenant n ∧ b.kept n = s.eng.kept n := by
    obtain ⟨htenant, hkept⟩ := h.others n hn
    exact ⟨htenant.trans (taken_tenant ..), hkept.trans (taken_kept ..)⟩
  by_cases howner : (s.eng.kept m).owner = uid
  case pos =>
    rw [if_pos howner] at hexec
    have hgiven := (slotGiven_readmitted m uid (taken s 0)).complete s.kit s.regs (x.jobId 0) 0 (natLE 1 m)
    have hdone := completed_complete (s := s) (n := 0) (e := (taken s 0).readmitted m uid) rfl x 0 (natLE 1 m)
    have hsame : Same [.rings, .budget, .count, .mem, .out, .vault, .tenants] s.eng
        (((taken s 0).readmitted m uid).complete s.kit s.regs (x.jobId 0) 0 (natLE 1 m)) :=
      ((same_taken s 0).mono (by decide)).trans (((same_setTenant ..).mono (by decide)).trans ((same_complete ..).mono (by decide)))
    rw [taken_kept] at hgiven
    generalize Engine.complete _ _ _ _ _ _ = b at hexec hgiven hdone hsame
    obtain ⟨hcompleted, htaken⟩ := hdone
    exact ⟨_, hexec, hgiven.slot, hothers hgiven, fun _ => ⟨hgiven.kept, hcompleted, htaken, only_of_same hsame⟩,
      fun hne => absurd howner hne⟩
  case neg =>
    rw [if_neg howner] at hexec
    have hgiven := (slotGiven_newlyAdmitted s.kit s.regs hbelow uid (taken s 0)).complete s.kit s.regs (x.jobId 0) 0 (natLE 1 m)
    rw [taken_kept] at hgiven
    generalize Engine.complete _ _ _ _ _ _ = b at hexec hgiven
    exact ⟨_, hexec, hgiven.slot, hothers hgiven, fun heq => absurd heq howner, fun _ => ⟨hgiven.kept, withEng_regs ..⟩⟩

end Sys2Proof

/-!
PROOFS. RELEASE (R317, R325, R332, R421): what the switch of a slot takes out, and the listing of a guard range that it leaves.
-/

namespace Sys2Proof.Machine

/-! ### The switch of a slot (R325, R332) -/

/-- What the switch of slot `t` comes to at its end: the keys and the policy are gone, and so is what stands outside the slot. -/
def Engine.emptySlot (r : Regs) (t : TenantNo) (e : Engine) : Engine :=
  (((e.setTenant t.toNat { (e.tenant t.toNat).zeroise with policy := 0 }).dropBacks r t).onFront
    (Front.dropWhere (FrontLine.ofTenant t))).forgetTenant t

theorem Engine.releaseSlot_emptySlot (k : Kit) (r : Regs) (t : TenantNo) (job : JobId) (e : Engine) :
    ∃ a : Engine, e.releaseSlot k r t job = a.emptySlot r t := ⟨_, rfl⟩

/-- Nothing of tenant `t` is left: no key, session or policy, and no front line, recipe, binding set, guard range or template. -/
structure SlotEmptied (t : TenantNo) (e : Engine) : Prop where
  slot : ∃ x : Tenant, e.tenant t.toNat = { x.zeroise with policy := 0 }
  front : ∀ l ∈ e.front.lines, l.line.tenant ≠ t
  recipes : ∀ y ∈ e.recipes.held, y.2.tenant ≠ t
  sets : ∀ y ∈ e.recipes.sets, y.2.tenant ≠ t
  ranges : ∀ n w, e.range n = some w → w.owner ≠ t
  template : tabFind t.toNat e.cut.template = none

theorem Engine.tenant_emptySlot (r : Regs) (t : TenantNo) (e : Engine) :
    (e.emptySlot r t).tenant t.toNat = { (e.tenant t.toNat).zeroise with policy := 0 } := Engine.tenant_setTenant_same ..

/-- A range that the guard finds after the switch is one that it found before, and it is another tenant's. -/
theorem Engine.range_emptySlot {r : Regs} {t : TenantNo} {e : Engine} {n : Nat} {w : Range} (h : (e.emptySlot r t).range n = some w) :
    e.range n = some w ∧ w.owner ≠ t := by
  replace h : tabFind n (e.guard.ranges.filter fun x => !(match e.range x.1 with | some w => w.owner == t | none => false)) = some w := h
  rw [tabFind_filter_key fun n => !(match e.range n with | some w => w.owner == t | none => false)] at h
  change (if !(match e.range n with | some w => w.owner == t | none => false) then e.range n else none) = some w at h
  cases hrange : e.range n with
  | none => simp [hrange] at h
  | some v =>
    obtain ⟨howner, rfl⟩ : v.owner ≠ t ∧ v = w := by simpa [hrange] using h
    exact ⟨rfl, howner⟩

theorem slotEmptied_emptySlot (r : Regs) (t : TenantNo) (e : Engine) : SlotEmptied t (e.emptySlot r t) where
  slot := ⟨_, Engine.tenant_emptySlot r t e⟩
  front := fun l hl => by simpa [FrontLine.ofTenant] using (List.mem_filter.mp hl).2
  recipes := fun y hy => by simpa using (List.mem_filter.mp hy).2
  sets := fun y hy => by simpa using (List.mem_filter.mp hy).2
  ranges := fun _ _ h => (Engine.range_emptySlot h).2
  template := by
    have htemplate : (e.emptySlot r t).cut.template = tabErase t.toNat e.cut.template := by
      unfold Engine.emptySlot Engine.forgetTenant
      dsimp only
      split <;> rfl
    rw [htemplate]
    exact tabFind_erase_same ..

theorem slotEmptied_releaseSlot (k : Kit) (r : Regs) (t : TenantNo) (job : JobId) (e : Engine) : SlotEmptied t (e.releaseSlot k r t job) := by
  obtain ⟨a, ha⟩ := Engine.releaseSlot_emptySlot k r t job e
  rw [ha]
  exact slotEmptied_emptySlot r t a

/-! ### Words reset (R421) -/

theorem tabGet_eraseAll {α : Type} (d : Nat → α) (offs : List Nat) (off : Nat) (t : Tab α) :
    tabGet d off (offs.foldl (fun t o => tabErase o t) t) = if off ∈ offs then d off else tabGet d off t := by
  induction offs generalizing t with
  | nil => rfl
  | cons o offs ih =>
    rw [List.foldl_cons, ih]
    by_cases ho : off = o
    · subst ho
      simp [tabGet, tabFind_erase_same]
    · simp [tabGet, tabFind_erase_ne ho, ho]

/-- Of the words that are reset the live value and the shadow are the reset value; every other word is as it was. -/
theorem Regs.word_resetBoth (offs : List Nat) (off : Nat) (r : Regs) :
    (r.resetBoth offs).word off = (if off ∈ offs then (resetWord off).toNat else r.word off) ∧
      (r.resetBoth offs).shadowWord off = if off ∈ offs then (resetWord off).toNat else r.shadowWord off := by
  unfold Regs.word Regs.shadowWord Regs.resetBoth
  simp only [tabGet_eraseAll]
  constructor <;> split <;> rfl

end Sys2Proof.Machine

namespace Sys2Proof

open Machine

/-! ### RELEASE -/

/-- An entry that asks for slot `m`, which a tenant holds, to be released (R317). -/
structure ReleaseAsked (s : State) (x : Entry) (m : Nat) : Prop where
  start : Starts s 0 7 x
  op : isKeyBind 2 x = true
  slot : leAt 1 1 x.params = m
  below : m < 16
  reserved : zeroAt 2 46 x.params = true
  held : (s.eng.tenant m).state ≠ .free
  idle : (s.eng.tenant m).releasing = none

/-- The state once a RELEASE of slot `m` has been accepted. -/
def releaseBegun (s : State) (x : Entry) (m : Nat) : State :=
  { s with
    regs := s.regs.resetBoth (releasedWords s.regs (BitVec.ofNat 4 m))
    eng := ((taken s 0).addJob { id := x.jobId 0, tenant := none, kind := .release m }).releaseSlot s.kit s.regs (BitVec.ofNat 4 m) (x.jobId 0) }

theorem exec_keyBindRelease {s : State} {x : Entry} {m : Nat} (h : ReleaseAsked s x m) :
    exec (.keyBindRelease 0) s = .next (releaseBegun s x m) := by
  obtain ⟨hstart, hop, rfl, hbelow, hreserved, hheld, hidle⟩ := h
  have hmod : leAt 1 1 x.params % 16 = leAt 1 1 x.params := Nat.mod_eq_of_lt hbelow
  have hjob := hstart.startJob hop
  have hheader := hstart.header
  obtain ⟨⟨rest, hready⟩, hmay, -, -⟩ := hstart
  show execKeyBindRelease 0 s = _
  unfold execKeyBindRelease
  rw [State.effRegs_eq, show (0 : BitVec 8).toNat = 0 from rfl]
  dsimp only
  rw [hjob, hready]
  dsimp only
  rw [if_pos ?accepted, Engine.judged_go hheader (judge_none.mpr ?conds)]
  case accepted =>
    rw [hmay, hop, judge_goodHeader hheader, judge_none.mpr ?none]
    case none => simp [hmod, hbelow, hreserved, hheld, hidle]
    rfl
  case conds => simp [hmod, hbelow, hreserved, taken_tenant, hheld, hidle]
  rfl

/-- What a RELEASE leaves whatever the guard's table lists: nothing of the tenant that the engine finds, and the tenant's registers alone are
reset. -/
theorem release_emptiesSlot {s : State} {x : Entry} {m : Nat} (h : ReleaseAsked s x m) : let gone := releasedWords s.regs (BitVec.ofNat 4 m)
    ∃ t, exec (.keyBindRelease 0) s = .next t ∧ SlotEmptied (BitVec.ofNat 4 m) t.eng ∧ ∀ off,
      t.regs.word off = (if off ∈ gone then (resetWord off).toNat else s.regs.word off) ∧
      t.regs.shadowWord off = if off ∈ gone then (resetWord off).toNat else s.regs.shadowWord off :=
  ⟨_, exec_keyBindRelease h, slotEmptied_releaseSlot .., fun off => Regs.word_resetBoth _ off s.regs⟩

/-! ### A range listed twice -/

/-- A guard range of one granule. -/
def rangeOf (owner : TenantNo) : Range :=
  { base := 0, granules := 1, owner := owner, cls := 0, coords := [], armed := false, parity := false, flag := false, flipped := [] }

/-- RELEASE of slot 0. -/
def releaseOfSlot0 : Entry :=
  { opcode := 7, fence := false, irq := false, cmdId := 0, index := 0, lines := 1, badHeader := false, params := 2 :: zeroBytes 47 }

/-- A started engine whose ring 0 is active and has framed a RELEASE of slot 0, which tenant 0 holds. Its guard lists number 0 twice: for a
range of tenant 1, which is the one found, and for a range of tenant 0. -/
def rangeListedTwice : State :=
  { State.reset with
    regs := { Regs.reset with live := [(0x10010, 0x81080000)] }
    eng := { Engine.reset with
      budget := { Engine.reset.budget with entries := 1 }
      guard := { Engine.reset.guard with ranges := [(0, rangeOf 1), (0, rangeOf 0)] }
      rings := { rings := [(0, { Ring.fresh with burst := 1, ready := [releaseOfSlot0] })], turn := 0, weight := 1, jobs := [] }
      tenants := [(0, { Tenant.none with state := .attested })]
      referee := { Engine.reset.referee with steward := some .north, resumed := true }
      power := { Engine.reset.power with sysReady := true } } }

/-- The ranges that the guard lists after a step. -/
def rangesAfter : Out → Tab Range
  | .next t => t.eng.guard.ranges
  | _ => []

theorem rangeListedTwice_starts : Starts rangeListedTwice 0 7 releaseOfSlot0 := ⟨⟨[], rfl⟩, by decide +kernel, rfl, rfl⟩

/-- The switch of slot 0 looks the owner of number 0 up, finds tenant 1, and takes out neither entry. -/
theorem rangeListedTwice_released : rangesAfter (exec (.keyBindRelease 0) rangeListedTwice) = [(0, rangeOf 1), (0, rangeOf 0)] := by
  decide +kernel

/-- Refutes O43: the statement admits every table of ranges, and in one that is not canonical a range of the tenant may stand behind another
tenant's under the same number. The switch looks each number's owner up (R332), so the listing of that range is left. No number finds a range
of the tenant again, and the rest of the statement holds: `release_emptiesSlot`. -/
theorem not_releaseEmptiesTheSlot : ¬ Obligations.ReleaseEmptiesTheSlot := by
  unfold Obligations.ReleaseEmptiesTheSlot
  intro h
  obtain ⟨t, hexec, -, -, -, -, -, -, -, -, hranges, -⟩ := h rangeListedTwice 0 releaseOfSlot0 0 rfl rangeListedTwice_starts (by decide +kernel)
    (by decide +kernel) (by decide) (by decide +kernel) (by decide +kernel) (by decide +kernel)
  have hleft : t.eng.guard.ranges = [(0, rangeOf 1), (0, rangeOf 0)] := by
    have hreleased := rangeListedTwice_released
    rwa [hexec] at hreleased
  exact hranges (0, rangeOf 0) (by simp [hleft]) rfl

end Sys2Proof


/-!
PROOFS. Jobs, rings and doorbells leave the beat, the keys and the DBG port.
-/

namespace Sys2Proof.Machine

section
variable {a e : Engine} {k : Kit} {r : Regs} (h : Steady a e)

include h

theorem Steady.stem {x : Stem} : Steady a { e with stem := x } := h.of_eq rfl rfl rfl
theorem Steady.buds {x : Tab Bud} : Steady a { e with buds := x } := h.of_eq rfl rfl rfl
theorem Steady.recipes {x : Recipes} : Steady a { e with recipes := x } := h.of_eq rfl rfl rfl
theorem Steady.selfTest {x : SelfTest} : Steady a { e with selfTest := x } := h.of_eq rfl rfl rfl

/-! ### Jobs -/

theorem Steady.addJob {j : Job} : Steady a (e.addJob j) := h.rings
theorem Steady.refuse {id : JobId} {code : Code} : Steady a (e.refuse k r id code) := h.complete
theorem Steady.emitHost {o : Output} : Steady a (e.emitHost o) := h.when fun h => h.emit

theorem Steady.takeEntry {n : Nat} : Steady a (e.takeEntry r n) :=
  h.of_eq (Engine.takeEntry_beat ..) (Engine.takeEntry_keys ..) (Engine.takeEntry_dbg ..)

theorem Steady.startJob {n : Nat} {p : Entry → Bool} {f : Entry → Engine → Engine} (hf : ∀ x {e}, Steady a e → Steady a (f x e)) :
    Steady a (e.startJob r n p f) := by
  unfold Engine.startJob
  split
  · exact h
  · exact .ite (hf _ h.takeEntry) h

theorem Steady.judged {n : Nat} {x : Entry} {conds : List (Bool × Code)} {go : Engine → Engine} (hgo : Steady a e → Steady a (go e)) :
    Steady a (e.judged k r n x conds go) := by
  unfold Engine.judged
  split
  · exact h.refuse
  · exact hgo h

theorem Steady.judgedData {n : Nat} {x : Entry} {conds : List (Bool × Code)} {d : HostRead} {later : List Byte → List (Bool × Code)}
    {go : List Byte → Engine → Engine} (hgo : ∀ bs, Steady a e → Steady a (go bs e)) :
    Steady a (e.judgedData k r n x conds d later go) := by
  unfold Engine.judgedData
  refine h.judged fun h => ?_
  split
  · exact h.refuse
  · exact h.refuse
  · split
    · exact h.refuse
    · exact hgo _ h

theorem Steady.countRecipe {conds mine : List (Bool × Code)} : Steady a (e.countRecipe conds mine) := by
  unfold Engine.countRecipe
  split
  · exact h.bump
  · exact h

theorem Steady.writeJob {id : JobId} {addr : Nat} {bs : List Byte} : Steady a (e.writeJob k id addr bs) :=
  h.forEach fun _ {_} h => h.memWrite

/-! ### Framing -/

theorem Steady.chargeEntry {n : Nat} : Steady a (e.chargeEntry n) := h.budget.setRing

theorem Steady.failFrame {n index lines : Nat} {code : Code} {cmdId : Dword} {irq : Bool} :
    Steady a (e.failFrame k r n code cmdId index lines irq) := h.setRing.chargeEntry.bump.complete

theorem Steady.finishEntry {n : Nat} : Steady a (e.finishEntry k r n) := by
  unfold Engine.finishEntry
  dsimp only
  split
  · exact h.failFrame
  · exact .ite h.failFrame h.setRing

theorem Steady.failChain {n taken left : Nat} {code : Code} {toLast : Bool} : Steady a (e.failChain k r n code taken left toLast) := by
  unfold Engine.failChain
  exact .ite h.failFrame h.setRing

theorem Steady.consumeFailed {n : Nat} {f : Failing} {x : LineRead} : Steady a (e.consumeFailed k r n f x) := by
  unfold Engine.consumeFailed
  exact .ite h.setRing.failFrame h.setRing.setRing

theorem Steady.waitPhase {n : Nat} : Steady a (e.waitPhase n) := h.setRing

theorem Steady.frameFirst {n : Nat} {x : LineRead} : Steady a (e.frameFirst k r n x).1 := by
  unfold Engine.frameFirst
  cases x with
  | ok d =>
    simp only [apply_ite Prod.fst]
    refine .ite h.waitPhase (.ite (.ite h.setRing.failFrame (.ite ?_ h.setRing)) (.ite h.setRing.failFrame (.ite h ?_)))
    · exact .ite h.setRing.finishEntry h.setRing.failChain
    · exact .ite h.setRing.finishEntry h.setRing
  | memError =>
    dsimp only
    exact h.setRing.drewN.failFrame
  | poison =>
    dsimp only
    exact h.setRing.drewN.failFrame

theorem Steady.frameLater {n : Nat} {x : LineRead} : Steady a (e.frameLater k r n x).1 := by
  unfold Engine.frameLater
  cases x with
  | ok d =>
    simp only [apply_ite Prod.fst]
    refine .ite ?_ (.ite h.waitPhase (.ite (.ite h.failChain.frameFirst h.failChain) (.ite h.setRing.failChain
      (.ite ?_ (.ite h.setRing.failChain h.setRing)))))
    · exact .ite h.setRing.finishEntry h.setRing
    · exact .ite h.setRing.finishEntry h.setRing.failChain
  | memError =>
    dsimp only
    exact h.setRing.failChain
  | poison =>
    dsimp only
    exact h.setRing.failChain

theorem Steady.frameLine {n : Nat} {x : LineRead} : Steady a (e.frameLine k r n x).1 := by
  unfold Engine.frameLine
  refine .ite_fst h ?_
  split
  · exact h.consumeFailed
  · exact .ite_fst (.ite_fst h.frameFirst h) h.frameLater

theorem Steady.frameLines {n : Nat} {xs : List LineRead} : Steady a (e.frameLines k r n xs) := by
  induction xs generalizing e with
  | nil => exact h
  | cons x xs ih =>
    unfold Engine.frameLines
    exact .ite (ih h.frameLine) h.frameLine

/-! ### Doorbells, phase bits and completions -/

theorem Steady.wake : Steady a e.wake := by
  unfold Engine.wake
  exact .ite h.power.bump (.ite h.power.bump h)

theorem Steady.ignoreDoorbell {n : Nat} : Steady a (e.ignoreDoorbell k r n) := h.bump.raise

theorem Steady.sqTail {n : Nat} {value : Word} {lines : List LineRead} : Steady a (e.sqTail k r n value lines) := by
  unfold Engine.sqTail
  exact .ite h.ignoreDoorbell (.ite h.setRing.wake h.setRing.wake.frameLines)

theorem Steady.cqHead {n : Nat} {value : Word} : Steady a (e.cqHead k r n value) := by
  unfold Engine.cqHead
  exact .ite h.ignoreDoorbell h.setRing

theorem Steady.failPhase {n : Nat} {d : LineData} : Steady a (e.failPhase k r n d) := by
  unfold Engine.failPhase
  exact .ite h.setRing.failFrame h.setRing.failChain

theorem Steady.phaseRing {n : Nat} {lines : List LineRead} : Steady a (e.phaseRing k r n lines) := by
  unfold Engine.phaseRing
  cases lines with
  | nil => exact h
  | cons x lines =>
    dsimp only
    split
    · exact .ite h.frameLines h
    · refine .ite h ?_
      cases x with
      | ok d => exact .ite h.bump.setRing.setRing.frameLines (.ite h.bump.setRing h.bump.setRing.failPhase)
      | memError => exact h.bump.setRing.setRing.frameLines
      | poison => exact h.bump.setRing.setRing.frameLines

theorem Steady.pushCq {n index : Nat} {cmdId : Dword} {code : Code} {notice plan irq : Bool} {entry : Option Nat} {result : List Byte} :
    Steady a (e.pushCq k r n cmdId code notice plan index entry irq result) := h.setRing.issueCq

theorem Steady.writeWaiting {n : Nat} {halt : Bool} : Steady a (e.writeWaiting k r n halt) := by
  unfold Engine.writeWaiting
  dsimp only
  split
  · exact h
  · refine .ite h ?_
    split
    · exact h.setRing.pushCq
    · exact h.setRing.pushCq

theorem Steady.completionAnswered {n : Nat} {code : Code} : Steady a (e.completionAnswered k r n code) := by
  unfold Engine.completionAnswered
  exact .ite h.setRing.issueCq h.setRing.raise

theorem Steady.waitAnswered {id : JobId} {code : Code} : Steady a (e.waitAnswered k r id code) := by
  unfold Engine.waitAnswered
  refine .ite h.endJob (.ite h ?_)
  split
  · split
    · exact h.complete
    · exact h
  · exact h

end

end Sys2Proof.Machine


/-!
PROOFS. Sessions and frames leave the beat, the keys and the DBG port.
-/

namespace Sys2Proof.Machine

section
variable {a e : Engine} {k : Kit} {r : Regs} (h : Steady a e)

include h

/-! ### Frames out -/

theorem Steady.setSess {t i : Nat} {v : Session} : Steady a (e.setSess t i v) := h.pollen

theorem Steady.sendControl {t i p : Nat} {type : BitVec 8} {body : BitVec 320} : Steady a (e.sendControl r t i p type body) := by
  unfold Engine.sendControl
  exact .ite h.putFrame h

theorem Steady.sendAck {t i p : Nat} : Steady a (e.sendAck r t i p) := h.sendControl

theorem Steady.sendSetup {t i p : Nat} {type : BitVec 8} {body : BitVec 320} {id : Word} {key : BitVec 256} :
    Steady a (e.sendSetup r t i p type body id key) := by
  unfold Engine.sendSetup
  exact .ite h.emit.bump h

theorem Steady.startSetup {t i : Nat} : Steady a (e.startSetup r t i) := by
  unfold Engine.startSetup
  split
  · exact .ite h h.drawn.drawn.setSess.sendSetup
  · exact h

theorem Steady.answerOpen {t i : Nat} : Steady a (e.answerOpen r t i) := by
  unfold Engine.answerOpen
  dsimp only
  split
  · exact .ite h h.drawn.setSess.sendSetup
  · exact h

theorem Steady.answerOpens : Steady a (e.answerOpens r) := h.forEach fun _ {_} h => h.answerOpen

theorem Steady.sendClose {t i : Nat} : Steady a (e.sendClose r t i) := by
  unfold Engine.sendClose
  dsimp only
  split
  · exact .ite h.sendControl h
  · exact h

theorem Steady.probe {t i : Nat} : Steady a (e.probe r t i) := h.forEach fun _ {_} h => h.sendControl

/-! ### Frames in -/

theorem Steady.dropFrame {d : Drop} : Steady a (e.dropFrame k r d) := by
  cases d with
  | crc => exact h.bump
  | bad => exact h.bump
  | stranger p => exact h.bump.pollen.when fun h => h.raise

theorem Steady.alive {t i : Nat} : Steady a (e.alive r t i) := h.pollen

theorem Steady.heard {t i p : Nat} {f : Frame} : Steady a (e.heard t i p f) := by
  unfold Engine.heard
  exact .ite h h.onPort

theorem Steady.answerOutOfOrder {t i p : Nat} {f : Frame} : Steady a (e.answerOutOfOrder r t i p f) := by
  unfold Engine.answerOutOfOrder
  exact .ite h.sendAck (.ite h h.onPort.sendControl)

theorem Steady.sequenceFrame {t i p : Nat} {f : Frame} : Steady a (e.sequenceFrame k r t i p f).1 := by
  unfold Engine.sequenceFrame
  simp only [apply_ite Prod.fst]
  have htaken := h.onPort (t := t) (i := i) (p := p) (f := fun ps => { ps with expect := ps.expect + 1, nakFor := none })
  refine .ite h.heard.bump (.ite h.answerOutOfOrder (.ite htaken.bump.raise ?_))
  exact .ite htaken.heard.onPort.bump.sendAck htaken.heard.onPort.bump

theorem Steady.endAdmin {t i p : Nat} : Steady a (e.endAdmin k r t i p) :=
  h.forEach fun j {_} h => by
    cases j.kind with
    | adminSend => exact .ite h.refuse h
    | _ => exact h

theorem Steady.receive {ty : BitVec 8} {port : Nat} {f : Frame} {act : Nat → Nat → Engine → Engine}
    (hact : ∀ t i {e}, Steady a e → Steady a (act t i e)) : Steady a (e.receive k r ty port f act) := by
  unfold Engine.receive
  refine .ite h ?_
  split
  · exact h.dropFrame
  · exact .ite (hact _ _ (.ite h.alive.sequenceFrame.endAdmin.wake h.alive.sequenceFrame.endAdmin)) h.alive.sequenceFrame.endAdmin

/-! ### Sessions that end -/

theorem Steady.closingAnswered {id : Option JobId} {code : Code} {plan : Bool} {result : List Byte} :
    Steady a (e.closingAnswered k r id code plan result) := by
  unfold Engine.closingAnswered
  exact .ite h h.finishJob

theorem Steady.dropXchgs {p : Xchg → Bool} : Steady a (e.dropXchgs k r p) :=
  h.pollen.forEach fun u {_} h => by
    cases u with
    | closing => exact h.closingAnswered
    | _ => exact h

theorem Steady.abortCmd {q : Nat} {c : VCmd} {code : Code} {tell : Bool} : Steady a (e.abortCmd k r q c code tell) := by
  unfold Engine.abortCmd
  exact .ite h.answerCmd ((h.same (same_dropCmd q c e)).same (same_countCmd q c code 0 _))

theorem Steady.abortCmds {q : Nat} {p tell : VCmd → Bool} {code : Code} : Steady a (e.abortCmds k r q p tell code) :=
  h.forEach fun _ {_} h => h.abortCmd

theorem Steady.endLinkCmds {t i : Nat} {p : Nat → Bool} {code : Code} : Steady a (e.endLinkCmds k r t i p code) :=
  h.forEach fun _ {_} h => h.setVq.abortCmds

theorem Steady.endAdminJobs {t i : Nat} {code : Code} : Steady a (e.endAdminJobs k r t i code) :=
  h.forEach fun j {_} h => by
    cases j.kind with
    | adminSend => exact .ite h.refuse h
    | _ => exact h

theorem Steady.endUses {t i : Nat} {code : Code} {lost : Bool} : Steady a (e.endUses k r t i code lost) := by
  unfold Engine.endUses
  refine Steady.pumpWindows (.endAdminJobs (.endLinkCmds ?_))
  exact .ite h.endCut (h.when fun h => h.raise)

theorem Steady.removeSess {t i : Nat} {code : Code} {lost : Bool} : Steady a (e.removeSess k r t i code lost) := h.endUses.dropXchgs.setSess

theorem Steady.closeSessions {t : Nat} {code : Code} : Steady a (e.closeSessions k r t code) :=
  h.forEach fun _ {_} h => .ite h h.sendClose.removeSess

theorem Steady.reissue {x : Xchg} : Steady a (e.reissue x) :=
  h.onRun fun _ h => by
    split
    · exact h.setRun
    · exact h

theorem Steady.moveAdmin {t i p q : Nat} : Steady a (e.moveAdmin r t i p q) :=
  h.forEach fun j {_} h => by
    cases j.kind with
    | adminSend => exact .ite h.rings.sendSeq h
    | _ => exact h

theorem Steady.failPort {t i p : Nat} {code : Code} : Steady a (e.failPort k r t i p code) := by
  unfold Engine.failPort
  extract_lets s live failed raised ended mine gone dropped
  have hdropped : Steady a dropped := h.setSess.onPort.bump.raise.endLinkCmds.dropXchgs
  refine .ite h ?_
  split
  · exact hdropped.endUses
  · exact (hdropped.forEach fun _ {_} h => h.reissue).moveAdmin.cutPump

theorem Steady.servePort {t i p : Nat} : Steady a (e.servePort k r t i p) := by
  unfold Engine.servePort
  exact .ite h.failPort h.pumpLink.cutPump

end

end Sys2Proof.Machine


/-!
PROOFS. The vault and the body leave the beat, the keys and the DBG port.
-/

namespace Sys2Proof.Machine

section
variable {a e : Engine} {k : Kit} {r : Regs} (h : Steady a e)

include h

/-! ### Commands of the vault -/

theorem Steady.setVtenant {t : Nat} {v : VTenant} : Steady a (e.setVtenant t v) := h.vault

theorem Steady.takePacket {q : Nat} {sel : VaultHdr → Bool} {act : VaultHdr → Packet → Engine → Engine}
    (hact : ∀ x p {e}, Steady a e → Steady a (act x p e)) : Steady a (e.takePacket r q sel act) := by
  unfold Engine.takePacket
  dsimp only
  split
  · exact h
  · exact .ite h (.ite h.setVq (hact _ _ h.setVq))

theorem Steady.takeFrame {port : Nat} {f : Frame} {sel : VaultHdr → Bool} {act : Nat → Nat → VaultHdr → Engine → Engine}
    (hact : ∀ t i x {e}, Steady a e → Steady a (act t i x e)) : Steady a (e.takeFrame k r port f sel act) := by
  unfold Engine.takeFrame
  exact .ite h (h.receive fun _ _ {_} h => hact _ _ _ h)

theorem Steady.command {src : VaultSrc} {mine : VaultHdr → Bool} {reads : CmdReads} {act : Nat → VCmd → List MemBeat → Engine → Engine}
    (hact : ∀ q c bs {e}, Steady a e → Steady a (act q c bs e)) : Steady a (e.command k r src mine reads act) := by
  unfold Engine.command
  cases src with
  | host q => exact h.takePacket fun _ _ {_} h => h.acceptCmd fun _ {_} h => hact _ _ _ h
  | link port f => exact h.takeFrame fun _ _ _ {_} h => .ite (h.acceptCmd fun _ {_} h => hact _ _ _ h) h.setVq

theorem Steady.serveVerify {q : Nat} {c : VCmd} {payload : List MemBeat} {reads : CmdReads} : Steady a (e.serveVerify k r q c payload reads) :=
  h.beginFlush

theorem Steady.serveIdentify {q : Nat} {c : VCmd} : Steady a (e.serveIdentify k r q c) := h.finishCmd

theorem Steady.endFwCommit {q : Nat} {c : VCmd} {code : Code} : Steady a (e.endFwCommit k r q c code) := h.vault.finishCmd

theorem Steady.fwCommit {q : Nat} {c : VCmd} {o : StoreOutcome} {go : List Byte → Engine → Engine}
    (hgo : ∀ bs {e}, Steady a e → Steady a (go bs e)) : Steady a (e.fwCommit k r q c o go) := by
  unfold Engine.fwCommit
  exact .ite h.endFwCommit (.ite (hgo _ h.body) h.body.endFwCommit)

theorem Steady.endUpdate {code : Code} : Steady a (e.endUpdate k r code) := by
  unfold Engine.endUpdate
  split
  · exact h.vault
  · split
    · exact h
    · exact h.endFwCommit

/-! ### Lines of the vault -/

theorem Steady.markFailed {key : FrontKey} {code : Code} : Steady a (e.markFailed key code) := h.vault
theorem Steady.unfail {key : FrontKey} : Steady a (e.unfail key) := h.vault

theorem Steady.ticked : Steady a e.ticked := h.same (same_ticked e)
theorem Steady.ordered : Steady a e.ordered := h.vault

theorem Steady.deferError {told : Bool} {q off : Nat} {t : TenantNo} {key : FrontKey} {code : Code} :
    Steady a (e.deferError told q t off key code) := by
  unfold Engine.deferError
  exact .ite h.setVtenant.ticked.bump h.setVtenant.ticked.bump.vault

theorem Steady.settleLine {key : FrontKey} {ver : Nat} {code : Code} : Steady a (e.settleLine k r key ver code) := by
  unfold Engine.settleLine
  refine Steady.endDrains (.endWaits (.vault ?_))
  split
  · exact h
  · exact .ite h.onFront (.ite h.markFailed h.markFailed.deferError)

theorem Steady.applyLine {q : Nat} {t : TenantNo} {fua : Bool} {key : FrontKey} {b : MemBeat} : Steady a (e.applyLine q t fua key b) := by
  unfold Engine.applyLine
  cases key with
  | body n => exact h.ordered.unfail.onFront.pushBodyWrite
  | _ => exact h.ordered.unfail.onFront

theorem Steady.applyWrite {q : Nat} {c : VCmd} : Steady a (e.applyWrite k r q c) := by
  unfold Engine.applyWrite
  extract_lets sp keys fua applied t told _ done
  have happlied : Steady a applied := h.forEach fun _ {_} h => h.applyLine
  have htold : Steady a told := by
    show Steady a (match c.session with | some _ => _ | none => _)
    split
    · exact happlied
    · exact happlied.forEach fun _ {_} h => .ite h.setKept h
  have hdone : Steady a done := .ite htold.onCmds.onFront htold.finishCmd
  exact hdone.pumpWindows

theorem Steady.dataDone {q : Nat} {c : VCmd} : Steady a (e.dataDone k r q c) := by
  unfold Engine.dataDone
  exact .ite h.applyWrite h.vault.finishCmd

theorem Steady.targetPacket {q : Nat} {mine : VCmd → Bool} {hdr : VaultHdr} {payload : List MemBeat} :
    Steady a (e.targetPacket k r q mine hdr payload) := by
  unfold Engine.targetPacket
  split
  · exact h.bump
  · exact .ite h.bump (.ite h.bump.finishCmd (.ite h.onCmds.dataDone h.onCmds))

theorem Steady.strayPacket {port t i : Nat} {hdr : VaultHdr} {f : Frame} : Steady a (e.strayPacket k r port t i hdr f) := h.targetPacket

/-! ### Doorbells and resets of queues -/

theorem Steady.badDoorbell {q : Nat} : Steady a (e.badDoorbell k r q) := h.bump.raise

theorem Steady.vqIn {q : Nat} {value : Word} {lines : List LineRead} : Steady a (e.vqIn k r q value lines) := by
  unfold Engine.vqIn
  exact .ite h.badDoorbell (.ite h.setVq.wake h.setVq.wake.setVq.frameIn)

theorem Steady.vqOut {q : Nat} {value : Word} : Steady a (e.vqOut k r q value) := by
  unfold Engine.vqOut
  exact .ite h.badDoorbell h.setVq.pumpOut.resumeIn

theorem Steady.phaseQueue {q : Nat} {lines : List LineRead} : Steady a (e.phaseQueue k r q lines) := by
  unfold Engine.phaseQueue
  dsimp only
  split
  · refine .ite h ?_
    split
    · exact h.bump.setVq.frameIn
    · exact .ite h.bump.setVq (.ite h.bump.setVq.failPacket h.bump.setVq)
  · exact .ite h.frameIn h
  · exact h

theorem Steady.vqResetWrite {value : Word} : Steady a (e.vqResetWrite k r value).2 := by
  unfold Engine.vqResetWrite
  simp only [apply_ite Prod.snd]
  exact .ite h (.ite (Steady.setVq h.abortCmds.bump.mem) h.abortCmds.bump.setVq)

/-! ### The body -/

theorem Steady.storeLine {key : Nat} {l : Line} : Steady a (e.storeLine key l) := h.body
theorem Steady.popWrite : Steady a e.popWrite := h.bulb
theorem Steady.countAttempt {u : BodyFor} : Steady a (e.countAttempt u) := h.body
theorem Steady.copyNext : Steady a (e.copyNext r) := h.copyPump

theorem Steady.bodyDone {w : BodyWrite} : Steady a (e.bodyDone k r w) := by
  unfold Engine.bodyDone
  cases w.use with
  | vault n ver => exact h.popWrite.storeLine.settleLine
  | copy n => exact h.popWrite.storeLine.unfail.settleLine.copyNext
  | commitState t => exact h.popWrite.countAttempt.onRun fun _ h => h.setKept.commitCut.pumpWindows

theorem Steady.copyFailed {n : Nat} {l : Line} : Steady a (e.copyFailed r n l) := by
  unfold Engine.copyFailed
  exact (Steady.bulb h.onFront.markFailed).copyNext

theorem Steady.bodyFailed {w : BodyWrite} : Steady a (e.bodyFailed k r w) := by
  unfold Engine.bodyFailed
  extract_lets bank counted
  have hcounted : Steady a counted := h.popWrite.countAttempt.countWriteFail.raise
  clear_value counted
  cases w.use with
  | vault n ver => exact hcounted.settleLine
  | copy n => exact hcounted.copyFailed
  | commitState t => exact hcounted.endCut.pumpWindows

theorem Steady.abandonRemap : Steady a e.abandonRemap := by
  unfold Engine.abandonRemap
  split
  · exact h.of_eq rfl rfl rfl
  · exact h

theorem Steady.startRetire {p : Nat} : Steady a (e.startRetire p) := by
  unfold Engine.startRetire
  split
  · exact h
  · split
    · exact h.body
    · dsimp only
      split
      · exact .ite (.ite h h.bulb) h.abandonRemap.bulb
      · exact h.bulb

theorem Steady.nextRetire : Steady a e.nextRetire := by
  unfold Engine.nextRetire
  split
  · exact Steady.startRetire h.bulb
  · split
    · exact h.startRetire
    · exact h

theorem Steady.rewriteBank {l : Nat} : Steady a (e.rewriteBank k r l) := h.same (same_rewriteBank ..)
theorem Steady.raiseSpares {before : Nat} : Steady a (e.raiseSpares k r before) := h.same (same_raiseSpares ..)

theorem Steady.spareWrite {value : Word} : Steady a (e.spareWrite k r value) := by
  have hcode {e : Engine} {c : Code} (h : Steady a e) : Steady a (e.spareCode c) := h.units
  unfold Engine.spareWrite
  refine .ite h (.ite (.ite ?bank (hcode h)) ?unit)
  case bank =>
    unfold Engine.spareBank
    exact .ite (hcode h) (.ite (hcode h) (hcode h.startRetire).units)
  case unit =>
    split
    · exact hcode h
    · refine .ite (hcode h) (.ite (hcode h) (hcode ?_))
      unfold Engine.spareUnit
      split
      · exact h.coreFault
      · exact h.coreFault
      · exact h.raise.bump.takeOut

end

end Sys2Proof.Machine


/-!
PROOFS. Buds, the cut's lines and the guard leave the beat, the keys and the DBG port.
-/

namespace Sys2Proof.Machine

section
variable {a e : Engine} {k : Kit} {r : Regs} (h : Steady a e)

include h

/-! ### Buds -/

theorem Steady.setBud {tile : Nat} {b : Bud} : Steady a (e.setBud tile b) := h.buds

theorem Steady.hear {code : BitVec 4} {tile : Nat} {ok : Bool} {act : BitVec 64 → Bud → Bud} : Steady a (e.hear code tile ok act) := by
  unfold Engine.hear
  dsimp only
  split
  · exact h
  · exact .ite h h.setBud

theorem Steady.endPause : Steady a e.endPause := h.same (same_endPause e)

theorem Steady.raiseAt {s : Nat} {t : Option TenantNo} {st : Dword} : Steady a (e.raiseAt k r s t st) := h.same (same_raiseAt ..)

theorem Steady.earlyWrite {tile : Nat} {held : Bool} : Steady a (e.earlyWrite k r tile held) := by
  unfold Engine.earlyWrite
  exact .ite h.setBud (.ite h.setBud.drawn.raiseAt h)

theorem Steady.poisonExtents {tiles : List Nat} : Steady a (e.poisonExtents tiles) := h.cut

/-! ### Lines of the cut -/

theorem Steady.storeLineOf {prio off : Nat} {key : FrontKey} {s : Source} {b : MemBeat} {run : Running} :
    Steady a (e.storeLineOf r prio key s off b run) := by
  unfold Engine.storeLineOf
  exact h.setRun.bump.bump

theorem Steady.takeLine {kind : SrcKind} {n prio : Nat} {key : FrontKey} {b : MemBeat} : Steady a (e.takeLine r kind n prio key b) :=
  h.onRun fun _ h => by
    split
    · exact h
    · exact .ite h.setRun.onFront (.ite h.setRun.storeLineOf h.setRun)

theorem Steady.cutLineIn {tile : Nat} {x : UpLine} {run : Running} : Steady a (e.cutLineIn k r tile x run) := by
  unfold Engine.cutLineIn
  exact h.onFront.takeLine.cutPump

theorem Steady.beginCopy {run : Running} : Steady a (e.beginCopy r run) := by
  unfold Engine.beginCopy
  exact .ite h (Steady.copyPump h.bulb)

theorem Steady.releaseLines {off len : Nat} {run : Running} : Steady a (e.releaseLines off len run) := h.setRun.onFront

theorem Steady.ackOp {d : Dest} {op : DestOp} : Steady a (e.ackOp k r d op) :=
  h.onRun fun _ h => Steady.cutPump (by
    cases op with
    | clear => exact h.setRun
    | lines => exact h.releaseLines
    | verify => exact h
    | manifest => exact h.setRun
    | record => exact h.setRun)

theorem Steady.cutWriteAnswered : Steady a (e.cutWriteAnswered k r) :=
  h.onRun fun _ h => by
    split
    · split
      · exact .ite h.setRun.ackOp h.setRun
      · exact h
    · exact h

theorem Steady.armCut {t : TenantNo} {p : CutParams} {job : Option JobId} {plan : Bool} : Steady a (e.armCut t p job plan) := by
  unfold Engine.armCut
  exact h.setKept.broadcastTenant.cut

theorem Steady.freeze {num : Dword} {run : Running} : Steady a (e.freeze k r num run) := by
  unfold Engine.freeze
  extract_lets tn x _ p ss lay dests run armed ranged resumed run' _ _ paused
  have hresumed : Steady a resumed := (Steady.broadcastTenant
    (h.drawn.setKept.broadcastTenant.forEach fun _ {_} h => h.onRange)).emitHost.bump
  have hpaused : Steady a paused := hresumed.of_eq rfl rfl rfl
  exact hpaused.beginCopy.cutPump.guardPump

theorem Steady.planArm : Steady a (e.planArm k r) := by
  unfold Engine.planArm
  dsimp only
  split
  · exact h.raise
  · split
    · exact h.raise.setRing
    · exact h.armCut

theorem Steady.planCut : Steady a (e.planCut k r) := by
  unfold Engine.planCut
  split
  · exact h.planArm
  · exact .ite h.setRun (.ite h.endCut.planArm h.cut)

theorem Steady.notice {source : BitVec 2} : Steady a (e.notice k r source) := by
  unfold Engine.notice
  exact .ite (Steady.planCut h.cut) h

/-! ### The guard's chunks -/

theorem Steady.granuleDone {n granule : Nat} : Steady a (e.granuleDone n granule) := h.onRange.onGuard

theorem Steady.chunkDone {n granule chunk : Nat} : Steady a (e.chunkDone n granule chunk) := by
  unfold Engine.chunkDone
  dsimp only
  split
  · exact .ite h.onGuard.releaseHolds.granuleDone h.onGuard.releaseHolds
  · exact h.onGuard.releaseHolds

theorem Steady.chunkLine {n granule chunk line : Nat} {b : MemBeat} : Steady a (e.chunkLine k r n granule chunk line b) :=
  h.onRun fun _ h => .ite h.endCut (.ite h.onFront.takeLine.onGuard.chunkDone h.onFront.takeLine.onGuard)

theorem Steady.chunkRead {n granule chunk first : Nat} {code : Code} {beats : List MemBeat} {faults : List CoreFault} :
    Steady a (e.chunkRead k r n granule chunk first code beats faults) :=
  h.onRun fun _ h => .ite h.endCut (.ite h.coreFaults.endCut (h.coreFaults.forEach fun _ {_} h => h.chunkLine).cutPump.guardPump)

theorem Steady.hold {client n granule chunk : Nat} {htag : BitVec 4} : Steady a (e.hold k client htag n granule chunk) := by
  unfold Engine.hold
  exact .ite h.onGuard.bump.releaseHolds h.onGuard.bump.guardPump

/-! ### Codec lanes of the cut -/

theorem Steady.laneFault {x : UnitKind} {l : Nat} {t : TenantNo} : Steady a (e.laneFault k r x l t) := h.raise.bump.takeOut

theorem Steady.laneCut {i chunk l : Nat} {mismatch : Bool} : Steady a (e.laneCut k r i chunk l mismatch) :=
  h.onRun fun _ h => by
    split
    · exact h
    · exact .ite h (.ite h.laneFault h.setRun.cutPump)

end

end Sys2Proof.Machine


/-!
PROOFS. Streams and restores leave the beat, the keys and the DBG port.
-/

namespace Sys2Proof.Machine

section
variable {a e : Engine} {k : Kit} {r : Regs} (h : Steady a e)

include h

/-! ### Staged lines -/

theorem Steady.chargeStream {write : Bool} {c t n : Nat} : Steady a (e.chargeStream write c t n) := h.spendMem.budget
theorem Steady.setStream {n : Nat} {s : Stream} : Steady a (e.setStream n s) := h.streams
theorem Steady.onRestore {id : JobId} {f : Restore → Restore} : Steady a (e.onRestore id f) := h.streams
theorem Steady.awaitLines {n : Nat} : Steady a (e.awaitLines n) := h.onFront
theorem Steady.releaseAwaited {n : Nat} : Steady a (e.releaseAwaited n) := h.onFront
theorem Steady.dropStaged {n : Nat} : Steady a (e.dropStaged n) := h.onFront

theorem Steady.stageLine {t : TenantNo} {n i cls : Nat} {sealed coded : Bool} {b : MemBeat} :
    Steady a (e.stageLine t n i cls sealed coded b) := h.onFront

theorem Steady.readStaged {n : Nat} {lines : List Nat} : Steady a (e.readStaged k r n lines).2.2 := h.pipeRead

theorem Steady.takeLines {n : Nat} {lines : List Nat} {s : Stream} : Steady a (e.takeLines k r n lines s).2.2 := h.readStaged

theorem Steady.seedStream {s : Stream} : Steady a (e.seedStream s).2 := by
  unfold Engine.seedStream
  exact .ite_snd h h.seedOf

theorem Steady.countSpill {c : Nat} {out : List (Nat × MemBeat)} {s : Stream} : Steady a (e.countSpill c out s) := h.same (same_countSpill ..)
theorem Steady.countRefill {key : BitVec 512} {c : Nat} {s : Stream} : Steady a (e.countRefill key c s) := h.same (same_countRefill ..)

/-! ### Streams -/

theorem Steady.issueWrite {n : Nat} {s : Stream} : Steady a (e.issueWrite k n s) := by
  unfold Engine.issueWrite
  exact h.setStream.chargeStream.memWrite.bump

theorem Steady.issueRead {n : Nat} {s : Stream} : Steady a (e.issueRead k n s) := by
  unfold Engine.issueRead
  exact h.setStream.chargeStream.awaitLines.memReadOn.bump

theorem Steady.stall {n cause : Nat} : Steady a (e.stall n cause) := by
  unfold Engine.stall
  refine .ite h ?_
  dsimp only
  split
  · exact h.bump.setStream
  · split
    · exact h.bump.onRestore
    · exact h.bump

theorem Steady.holdWrite {addr : Nat} : Steady a (e.holdWrite addr) := by
  unfold Engine.holdWrite
  split
  · exact h.waitGuard
  · exact h

theorem Steady.makeChunk {n c : Nat} : Steady a (e.makeChunk k r n c) := by
  unfold Engine.makeChunk
  split
  · exact h
  · have hset {v : Stream} {lines : List Nat} {s : Stream} :
        Steady a (((e.takeLines k r n lines s).2.2.seedStream (e.takeLines k r n lines s).1).2.setStream n v) :=
      h.takeLines.seedStream.setStream
    exact .ite hset.countSpill hset.countRefill

theorem Steady.makeReady {n : Nat} : Steady a (e.makeReady k r n) := by
  unfold Engine.makeReady
  split
  · exact h
  · refine h.forEach fun _ {_} h => ?_
    split
    · exact .ite h.makeChunk h
    · exact h

theorem Steady.noticeHalt {id : JobId} {addr position n : Nat} : Steady a (e.noticeHalt id addr position n) := h.bump.setRing

theorem Steady.endStream {n : Nat} {code : Code} : Steady a (e.endStream k r n code) := by
  unfold Engine.endStream
  split
  · exact h
  · exact .ite h h.setStream.releaseAwaited.dropStaged.setRing.endJob

theorem Steady.endRestore {id : JobId} {code : Code} {result : List Byte} : Steady a (e.endRestore k r id code result) := by
  unfold Engine.endRestore
  split
  · exact h
  · exact .ite h (h.onRestore.releaseAwaited.forEach fun _ {_} h => h.dropStaged).setRing.endJob

theorem Steady.freeStaged {n : Nat} : Steady a (e.freeStaged n) := by
  unfold Engine.freeStaged
  split
  · exact h
  · exact h.onFront

theorem Steady.streamAcked {n : Nat} {lines : List Nat} : Steady a (e.streamAcked k r n lines) := by
  unfold Engine.streamAcked
  split
  · exact h
  · extract_lets _ now counted late made
    have hmade : Steady a made := h.setStream.bump.bump.freeStaged.makeReady
    split
    · exact .ite hmade.endStream hmade
    · exact hmade

theorem Steady.haltStream {n addr : Nat} {write : Bool} {lines : List Nat} : Steady a (e.haltStream n addr write lines) := by
  unfold Engine.haltStream
  split
  · exact h
  · have hleft {c : Prop} [Decidable c] : Steady a (if c then e else e.releaseAwaited lines.length) := .ite h h.releaseAwaited
    exact .ite hleft.setStream hleft.setStream.noticeHalt

theorem Steady.failStream {n : Nat} {code : Code} : Steady a (e.failStream k r n code) := by
  unfold Engine.failStream
  split
  · exact h
  · exact .ite h.setStream h.endStream

theorem Steady.dropAwaited {n : Nat} {lines : List Nat} : Steady a (e.dropAwaited n lines) := by
  unfold Engine.dropAwaited
  split
  · exact h.setStream.releaseAwaited
  · exact h

theorem Steady.streamLines {n : Nat} {lines : List Nat} {beats : List MemBeat} : Steady a (e.streamLines k r n lines beats) := by
  unfold Engine.streamLines
  split
  · exact h
  · exact (h.setStream.releaseAwaited.forEach fun _ {_} h => h.stageLine).makeReady

theorem Steady.spillTable {n : Nat} {s : Stream} : Steady a (e.spillTable k r n s) := by
  unfold Engine.spillTable
  exact .ite h h.takeLines.seedStream.setStream.makeReady

theorem Steady.refillTable {n : Nat} {s : Stream} : Steady a (e.refillTable k r n s) := by
  unfold Engine.refillTable
  refine .ite h ?_
  have hset {v : Stream} : Steady a ((e.takeLines k r n [0] s).2.2.setStream n v) := h.takeLines.setStream
  refine .ite hset.endStream ?_
  split
  · exact hset.setStream
  · exact hset.bump.endStream

theorem Steady.openStream {t : TenantNo} {id : JobId} {s : Stream} : Steady a (e.openStream t id s) := by
  unfold Engine.openStream
  exact h.addJob.setStream.streams

/-! ### Entries of a restore -/

theorem Steady.onEntry {n : Nat} {f : RestoreEntry → RestoreEntry} : Steady a (e.onEntry n f) := by
  unfold Engine.onEntry
  split
  · exact h.onRestore
  · exact h

theorem Steady.settleRestore {id : JobId} : Steady a (e.settleRestore k r id) := by
  unfold Engine.settleRestore
  dsimp only
  split
  · exact h.onRestore
  next x _ =>
    have hdropped : Steady a (((e.onRestore id fun x => { x with entries := x.entries.map RestoreEntry.settle })).forEach
        (x.numbers.filter fun n => !(x.entries.any fun y => y.runs && y.stream == n)) Engine.dropStaged) :=
      h.onRestore.forEach fun _ {_} h => h.dropStaged
    refine .ite hdropped ?_
    split
    · exact hdropped.endRestore
    · exact (hdropped.forEach fun _ {_} h => h.setKept).endRestore

theorem Steady.entryTake {n : Nat} {lines : List Nat} : Steady a (e.entryTake k r n lines).2 := h.readStaged.onEntry

theorem Steady.entryWindow {n : Nat} : Steady a (e.entryWindow k r n) := by
  unfold Engine.entryWindow
  exact .ite h h.entryTake.onEntry.onFront

theorem Steady.countWork {t : Nat} {w : EntryWork} : Steady a (e.countWork t w) := h.bump.bump.bump.bump.bump.bump

theorem Steady.makeEntry {n : Nat} : Steady a (e.makeEntry k r n) := by
  unfold Engine.makeEntry
  dsimp only
  split
  · exact h.entryTake
  · exact h.entryTake.onRestore.countWork.settleRestore

theorem Steady.entryGoesOn {n : Nat} : Steady a (e.entryGoesOn k r n) := by
  unfold Engine.entryGoesOn
  split
  · exact h
  · exact .ite h.makeEntry h

theorem Steady.failPiece {n : Nat} {lines : List Nat} {code : Code} : Steady a (e.failPiece n lines code) := by
  unfold Engine.failPiece
  split
  · exact h
  · split
    · exact h
    · dsimp only
      split
      · exact h.onEntry.onFront
      · exact h.onEntry

theorem Steady.entryLine {n holder i : Nat} {b : MemBeat} {code : Code} : Steady a (e.entryLine n holder i b code) := by
  unfold Engine.entryLine
  split
  · exact h
  · split
    · exact h
    · refine .ite h (.ite h.failPiece ?_)
      split
      · exact h.stageLine
      · exact h

theorem Steady.bodySource {t n : Nat} : Steady a (e.bodySource k r t n).2.2 := by
  unfold Engine.bodySource
  split
  · simp only [apply_ite Prod.snd]
    exact .ite h h.readFront
  · simp only [apply_ite Prod.snd]
    exact .ite h (.ite h h.readBody)

theorem Steady.entryBrings {x : Restore} {n holder i : Nat} {b : MemBeat} {code : Code} {faults : List CoreFault} :
    Steady a (e.entryBrings k r x n holder i b code faults) := by
  unfold Engine.entryBrings
  exact .ite h.coreFaults.endRestore h.coreFaults.entryLine.entryWindow.entryGoesOn

theorem Steady.issueEntryRead {x : Restore} {y : RestoreEntry} {faults : List CoreFault} : Steady a (e.issueEntryRead k r x y faults) := by
  unfold Engine.issueEntryRead
  dsimp only
  split
  · exact h.onRestore
  · split
    · exact h.onRestore.failPiece.entryGoesOn
    · exact .ite h.onRestore.onRestore.chargeStream.awaitLines.memReadOn (.ite h.onRestore.bodySource.entryBrings h.onRestore.entryBrings)

theorem Steady.issueEntryWrite {x : Restore} {y : RestoreEntry} : Steady a (e.issueEntryWrite k x y) := by
  unfold Engine.issueEntryWrite
  split
  · exact h
  · exact h.onRestore.chargeStream.memWrite

theorem Steady.entryRead {id : JobId} {n holder addr : Nat} {lines : List Nat} {code : Code} {beats : List MemBeat} {faults : List CoreFault} :
    Steady a (e.entryRead k r id n lines holder addr code beats faults) := by
  unfold Engine.entryRead
  split
  · exact h
  · have hnoted {f : RestoreEntry → RestoreEntry} : Steady a ((e.onEntry n f).releaseAwaited lines.length) := h.onEntry.releaseAwaited
    refine .ite h (.ite ?halted (.ite ?failed ?read))
    case halted => exact .ite hnoted.onEntry hnoted.onEntry.noticeHalt
    case failed => exact (Steady.ite hnoted hnoted.failPiece).entryGoesOn
    case read => exact .ite hnoted.coreFaults.endRestore (hnoted.coreFaults.forEach fun _ {_} h => h.entryLine).entryWindow.entryGoesOn

theorem Steady.restoreAnswered {q : MemReq} {id : JobId} {n : Nat} {code : Code} : Steady a (e.restoreAnswered k r q id n code) := by
  unfold Engine.restoreAnswered
  split
  · exact h
  · exact .ite h (.ite (.ite h.onRestore h.onRestore.noticeHalt) h.onRestore.settleRestore)

theorem Steady.refuseRestore {id : JobId} {code : Code} {entry : Option Nat} : Steady a (e.refuseRestore k r id code entry) := h.complete

theorem Steady.planRead {t n : Nat} : Steady a (e.planRead k r t n) := h.same (same_planRead ..)

theorem Steady.beginRestore {t : TenantNo} {id : JobId} {addr len n : Nat} {p : Plan} {gs : List Group} :
    Steady a (e.beginRestore k r t id addr len n p gs) := by
  unfold Engine.beginRestore
  exact (h.forEach fun _ {_} h => h.planRead).addJob.streams

/-! ### Turns -/

theorem Steady.serveStream {n : Nat} {s : Stream} : Steady a (e.serveStream k r n s) := by
  unfold Engine.serveStream
  exact .ite (.ite h.stall (.ite (Steady.issueWrite h.streams) (Steady.issueRead h.streams))) (.ite h.stall.holdWrite h.stall)

theorem Steady.serveEntry {n : Nat} {x : Restore} {y : RestoreEntry} {faults : List CoreFault} : Steady a (e.serveEntry k r n x y faults) := by
  unfold Engine.serveEntry
  split
  · exact .ite h.stall (.ite h.stall h)
  · exact .ite h.stall (.ite (Steady.issueEntryRead h.streams) (Steady.issueEntryWrite h.streams))
  · exact .ite h.stall.holdWrite h.stall

theorem Steady.streamCtrl {value : Word} : Steady a (e.streamCtrl k r value) := by
  unfold Engine.streamCtrl
  refine .ite h ?_
  split
  · exact .ite h (.ite h.endStream h.setStream.makeReady)
  · split
    · exact .ite h.onRestore.entryGoesOn.settleRestore h
    · exact h

theorem Steady.laneStream {kind : UnitKind} {n chunk l : Nat} {mismatch : Bool} : Steady a (e.laneStream k r kind n chunk l mismatch) := by
  unfold Engine.laneStream
  extract_lets spill dated _ turned
  have hturned : Steady a turned := .ite h h.streams
  refine .ite h ?_
  split
  · exact .ite hturned.laneFault hturned.makeChunk
  · split
    · exact .ite hturned.laneFault hturned.onEntry.entryGoesOn
    · exact hturned

theorem Steady.releaseDraws : Steady a (e.releaseDraws k r) := (h.answerOpens.forEach fun _ {_} h => h.makeReady).cutPump

end

end Sys2Proof.Machine


/-!
PROOFS. Tenants, recipes and the writes of the CFG window leave the beat, the keys and the DBG port.
-/

namespace Sys2Proof.Machine

section
variable {a e : Engine} {k : Kit} {r : Regs} (h : Steady a e)

include h

/-! ### Slots -/

theorem Steady.endOne {j : Job} {code : Code} : Steady a (e.endOne k r j code) := by
  unfold Engine.endOne
  cases j.kind with
  | cut => exact h.onRun fun _ h => .ite h.endCut h
  | drain => exact Steady.refuse h.vault
  | restore => exact h.endRestore
  | stream => exact h.endStream
  | adminSend => exact h.refuse
  | release => exact h
  | wait => exact h.endJob

theorem Steady.endTenantJobs {t : TenantNo} {code : Code} : Steady a (e.endTenantJobs k r t code) := by
  unfold Engine.endTenantJobs
  exact ((h.onRun fun _ h => .ite h.endCut h).forEach fun _ {_} h => h.endOne).pumpWindows

theorem Steady.endTenantCmds {t : TenantNo} {code : Code} : Steady a (e.endTenantCmds k r t code) := h.forEach fun _ {_} h => h.abortCmds

theorem Steady.dropBacks {t : TenantNo} : Steady a (e.dropBacks r t) := h.of_eq rfl rfl rfl
theorem Steady.forgetTenant {t : TenantNo} : Steady a (e.forgetTenant t) := h.of_eq rfl rfl rfl

theorem Steady.releaseSlot {t : TenantNo} {job : JobId} : Steady a (e.releaseSlot k r t job) := by
  unfold Engine.releaseSlot
  exact h.drawn.setTenant.endTenantJobs.endTenantCmds.closeSessions.stem.broadcastTenant.setTenant.dropBacks.onFront.forgetTenant

theorem Steady.scrubSlots {t : TenantNo} {slots : List Bool} {failed : List Nat} : Steady a (e.scrubSlots k r t slots failed) :=
  h.bulb.forEach fun _ {_} h => (h.forEach fun _ {_} h => h.same (same_scrubLine ..)).setKept

theorem Steady.settleClean : Steady a (e.settleClean k r) := h.forEach fun _ {_} h => h.settleLine

theorem Steady.admitTo {id : JobId} {t : Nat} {uid : BitVec 128} {bad : List Nat} : Steady a (e.admitTo k r id t uid bad) := by
  unfold Engine.admitTo
  exact .ite h.setTenant.complete (.ite h.scrubSlots.setKept.setTenant.complete h.scrubSlots.refuse)

/-! ### Messages -/

theorem Steady.bindSeal {t : TenantNo} {key : BitVec 512} : Steady a (e.bindSeal t key) := h.same (same_bindSeal ..)

theorem Steady.bindPollen {t : TenantNo} {key : Option (BitVec 256)} {id : Word} : Steady a (e.bindPollen k r t key id) :=
  h.closeSessions.setTenant

theorem Steady.vendorEffect {t : TenantNo} {p : VendorPayload} : Steady a (e.vendorEffect k r t p) := by
  unfold Engine.vendorEffect
  exact .ite (.ite h.bindSeal h.bindPollen) (.ite (.ite h.setTenant h.bindPollen) (.ite h.setTenant h))

theorem Steady.vendorMessage {t : TenantNo} {p : VendorPayload} : Steady a (e.vendorMessage k r t p).2 := by
  unfold Engine.vendorMessage
  split
  · exact h
  · exact h.vendorEffect.setTenant

theorem Steady.signedReply {t : TenantNo} {kind : SpdmRsp} {bs : List Byte} {go : Engine → Engine}
    (hgo : ∀ {e}, Steady a e → Steady a (go e)) : Steady a (e.signedReply k r t kind bs go).2.2 := by
  unfold Engine.signedReply
  have hsign := h.signDigest (digest := Config.spdmTranscript e.draws)
  split
  next he =>
    rw [he] at hsign
    exact hgo hsign
  next he =>
    rw [he] at hsign
    dsimp only at hsign ⊢
    exact hsign.raise

theorem Steady.respond {t : TenantNo} {q : SpdmReq} : Steady a (e.respond k r t q).2.2 := by
  unfold Engine.respond
  cases q with
  | getVersion => exact h
  | getCapabilities => exact h
  | negotiateAlgorithms => exact h
  | getDigests => exact h
  | getCertificate =>
    simp only [apply_ite Prod.snd]
    exact .ite h h
  | challenge => exact h.signedReply id
  | getMeasurements =>
    simp only [apply_ite Prod.snd]
    exact .ite (.ite (h.signedReply id) h) h
  | keyExchange =>
    simp only [apply_ite Prod.snd]
    exact .ite (h.signedReply fun h => h.setTenant) h
  | finish =>
    simp only [apply_ite Prod.snd]
    exact .ite h (.ite h.setTenant h.setTenant)
  | keyUpdate =>
    simp only [apply_ite Prod.snd]
    exact .ite h.setTenant h
  | endSession =>
    simp only [apply_ite Prod.snd]
    exact .ite h.setTenant h
  | vendorDefined =>
    simp only [apply_ite Prod.snd]
    exact .ite h.vendorMessage h
  | unsupported => exact h

theorem Steady.relay {t : TenantNo} {q : SpdmReq} : Steady a (e.relay k r t q) := by
  unfold Engine.relay
  exact .ite h (h.respond.when fun h => h.emit)

theorem Steady.answerSpdm {n : Nat} {x : Entry} {q : SpdmReq} : Steady a (e.answerSpdm k r n x q) := by
  unfold Engine.answerSpdm
  exact .ite h.respond.refuse (.ite h.respond.emit.drawn.complete h.respond.emit.drawn.addJob.writeJob)

/-! ### Recipes -/

theorem Steady.setRecipes {v : Recipes} : Steady a (e.setRecipes v) := h.recipes

theorem Steady.recipeJob {n : Nat} {x : Entry} {others mine : List (Bool × Code)} {go : Engine → Engine}
    (hgo : ∀ {e}, Steady a e → Steady a (go e)) : Steady a (e.recipeJob k r n x others mine go) := h.countRecipe.judged hgo

theorem Steady.recipeData {n : Nat} {x : Entry} {d : HostRead} {later : List Byte → List (Bool × Code)} {go : List Byte → Engine → Engine}
    (hgo : ∀ bs, Steady a e → Steady a (go bs e)) : Steady a (e.recipeData k r n x d later go) := by
  unfold Engine.recipeData
  cases d with
  | memError => exact h.refuse
  | poison => exact h.refuse
  | ok bs =>
    dsimp only
    split
    · exact h.bump.refuse
    · exact hgo _ h

/-! ### Writes of the window -/

theorem Steady.activated {n : Regs} : Steady a (e.activated r n) := (h.when fun h => h.setRing).forEach fun _ {_} h => h.setVq

theorem Steady.commit {source : BitVec 2} : Steady a (e.commit k source r).2 := by
  unfold Engine.commit
  dsimp only
  split
  · exact h.activated.bump
  · exact h.bump

theorem Steady.crcPass : Steady a (e.crcPass k r).2 := by
  unfold Engine.crcPass
  dsimp only
  exact h.bump.when fun h => h.bump.raise

theorem Steady.cmtWrite {value : Word} {strobe : Bool} : Steady a (e.cmtWrite k r value strobe).eng := by
  unfold Engine.cmtWrite
  dsimp only
  split
  · exact .ite_snd h.commit h
  · split
    · exact (h.when fun h => h.emitHost).commit
    · split
      · exact h
      · exact h

theorem Steady.selfTestWrite {value : Word} : Steady a (e.selfTestWrite r value) := by
  unfold Engine.selfTestWrite
  exact .ite h.selfTest.selfTest h.selfTest

theorem Steady.foxAckWrite {value : Word} : Steady a (e.foxAckWrite value) := h.fox

theorem Steady.handoverWrite {value : Word} : Steady a (e.handoverWrite value) := by
  unfold Engine.handoverWrite
  exact .ite h.onReferee h

theorem Steady.rwlWrite {off : Nat} {value : Word} {x : WriteDone} (hx : e.rwlWrite k r off value = some x) : Steady a x.eng := by
  unfold Engine.rwlWrite at hx
  split at hx
  · cases hx
    exact h.selfTestWrite
  split at hx
  · cases hx
    exact h.streamCtrl
  split at hx
  · cases hx
    exact .ite h.sqTail h.cqHead
  split at hx
  · cases hx
    exact .ite h.vqIn h.vqOut
  split at hx
  · cases hx
    exact h.vqResetWrite
  split at hx
  · cases hx
    exact h.foxAckWrite
  split at hx
  · cases hx
    exact h.handoverWrite
  split at hx
  · cases hx
    exact h.spareWrite
  · cases hx

theorem Steady.wordWrite {off : Nat} {value : Word} : Steady a (e.wordWrite k r off value).eng := by
  unfold Engine.wordWrite
  simp only [apply_ite WriteDone.eng]
  refine .ite h.cmtWrite (.ite h ?_)
  split
  next hx => exact h.rwlWrite hx
  next =>
    simp only [apply_ite WriteDone.eng]
    exact .ite h h

theorem Steady.bitWrite {off b : Nat} {v : Bool} : Steady a (e.bitWrite k r off b v).eng := by
  unfold Engine.bitWrite
  split
  · simp only [apply_ite WriteDone.eng]
    exact .ite h h
  · simp only [apply_ite WriteDone.eng]
    exact .ite (.ite h.cmtWrite h) (.ite (.ite h.selfTestWrite h) (.ite h h))

theorem Steady.cfgWrite {addr : Nat} {value : Word} : Steady a (e.cfgWrite k r addr value).eng := by
  unfold Engine.cfgWrite
  simp only [apply_ite WriteDone.eng]
  exact .ite h (.ite h.wordWrite (.ite h h.bitWrite))

theorem Steady.respondCfg {addr : Nat} {value : Word} : Steady a (e.cfgWrite k r addr value).respond.2 := h.cfgWrite.emit

end

end Sys2Proof.Machine


/-!
PROOFS. Which commands may change the keys and fuses (R409, R410): five commands of the KEY port and RST_COLD_N, and no other.
-/

namespace Sys2Proof.Machine

/-! ### Outcomes that leave the keys -/

/-- Whatever state the outcome answers, its keys and fuses are those of `s`. -/
def KeepsKeys (s : State) (o : Out) : Prop := ∀ t, o = .next t → t.eng.keys = s.eng.keys

theorem keepsKeys_next (s : State) : KeepsKeys s (.next s) := fun _ ht => by cases ht; rfl

theorem keepsKeys_eng {s : State} {r : Regs} {e : Engine} (h : e.keys = s.eng.keys) : KeepsKeys s (.next { s with regs := r, eng := e }) :=
  fun _ ht => by cases ht; exact h

theorem keepsKeys_eff {f : Kit → Regs → Engine → Engine} {s : State} (hf : ∀ {k r a e}, Steady a e → Steady a (f k r e)) :
    KeepsKeys s (s.eff f) := keepsKeys_eng (hf (Steady.refl s.eng)).keys

theorem keepsKeys_effCfg {f : Kit → Regs → Engine → Engine} {s : State} (hf : ∀ {k r a e}, Steady a e → Steady a (f k r e)) :
    KeepsKeys s (s.effCfg f) := keepsKeys_eff fun h => .ite (hf h).emit h

theorem keepsKeys_effRegs {f : Kit → Regs → Engine → Regs × Engine} {s : State} (hf : ∀ {k r a e}, Steady a e → Steady a (f k r e).2) :
    KeepsKeys s (s.effRegs f) := keepsKeys_eng (hf (Steady.refl s.eng)).keys

theorem keepsKeys_needs {ok : Bool} {s : State} {o : State → Out} (h : KeepsKeys s (o s)) : KeepsKeys s (s.needs ok o) := by
  cases ok
  · exact fun _ ht => nomatch ht
  · exact h

theorem keepsKeys_ite {c : Prop} [Decidable c] {s : State} {o o' : Out} (h : KeepsKeys s o) (h' : KeepsKeys s o') :
    KeepsKeys s (if c then o else o') := by
  split
  · exact h
  · exact h'

theorem keepsKeys_job {s : State} {ring : BitVec 8} {p : Entry → Bool} {f : Kit → Regs → Entry → Engine → Engine}
    (hf : ∀ {k r x a e}, Steady a e → Steady a (f k r x e)) : KeepsKeys s (s.eff fun k r e => e.startJob r ring.toNat p (f k r)) :=
  keepsKeys_eff fun h => h.startJob fun _ {_} h => hf h

theorem keepsKeys_command {s : State} {src : VaultSrc} {mine : VaultHdr → Bool} {reads : CmdReads} {ok : Bool}
    {act : Kit → Regs → Nat → VCmd → List MemBeat → Engine → Engine}
    (hact : ∀ {k r q c bs a e}, Steady a e → Steady a (act k r q c bs e)) :
    KeepsKeys s (s.needs ok fun s => s.eff fun k r e => e.command k r src mine reads (act k r)) :=
  keepsKeys_needs (keepsKeys_eff fun h => h.command fun _ _ _ {_} h => hact h)

theorem keepsKeys_frameIn {s : State} {ty : BitVec 8} {port : Nat} {f : Frame} {act : Kit → Regs → Nat → Nat → Engine → Engine}
    (hact : ∀ {k r t i a e}, Steady a e → Steady a (act k r t i e)) : KeepsKeys s (s.frameIn ty port f act) :=
  keepsKeys_needs (keepsKeys_eff fun h => h.receive fun _ _ {_} h => hact h)

section
variable (s : State)

/-! ### Jobs of the rings -/

theorem keepsKeys_cut (ring : BitVec 8) : KeepsKeys s (execCut ring s) :=
  keepsKeys_job fun h => h.countRecipe.judged fun h => h.addJob.armCut.cut

theorem keepsKeys_drain (ring : BitVec 8) : KeepsKeys s (execDrain ring s) :=
  keepsKeys_job fun h => h.judged fun h => (Steady.pumpWindows h.addJob.vault).endDrains

theorem keepsKeys_restore (ring : BitVec 8) (plan : HostRead) (seen : PlanReads) : KeepsKeys s (execRestore ring plan seen s) :=
  keepsKeys_job fun h => by
    dsimp only
    split
    · exact h.refuseRestore
    · split
      · exact h.refuseRestore
      · exact h.refuseRestore
      · split
        · exact h.refuseRestore
        · refine .ite h.coreFaults.refuseRestore ?_
          split
          · exact h.coreFaults.refuseRestore
          · exact h.coreFaults.beginRestore

theorem keepsKeys_restoreEntryStart (job : Nat) : KeepsKeys s (execRestoreEntryStart job s) :=
  keepsKeys_eff fun h => by
    split
    · exact h
    · split
      · exact .ite h.onRestore.entryGoesOn h
      · exact h

theorem keepsKeys_spill (ring : BitVec 8) : KeepsKeys s (execSpill ring s) :=
  keepsKeys_job fun h => h.countRecipe.judged fun h => h.setKept.openStream.bump

theorem keepsKeys_refill (ring : BitVec 8) : KeepsKeys s (execRefill ring s) := keepsKeys_job fun h => h.judged fun h => h.openStream

theorem keepsKeys_recipeLoad (ring : BitVec 8) (image : HostRead) : KeepsKeys s (execRecipeLoad ring image s) :=
  keepsKeys_job fun h => h.recipeJob fun h => h.recipeData fun _ h => by
    split
    · exact h
    · exact h.setRecipes.complete

theorem keepsKeys_unload (ring : BitVec 8) : KeepsKeys s (execUnload ring s) := keepsKeys_job fun h => h.recipeJob fun h => h.setRecipes.refuse

theorem keepsKeys_bind (ring : BitVec 8) (image : HostRead) : KeepsKeys s (execBind ring image s) :=
  keepsKeys_job fun h => h.recipeJob fun h => h.recipeData fun _ h => h.setRecipes.refuse

theorem keepsKeys_unbind (ring : BitVec 8) : KeepsKeys s (execUnbind ring s) := keepsKeys_job fun h => h.recipeJob fun h => h.setRecipes.refuse

theorem keepsKeys_keyBindAdmit (ring : BitVec 8) (failed : List Nat) : KeepsKeys s (execKeyBindAdmit ring failed s) :=
  keepsKeys_job fun h => h.judged fun h => by
    split
    · exact h.admitTo
    · exact h

theorem keepsKeys_keyBindRelease (ring : BitVec 8) : KeepsKeys s (execKeyBindRelease ring s) :=
  keepsKeys_effRegs fun h => by
    extract_lets n go slot conds released
    have hreleased : Steady _ released := h.startJob fun x {_} h => h.judged fun h => h.addJob.releaseSlot
    split
    · exact .ite_snd hreleased hreleased
    · exact hreleased

theorem keepsKeys_keyBindSpdm (ring : BitVec 8) (req : SpdmRead) : KeepsKeys s (execKeyBindSpdm ring req s) :=
  keepsKeys_eff fun h => h.startJob fun _ {_} h => by
    split
    · exact h.refuse
    · split
      · exact h.refuse
      · exact h.refuse
      · exact h.answerSpdm

theorem keepsKeys_scrub (ring : BitVec 8) (failed : List Nat) : KeepsKeys s (execScrub ring failed s) :=
  keepsKeys_job fun h => h.judged fun h => h.scrubSlots.settleClean.refuse

theorem keepsKeys_telemetry (ring : BitVec 8) : KeepsKeys s (execTelemetry ring s) := keepsKeys_job fun h => h.judged fun h => h.addJob.writeJob

theorem keepsKeys_guardAdd (ring : BitVec 8) (tlist : HostRead) : KeepsKeys s (execGuardAdd ring tlist s) :=
  keepsKeys_job fun h => h.judgedData fun _ h => by
    split
    · exact h
    · exact Steady.complete h.guard

theorem keepsKeys_guardRemove (ring : BitVec 8) : KeepsKeys s (execGuardRemove ring s) := keepsKeys_job fun h => h.judged fun h => h.onGuard.refuse

theorem keepsKeys_ringCreate (ring : BitVec 8) : KeepsKeys s (execRingCreate ring s) :=
  keepsKeys_effRegs fun h => by
    dsimp only
    split
    · exact h
    · split
      · exact h
      · split
        · dsimp only
          exact h.takeEntry.setRing.complete
        · dsimp only
          exact h.takeEntry.refuse
        · dsimp only
          exact h.takeEntry.refuse

theorem keepsKeys_adminSend (ring : BitVec 8) : KeepsKeys s (execAdminSend ring s) :=
  keepsKeys_job fun h => h.judged fun h => by
    dsimp only
    split
    · exact h
    · split
      · exact h.refuse
      · exact h.addJob.sendSeq

theorem keepsKeys_jobFenceRelease (ring : BitVec 8) : KeepsKeys s (execJobFenceRelease ring s) :=
  keepsKeys_eff fun h => by
    dsimp only
    split
    · exact h
    · exact .ite h.setRing h

theorem keepsKeys_phaseRetry (src : PhaseSrc) (lines : List LineRead) : KeepsKeys s (execPhaseRetry src lines s) :=
  keepsKeys_eff fun h => by
    cases src with
    | ring n => exact h.phaseRing
    | queue q => exact h.phaseQueue

theorem keepsKeys_completionRetry (ring : BitVec 8) : KeepsKeys s (execCompletionRetry ring s) :=
  keepsKeys_eff fun h => by
    dsimp only
    split
    · exact h
    · exact .ite h.setRing.memWrite h

/-! ### Commands of the vault -/

theorem keepsKeys_storeActivate (src : VaultSrc) (outcome : StoreOutcome) : KeepsKeys s (execStoreActivate src outcome s) :=
  keepsKeys_command fun h => h.fwCommit fun _ {_} h => h.referee

theorem keepsKeys_xferRdySend (queue : BitVec 6) (tag : BitVec 8) : KeepsKeys s (execXferRdySend queue tag s) :=
  keepsKeys_eff fun h => by
    dsimp only
    split
    · exact h
    · split
      · exact h
      next hchosen =>
        have hchosen := h.chooseCmd hchosen
        exact .ite h hchosen.onCmds.onFront.sendPacket

theorem keepsKeys_data (src : VaultSrc) : KeepsKeys s (execData src s) :=
  keepsKeys_needs <| keepsKeys_eff fun h => by
    cases src with
    | host q => exact h.takePacket fun _ _ {_} h => h.targetPacket
    | link port f => exact h.takeFrame fun _ _ _ {_} h => h.targetPacket

theorem keepsKeys_xferRdy (port : Nat) (frame : Frame) : KeepsKeys s (execXferRdy port frame s) :=
  keepsKeys_needs <| keepsKeys_eff fun h => h.takeFrame fun _ _ _ {_} h => by
    split
    · refine .ite h.bump ?_
      split
      · exact .ite ((Steady.readOp h.pollen).forEach fun _ {_} h => h.sendSeq) (Steady.readOp h.pollen).endCut
      · exact h
    · exact h
    · exact h.strayPacket

theorem keepsKeys_resp (port : Nat) (frame : Frame) : KeepsKeys s (execResp port frame s) :=
  keepsKeys_needs <| keepsKeys_eff fun h => h.takeFrame fun _ _ _ {_} h => by
    split
    · exact h.strayPacket
    · dsimp only
      split
      · exact .ite (Steady.ackOp h.pollen) (Steady.endCut h.pollen)
      · exact Steady.closingAnswered h.pollen
      · exact h.pollen

theorem keepsKeys_exchangeTimeout (queue : BitVec 6) (tag : BitVec 8) : KeepsKeys s (execExchangeTimeout queue tag s) :=
  keepsKeys_eff fun h => by
    dsimp only
    split
    · exact h
    · exact .ite h h.bump.abortCmd

theorem keepsKeys_vqReset (value : Word) : KeepsKeys s (execVqReset value s) := keepsKeys_effRegs fun h => .ite_snd h.vqResetWrite.emit h

end

end Sys2Proof.Machine


namespace Sys2Proof.Machine

section
variable (s : State)

/-! ### Sessions and ports -/

theorem keepsKeys_open (port : Nat) (frame : Frame) : KeepsKeys s (execOpen port frame s) := keepsKeys_frameIn fun h => .ite h h.setSess.answerOpen

theorem keepsKeys_accept (port : Nat) (frame : Frame) : KeepsKeys s (execAccept port frame s) :=
  keepsKeys_frameIn fun h => by
    dsimp only
    split
    · exact h
    · exact .ite h h.setSess.sendSetup.serveSess

theorem keepsKeys_confirm (port : Nat) (frame : Frame) : KeepsKeys s (execConfirm port frame s) :=
  keepsKeys_frameIn fun h => .ite h (Steady.serveSess (.setSess (.ite h.removeSess h)))

theorem keepsKeys_probeReply (port : Nat) (frame : Frame) : KeepsKeys s (execProbeReply port frame s) :=
  keepsKeys_frameIn fun h => .ite h.setSess.servePort h.setSess.setSess.onPort.servePort

theorem keepsKeys_droppedFrame (port : Nat) (frame : Option Frame) : KeepsKeys s (execDroppedFrame port frame s) :=
  keepsKeys_needs <| keepsKeys_eff fun h => .ite h (by
    split
    · exact h.dropFrame
    · split
      · exact h.dropFrame
      · exact h)

theorem keepsKeys_sessionRekey (tenant : TenantNo) (slot : BitVec 4) : KeepsKeys s (execSessionRekey tenant slot s) :=
  keepsKeys_eff fun h => .ite h (.ite h.setSess.startSetup h.setSess)

theorem keepsKeys_retransmit (tenant : TenantNo) (slot : BitVec 4) (port : Nat) : KeepsKeys s (execRetransmit tenant slot port s) :=
  keepsKeys_needs <| keepsKeys_eff fun h => by
    dsimp only
    split
    · exact h
    · exact h.onPort.servePort

theorem keepsKeys_creditGrant (tenant : TenantNo) (slot : BitVec 4) (port : Nat) : KeepsKeys s (execCreditGrant tenant slot port s) :=
  keepsKeys_needs <| keepsKeys_eff fun h => .ite (Steady.sendControl (Steady.onPort h.pollen)) h

theorem keepsKeys_peerLost (tenant : TenantNo) (slot : BitVec 4) : KeepsKeys s (execPeerLost tenant slot s) :=
  keepsKeys_eff fun h => .ite h (h.forEach fun _ {_} h => h.removeSess)

theorem keepsKeys_lnkUpFall (port : Nat) : KeepsKeys s (execLnkUpFall port s) :=
  keepsKeys_needs <| keepsKeys_eff fun h => h.pollen.forEach fun _ {_} h => h.failPort

theorem keepsKeys_lnkUpRise (port : Nat) : KeepsKeys s (execLnkUpRise port s) :=
  keepsKeys_needs <| keepsKeys_eff fun h => h.pollen.forEach fun _ {_} h => .ite h.sendControl h

/-! ### The cut, the buds and the guard -/

theorem keepsKeys_sysStep (num : Dword) : KeepsKeys s (execSysStep num s) :=
  keepsKeys_eff fun h => .ite h (.ite h.emitHost (by
    dsimp only
    split
    · exact h.cut.emitHost
    · refine .ite h.cut.emitHost (.ite (Steady.endCut h.cut).emitHost (.ite (Steady.freeze h.cut) (.ite h.cut.emitHost ?_)))
      exact (Steady.endCut h.cut).emitHost))

theorem keepsKeys_freezeAckTimeout : KeepsKeys s (execFreezeAckTimeout s) :=
  keepsKeys_eff fun h => h.onRun fun _ h => .ite h.poisonExtents.raise.endCut h

theorem keepsKeys_tileWrite (tile : Nat) (line : BitVec 10) (held : LineData) : KeepsKeys s (execTileWrite tile line held s) :=
  keepsKeys_needs <| keepsKeys_eff fun h => .ite (.ite h.setBud.emit.earlyWrite h.setBud.emit.earlyWrite) h.earlyWrite

theorem keepsKeys_tileConfigReload (tile : Nat) : KeepsKeys s (execTileConfigReload tile s) :=
  keepsKeys_needs <| keepsKeys_eff fun h => .ite h (h.setBud.onRun fun _ h => .ite h.endCut (.ite h.poisonExtents.endCut h.endPause))

theorem keepsKeys_stemLineAccept (tile : Nat) (parityBad : Bool) (faults : List CoreFault) :
    KeepsKeys s (execStemLineAccept tile parityBad faults s) :=
  keepsKeys_needs <| keepsKeys_eff fun h => by
    dsimp only
    split
    · exact h
    · exact .ite h ((h.setBud.when fun h => h.raise).onRun fun _ h =>
        .ite h (.ite h.endCut (.ite h.coreFaults.endCut (h.coreFaults.onRun fun _ h => h.cutLineIn))))

theorem keepsKeys_stemAck (tile : Nat) (parityBad : Bool) : KeepsKeys s (execStemAck tile parityBad s) :=
  keepsKeys_needs <| keepsKeys_eff fun h => by
    dsimp only
    split
    · exact h
    · exact .ite h.setBud.raise (.ite h.setBud.stem (.ite h.setBud.stem h.setBud.count))

theorem keepsKeys_grdCheck (client : Nat) (addr : BitVec 58) (htag : BitVec 4) : KeepsKeys s (execGrdCheck client addr htag s) :=
  keepsKeys_needs <| keepsKeys_eff fun h => .ite h.bump (by
    split
    · exact h.emit
    · exact h.emit.hold)

theorem keepsKeys_preemptDeadline : KeepsKeys s (execPreemptDeadline s) := keepsKeys_eff fun h => .ite h.endTenantJobs.cut h

/-! ### Answers of the memory -/

theorem keepsKeys_memReadResponse (channel : Nat) (tag : BitVec 12) (code : Code) (beats : List MemBeat) (faults : List CoreFault) :
    KeepsKeys s (execMemReadResponse channel tag code beats faults s) :=
  keepsKeys_needs <| keepsKeys_eff fun h => by
    split
    · exact h
    next q _ =>
      refine .ite h ?_
      have hdrop : Steady _ (Engine.dropReq q _) := h.mem
      dsimp only
      split
      · exact hdrop.chunkRead.pumpWindows
      · exact .ite hdrop.haltStream (.ite hdrop.dropAwaited.failStream (.ite hdrop.coreFaults.dropAwaited.failStream hdrop.coreFaults.streamLines))
      · exact hdrop.entryRead
      · exact hdrop

theorem keepsKeys_memWriteResponse (channel : Nat) (tag : BitVec 12) (code : Code) : KeepsKeys s (execMemWriteResponse channel tag code s) :=
  keepsKeys_needs <| keepsKeys_eff fun h => by
    split
    · exact h
    next q _ =>
      have hdrop : Steady _ (Engine.dropReq q _) := h.mem
      dsimp only
      split
      · exact hdrop.completionAnswered
      · exact .ite hdrop.streamAcked (.ite hdrop.haltStream hdrop.failStream)
      · exact hdrop.restoreAnswered
      · exact (Steady.ite hdrop.cutWriteAnswered hdrop.endCut).pumpWindows
      · exact hdrop.settleLine.pumpWindows
      · exact hdrop.waitAnswered
      · exact hdrop.closingAnswered
      · exact hdrop

/-! ### Streams -/

theorem keepsKeys_streamChunkIssue (turn : StreamTurn) : KeepsKeys s (execStreamChunkIssue turn s) :=
  keepsKeys_eff fun h => .ite h (by
    split
    · split
      · exact h.stall
      · exact h.stall
      · exact h.serveStream
      · exact h
    · split
      · exact h.serveEntry
      · exact h)

theorem keepsKeys_streamFenceRelease (stream : BitVec 9) : KeepsKeys s (execStreamFenceRelease stream s) :=
  keepsKeys_eff fun h => by
    split
    · exact h
    · exact .ite h.setStream h

theorem keepsKeys_streamCtrlResume (value : Word) : KeepsKeys s (execStreamCtrlResume value s) := keepsKeys_effCfg fun h => h.streamCtrl

theorem keepsKeys_tableReady (stream : BitVec 9) : KeepsKeys s (execTableReady stream s) :=
  keepsKeys_eff fun h => by
    dsimp only
    split
    · exact h
    · exact .ite h (.ite h.spillTable h.refillTable)

theorem keepsKeys_codecChunkStart (src : CodecSrc) (chunk : Nat) (lanes : LaneTurn) : KeepsKeys s (execCodecChunkStart src chunk lanes s) :=
  keepsKeys_eff fun h => by
    cases src with
    | stream n =>
      dsimp only
      split
      · exact h.laneStream
      · exact h
    | cut i =>
      dsimp only
      split
      · exact h.laneCut
      · exact h

/-! ### The body -/

theorem keepsKeys_bodyWriteComplete (verified : Bool) : KeepsKeys s (execBodyWriteComplete verified s) :=
  keepsKeys_eff fun h => by
    split
    · exact h
    · exact .ite h.bodyDone (.ite (Steady.countAttempt h.bulb).bump h.bodyFailed)

theorem keepsKeys_wearRotate : KeepsKeys s (execWearRotate s) :=
  keepsKeys_eff fun h => by
    split
    · refine .ite ?_ h
      split
      · exact h.bulb
      · exact h
    · exact h

theorem keepsKeys_remapSwitch : KeepsKeys s (execRemapSwitch s) :=
  keepsKeys_eff fun h => by
    split
    · exact h
    · refine .ite h ?_
      extract_lets before old _ _ _ _ _ _ _ mapped told raised
      have hmapped : Steady _ mapped := h.of_eq rfl rfl rfl
      have htold : Steady _ told := hmapped.when fun h => (Steady.bump h.units).raise
      have hraised : Steady _ raised := htold.raiseSpares
      exact Steady.nextRetire (.ite hraised.rewriteBank hraised)

theorem keepsKeys_errorWindowEnd : KeepsKeys s (execErrorWindowEnd s) := by
  refine keepsKeys_eng ?_
  dsimp only
  split <;> rfl

theorem keepsKeys_calibrationPass (temp : BitVec 8) (outcomes : List CalOutcome) : KeepsKeys s (execCalibrationPass temp outcomes s) := by
  refine keepsKeys_eng ?_
  dsimp only
  split <;> rfl

/-! ### The beat -/

theorem Engine.edge_keys (k : Kit) (r : Regs) (i : EdgeInput) (clamped : Bool) (e : Engine) : (e.edge k r i clamped).keys = e.keys :=
  (steady_edge k r i clamped e).keys

theorem keepsKeys_beatEdge (i : EdgeInput) : KeepsKeys s (execBeatEdge i s) := by
  refine keepsKeys_eng ?_
  dsimp only
  split
  · rfl
  · split
    · rfl
    · exact Engine.edge_keys ..

theorem keepsKeys_beatEdgeClamped (early : Bool) (i : EdgeInput) : KeepsKeys s (execBeatEdgeClamped early i s) := by
  refine keepsKeys_eng ?_
  dsimp only
  split
  · exact Engine.edge_keys ..
  · rfl

theorem keepsKeys_beatLock (gaps : List Nat) : KeepsKeys s (execBeatLock gaps s) := by
  refine keepsKeys_needs (keepsKeys_eng ?_)
  dsimp only
  split <;> rfl

theorem keepsKeys_beatFreeRun : KeepsKeys s (execBeatFreeRun s) := by
  refine keepsKeys_eng ?_
  dsimp only
  split
  · rw [Engine.raise_keys]
  · rfl

/-! ### The referee and power -/

theorem keepsKeys_heartbeat (half : Half) : KeepsKeys s (execHeartbeat half s) :=
  keepsKeys_eff fun h => by
    refine .ite h (.ite (Steady.resumeHost ?_) h.onReferee)
    exact h.of_eq rfl rfl rfl

theorem keepsKeys_stewardLost : KeepsKeys s (execStewardLost s) :=
  keepsKeys_eff fun h => by
    split
    · exact .ite h.stewardGone h
    · exact h

theorem keepsKeys_standbyLost : KeepsKeys s (execStandbyLost s) :=
  keepsKeys_eff fun h => by
    split
    · exact .ite h.onReferee.raise h
    · exact h

theorem keepsKeys_handoverTakeEffect : KeepsKeys s (execHandoverTakeEffect s) :=
  keepsKeys_eff fun h => by
    split
    · refine .ite ?_ h
      dsimp only
      split
      · exact h.grantTo.endUpdate.onReferee.body
      · exact h.grantTo
    · exact h

theorem keepsKeys_standbyReady : KeepsKeys s (execStandbyReady s) :=
  keepsKeys_eff fun h => by
    dsimp only
    split
    · exact .ite h.onReferee h
    · exact h

theorem keepsKeys_standbyResyncTimeout : KeepsKeys s (execStandbyResyncTimeout s) :=
  keepsKeys_eff fun h => by
    split
    · exact .ite h.onReferee.raise h
    · exact h

theorem keepsKeys_fwActivateTimeout : KeepsKeys s (execFwActivateTimeout s) :=
  keepsKeys_eff fun h => by
    split
    · exact .ite (Steady.onReferee h.body).raise.endUpdate h
    · exact h

theorem keepsKeys_fwSoakEnd : KeepsKeys s (execFwSoakEnd s) :=
  keepsKeys_eff fun h => by
    split
    · exact Steady.onReferee h.body
    · exact h

theorem Engine.leaveLow_keys (e : Engine) : e.leaveLow.keys = e.keys := by
  unfold Engine.leaveLow
  cases e.power.state == 2 <;> rfl

theorem keepsKeys_powerEntry : KeepsKeys s (execPowerEntry s) :=
  keepsKeys_eff fun h => .ite (h.power.when fun h => h.forEach fun _ {_} h => h.closeSessions) h

theorem keepsKeys_powerStateEntered : KeepsKeys s (execPowerStateEntered s) :=
  keepsKeys_eff fun h => by
    refine .ite h (.ite ?_ h.power)
    exact h.of_eq rfl rfl rfl

theorem keepsKeys_powerExitComplete : KeepsKeys s (execPowerExitComplete s) := by
  refine keepsKeys_eng ?_
  dsimp only
  split
  · exact Engine.leaveLow_keys s.eng
  · rfl

/-! ### The CFG window, the KEY port and the DBG port -/

theorem keepsKeys_cfgPort (addr : Nat) (value : Word) : KeepsKeys s (s.cfgPort addr value) := keepsKeys_effRegs fun h => .ite_snd h.respondCfg h

theorem keepsKeys_selfTest (test : Nat) (value : Word) :
    KeepsKeys s (if selfTestOf test value then s.effCfg fun _ r e => e.selfTestWrite r value else .next s) :=
  keepsKeys_ite (keepsKeys_effCfg fun h => h.selfTestWrite) (keepsKeys_next s)

theorem keepsKeys_discard (value : Word) : KeepsKeys s (execDiscard value s) := keepsKeys_ite (keepsKeys_cfgPort s _ value) (keepsKeys_next s)

theorem keepsKeys_bitAliasWrite (addr : BitVec 20) (value : Word) : KeepsKeys s (execBitAliasWrite addr value s) :=
  keepsKeys_ite (keepsKeys_cfgPort s _ value) (keepsKeys_next s)

theorem keepsKeys_commit (value : Word) (withStrobe : Bool) : KeepsKeys s (execCommit value withStrobe s) :=
  keepsKeys_effRegs fun h => .ite_snd h.cmtWrite.emit (.ite_snd h.commit h)

theorem keepsKeys_sysCommitIn (during : Bool) : KeepsKeys s (execSysCommitIn during s) := keepsKeys_effRegs fun h => .ite_snd h h.commit
theorem keepsKeys_heldStrobeCommit : KeepsKeys s (execHeldStrobeCommit s) := keepsKeys_effRegs fun h => .ite_snd h.commit h
theorem keepsKeys_cfgCrcPassEnd : KeepsKeys s (execCfgCrcPassEnd s) := keepsKeys_effRegs fun h => .ite_snd h h.crcPass

theorem Engine.fnReset_keys (e : Engine) : e.fnReset.keys = e.keys := by
  have hwoken : e.wake.zeroReleased.leaveLow.keys = e.keys := by
    rw [Engine.leaveLow_keys]
    exact ((Steady.refl e).wake.forEach fun _ {_} h => .ite h.count h).keys
  exact hwoken

theorem keepsKeys_rstFnN (cycles : Nat) : KeepsKeys s (execRstFnN cycles s) := by
  refine keepsKeys_eng ?_
  dsimp only
  split
  · exact Engine.fnReset_keys s.eng
  · rfl

theorem keepsKeys_noiseStartupDone : KeepsKeys s (execNoiseStartupDone s) := keepsKeys_eff fun h => by
  refine .ite h (Steady.releaseDraws ?_)
  exact h.of_eq rfl rfl rfl

theorem keepsKeys_relay (t : TenantNo) (q : SpdmReq) : KeepsKeys s (s.eff fun k r e => e.relay k r t q) := keepsKeys_eff fun h => h.relay

theorem keepsKeys_sqTailDb (ring : BitVec 8) (value : Word) (lines : List LineRead) : KeepsKeys s (execSqTailDb ring value lines s) :=
  keepsKeys_effCfg fun h => h.sqTail

theorem keepsKeys_cqHeadDb (ring : BitVec 8) (value : Word) : KeepsKeys s (execCqHeadDb ring value s) := keepsKeys_effCfg fun h => h.cqHead

theorem keepsKeys_vqInDb (queue : BitVec 4) (value : Word) (lines : List LineRead) : KeepsKeys s (execVqInDb queue value lines s) :=
  keepsKeys_effCfg fun h => h.vqIn

theorem keepsKeys_vqOutDb (queue : BitVec 4) (value : Word) : KeepsKeys s (execVqOutDb queue value s) := keepsKeys_effCfg fun h => h.vqOut

theorem keepsKeys_partitionLineFree (partition : BitVec 2) : KeepsKeys s (execPartitionLineFree partition s) :=
  keepsKeys_eff fun h => .ite h.guardPump h

theorem keepsKeys_noiseHealthy : KeepsKeys s (execNoiseHealthy s) := keepsKeys_eff fun h => by
  refine .ite (Steady.releaseDraws ?_) h
  exact h.of_eq rfl rfl rfl

theorem keepsKeys_probeSend (tenant : TenantNo) (slot : BitVec 4) : KeepsKeys s (execProbeSend tenant slot s) :=
  keepsKeys_eff fun h => .ite h.probe h

theorem keepsKeys_ctrlMemUe (half : Half) : KeepsKeys s (execCtrlMemUe half s) :=
  keepsKeys_eff fun h => .ite h.raise.stewardGone h.raise.onReferee

theorem keepsKeys_ctrlMemCe : KeepsKeys s (execCtrlMemCe s) := keepsKeys_eff fun h => h.raise
theorem keepsKeys_foxParity : KeepsKeys s (execFoxParity s) := keepsKeys_eff fun h => h.raise
theorem keepsKeys_spareCtrl (value : Word) : KeepsKeys s (execSpareCtrl value s) := keepsKeys_effCfg fun h => h.spareWrite

theorem keepsKeys_readPublic (en : Bool) (w : Word) : KeepsKeys s (execReadPublic en w s) :=
  keepsKeys_eff fun h => .ite h (.ite h.emit h.emit)

theorem keepsKeys_status (en : Bool) (w : Word) : KeepsKeys s (execStatus en w s) := keepsKeys_eff fun h => .ite h (.ite h.emit h.emit)

theorem Engine.dbgRead_keys (k : Kit) (r : Regs) (addr : BitVec 20) (e : Engine) : (e.dbgRead k r addr).keys = e.keys := by
  unfold Engine.dbgRead
  dsimp only
  split
  · rfl
  · split
    · rfl
    · split <;> rfl

theorem keepsKeys_cfgAccess (dr : BitVec 56) : KeepsKeys s (execCfgAccess dr s) := by
  refine keepsKeys_eng ?_
  dsimp only
  split
  · rfl
  · split
    · exact (Steady.refl s.eng).cfgWrite.keys
    · exact Engine.dbgRead_keys ..

theorem keepsKeys_scanTest : KeepsKeys s (execScanTest s) := by
  refine keepsKeys_eng ?_
  dsimp only
  split
  · rfl
  · exact ((Steady.refl s.eng).forEach fun _ {_} h => h.setTenant).keys

end

end Sys2Proof.Machine


namespace Sys2Proof.Machine

/-! ### Every command -/

/-- The commands that may change the keys and fuses: those of the KEY port that set something (R409), and RST_COLD_N, which drops the
buffered words. -/
def setsKeys : Instr → Bool
  | .genIdentity _ _ | .certWord _ _ | .lockCert _ _ | .fwKeyWord _ _ | .fuseFwKey _ _ | .rstColdN => true
  | _ => false

theorem exec_keepsKeys (c : Instr) (s : State) (h : setsKeys c = false) : KeepsKeys s (exec c s) := by
  cases c
  -- Jobs and rings
  case cut ring => exact keepsKeys_cut s ring
  case drain ring => exact keepsKeys_drain s ring
  case restore ring plan seen => exact keepsKeys_restore s ring plan seen
  case restoreEntryStart job => exact keepsKeys_restoreEntryStart s job
  case spill ring => exact keepsKeys_spill s ring
  case refill ring => exact keepsKeys_refill s ring
  case recipeLoad ring image => exact keepsKeys_recipeLoad s ring image
  case unload ring => exact keepsKeys_unload s ring
  case bind ring image => exact keepsKeys_bind s ring image
  case unbind ring => exact keepsKeys_unbind s ring
  case keyBindAdmit ring failed => exact keepsKeys_keyBindAdmit s ring failed
  case keyBindRelease ring => exact keepsKeys_keyBindRelease s ring
  case keyBindSpdm ring req => exact keepsKeys_keyBindSpdm s ring req
  case scrub ring failed => exact keepsKeys_scrub s ring failed
  case telemetry ring => exact keepsKeys_telemetry s ring
  case guardAdd ring tlist => exact keepsKeys_guardAdd s ring tlist
  case guardRemove ring => exact keepsKeys_guardRemove s ring
  case ringCreate ring => exact keepsKeys_ringCreate s ring
  case adminSend ring => exact keepsKeys_adminSend s ring
  case jobFenceRelease ring => exact keepsKeys_jobFenceRelease s ring
  case phaseRetry src lines => exact keepsKeys_phaseRetry s src lines
  case completionRetry ring => exact keepsKeys_completionRetry s ring
  case haltNotice | planCompletion => exact keepsKeys_eff fun h => h.writeWaiting
  case sqTailDb ring value lines => exact keepsKeys_sqTailDb s ring value lines
  case cqHeadDb ring value => exact keepsKeys_cqHeadDb s ring value
  case vqInDb queue value lines => exact keepsKeys_vqInDb s queue value lines
  case vqOutDb queue value => exact keepsKeys_vqOutDb s queue value
  -- The vault
  case write | fwDownload => exact keepsKeys_command fun h => h
  case read => exact keepsKeys_needs (keepsKeys_eff fun h => h.strike.command fun _ _ _ {_} h => h.serveRead)
  case flush => exact keepsKeys_command fun h => h.beginFlush
  case verify => exact keepsKeys_command fun h => h.serveVerify
  case identify => exact keepsKeys_command fun h => h.serveIdentify
  case getLog | getFeature => exact keepsKeys_command fun h => h.finishCmd
  case setFeature => exact keepsKeys_command fun h => h.setVtenant.finishCmd
  case store => exact keepsKeys_command fun h => h.fwCommit fun _ {_} h => h.endFwCommit
  case storeActivate src outcome => exact keepsKeys_storeActivate s src outcome
  case xferRdySend queue tag => exact keepsKeys_xferRdySend s queue tag
  case xferRdy port frame => exact keepsKeys_xferRdy s port frame
  case data src => exact keepsKeys_data s src
  case resp port frame => exact keepsKeys_resp s port frame
  case exchangeTimeout queue tag => exact keepsKeys_exchangeTimeout s queue tag
  case vqReset value => exact keepsKeys_vqReset s value
  case vqResetDone => exact keepsKeys_eff fun h => h.setVq
  -- Sessions
  case open_ port frame => exact keepsKeys_open s port frame
  case accept port frame => exact keepsKeys_accept s port frame
  case confirm port frame => exact keepsKeys_confirm s port frame
  case close => exact keepsKeys_frameIn fun h => h.removeSess
  case ack | credit => exact keepsKeys_frameIn fun h => h.servePort
  case nak => exact keepsKeys_frameIn fun h => h.onPort.servePort
  case probe => exact keepsKeys_frameIn fun h => h.sendControl
  case probeReply port frame => exact keepsKeys_probeReply s port frame
  case admin => exact keepsKeys_frameIn fun h => .ite h.notice h
  case droppedFrame port frame => exact keepsKeys_droppedFrame s port frame
  case sessionOpen | openRetry => exact keepsKeys_eff fun h => .ite h.startSetup h
  case sessionRekey tenant slot => exact keepsKeys_sessionRekey s tenant slot
  case retransmit tenant slot port => exact keepsKeys_retransmit s tenant slot port
  case ackTimer => exact keepsKeys_needs (keepsKeys_eff fun h => .ite h.sendAck h)
  case creditGrant tenant slot port => exact keepsKeys_creditGrant s tenant slot port
  case probeSend tenant slot => exact keepsKeys_probeSend s tenant slot
  case peerLost tenant slot => exact keepsKeys_peerLost s tenant slot
  case lnkUpFall port => exact keepsKeys_lnkUpFall s port
  case lnkUpRise port => exact keepsKeys_lnkUpRise s port
  -- The cut, the buds, the guard and the memory
  case sysStep num => exact keepsKeys_sysStep s num
  case freezeAckTimeout => exact keepsKeys_freezeAckTimeout s
  case budArm | budFreeze | budDisarm | budRelease | budScrub | budBeat => exact keepsKeys_needs (keepsKeys_eff fun h => h.hear)
  case budResume => exact keepsKeys_needs (keepsKeys_eff fun h => h.hear.endPause)
  case tileWrite tile line held => exact keepsKeys_tileWrite s tile line held
  case budDrainRead | budCfgDone => exact keepsKeys_needs (keepsKeys_eff fun h => .ite h.setBud h)
  case budForcedDrain => exact keepsKeys_needs (keepsKeys_eff fun h => .ite h.setBud.emit h)
  case tileConfigReload tile => exact keepsKeys_tileConfigReload s tile
  case stemLineAccept tile parityBad faults => exact keepsKeys_stemLineAccept s tile parityBad faults
  case stemAck tile parityBad => exact keepsKeys_stemAck s tile parityBad
  case grdCheck client addr htag => exact keepsKeys_grdCheck s client addr htag
  case memReadResponse channel tag code beats faults => exact keepsKeys_memReadResponse s channel tag code beats faults
  case memWriteResponse channel tag code => exact keepsKeys_memWriteResponse s channel tag code
  case sysPreemptNFall => exact keepsKeys_eff fun h => h.wake.notice
  case planCutArm => exact keepsKeys_eff fun h => .ite (Steady.planArm h.cut) h
  case preemptDeadline => exact keepsKeys_preemptDeadline s
  -- Streams and the body
  case streamChunkIssue turn => exact keepsKeys_streamChunkIssue s turn
  case streamFenceRelease stream => exact keepsKeys_streamFenceRelease s stream
  case streamCtrlResume value => exact keepsKeys_streamCtrlResume s value
  case partitionLineFree partition => exact keepsKeys_partitionLineFree s partition
  case tableReady stream => exact keepsKeys_tableReady s stream
  case codecChunkStart src chunk lanes => exact keepsKeys_codecChunkStart s src chunk lanes
  case bodyWriteComplete verified => exact keepsKeys_bodyWriteComplete s verified
  case bankRetire => exact keepsKeys_needs (keepsKeys_eff fun h => .ite h.startRetire h)
  case wearRotate => exact keepsKeys_wearRotate s
  case remapSwitch => exact keepsKeys_remapSwitch s
  case errorWindowEnd => exact keepsKeys_errorWindowEnd s
  case calibrationPass temp outcomes => exact keepsKeys_calibrationPass s temp outcomes
  -- The beat, the referee, power and resets
  case beatEdge input => exact keepsKeys_beatEdge s input
  case beatEdgeClamped early input => exact keepsKeys_beatEdgeClamped s early input
  case beatLock gaps => exact keepsKeys_beatLock s gaps
  case beatFreeRun => exact keepsKeys_beatFreeRun s
  case throttleFall => exact keepsKeys_eff fun h => .ite h.power h
  case heartbeat half => exact keepsKeys_heartbeat s half
  case stewardLost => exact keepsKeys_stewardLost s
  case standbyLost => exact keepsKeys_standbyLost s
  case stewardClaim => exact keepsKeys_eff fun h => .ite h h.onReferee
  case handover => exact keepsKeys_effCfg fun h => h.handoverWrite
  case handoverTakeEffect => exact keepsKeys_handoverTakeEffect s
  case ctrlMemUe half => exact keepsKeys_ctrlMemUe s half
  case ctrlMemCe => exact keepsKeys_ctrlMemCe s
  case foxParity => exact keepsKeys_foxParity s
  case standbyReady => exact keepsKeys_standbyReady s
  case standbyResyncTimeout => exact keepsKeys_standbyResyncTimeout s
  case fwActivateTimeout => exact keepsKeys_fwActivateTimeout s
  case fwSoakEnd => exact keepsKeys_fwSoakEnd s
  case enterRecovery => exact keepsKeys_eff fun h => h.enterRecovery
  case foxAck => exact keepsKeys_effCfg fun h => h.foxAckWrite
  case spareCtrl value => exact keepsKeys_spareCtrl s value
  case frontMarch value | pipelineKat value | stemLoop value => exact keepsKeys_selfTest s _ value
  case selfTestEnd => exact keepsKeys_eff fun h => .ite h.selfTest h
  case noiseStartupDone => exact keepsKeys_noiseStartupDone s
  case noiseTestFail => exact keepsKeys_eff fun h => (Steady.bump h.units).raise
  case noiseHealthy => exact keepsKeys_noiseHealthy s
  case pwrReqChange => exact keepsKeys_eff fun h => .ite h (.ite (Steady.wake h.power) h.power)
  case powerEntry => exact keepsKeys_powerEntry s
  case powerStateEntered => exact keepsKeys_powerStateEntered s
  case powerExitComplete => exact keepsKeys_powerExitComplete s
  case rstFnN cycles => exact keepsKeys_rstFnN s cycles
  case sysReadyRise => exact keepsKeys_eff fun h => .ite h.power h
  -- The CFG window, the KEY port and the DBG port
  case commit value withStrobe => exact keepsKeys_commit s value withStrobe
  case discard value => exact keepsKeys_discard s value
  case sysCommitIn during => exact keepsKeys_sysCommitIn s during
  case heldStrobeCommit => exact keepsKeys_heldStrobeCommit s
  case registerWrite addr value => exact keepsKeys_cfgPort s _ value
  case bitAliasWrite addr value => exact keepsKeys_bitAliasWrite s addr value
  case cfgCrcPassEnd => exact keepsKeys_cfgCrcPassEnd s
  case readPublic en w => exact keepsKeys_readPublic s en w
  case status en w => exact keepsKeys_status s en w
  case cfgAccess dr => exact keepsKeys_cfgAccess s dr
  case scanTest => exact keepsKeys_scanTest s
  case idcode => exact keepsKeys_eff fun h => h.emit
  -- Messages
  case setKey | clearKey | setPolicy | getState | getVersion | getCapabilities | negotiateAlgorithms | getDigests | getCertificate |
    challenge | getMeasurements | keyExchange | finish | keyUpdate | endSession | vendorDefinedRequest => exact keepsKeys_relay s _ _
  -- The commands that may change them
  case genIdentity | certWord | lockCert | fwKeyWord | fuseFwKey | rstColdN => cases h

/-! ### The fuses -/

/-- What is set in `a` stands in `b`: the identity key, the locked certificate chain, the firmware key digest. -/
structure FusesKept (a b : Keys) : Prop where
  identity : ∀ key, a.identity = some key → b.identity = some key
  chain : a.chainLocked = true → b.chainLocked = true ∧ b.chain = a.chain
  digest : ∀ d, a.fwDigest = some d → b.fwDigest = some d

theorem FusesKept.refl (a : Keys) : FusesKept a a := ⟨fun _ h => h, fun h => ⟨h, rfl⟩, fun _ h => h⟩

/-- The effect of a KEY command on the keys: that of what it does, where it is accepted and not refused. -/
theorem Engine.keyCommand_fuses {refused : Bool} {f : Engine → Engine × Nat} {e : Engine}
    (h : refused = false → FusesKept e.keys (f e).1.keys) : FusesKept e.keys (e.keyCommand refused f).keys := by
  unfold Engine.keyCommand
  split
  · exact .refl _
  · cases refused
    · exact h rfl
    · exact .refl _

theorem Engine.tornWrite_keys (e : Engine) : e.tornWrite.keys = e.keys := by
  unfold Engine.tornWrite
  split
  · rfl
  · split
    · rfl
    · dsimp only
      split <;> rfl

theorem Engine.abandonRemap_keys (e : Engine) : e.abandonRemap.keys = e.keys := (Steady.refl e).abandonRemap.keys

theorem Engine.coldReset_keys (e : Engine) : e.coldReset.keys = { e.keys with fwWords := [] } := by
  show { e.tornWrite.abandonRemap.keys with fwWords := [] } = _
  rw [Engine.abandonRemap_keys, Engine.tornWrite_keys]

section
variable {en : Bool} {w : Word} {s t : State}

theorem genIdentity_fuses (ht : exec (.genIdentity en w) s = .next t) : FusesKept s.eng.keys t.eng.keys := by
  cases ht
  dsimp only
  split
  · exact .refl _
  · refine Engine.keyCommand_fuses fun hr => ?_
    have hnone : s.eng.keys.identity = none := by simpa using (Bool.or_eq_false_iff.mp hr).2
    exact { identity := fun _ h => (nomatch hnone.symm.trans h), chain := fun h => ⟨h, rfl⟩, digest := fun _ h => h }

theorem certWord_fuses (ht : exec (.certWord en w) s = .next t) : FusesKept s.eng.keys t.eng.keys := by
  cases ht
  refine Engine.keyCommand_fuses fun hr => ?_
  have hopen : s.eng.keys.chainLocked = false := (Bool.or_eq_false_iff.mp (Bool.or_eq_false_iff.mp hr).1).2
  exact { identity := fun _ h => h, chain := fun h => (nomatch hopen.symm.trans h), digest := fun _ h => h }

theorem lockCert_fuses (ht : exec (.lockCert en w) s = .next t) : FusesKept s.eng.keys t.eng.keys := by
  cases ht
  exact Engine.keyCommand_fuses fun _ => { identity := fun _ h => h, chain := fun _ => ⟨rfl, rfl⟩, digest := fun _ h => h }

theorem fwKeyWord_fuses (ht : exec (.fwKeyWord en w) s = .next t) : FusesKept s.eng.keys t.eng.keys := by
  cases ht
  exact Engine.keyCommand_fuses fun _ => { identity := fun _ h => h, chain := fun h => ⟨h, rfl⟩, digest := fun _ h => h }

theorem fuseFwKey_fuses (ht : exec (.fuseFwKey en w) s = .next t) : FusesKept s.eng.keys t.eng.keys := by
  cases ht
  refine Engine.keyCommand_fuses fun hr => ?_
  have hnone : s.eng.keys.fwDigest = none := by simpa using (Bool.or_eq_false_iff.mp (Bool.or_eq_false_iff.mp hr).1).2
  exact { identity := fun _ h => h, chain := fun h => ⟨h, rfl⟩, digest := fun _ h => (nomatch hnone.symm.trans h) }

theorem rstColdN_fuses (ht : exec .rstColdN s = .next t) : FusesKept s.eng.keys t.eng.keys := by
  cases ht
  show FusesKept s.eng.keys s.eng.coldReset.keys
  rw [Engine.coldReset_keys]
  exact { identity := fun _ h => h, chain := fun h => ⟨h, rfl⟩, digest := fun _ h => h }

end

theorem exec_fusesKept {c : Instr} {s t : State} (ht : exec c s = .next t) : FusesKept s.eng.keys t.eng.keys := by
  have hsame {s t : State} (h : t.eng.keys = s.eng.keys) : FusesKept s.eng.keys t.eng.keys := h ▸ .refl _
  cases hc : setsKeys c with
  | false => exact hsame (exec_keepsKeys c s hc t ht)
  | true =>
    cases c
    case genIdentity en w => exact genIdentity_fuses ht
    case certWord en w => exact certWord_fuses ht
    case lockCert en w => exact lockCert_fuses ht
    case fwKeyWord en w => exact fwKeyWord_fuses ht
    case fuseFwKey en w => exact fuseFwKey_fuses ht
    case rstColdN => exact rstColdN_fuses ht
    all_goals cases hc

end Sys2Proof.Machine

namespace Sys2Proof

open Machine

/-- Settles O59: a step takes one command, and every command keeps the fuses. -/
theorem fusesStayAsTheyAreSet : Obligations.FusesStayAsTheyAreSet := by
  unfold Obligations.FusesStayAsTheyAreSet
  intro s t hstep
  have hkept : FusesKept s.eng.keys t.eng.keys := by
    unfold step at hstep
    split at hstep
    case h_1 => cases hstep; exact .refl _
    case h_2 c rest _ => exact exec_fusesKept (s := { s with pending := rest }) hstep
  exact ⟨hkept.identity, hkept.chain, hkept.digest⟩

end Sys2Proof

/-!
PROOFS. One step (log 12, log 18): it carries out the command at the front, keeps the kit, and takes that command alone from the queue.
-/

namespace Sys2Proof.Machine

/-- A command keeps the kit and the queue. -/
theorem exec_keeps_kitPending {c : Instr} {s t : State} (ht : exec c s = .next t) : t.kit = s.kit ∧ t.pending = s.pending := by
  cases hr : setsRegs c with
  | false =>
    obtain ⟨e, he⟩ := exec_actsOnEngine c s hr
    cases hwf : c.wf s.kit <;> rw [he, hwf] at ht <;> cases ht
    exact ⟨rfl, rfl⟩
  | true =>
    obtain ⟨-, r, e, he, -⟩ := exec_actsOnRegs c s hr
    rw [he] at ht
    cases ht
    exact ⟨rfl, rfl⟩

end Sys2Proof.Machine

namespace Sys2Proof

open Machine

/-- Settles O1: the queue of the state is `c :: rest`, so the step is `exec c` on the state whose queue is `rest`. -/
theorem stepRunsTheFrontCommand : Obligations.StepRunsTheFrontCommand := fun _ _ _ => rfl

/-- Settles O2: every command keeps the kit and the queue that it finds. -/
theorem stepKeepsTheKitAndTakesOneCommand : Obligations.StepKeepsTheKitAndTakesOneCommand := by
  unfold Obligations.StepKeepsTheKitAndTakesOneCommand
  refine ⟨fun s t hstep => ?_, fun s hnone => ?_⟩
  · unfold step at hstep
    split at hstep
    case h_1 hnone => cases hstep; simp [hnone]
    case h_2 c rest hfront => simpa [hfront] using exec_keeps_kitPending hstep
  · simp [step, hnone]

/-- Settles O5: a command that is not listed acts on the engine alone. -/
theorem onlyRegisterCommandsChangeRegisters : Obligations.OnlyRegisterCommandsChangeRegisters := by
  unfold Obligations.OnlyRegisterCommandsChangeRegisters
  intro c s t hc ht
  obtain ⟨e, he⟩ := exec_actsOnEngine c s hc
  cases hwf : c.wf s.kit <;> rw [he, hwf] at ht <;> cases ht
  rfl

end Sys2Proof

/-!
PROOFS. The KEY port (R409, R410): a command that is refused answers so and changes nothing else; another does what its row says.
-/

namespace Sys2Proof.Machine

theorem Engine.keyCommand_refused {e : Engine} {refused : Bool} (f : Engine → Engine × Nat) (hopen : e.cfgOpen = true) (hr : refused = true) :
    e.keyCommand refused f = e.emit (.keyRsp keyRefused 0) := by
  subst hr
  simp [Engine.keyCommand, hopen]

theorem Engine.keyCommand_done {e : Engine} {refused : Bool} (f : Engine → Engine × Nat) (hopen : e.cfgOpen = true) (hr : refused = false) :
    e.keyCommand refused f = (f e).1.emit (.keyRsp keyDone (BitVec.ofNat 32 (f e).2)) := by
  subst hr
  simp [Engine.keyCommand, hopen]

section
variable {s : State} (hopen : s.eng.cfgOpen = true) (en : Bool) (w : Word)
include hopen

theorem exec_genIdentity_refused (h : (!en || !s.eng.allFree || s.eng.keys.identity.isSome) = true) :
    exec (.genIdentity en w) s = .next (driven s [.keyRsp 1 0]) := by
  show execGenIdentity en w s = _
  unfold execGenIdentity
  rw [State.eff_eq]
  dsimp only
  rw [if_neg (by simp [h]), Engine.keyCommand_refused _ hopen h]
  rfl

theorem exec_certWord_refused (h : (!en || s.eng.keys.chainLocked || decide (1024 ≤ s.eng.keys.chain.length)) = true) :
    exec (.certWord en w) s = .next (driven s [.keyRsp 1 0]) := by
  show execCertWord en w s = _
  unfold execCertWord
  rw [State.eff_eq, Engine.keyCommand_refused _ hopen h]
  rfl

theorem exec_lockCert_refused (h : (!en || !s.eng.allFree || s.eng.keys.chainLocked) = true) :
    exec (.lockCert en w) s = .next (driven s [.keyRsp 1 0]) := by
  show execLockCert en w s = _
  unfold execLockCert
  rw [State.eff_eq, Engine.keyCommand_refused _ hopen h]
  rfl

theorem exec_fwKeyWord_refused (h : (!en || decide (12 ≤ s.eng.keys.fwWords.length) || s.eng.keys.fwDigest.isSome) = true) :
    exec (.fwKeyWord en w) s = .next (driven s [.keyRsp 1 0]) := by
  show execFwKeyWord en w s = _
  unfold execFwKeyWord
  rw [State.eff_eq, Engine.keyCommand_refused _ hopen h]
  rfl

theorem exec_fuseFwKey_refused
    (h : (!en || !s.eng.allFree || s.eng.keys.fwDigest.isSome || decide (s.eng.keys.fwWords.length < 12)) = true) :
    exec (.fuseFwKey en w) s = .next (driven s [.keyRsp 1 0]) := by
  show execFuseFwKey en w s = _
  unfold execFuseFwKey
  rw [State.eff_eq, Engine.keyCommand_refused _ hopen h]
  rfl

theorem exec_readPublic_refused (h : (s.eng.keys.identity.isNone || decide (23 < w.toNat)) = true) :
    exec (.readPublic en w) s = .next (driven s [.keyRsp 1 0]) := by
  show execReadPublic en w s = _
  unfold execReadPublic
  rw [State.eff_eq, Engine.keyCommand_refused _ hopen h]
  rfl

omit hopen in
theorem exec_genIdentity_waits (hen : en = true) (hfree : s.eng.allFree = true) (hnone : s.eng.keys.identity = none)
    (hnoise : s.eng.units.noise ≠ .healthy) : exec (.genIdentity en w) s = .next s := by
  have hdraw : s.eng.mayDraw = false := by simpa [Engine.mayDraw] using hnoise
  show execGenIdentity en w s = _
  unfold execGenIdentity
  rw [State.eff_eq]
  simp [hen, hfree, hnone, hdraw]

theorem exec_genIdentity_done (hen : en = true) (hfree : s.eng.allFree = true) (hnone : s.eng.keys.identity = none)
    (hnoise : s.eng.units.noise = .healthy) :
    exec (.genIdentity en w) s = .next (withEng s
      ((s.eng.onKeys fun x => { x with identity := some (Config.noise s.eng.draws) }).drawn.emit (.keyRsp 0 0))) := by
  have hdraw : s.eng.mayDraw = true := by simp [Engine.mayDraw, hnoise]
  have hr : (!en || !s.eng.allFree || s.eng.keys.identity.isSome) = false := by simp [hen, hfree, hnone]
  show execGenIdentity en w s = _
  unfold execGenIdentity
  rw [State.eff_eq]
  dsimp only
  rw [if_neg (by simp [hdraw]), Engine.keyCommand_done _ hopen hr]
  rfl

theorem exec_lockCert_done (hfree : s.eng.allFree = true) (hunlocked : s.eng.keys.chainLocked = false) :
    exec (.lockCert true w) s = .next (driven (withEng s { s.eng with keys := { s.eng.keys with chainLocked := true } }) [.keyRsp 0 0]) := by
  show execLockCert true w s = _
  unfold execLockCert
  rw [State.eff_eq, Engine.keyCommand_done _ hopen (by simp [hfree, hunlocked])]
  rfl

theorem exec_certWord_done (hunlocked : s.eng.keys.chainLocked = false) (hroom : s.eng.keys.chain.length < 1024) :
    exec (.certWord true w) s = .next (driven (withEng s { s.eng with keys := { s.eng.keys with chain := s.eng.keys.chain ++ [w] } })
      [.keyRsp 0 (BitVec.ofNat 32 (s.eng.keys.chain.length + 1))]) := by
  show execCertWord true w s = _
  unfold execCertWord
  rw [State.eff_eq, Engine.keyCommand_done _ hopen (by simp [hunlocked, hroom])]
  rfl

theorem exec_fwKeyWord_done (hnone : s.eng.keys.fwDigest = none) (hroom : s.eng.keys.fwWords.length < 12) :
    exec (.fwKeyWord true w) s = .next (driven (withEng s { s.eng with keys := { s.eng.keys with fwWords := s.eng.keys.fwWords ++ [w] } })
      [.keyRsp 0 (BitVec.ofNat 32 (s.eng.keys.fwWords.length + 1))]) := by
  show execFwKeyWord true w s = _
  unfold execFwKeyWord
  rw [State.eff_eq, Engine.keyCommand_done _ hopen (by simp [hnone, hroom])]
  rfl

theorem exec_fuseFwKey_done (hfree : s.eng.allFree = true) (hnone : s.eng.keys.fwDigest = none) (hall : 12 ≤ s.eng.keys.fwWords.length) :
    exec (.fuseFwKey true w) s = .next (driven
      (withEng s { s.eng with keys := { s.eng.keys with fwDigest := some (digestOfWords s.eng.keys.fwWords) } }) [.keyRsp 0 0]) := by
  show execFuseFwKey true w s = _
  unfold execFuseFwKey
  rw [State.eff_eq, Engine.keyCommand_done _ hopen (by simp [hfree, hnone, hall])]
  rfl

theorem exec_readPublic_done (hset : s.eng.keys.identity.isSome = true) (hw : w.toNat ≤ 23) :
    exec (.readPublic en w) s = .next (driven s [.keyRsp 0 (BitVec.ofNat 32 (leAt (4 * w.toNat) 4 s.eng.keys.publicBytes))]) := by
  have hr : (s.eng.keys.identity.isNone || decide (23 < w.toNat)) = false := by
    rw [Option.isNone_eq_false_iff.mpr hset]
    simpa using hw
  show execReadPublic en w s = _
  unfold execReadPublic
  rw [State.eff_eq, Engine.keyCommand_done _ hopen hr]
  rfl

theorem exec_status_done : exec (.status en w) s = .next (driven s [.keyRsp 0 (BitVec.ofNat 32 s.eng.keyStatus)]) := by
  show execStatus en w s = _
  unfold execStatus
  rw [State.eff_eq, Engine.keyCommand_done _ hopen rfl]
  rfl

end

end Sys2Proof.Machine

namespace Sys2Proof

open Machine

/-- Settles O58: each case is the refused or the carried out form of its command. -/
theorem keyCommandsSetTheFusesOnce : Obligations.KeyCommandsSetTheFusesOnce := by
  unfold Obligations.KeyCommandsSetTheFusesOnce
  intro s w hopen
  refine ⟨?noEnable, ?notFree, fun hset en => exec_genIdentity_refused hopen en w (by simp [hset]),
    fun hlocked en => ⟨exec_certWord_refused hopen en w (by simp [hlocked]), exec_lockCert_refused hopen en w (by simp [hlocked])⟩,
    fun hset en => ⟨exec_fwKeyWord_refused hopen en w (by simp [hset]), exec_fuseFwKey_refused hopen en w (by simp [hset])⟩,
    fun hfull en => exec_certWord_refused hopen en w (by simp [hfull]),
    fun hfull en => exec_fwKeyWord_refused hopen en w (by simp [hfull]),
    fun hfew en => exec_fuseFwKey_refused hopen en w (by simp [hfew]),
    exec_genIdentity_waits true w rfl, ?identity,
    exec_lockCert_done hopen w, exec_certWord_done hopen w, exec_fwKeyWord_done hopen w, exec_fuseFwKey_done hopen w,
    fun en => exec_readPublic_done hopen en w, fun en hno => exec_readPublic_refused hopen en w (by simpa using hno),
    fun en => exec_status_done hopen en w⟩
  case noEnable =>
    simp only [List.forall_mem_cons, List.not_mem_nil, false_imp_iff, implies_true, and_true]
    exact ⟨exec_genIdentity_refused hopen _ w rfl, exec_certWord_refused hopen _ w rfl, exec_lockCert_refused hopen _ w rfl,
      exec_fwKeyWord_refused hopen _ w rfl, exec_fuseFwKey_refused hopen _ w rfl⟩
  case notFree =>
    intro hbusy
    simp only [List.forall_mem_cons, List.not_mem_nil, false_imp_iff, implies_true, and_true]
    exact ⟨exec_genIdentity_refused hopen _ w (by simp [hbusy]), exec_lockCert_refused hopen _ w (by simp [hbusy]),
      exec_fuseFwKey_refused hopen _ w (by simp [hbusy])⟩
  case identity =>
    intro hfree hnone hnoise
    refine ⟨_, _, exec_genIdentity_done hopen true w rfl hfree hnone hnoise, rfl, rfl, rfl, rfl, rfl, ?_⟩
    simp [Same, withEng, Engine.onKeys, Engine.drawn, Engine.emit]

end Sys2Proof

/-!
PROOFS. Fault events, acknowledgement and RECOVERY (R343 to R350, R355, R330, R429).
-/

namespace Sys2Proof.Machine

/-! ### Raises that follow a count -/

/-- A raise after an event that is counted, in an engine with Foxglove and the stamp of the state, leaves what `Raised` says. -/
theorem raised_bump_raise {s : State} {e : Engine} {src off : Nat} (himpl : foxImplemented s.kit src = true) (hfox : e.fox = s.eng.fox)
    (hstamp : e.stamp = s.eng.stamp) (hcount : e.counter Ctr.faultsRaised = s.eng.counter Ctr.faultsRaised) (hoff : Ctr.faultsRaised ≠ off)
    (n : Nat) (t : Option TenantNo) : Raised s (withEng s ((e.bump off n).raise s.kit s.regs src t)) src t :=
  raised_of_agrees (s' := withEng s (e.bump off n)) rfl hfox hstamp ((Engine.counter_bump_ne hoff n e).trans hcount)
    (raised_raise (s := withEng s (e.bump off n)) himpl rfl rfl rfl t)

/-- What a raise leaves is about the engine alone. -/
theorem raised_congr_eng {s t t' : State} {src : Nat} {tenant : Option TenantNo} (h : Raised s t src tenant) (ht : t'.eng = t.eng) :
    Raised s t' src tenant := by
  unfold Raised at h ⊢
  rwa [ht]

theorem only_raise (s : State) (src : Nat) (t : Option TenantNo) :
    Only [.fox, .count, .draws, .cycle] s (withEng s (s.eng.raise s.kit s.regs src t)) := only_of_same ((same_raise ..).mono (by decide))

theorem exec_ctrlMemCe (s : State) : exec .ctrlMemCe s = .next (withEng s (s.eng.raise s.kit s.regs 0x06 none)) := rfl

theorem exec_noiseTestFail (s : State) : exec .noiseTestFail s = .next (withEng s
    ((({ s.eng with units := { s.eng.units with noise := .failed } } : Engine).bump Ctr.noiseFails 1).raise s.kit s.regs 0x24 none)) := rfl

theorem exec_ctrlMemUe_standby {s : State} {h : Half} (hnot : s.eng.referee.steward ≠ some h) :
    exec (.ctrlMemUe h) s = .next (withEng s ((s.eng.raise s.kit s.regs 0x07 none).onReferee Referee.restart)) := by
  show execCtrlMemUe h s = _
  unfold execCtrlMemUe
  rw [State.eff_eq]
  dsimp only
  rw [Engine.raise_referee, if_neg hnot]
  rfl

theorem same_onReferee (f : Referee → Referee) (e : Engine) : Same [.referee] e (e.onReferee f) := by simp [Same, Engine.onReferee]

/-! ### The record of a raise -/

theorem Fox.raise_record (r : Regs) (src : Nat) (t : Option TenantNo) (st : Dword) (f : Fox) :
    tabFind (f.seq.toNat % 64) (f.raise r src t st).log =
      some { seq := f.seq + 1, source := BitVec.ofNat 8 src, sev := BitVec.ofNat 3 (effectiveSev r src f).1,
             escalated := (effectiveSev r src f).2, tenant := t, stamp := st } := by
  have hseq : f.seq + 1 - 1 = f.seq := BitVec.add_sub_cancel ..
  unfold Fox.raise
  dsimp only
  rw [hseq]
  exact tabFind_set_same _ _ _

/-- A raise counts its escalation, where it escalates (R347). -/
theorem Engine.raise_escalations {k : Kit} {src : Nat} (himpl : foxImplemented k src = true) (r : Regs) (t : Option TenantNo) (e : Engine) :
    (e.raise k r src t).counter Ctr.escalations = e.counter Ctr.escalations + if (effectiveSev r src e.fox).2 then 1 else 0 := by
  have hne : Ctr.escalations ≠ Ctr.faultsRaised := by decide
  have hcount : (e.raise k r src t).counter Ctr.escalations = (e.raiseAt k r src t e.stamp).counter Ctr.escalations := by
    rw [Engine.raise_eq r t e himpl]
    rfl
  have hraised : (({ e with fox := e.fox.raise r src t e.stamp } : Engine).bump Ctr.faultsRaised 1).counter Ctr.escalations =
      e.counter Ctr.escalations := Engine.counter_bump_ne hne ..
  rw [hcount]
  unfold Engine.raiseAt
  simp only [himpl, if_true]
  split
  · rw [Engine.counter_bump_same, hraised]
    rfl
  · rw [hraised]
    exact (BitVec.add_zero _).symm

theorem effectiveSev_programmed {r : Regs} {src : Nat} {f : Fox} (h : classPending r src f = false ∨ r.foxSev src = 0 ∨ r.foxSev src = 4) :
    effectiveSev r src f = (r.foxSev src, false) := by
  unfold effectiveSev
  refine if_pos ?_
  obtain h | h | h := h <;> simp [h]

theorem effectiveSev_raised {r : Regs} {src : Nat} {f : Fox} (hpending : classPending r src f = true) (hlow : 1 ≤ r.foxSev src)
    (hhigh : r.foxSev src ≤ 2) : effectiveSev r src f = (r.foxSev src + 1, true) := by
  have hnot : ¬ (r.foxSev src = 0 ∨ r.foxSev src = 4 ∨ (!classPending r src f) = true) := by
    rw [hpending]
    rintro (h | h | h)
    · omega
    · omega
    · cases h
  unfold effectiveSev
  rw [if_neg hnot, if_neg (by omega)]

theorem effectiveSev_urgent {r : Regs} {src : Nat} {f : Fox} (hpending : classPending r src f = true) (hsev : r.foxSev src = 3) :
    effectiveSev r src f = if r.fatalOk src then (4, true) else (3, false) := by
  unfold effectiveSev
  simp [hpending, hsev]

/-! ### FOX_ACK and RECOVERY -/

theorem exec_foxAck_open {s : State} (hopen : s.eng.cfgOpen = true) (value : Word) :
    exec (.foxAck value) s = .next (driven (withEng s (s.eng.foxAckWrite value)) [.cfgDone]) :=
  effCfg_open hopen fun _ _ e => e.foxAckWrite value

theorem Engine.foxAckWrite_src (value : Word) (e : Engine) (n : Nat) :
    (e.foxAckWrite value).fox.src n = if value.getLsbD 31 = true ∨ n = value.toNat % 256 then FoxSrc.clear else e.fox.src n := by
  unfold Engine.foxAckWrite Fox.src tabGet
  dsimp only
  cases hall : value.getLsbD 31 with
  | true => rfl
  | false =>
    by_cases hn : n = value.toNat % 256
    · simp [hn, tabFind_erase_same]
    · simp [hn, tabFind_erase_ne hn]

theorem same_foxAckWrite (value : Word) (e : Engine) : Same [.fox] e (e.foxAckWrite value) := by simp [Same, Engine.foxAckWrite]

/-- The engine that enters RECOVERY (R350). -/
def Engine.recovered (e : Engine) : Engine := { e with fox := { e.fox with recovery := true, fatalDue := false } }

theorem same_recovered (e : Engine) : Same [.fox] e e.recovered := by simp [Same, Engine.recovered]

theorem exec_enterRecovery_soaking {s : State} {n : Nat} (hdue : s.eng.fox.fatalDue = true) (hsoak : s.eng.referee.fw = .soak n) :
    exec .enterRecovery s = .next (withEng s (s.eng.recovered.stewardGone s.kit s.regs false)) := by
  show execEnterRecovery s = _
  unfold execEnterRecovery Engine.enterRecovery
  rw [State.eff_eq]
  dsimp only
  rw [if_pos hdue, hsoak]
  rfl

theorem exec_enterRecovery_noSoak {s : State} (hdue : s.eng.fox.fatalDue = true) (hsoak : ∀ n, s.eng.referee.fw ≠ .soak n) :
    exec .enterRecovery s = .next (withEng s s.eng.recovered) := by
  show execEnterRecovery s = _
  unfold execEnterRecovery Engine.enterRecovery
  rw [State.eff_eq]
  dsimp only
  rw [if_pos hdue]
  cases hfw : s.eng.referee.fw with
  | none => rfl
  | restarting => rfl
  | soak n => exact absurd hfw (hsoak n)

/-! ### The end of a CRC pass -/

theorem Engine.crcPass_regs (k : Kit) (r : Regs) (e : Engine) :
    (e.crcPass k r).1 = { r with crcLive := crc32c (crcInput k r), passValid := true,
                                 mismatch := r.crcCheck && (crc32c (crcInput k r)).toNat != r.word 0x100C } := rfl

theorem Engine.crcPass_eng (k : Kit) (r : Regs) (e : Engine) :
    (e.crcPass k r).2 = (e.bump Ctr.crcPasses 1).when (e.crcPass k r).1.mismatch fun e =>
      (e.bump Ctr.crcMismatches 1).raise k r 0x2E none := rfl

theorem Engine.crcPass_differs {k : Kit} {r : Regs} {e : Engine} (h : (e.crcPass k r).1.mismatch = true) :
    (e.crcPass k r).2 = ((e.bump Ctr.crcPasses 1).bump Ctr.crcMismatches 1).raise k r 0x2E none := by
  rw [Engine.crcPass_eng, h, Engine.when_true]

theorem Engine.crcPass_agrees {k : Kit} {r : Regs} {e : Engine} (h : (e.crcPass k r).1.mismatch = false) :
    (e.crcPass k r).2 = e.bump Ctr.crcPasses 1 := by
  rw [Engine.crcPass_eng, h, Engine.when_false]

theorem exec_cfgCrcPassEnd {s : State} (hrun : s.eng.power.state ≠ 2) :
    exec .cfgCrcPassEnd s = .next { s with regs := (s.eng.crcPass s.kit s.regs).1, eng := (s.eng.crcPass s.kit s.regs).2 } := by
  show execCfgCrcPassEnd s = _
  unfold execCfgCrcPassEnd
  rw [State.effRegs_eq, if_neg hrun]

theorem same_crcPass (k : Kit) (r : Regs) (e : Engine) : Same [.count, .fox, .draws, .cycle] e (e.crcPass k r).2 := by
  rw [Engine.crcPass_eng]
  refine ((same_bump ..).mono (by decide)).trans (Same.when _ ?_)
  exact ((same_bump ..).mono (by decide)).trans ((same_raise ..).mono (by decide))

theorem Engine.crcPass_passes (k : Kit) (r : Regs) (e : Engine) :
    (e.crcPass k r).2.counter Ctr.crcPasses = e.counter Ctr.crcPasses + 1 := by
  cases h : (e.crcPass k r).1.mismatch with
  | false =>
    rw [Engine.crcPass_agrees h]
    exact Engine.counter_bump_same ..
  | true =>
    rw [Engine.crcPass_differs h]
    calc (((e.bump Ctr.crcPasses 1).bump Ctr.crcMismatches 1).raise k r 0x2E none).counter Ctr.crcPasses
      _ = ((e.bump Ctr.crcPasses 1).bump Ctr.crcMismatches 1).counter Ctr.crcPasses :=
        Engine.raise_counter _ _ _ (show Ctr.crcPasses ≠ Ctr.faultsRaised by decide) (show Ctr.crcPasses ≠ Ctr.escalations by decide) ..
      _ = (e.bump Ctr.crcPasses 1).counter Ctr.crcPasses := Engine.counter_bump_ne (by decide) ..
      _ = e.counter Ctr.crcPasses + 1 := Engine.counter_bump_same ..

theorem Engine.crcPass_mismatches {k : Kit} {r : Regs} {e : Engine} (h : (e.crcPass k r).1.mismatch = true) :
    (e.crcPass k r).2.counter Ctr.crcMismatches = e.counter Ctr.crcMismatches + 1 := by
  rw [Engine.crcPass_differs h]
  calc (((e.bump Ctr.crcPasses 1).bump Ctr.crcMismatches 1).raise k r 0x2E none).counter Ctr.crcMismatches
    _ = ((e.bump Ctr.crcPasses 1).bump Ctr.crcMismatches 1).counter Ctr.crcMismatches := Engine.raise_counter _ _ _ (by decide) (by decide) ..
    _ = (e.bump Ctr.crcPasses 1).counter Ctr.crcMismatches + 1 := Engine.counter_bump_same ..
    _ = e.counter Ctr.crcMismatches + 1 := congrArg (· + 1) (Engine.counter_bump_ne (by decide) ..)

theorem crcPass_raised {s : State} (h : (s.eng.crcPass s.kit s.regs).1.mismatch = true) :
    Raised s (withEng s (s.eng.crcPass s.kit s.regs).2) 0x2E none := by
  rw [Engine.crcPass_differs h]
  exact raised_bump_raise (e := s.eng.bump Ctr.crcPasses 1) (foxImplemented_of_fixed (src := 0x2E) (by decide) s.kit) rfl rfl
    (Engine.counter_bump_ne (by decide) ..) (show Ctr.faultsRaised ≠ Ctr.crcMismatches by decide) 1 none

end Sys2Proof.Machine

namespace Sys2Proof

open Machine

/-- Settles O15: each event is one raise, after what it counts or marks. -/
theorem faultEventsRaiseTheirSources : Obligations.FaultEventsRaiseTheirSources := by
  unfold Obligations.FaultEventsRaiseTheirSources
  refine ⟨fun s => ?corrected, fun s => ?parity, fun s => ?noise, fun s h hnot => ?uncorrected⟩
  case corrected => exact ⟨_, rfl, raised_raise (foxImplemented_of_fixed (by decide) s.kit) rfl rfl rfl none, only_raise s 0x06 none⟩
  case parity => exact ⟨_, rfl, raised_raise (foxImplemented_of_fixed (by decide) s.kit) rfl rfl rfl none, only_raise s 0x38 none⟩
  case noise =>
    have hsame : Same [.units] s.eng { s.eng with units := { s.eng.units with noise := .failed } } := by simp [Same]
    refine ⟨_, exec_noiseTestFail s, ?_, Engine.raise_units .., ?_, only_of_same ?_⟩
    · exact raised_bump_raise (e := { s.eng with units := { s.eng.units with noise := .failed } })
        (foxImplemented_of_fixed (by decide) s.kit) rfl rfl rfl (by decide) 1 none
    · exact (Engine.raise_counter _ _ _ (by decide) (by decide) ..).trans (Engine.counter_bump_same ..)
    · exact (hsame.mono (by decide)).trans (((same_bump ..).mono (by decide)).trans ((same_raise ..).mono (by decide)))
  case uncorrected =>
    have hraised : Raised s (withEng s (s.eng.raise s.kit s.regs 0x07 none)) 0x07 none :=
      raised_raise (foxImplemented_of_fixed (by decide) s.kit) rfl rfl rfl none
    exact ⟨_, exec_ctrlMemUe_standby hnot, hraised, congrArg Referee.restart (Engine.raise_referee ..),
      only_of_same (((same_raise ..).mono (by decide)).trans ((same_onReferee ..).mono (by decide)))⟩

/-- Settles O17: the record holds the effective severity, which is the programmed one or, by escalation, the next. -/
theorem raisesOfAPendingClassEscalate : Obligations.RaisesOfAPendingClassEscalate := by
  unfold Obligations.RaisesOfAPendingClassEscalate
  intro s
  have himpl := foxImplemented_of_fixed (src := 0x06) (by decide) s.kit
  have hfox : (s.eng.raise s.kit s.regs 0x06 none).fox = s.eng.fox.raise s.regs 0x06 none s.eng.stamp := Engine.raise_fox himpl ..
  have hcount := Engine.raise_escalations himpl s.regs none s.eng
  refine ⟨_, exec_ctrlMemCe s, ?_⟩
  rw [withEng_eng, hfox, hcount]
  dsimp only
  rw [Fox.raise_record]
  refine ⟨fun h => ?_, fun hpending hlow hhigh => ?_, fun hpending hsev => ?_⟩
  · rw [effectiveSev_programmed h]
    exact ⟨rfl, BitVec.add_zero _⟩
  · rw [effectiveSev_raised hpending hlow hhigh]
    exact ⟨rfl, rfl⟩
  · unfold Fox.raise
    dsimp only
    rw [effectiveSev_urgent hpending hsev]
    cases s.regs.fatalOk 0x06 <;> exact ⟨rfl, rfl⟩

/-- Settles O16: FOX_ACK takes the named source, or all, out of the table of sources; ENTER_RECOVERY sets the mode, and in a soak the steward
is gone. -/
theorem acknowledgementAndRecovery : Obligations.AcknowledgementAndRecovery := by
  unfold Obligations.AcknowledgementAndRecovery
  refine ⟨fun s value hopen => ?_, fun s hdue => ⟨fun hno => ?_, fun n hsoak => ?_⟩⟩
  · refine ⟨_, exec_foxAck_open hopen value, fun n => ?_, fun n hn hone => ?_, rfl, rfl, only_answered (by decide) ?_ _⟩
    · show ((s.eng.foxAckWrite value).fox.src n).pending = _
      rw [Engine.foxAckWrite_src]
      cases value.getLsbD 31 with
      | true => simp [FoxSrc.clear]
      | false => by_cases hn : n = value.toNat % 256 <;> simp [hn, FoxSrc.clear]
    · show (s.eng.foxAckWrite value).fox.src n = _
      rw [Engine.foxAckWrite_src, if_neg (by rw [hone]; simp [hn])]
    · exact (same_foxAckWrite ..).mono (by decide)
  · exact ⟨_, exec_enterRecovery_noSoak hdue hno, rfl, rfl, only_of_same (same_recovered _)⟩
  · exact ⟨s.eng.recovered, rfl, same_recovered _, exec_enterRecovery_soaking hdue hsoak⟩

/-- Settles O11: a strobe in the check is held; a pass compares its CRC with the reference, and reports where they differ. -/
theorem strobeIsHeldAndCrcPassEnds : Obligations.StrobeIsHeldAndCrcPassEnds := by
  unfold Obligations.StrobeIsHeldAndCrcPassEnds
  refine ⟨fun _ => rfl, fun s hrun => ?_⟩
  have hregs := Engine.crcPass_regs s.kit s.regs s.eng
  have hpasses := Engine.crcPass_passes s.kit s.regs s.eng
  have hmismatches := Engine.crcPass_mismatches (k := s.kit) (r := s.regs) (e := s.eng)
  have hraised := crcPass_raised (s := s)
  have hfox : (s.eng.crcPass s.kit s.regs).1.mismatch = false → (s.eng.crcPass s.kit s.regs).2.fox = s.eng.fox := fun h => by
    rw [Engine.crcPass_agrees h]
    rfl
  have hsame := same_crcPass s.kit s.regs s.eng
  refine ⟨_, exec_cfgCrcPassEnd hrun, ?_⟩
  generalize s.eng.crcPass s.kit s.regs = x at *
  dsimp only
  rw [hregs] at hmismatches hraised hfox ⊢
  exact ⟨rfl, rfl, rfl, rfl, rfl, hpasses, fun h => ⟨raised_congr_eng (hraised h) rfl, hmismatches h⟩, hfox, rfl, rfl, hsame⟩

end Sys2Proof

/-!
PROOFS. The way out of the queues (R211, R283, R287, R307): whatever is sent, it changes the vault, the sessions, the link budget, the counters
and the stamp, and what the engine drives.
-/

namespace Sys2Proof.Machine

/-- What sending the packets of a queue may change. -/
def sendGroups : List Grp := [.vault, .front, .count, .pollen, .budget, .mem, .out, .draws, .cycle]

end Sys2Proof.Machine

namespace Sys2Proof

open Machine

/-- One more step that changes such groups. -/
theorem Same.sends {gs : List Grp} {a e b : Engine} (h : Same sendGroups a e) (h' : Same gs e b) (hs : ∀ g ∈ gs, g ∈ sendGroups) :
    Same sendGroups a b := h.trans (h'.mono hs)

end Sys2Proof

namespace Sys2Proof.Machine

section
variable {k : Kit} {r : Regs} {a e : Engine}

theorem same_sendGroups_ite {c : Prop} [Decidable c] {b b' : Engine} (h : Same sendGroups a b) (h' : Same sendGroups a b') :
    Same sendGroups a (if c then b else b') := by
  split
  · exact h
  · exact h'

/-! ### Frames -/

theorem same_takeLink (p : Nat) (ts : List Nat) (n : Nat) (e : Engine) : Same [.budget] e (e.takeLink p ts n) := by
  induction ts generalizing e n with
  | nil => exact Same.refl ..
  | cons t ts ih =>
    have hstep (b : Budget) : Same [.budget] e { e with budget := b } := by simp [Same]
    exact (hstep _).trans (ih ..)

theorem same_putFrame (t i p : Nat) (id : Word) (key : BitVec 256) (f : Frame) (e : Engine) :
    Same [.pollen, .count, .out] e (e.putFrame r t i p id key f) := by
  unfold Engine.putFrame
  exact same_framed_onPort ..

theorem same_sendHead (t i p : Nat) (e : Engine) : Same sendGroups e (e.sendHead r t i p) := by
  unfold Engine.sendHead
  dsimp only
  split
  · exact Same.refl ..
  · exact ((((Same.refl ..).sends (same_onPort ..) (by decide)).sends (same_takeLink ..) (by decide)).sends (same_putFrame ..)
      (by decide)).sends (same_bump ..) (by decide)

theorem same_pumpPort (t i p fuel : Nat) (e : Engine) : Same sendGroups e (e.pumpPort r t i p fuel) := by
  induction fuel generalizing e with
  | zero => exact Same.refl ..
  | succ fuel ih =>
    unfold Engine.pumpPort
    exact same_sendGroups_ite ((same_sendHead ..).trans (ih _)) (Same.refl ..)

/-! ### Packets -/

theorem same_sendWord (q : Nat) (session : Option Nat) (w : BitVec 256) (payload : List MemBeat) (e : Engine) :
    Same sendGroups e (e.sendWord k r q session w payload) := by
  cases session with
  | some n => exact ((Same.refl ..).sends (same_onPort ..) (by decide)).trans (same_pumpPort ..)
  | none => exact (sent_writeOut ..).same.mono (by decide)

theorem same_answerCmd (q : Nat) (c : VCmd) (code : Code) (arg : Nat) (e : Engine) : Same sendGroups e (e.answerCmd k r q c code arg) := by
  have hdropped := (Same.refl sendGroups e).sends (same_dropCmd q c e) (by decide)
  have hcounted := hdropped.sends (same_countCmd q c code arg _) (by decide)
  exact (hcounted.sends (same_clearDeferred c _) (by decide)).trans (same_sendWord ..)

theorem same_pumpCmd (q : Nat) (tag : BitVec 8) (fuel : Nat) (e : Engine) : Same sendGroups e (e.pumpCmd k r q tag fuel) := by
  induction fuel generalizing e with
  | zero => exact Same.refl ..
  | succ fuel ih =>
    unfold Engine.pumpCmd
    split
    · exact Same.refl ..
    · split
      · exact same_sendGroups_ite ((((Same.refl ..).sends (same_onCmds ..) (by decide)).trans (same_sendWord ..)).trans (ih _)) (Same.refl ..)
      · exact same_sendGroups_ite (same_answerCmd ..) (Same.refl ..)
      · exact Same.refl ..

theorem same_serveOut (q : Nat) (session : Option Nat) (fuel : Nat) (e : Engine) : Same sendGroups e (e.serveOut k r q session fuel) := by
  induction fuel generalizing e with
  | zero => exact Same.refl ..
  | succ fuel ih =>
    unfold Engine.serveOut
    dsimp only
    split
    · exact same_sendGroups_ite (same_pumpCmd ..) ((same_pumpCmd ..).trans (ih _))
    · split
      · exact Same.refl ..
      · split
        · exact Same.refl ..
        next hchosen =>
          obtain ⟨as, rfl⟩ := Engine.chooseCmd_arbs hchosen
          exact (((Same.refl ..).sends (same_vault ..) (by decide)).sends (same_onCmds ..) (by decide)).trans (ih _)

theorem same_pumpOut (q : Nat) (e : Engine) : Same sendGroups e (e.pumpOut k r q) := Same.forEach (fun _ _ => same_serveOut ..) _ e

theorem same_finishCmd (q : Nat) (c : VCmd) (data : List MemBeat) (code : Code) (arg : Nat) (e : Engine) :
    Same sendGroups e (e.finishCmd k r q c data code arg) := by
  exact (((Same.refl ..).sends (same_onCmds ..) (by decide)).sends (same_onFront ..) (by decide)).trans (same_pumpOut ..)

/-- The answer to the FW_COMMIT of an update. -/
theorem same_endUpdate (code : Code) (e : Engine) : Same sendGroups e (e.endUpdate k r code) := by
  unfold Engine.endUpdate
  split
  · exact (same_vault ..).mono (by decide)
  · split
    · exact Same.refl ..
    · exact ((Same.refl sendGroups e).sends (same_vault ..) (by decide)).trans (same_finishCmd ..)

end

end Sys2Proof.Machine

/-!
PROOFS. The referee (R351 to R355, R359, R360): heartbeats, a half that is lost, a handover, a standby that comes up, a live update.
-/

namespace Sys2Proof.Machine

/-! ### The halves -/

theorem halfOther_ne (h : Half) : halfOther h ≠ h := by cases h <;> decide

@[simp] theorem Referee.miss_setMiss_same (h : Half) (n : Nat) (x : Referee) : (x.setMiss h n).miss h = n := by cases h <;> rfl
@[simp] theorem Referee.miss_setMiss_other (h : Half) (n : Nat) (x : Referee) : (x.setMiss h n).miss (halfOther h) = x.miss (halfOther h) := by
  cases h <;> rfl
@[simp] theorem Referee.setMiss_beat (g h : Half) (n : Nat) (x : Referee) : (x.setMiss h n).beat g = x.beat g := by cases g <;> cases h <;> rfl
@[simp] theorem Referee.setMiss_steward (h : Half) (n : Nat) (x : Referee) : (x.setMiss h n).steward = x.steward := by cases h <;> rfl
@[simp] theorem Referee.setMiss_epoch (h : Half) (n : Nat) (x : Referee) : (x.setMiss h n).epoch = x.epoch := by cases h <;> rfl
@[simp] theorem Referee.setMiss_standbyReady (h : Half) (n : Nat) (x : Referee) : (x.setMiss h n).standbyReady = x.standbyReady := by
  cases h <;> rfl
@[simp] theorem Referee.beat_setBeat_same (h : Half) (b : Bool) (x : Referee) : (x.setBeat h b).beat h = b := by cases h <;> rfl
@[simp] theorem Referee.setBeat_miss (g h : Half) (b : Bool) (x : Referee) : (x.setBeat h b).miss g = x.miss g := by
  cases g <;> cases h <;> rfl
@[simp] theorem Referee.setBeat_steward (h : Half) (b : Bool) (x : Referee) : (x.setBeat h b).steward = x.steward := by cases h <;> rfl
@[simp] theorem Referee.setBeat_epoch (h : Half) (b : Bool) (x : Referee) : (x.setBeat h b).epoch = x.epoch := by cases h <;> rfl

/-! ### A heartbeat -/

/-- The engine that has heard half `h`. -/
def Engine.beaten (h : Half) (e : Engine) : Engine := e.onReferee fun x => (x.setBeat h true).setMiss h 0

/-- The engine whose steward runs its full firmware. -/
def Engine.stewardRuns (e : Engine) : Engine :=
  { e with referee := { e.referee with resumed := true }, power := { e.power with fwRunning := true, started := true, bodyLoaded := true } }

theorem Engine.beaten_steward (h : Half) (e : Engine) : (e.beaten h).referee.steward = e.referee.steward := by simp [Engine.beaten, Engine.onReferee]

theorem exec_heartbeat_standby {s : State} {h : Half} (hrun : s.eng.power.state ≠ 2) (hnot : s.eng.referee.steward ≠ some h) :
    exec (.heartbeat h) s = .next (withEng s (s.eng.beaten h)) := by
  show execHeartbeat h s = _
  unfold execHeartbeat
  rw [State.eff_eq, if_neg hrun]
  refine congrArg (fun e => Host.Outcome.next (withEng s e)) (if_neg ?_)
  rwa [show (s.eng.onReferee _).referee.steward = s.eng.referee.steward from Engine.beaten_steward h s.eng]

theorem exec_heartbeat_steward {s : State} {h : Half} (hrun : s.eng.power.state ≠ 2) (hsteward : s.eng.referee.steward = some h) :
    exec (.heartbeat h) s = .next (withEng s ((s.eng.beaten h).stewardRuns.resumeHost s.kit s.regs)) := by
  show execHeartbeat h s = _
  unfold execHeartbeat
  rw [State.eff_eq, if_neg hrun]
  refine congrArg (fun e => Host.Outcome.next (withEng s e)) (if_pos ?_)
  rwa [show (s.eng.onReferee _).referee.steward = s.eng.referee.steward from Engine.beaten_steward h s.eng]

theorem same_beaten_stewardRuns (h : Half) (e : Engine) : Same [.referee, .power] e (e.beaten h).stewardRuns := by
  simp [Same, Engine.beaten, Engine.stewardRuns, Engine.onReferee]

/-! ### A grant -/

/-- A grant to the other half, which changes the steward. -/
theorem Engine.grantTo_other {h : Half} {e : Engine} (hsteward : e.referee.steward = some h) :
    (e.grantTo (halfOther h)).referee = { e.referee with
        steward := some (halfOther h), resumed := true, epoch := e.referee.epoch + 1, missNorth := 0, missSouth := 0, handover := false,
        edgeDue := false } ∧
      (e.grantTo (halfOther h)).vault = { e.vault with staging := [] } ∧
      Same [.referee, .vault, .count] e (e.grantTo (halfOther h)) := by
  have hother : some h ≠ some (halfOther h) := fun heq => halfOther_ne h (Option.some.inj heq).symm
  have hgrant : e.referee.grant (halfOther h) = { e.referee with
        steward := some (halfOther h), resumed := true, epoch := e.referee.epoch + 1, missNorth := 0, missSouth := 0, handover := false,
        edgeDue := false } := by
    unfold Referee.grant
    rw [hsteward, if_neg hother]
  have hchanged : (e.referee.steward != some (halfOther h)) = true := by rw [hsteward]; simpa using hother
  unfold Engine.grantTo
  rw [hchanged, ← hgrant]
  dsimp only [Bool.true_and]
  cases e.referee.epoch != 0 <;> exact ⟨rfl, rfl, by simp [Same, Engine.onReferee, Engine.bump]⟩

/-! ### The steward is lost -/

/-- The engine in which the standby goes on from its copy of the scheduler state, if it has one. -/
def Engine.mirrored (r : Regs) (e : Engine) : Engine :=
  match e.referee.mirror with
  | some m => e.resumeFrom r m
  | none => e

theorem Engine.mirrored_some {r : Regs} {e : Engine} {m : Mirror} (h : e.referee.mirror = some m) : e.mirrored r = e.resumeFrom r m := by
  unfold Engine.mirrored
  rw [h]

theorem Engine.mirrored_none {r : Regs} {e : Engine} (h : e.referee.mirror = none) : e.mirrored r = e := by
  unfold Engine.mirrored
  rw [h]

theorem same_mirrored (r : Regs) (e : Engine) : Same [.rings, .streams, .pollen, .vault] e (e.mirrored r) := by
  unfold Engine.mirrored
  split
  · simp [Same, Engine.resumeFrom]
  · exact Same.refl ..

theorem Engine.mirrored_referee (r : Regs) (e : Engine) : (e.mirrored r).referee = e.referee := by
  unfold Engine.mirrored
  split <;> rfl

theorem Engine.mirrored_jobs (r : Regs) (e : Engine) : (e.mirrored r).rings.jobs = e.rings.jobs := by
  unfold Engine.mirrored
  split <;> rfl

/-- The standby of `h` is granted and takes over; the half that was lost restarts. -/
def Engine.takenOver (r : Regs) (h : Half) (e : Engine) : Engine := ((e.mirrored r).grantTo (halfOther h)).onReferee Referee.restart

theorem Engine.stewardGone_ready {k : Kit} {r : Regs} {h : Half} {missed : Bool} {e : Engine} (hsteward : e.referee.steward = some h)
    (hready : e.referee.standbyReady = true) :
    e.stewardGone k r missed = (((e.takenOver r h).resumeHost k r).when missed fun e => e.raise k r 0x00 none).rollback k r := by
  unfold Engine.stewardGone
  rw [hsteward]
  exact if_pos hready

theorem Engine.stewardGone_alone {k : Kit} {r : Regs} {h : Half} {missed : Bool} {e : Engine} (hsteward : e.referee.steward = some h)
    (hready : e.referee.standbyReady = false) :
    e.stewardGone k r missed =
      ((e.onReferee fun x => { x.restart with steward := none, handover := false }).raise k r 0x03 none).rollback k r := by
  unfold Engine.stewardGone
  rw [hsteward]
  exact if_neg (by simp [hready])

theorem Engine.rollback_noSoak {k : Kit} {r : Regs} {e : Engine} (h : ∀ n, e.referee.fw ≠ .soak n) : e.rollback k r = e := by
  unfold Engine.rollback
  split
  next n hn => exact absurd hn (h n)
  next => rfl

theorem exec_stewardLost {s : State} {h : Half} (hsteward : s.eng.referee.steward = some h) (hmiss : s.regs.hbLimit ≤ s.eng.referee.miss h)
    (hrun : s.eng.power.state ≠ 2) : exec .stewardLost s = .next (withEng s (s.eng.stewardGone s.kit s.regs true)) := by
  show execStewardLost s = _
  unfold execStewardLost
  rw [State.eff_eq, hsteward]
  exact congrArg (fun e => Host.Outcome.next (withEng s e)) (if_pos ⟨hmiss, hrun⟩)

theorem exec_standbyLost {s : State} {h : Half} (hsteward : s.eng.referee.steward = some h) (hready : s.eng.referee.standbyReady = true)
    (hmiss : s.regs.hbLimit ≤ s.eng.referee.miss (halfOther h)) (hrun : s.eng.power.state ≠ 2) :
    exec .standbyLost s =
      .next (withEng s ((s.eng.onReferee fun x => x.restart.setMiss (halfOther h) 0).raise s.kit s.regs 0x02 none)) := by
  show execStandbyLost s = _
  unfold execStandbyLost
  rw [State.eff_eq, hsteward]
  exact congrArg (fun e => Host.Outcome.next (withEng s e)) (if_pos ⟨hready, hmiss, hrun⟩)

/-- A raise after a change of the referee. -/
theorem only_onReferee_raise (f : Referee → Referee) (s : State) (src : Nat) :
    Only [.referee, .fox, .count, .draws, .cycle] s (withEng s ((s.eng.onReferee f).raise s.kit s.regs src none)) :=
  only_of_same (((same_onReferee ..).mono (by decide)).trans ((same_raise ..).mono (by decide)))

theorem raised_onReferee (f : Referee → Referee) (s : State) {src : Nat} (hsrc : foxFixed.contains src = true) :
    Raised s (withEng s ((s.eng.onReferee f).raise s.kit s.regs src none)) src none :=
  raised_raise (e := s.eng.onReferee f) (foxImplemented_of_fixed hsrc s.kit) rfl rfl rfl none

/-! ### Claims, handovers, the standby -/

theorem exec_stewardClaim {s : State} (hrun : s.eng.power.state ≠ 2) (h : Half) (epoch : Word) :
    exec (.stewardClaim h epoch) s =
      .next (withEng s { s.eng with referee := { s.eng.referee with claims := s.eng.referee.claims ++ [(h, epoch)] } }) := by
  show execStewardClaim h epoch s = _
  unfold execStewardClaim
  rw [State.eff_eq, if_neg hrun]
  rfl

theorem Engine.handoverWrite_go {e : Engine} (hready : e.referee.standbyReady = true) (hsoak : ∀ n, e.referee.fw ≠ .soak n) :
    e.handoverWrite 0x80000000 = { e with referee := { e.referee with handover := true } } := by
  unfold Engine.handoverWrite
  dsimp only
  split
  next n hfw => exact absurd hfw (hsoak n)
  next =>
    by_cases hover : e.referee.handover = true
    · rw [if_neg (by simp [hover]), ← hover]
    · rw [if_pos (by simp [hready, hover])]
      rfl

theorem exec_handover_open {s : State} (hopen : s.eng.cfgOpen = true) (value : Word) :
    exec (.handover value) s = .next (driven (withEng s (s.eng.handoverWrite value)) [.cfgDone]) :=
  effCfg_open hopen fun _ _ e => e.handoverWrite value

section
variable {s : State} {h : Half} (hsteward : s.eng.referee.steward = some h)
include hsteward

section
variable (hdue : s.eng.referee.edgeDue = true) (hover : s.eng.referee.handover = true) (hready : s.eng.referee.standbyReady = true)
include hdue hover hready

theorem exec_handoverTakeEffect_planned (hfw : s.eng.referee.fw = .none) :
    exec .handoverTakeEffect s = .next (withEng s (s.eng.grantTo (halfOther h))) := by
  obtain ⟨href, -, -⟩ := Engine.grantTo_other hsteward
  show execHandoverTakeEffect s = _
  unfold execHandoverTakeEffect
  rw [State.eff_eq, hsteward]
  simp only [hdue, hover, hready, Bool.and_self, if_true]
  rw [href, hfw]
  rfl

/-- The engine after the handover of an update: the new steward answers FW_COMMIT, runs the new slot, and the soak begins (R359). -/
def updated (s : State) (h : Half) : Engine :=
  let e := ((s.eng.grantTo (halfOther h)).endUpdate s.kit s.regs 0).onReferee fun x => { x with fw := .soak s.regs.fwSoak }
  { e with body := { e.body with activeSlot := e.body.nextSlot } }

theorem exec_handoverTakeEffect_update {n : Nat} (hfw : s.eng.referee.fw = .restarting n) :
    exec .handoverTakeEffect s = .next (withEng s (updated s h)) := by
  obtain ⟨href, -, -⟩ := Engine.grantTo_other hsteward
  show execHandoverTakeEffect s = _
  unfold execHandoverTakeEffect
  rw [State.eff_eq, hsteward]
  simp only [hdue, hover, hready, Bool.and_self, if_true]
  rw [href, hfw]
  rfl

end

theorem exec_standbyReady (hnot : s.eng.referee.standbyReady = false)
    (hup : s.eng.referee.resync.isSome = true ∨ s.eng.referee.updating = true) :
    exec .standbyReady s = .next (withEng s (s.eng.onReferee fun x =>
      { x.setMiss (halfOther h) 0 with standbyReady := true, resync := none, handover := x.handover || x.updating })) := by
  have hmay : (!s.eng.referee.standbyReady && (s.eng.referee.resync.isSome || s.eng.referee.updating)) = true := by
    rw [hnot]
    simpa using hup
  show execStandbyReady s = _
  unfold execStandbyReady
  rw [State.eff_eq]
  dsimp only
  rw [hsteward]
  exact congrArg (fun e => Host.Outcome.next (withEng s e)) (if_pos hmay)

end

theorem exec_standbyResyncTimeout {s : State} {n : Nat} (hresync : s.eng.referee.resync = some n) (hlate : 250000 ≤ n) :
    exec .standbyResyncTimeout s =
      .next (withEng s ((s.eng.onReferee fun x => { x with resync := some 0 }).raise s.kit s.regs 0x02 none)) := by
  show execStandbyResyncTimeout s = _
  unfold execStandbyResyncTimeout
  rw [State.eff_eq, hresync]
  exact congrArg (fun e => Host.Outcome.next (withEng s e)) (if_pos hlate)

/-! ### A live update -/

/-- The engine that has given an update up: the next-cold-reset slot is the active one, and 0x05 is raised (R360). -/
def Engine.updateLeft (k : Kit) (r : Regs) (e : Engine) : Engine :=
  (({ e with body := { e.body with nextSlot := e.body.activeSlot } }).onReferee fun x => { x with fw := .none, resync := some 0 }).raise k r
    0x05 none

theorem exec_fwActivateTimeout {s : State} {n : Nat} (hfw : s.eng.referee.fw = .restarting n) (hlate : 250000 ≤ n)
    (hnot : s.eng.referee.standbyReady = false) :
    exec .fwActivateTimeout s = .next (withEng s ((s.eng.updateLeft s.kit s.regs).endUpdate s.kit s.regs 0x14)) := by
  show execFwActivateTimeout s = _
  unfold execFwActivateTimeout
  rw [State.eff_eq, hfw]
  exact congrArg (fun e => Host.Outcome.next (withEng s e)) (if_pos ⟨hlate, by simp [hnot]⟩)

/-- MIN_SVN at the end of a soak (R359). -/
def Engine.soakedSvn (e : Engine) : Word := if e.body.minSvn.toNat < e.referee.fwSvn.toNat then e.referee.fwSvn else e.body.minSvn

theorem Engine.soakedSvn_toNat (e : Engine) : e.soakedSvn.toNat = max e.body.minSvn.toNat e.referee.fwSvn.toNat := by
  unfold Engine.soakedSvn
  split <;> omega

theorem exec_fwSoakEnd {s : State} (hfw : s.eng.referee.fw = .soak 0) :
    exec .fwSoakEnd s = .next (withEng s
      (({ s.eng with body := { s.eng.body with minSvn := s.eng.soakedSvn } } : Engine).onReferee fun x => { x with fw := .none }.restart)) := by
  show execFwSoakEnd s = _
  unfold execFwSoakEnd
  rw [State.eff_eq, hfw]
  rfl

end Sys2Proof.Machine

namespace Sys2Proof

open Machine

/-- Settles O18: the steward that is lost gives way to the standby, which goes on from its copy, or to none. -/
theorem lostHalvesAreReplaced : Obligations.LostHalvesAreReplaced := by
  unfold Obligations.LostHalvesAreReplaced
  refine ⟨fun s h hrun => ⟨fun hnot => ?standby, fun hsteward => ?steward⟩,
    fun s h hsteward hmiss hrun => ⟨fun hready => ?replaced, fun hsoak hready => ?alone⟩, fun s h hsteward hready hmiss hrun => ?lost⟩
  case standby =>
    exact ⟨_, exec_heartbeat_standby hrun hnot, by simp [Engine.beaten, Engine.onReferee], by simp [Engine.beaten, Engine.onReferee],
      by simp [Engine.beaten, Engine.onReferee], Engine.beaten_steward .., by simp [Engine.beaten, Engine.onReferee],
      only_of_same (same_onReferee ..)⟩
  case steward =>
    refine ⟨_, exec_heartbeat_steward hrun hsteward, ?_, ?_, ?_, (Engine.beaten_steward ..).trans hsteward, ?_, rfl, rfl, rfl,
      same_beaten_stewardRuns ..⟩
    · exact Referee.miss_setMiss_same ..
    · exact (Referee.setMiss_beat ..).trans (Referee.beat_setBeat_same ..)
    · exact (Referee.miss_setMiss_other ..).trans (Referee.setBeat_miss ..)
    · exact (Referee.setMiss_epoch ..).trans (Referee.setBeat_epoch ..)
  case replaced =>
    have hsteward' : (s.eng.mirrored s.regs).referee.steward = some h := by rw [Engine.mirrored_referee, hsteward]
    obtain ⟨href, hvault, hsame⟩ := Engine.grantTo_other hsteward'
    rw [Engine.mirrored_referee] at href
    have hreferee : (s.eng.takenOver s.regs h).referee = _ := congrArg Referee.restart href
    have hvault : (s.eng.takenOver s.regs h).vault = _ := hvault
    have hrings : (s.eng.takenOver s.regs h).rings = (s.eng.mirrored s.regs).rings := hsame.groups.rings.resolve_left (by decide)
    have hstreams : (s.eng.takenOver s.regs h).streams = (s.eng.mirrored s.regs).streams := hsame.groups.streams.resolve_left (by decide)
    have hsame : Same [.referee, .rings, .streams, .pollen, .vault, .count] s.eng (s.eng.takenOver s.regs h) :=
      ((same_mirrored ..).mono (by decide)).trans ((hsame.mono (by decide)).trans ((same_onReferee ..).mono (by decide)))
    refine ⟨s.eng.takenOver s.regs h, ?_, congrArg Referee.steward hreferee, congrArg Referee.epoch hreferee,
      congrArg Referee.standbyReady hreferee, (congrArg Referee.fw hreferee).trans rfl, congrArg Vault.staging hvault, ?_, fun m hm => ?_,
      fun hnone => ?_, hsame⟩
    · rw [exec_stewardLost hsteward hmiss hrun, Engine.stewardGone_ready hsteward hready, Engine.when_true]
    · rw [hrings, Engine.mirrored_jobs]
    · rw [hrings, hstreams, hvault, Engine.mirrored_some hm]
      exact ⟨rfl, rfl, rfl, rfl⟩
    · rw [hrings, hstreams, Engine.mirrored_none hnone]
      exact ⟨rfl, rfl⟩
  case alone =>
    have hgone := exec_stewardLost hsteward hmiss hrun
    rw [Engine.stewardGone_alone hsteward hready, Engine.rollback_noSoak (by rw [Engine.raise_referee]; exact hsoak)] at hgone
    refine ⟨_, hgone, ?_, ?_, raised_onReferee _ s (by decide), only_onReferee_raise ..⟩
    · exact congrArg Referee.steward (Engine.raise_referee ..)
    · exact (congrArg Referee.epoch (Engine.raise_referee ..)).trans rfl
  case lost =>
    refine ⟨_, exec_standbyLost hsteward hready hmiss hrun, ?_, ?_, ?_, ?_, raised_onReferee _ s (by decide), only_onReferee_raise ..⟩
    · exact (congrArg Referee.steward (Engine.raise_referee ..)).trans ((Referee.setMiss_steward ..).trans hsteward)
    · exact (congrArg Referee.epoch (Engine.raise_referee ..)).trans (Referee.setMiss_epoch ..)
    · exact (congrArg Referee.standbyReady (Engine.raise_referee ..)).trans (Referee.setMiss_standbyReady ..)
    · exact (congrArg (Referee.miss (halfOther h)) (Engine.raise_referee ..)).trans (Referee.miss_setMiss_same ..)

/-- Settles O19: each command is a change of the referee, or the grant of the standby. -/
theorem handoverAndResynchronisation : Obligations.HandoverAndResynchronisation := by
  unfold Obligations.HandoverAndResynchronisation
  refine ⟨⟨fun s h epoch hrun => exec_stewardClaim hrun h epoch, fun s hopen hready hsoak => ?write,
    fun s h hsteward hover hready hdue hfw => ?takesEffect⟩, fun s h hsteward hnot hresync hfw => ?ready, fun s n hresync hlate => ?late⟩
  case write =>
    rw [exec_handover_open hopen, Engine.handoverWrite_go hready hsoak]
    rfl
  case takesEffect =>
    obtain ⟨href, hvault, hsame⟩ := Engine.grantTo_other hsteward
    refine ⟨_, exec_handoverTakeEffect_planned hsteward hdue hover hready hfw, ?_⟩
    rw [withEng_eng, href, hvault]
    exact ⟨rfl, hready, rfl, rfl, rfl, only_of_same hsame⟩
  case ready =>
    have hno : s.eng.referee.updating = false := by simp [Referee.updating, hfw]
    refine ⟨_, exec_standbyReady hsteward hnot (.inl hresync), rfl, rfl, ?_, ?_, only_of_same (same_onReferee ..)⟩
    · exact (Referee.setMiss_steward ..).trans hsteward
    · show (s.eng.referee.handover || s.eng.referee.updating) = _
      rw [hno, Bool.or_false]
  case late =>
    exact ⟨_, exec_standbyResyncTimeout hresync hlate, Engine.raise_referee .., raised_onReferee _ s (by decide), only_onReferee_raise ..⟩

/-- Settles O20: the handover of an update starts with its standby and ends in a soak; the update is given up late, or ends with its soak. -/
theorem firmwareUpdateRunsAndEnds : Obligations.FirmwareUpdateRunsAndEnds := by
  unfold Obligations.FirmwareUpdateRunsAndEnds
  refine ⟨fun s h n hsteward hfw hnot => ?ready, fun s h n hsteward hfw hover hready hdue => ?soaks, fun s n hfw hlate hnot => ?left,
    fun s hfw => ?ended⟩
  case ready =>
    have hupdating : s.eng.referee.updating = true := by simp [Referee.updating, hfw]
    refine ⟨_, exec_standbyReady hsteward hnot (.inr hupdating), rfl, ?_, (Referee.setMiss_steward ..).trans hsteward,
      only_of_same (same_onReferee ..)⟩
    show (s.eng.referee.handover || s.eng.referee.updating) = true
    rw [hupdating, Bool.or_true]
  case soaks =>
    obtain ⟨href, hvault, hsame⟩ := Engine.grantTo_other hsteward
    have hanswered := (same_endUpdate (k := s.kit) (r := s.regs) 0 (s.eng.grantTo (halfOther h))).groups
    have hreferee := (hanswered.referee.resolve_left (by decide)).trans href
    have hbody := (hanswered.body.resolve_left (by decide)).trans (hsame.groups.body.resolve_left (by decide))
    have htenants := (hanswered.tenants.resolve_left (by decide)).trans (hsame.groups.tenants.resolve_left (by decide))
    refine ⟨_, exec_handoverTakeEffect_update hsteward hdue hover hready hfw, ?_⟩
    unfold updated Engine.onReferee
    dsimp only [withEng]
    rw [hreferee, hbody, htenants]
    exact ⟨rfl, rfl, rfl, rfl, rfl⟩
  case left =>
    have hanswered := (same_endUpdate (k := s.kit) (r := s.regs) 0x14 (s.eng.updateLeft s.kit s.regs)).groups
    have hreferee := (hanswered.referee.resolve_left (by decide)).trans (Engine.raise_referee ..)
    have hbody := (hanswered.body.resolve_left (by decide)).trans (Engine.raise_body ..)
    have htenants := (hanswered.tenants.resolve_left (by decide)).trans (Engine.raise_tenants ..)
    have hfox := (hanswered.fox.resolve_left (by decide)).trans (Engine.raise_fox (foxImplemented_of_fixed (by decide) s.kit) ..)
    exact ⟨_, exec_fwActivateTimeout hfw hlate hnot, congrArg Referee.fw hreferee, hbody, congrArg Fox.seq hfox, rfl, htenants⟩
  case ended =>
    exact ⟨_, exec_fwSoakEnd hfw, rfl, rfl, Engine.soakedSvn_toNat _, only_of_same (by simp [Same, Engine.onReferee])⟩

end Sys2Proof

/-!
PROOFS. Commits (R403, R416 to R423): which words are changed, how a commit is judged, and what it leaves when it is applied or refused.
-/

namespace Sys2Proof.Machine

/-! ### Changed words -/

theorem tabFind_eq_none {α : Type} {k : Nat} {t : Tab α} (h : k ∉ t.map fun p => p.1) : tabFind k t = none := by
  induction t with
  | nil => rfl
  | cons p t ih =>
    obtain ⟨j, v⟩ := p
    simp only [List.map_cons, List.mem_cons, not_or] at h
    simp [tabFind, Ne.symm h.1, ih h.2]

/-- A word that no table lists reads the same live and in the shadow. -/
theorem changedAt_listed {k : Kit} {r : Regs} {off : Nat} (h : changedAt k r off = true) :
    off ∈ r.shadow.map (fun p => p.1) ∨ off ∈ r.live.map fun p => p.1 := by
  by_contra hnot
  simp only [not_or] at hnot
  obtain ⟨hshadow, hlive⟩ := hnot
  have hsame : r.word off = r.shadowWord off := by
    unfold Regs.word Regs.shadowWord tabGet
    rw [tabFind_eq_none hshadow, tabFind_eq_none hlive]
  unfold changedAt at h
  split at h
  · cases h
  · simp [hsame] at h

theorem mem_changedWords {k : Kit} {r : Regs} {off : Nat} : off ∈ r.changedWords k ↔ changedAt k r off = true := by
  unfold Regs.changedWords
  simp only [List.mem_filter, List.mem_append, and_iff_right_iff_imp]
  intro h
  by_cases hshadow : off ∈ r.shadow.map fun p => p.1
  · exact .inl hshadow
  · exact .inr ⟨(changedAt_listed h).resolve_left hshadow, by simpa using hshadow⟩

theorem changedAt_iff {k : Kit} {r : Regs} {off : Nat} {i : WordInfo} (hword : rwWord k off = some i) :
    changedAt k r off = true ↔ (r.word off ^^^ r.shadowWord off) &&& (i.rw ||| i.rsv) ≠ 0 := by
  unfold changedAt
  rw [hword]
  exact bne_iff_ne

theorem changed_iff {s : State} {off : Nat} : Changed s off ↔ changedAt s.kit s.regs off = true := by
  unfold Changed
  cases hword : rwWord s.kit off with
  | none => simp [changedAt, hword]
  | some i =>
    rw [changedAt_iff hword]
    exact ⟨fun ⟨j, hj, h⟩ => by cases hj; exact h, fun h => ⟨i, rfl, h⟩⟩

/-! ### The masks of a word -/

/-- RW and reserved bits are apart. -/
def MasksApart (o : Option WordInfo) : Prop := ∀ i, o = some i → i.rw &&& i.rsv = 0

theorem masksApart_rwOnly {m : Nat} (h : m &&& (2 ^ 32 - 1 - m) = 0) : MasksApart (rwOnly m) := fun i hi => by
  cases hi
  exact h

theorem masksApart_none : MasksApart none := fun _ h => nomatch h

theorem masksApart_ite {c : Prop} [Decidable c] {a b : Option WordInfo} (ha : MasksApart a) (hb : MasksApart b) :
    MasksApart (if c then a else b) := by
  split
  · exact ha
  · exact hb

theorem rwWord_masksApart (k : Kit) (off : Nat) : MasksApart (rwWord k off) := by
  unfold rwWord
  repeat refine masksApart_ite (masksApart_rwOnly (by decide)) ?_
  split
  · exact masksApart_ite (fun i hi => by cases hi; decide) masksApart_none
  · exact masksApart_none

theorem rwWord_lt {k : Kit} {off : Nat} {i : WordInfo} (h : rwWord k off = some i) : off < 2 ^ 20 := by
  by_contra hge
  have hnone : instanceOf 0x50400 4 256 0 off = none := by
    unfold instanceOf
    rw [if_neg (by omega)]
  rw [rwWord_above k (by omega), hnone] at h
  cases h

/-! ### The live words that a commit leaves -/

/-- One word taken from the shadow (R416). -/
def takeWord (k : Kit) (r : Regs) (t : Tab Word) (off : Nat) : Tab Word :=
  match rwWord k off with
  | some i => tabPut resetWord off (BitVec.ofNat 32 (r.shadowWord off &&& i.rw)) t
  | none => t

theorem Regs.proposed_live (k : Kit) (r : Regs) : (r.proposed k).live = (r.changedWords k).foldl (takeWord k r) r.live := rfl

theorem takeWord_same {k : Kit} {r : Regs} {off : Nat} {i : WordInfo} (hword : rwWord k off = some i) (t : Tab Word) :
    (tabGet resetWord off (takeWord k r t off)).toNat = r.shadowWord off &&& i.rw := by
  have hlt : r.shadowWord off &&& i.rw < 2 ^ 32 := Nat.lt_of_le_of_lt Nat.and_le_left (r.shadowWord_lt off)
  unfold takeWord
  rw [hword]
  dsimp only
  rw [tabGet_put_same, BitVec.toNat_ofNat, Nat.mod_eq_of_lt hlt]

theorem takeWord_ne {k : Kit} {r : Regs} {m off : Nat} (h : m ≠ off) (t : Tab Word) :
    tabGet resetWord m (takeWord k r t off) = tabGet resetWord m t := by
  unfold takeWord
  split
  · exact tabGet_put_ne h ..
  · rfl

theorem foldl_takeWord_notMem {k : Kit} {r : Regs} {off : Nat} {l : List Nat} (h : off ∉ l) (t : Tab Word) :
    tabGet resetWord off (l.foldl (takeWord k r) t) = tabGet resetWord off t :=
  List.foldlRecOn (motive := fun u => tabGet resetWord off u = tabGet resetWord off t) l _ rfl fun u hu o ho =>
    (takeWord_ne (fun heq => h (by rwa [heq])) u).trans hu

theorem foldl_takeWord_mem {k : Kit} {r : Regs} {off : Nat} {i : WordInfo} (hword : rwWord k off = some i) {l : List Nat} (h : off ∈ l)
    (t : Tab Word) : (tabGet resetWord off (l.foldl (takeWord k r) t)).toNat = r.shadowWord off &&& i.rw := by
  induction l generalizing t with
  | nil => cases h
  | cons o l ih =>
    rw [List.foldl_cons]
    by_cases hl : off ∈ l
    · exact ih hl _
    · obtain rfl : off = o := (List.mem_cons.mp h).resolve_right hl
      rw [foldl_takeWord_notMem hl, takeWord_same hword]

/-- Bits that do not differ under a mask agree under a part of it. -/
theorem and_eq_of_xor_and_eq_zero {a b m n : Nat} (h : (a ^^^ b) &&& (m ||| n) = 0) : a &&& m = b &&& m := by
  have hm : (a ^^^ b) &&& m = 0 := by
    have hsplit : (a ^^^ b) &&& m ||| (a ^^^ b) &&& n = 0 := by rw [← Nat.and_or_distrib_left, h]
    exact (Nat.or_eq_zero_iff.mp hsplit).1
  rw [Nat.and_xor_distrib_right] at hm
  exact Nat.xor_eq_zero_iff.mp hm

/-- Every RW word is live as its shadow has it (R416). -/
theorem Regs.word_applied {k : Kit} {r : Regs} {off : Nat} {i : WordInfo} (hwf : r.wf k) (hword : rwWord k off = some i) :
    (r.applied k).word off = r.shadowWord off &&& i.rw := by
  show (tabGet resetWord off (r.proposed k).live).toNat = _
  rw [Regs.proposed_live]
  by_cases hmem : off ∈ r.changedWords k
  · exact foldl_takeWord_mem hword hmem _
  · rw [foldl_takeWord_notMem hmem]
    have hsame : (r.word off ^^^ r.shadowWord off) &&& (i.rw ||| i.rsv) = 0 := by
      rwa [mem_changedWords, changedAt_iff hword, not_not] at hmem
    exact (hwf.2.2 off i hword).symm.trans (and_eq_of_xor_and_eq_zero hsame)

theorem Regs.word_applied_none {k : Kit} {r : Regs} {off : Nat} (hword : rwWord k off = none) : (r.applied k).word off = r.word off := by
  show (tabGet resetWord off (r.proposed k).live).toNat = _
  rw [Regs.proposed_live, foldl_takeWord_notMem]
  · rfl
  · rw [mem_changedWords]
    simp [changedAt, hword]

theorem Regs.applied_live_of_none {k : Kit} {r : Regs} (h : r.changedWords k = []) : (r.applied k).live = r.live := by
  show (r.proposed k).live = _
  rw [Regs.proposed_live, h]
  rfl

/-! ### The judgement -/

theorem lowestOf_cons (a : Nat) (l : List Nat) : lowestOf (a :: l) = l.foldl min a := by
  have hfold : ∀ (l : List Nat) (a : Nat), l.foldl (fun (best : Option Nat) o => some (match best with | none => o | some b => min b o)) (some a) =
      some (l.foldl min a) := fun l => by
    induction l with
    | nil => exact fun _ => rfl
    | cons b l ih => exact fun a => ih (min a b)
  exact congrArg (fun best : Option Nat => best.getD 0) (hfold l a)

theorem foldl_min_mem (l : List Nat) (a : Nat) : l.foldl min a ∈ a :: l := by
  induction l generalizing a with
  | nil => simp
  | cons b l ih =>
    rw [List.foldl_cons]
    obtain h | h := List.mem_cons.mp (ih (min a b))
    · rw [h]
      obtain h' | h' := min_choice a b <;> simp [h']
    · simp [h]

theorem foldl_min_le (l : List Nat) (a : Nat) : ∀ o ∈ a :: l, l.foldl min a ≤ o := by
  induction l generalizing a with
  | nil => simp
  | cons b l ih =>
    rw [List.foldl_cons]
    have hhead := ih (min a b) (min a b) (List.mem_cons_self ..)
    simp only [List.forall_mem_cons]
    exact ⟨hhead.trans (min_le_left ..), hhead.trans (min_le_right ..), fun o ho => ih (min a b) o (List.mem_cons_of_mem _ ho)⟩

theorem lowestOf_mem {l : List Nat} (h : l ≠ []) : lowestOf l ∈ l := by
  obtain ⟨a, l, rfl⟩ := List.exists_cons_of_ne_nil h
  rw [lowestOf_cons]
  exact foldl_min_mem l a

theorem lowestOf_le {l : List Nat} {o : Nat} (h : o ∈ l) : lowestOf l ≤ o := by
  cases l with
  | nil => cases h
  | cons a l =>
    rw [lowestOf_cons]
    exact foldl_min_le l a o h

/-- A reserved shadow bit that is 1 makes its word a changed one, for a live word holds none. -/
theorem changedAt_of_reserved {k : Kit} {r : Regs} {off : Nat} {i : WordInfo} (hwf : r.wf k) (hword : rwWord k off = some i)
    (hbit : r.shadowWord off &&& i.rsv ≠ 0) : changedAt k r off = true := by
  rw [changedAt_iff hword]
  intro hsame
  have hrsv : r.word off &&& i.rsv = r.shadowWord off &&& i.rsv := and_eq_of_xor_and_eq_zero (by rwa [Nat.or_comm] at hsame)
  have hnone : r.word off &&& i.rsv = 0 := by
    rw [← hwf.2.2 off i hword, Nat.and_assoc, rwWord_masksApart k off i hword, Nat.and_zero]
  exact hbit (hrsv.symm.trans hnone)

theorem reservedSet_iff {k : Kit} {r : Regs} {off : Nat} :
    reservedSet k r off = true ↔ ∃ i, rwWord k off = some i ∧ r.shadowWord off &&& i.rsv ≠ 0 := by
  unfold reservedSet
  cases hword : rwWord k off with
  | none => simp
  | some i => exact bne_iff_ne.trans ⟨fun h => ⟨i, rfl, h⟩, fun ⟨j, hj, h⟩ => by cases hj; exact h⟩

/-- The words of the reserved check: every word with a reserved shadow bit that is 1 is among them. -/
theorem mem_reserved_iff {k : Kit} {r : Regs} (hwf : r.wf k) {off : Nat} :
    off ∈ (r.changedWords k).filter (reservedSet k r) ↔ ∃ i, rwWord k off = some i ∧ r.shadowWord off &&& i.rsv ≠ 0 := by
  rw [List.mem_filter, mem_changedWords, reservedSet_iff]
  exact ⟨And.right, fun ⟨i, hword, hbit⟩ => ⟨changedAt_of_reserved hwf hword hbit, i, hword, hbit⟩⟩

theorem Engine.judgeCommit_unchanged {k : Kit} {r : Regs} (h : r.changedWords k = []) (e : Engine) : e.judgeCommit k r = (0, 0) := by
  unfold Engine.judgeCommit
  rw [h]
  rfl

theorem Engine.judgeCommit_reserved {k : Kit} {r : Regs} (h : (r.changedWords k).filter (reservedSet k r) ≠ []) (e : Engine) :
    e.judgeCommit k r = (0x11, lowestOf ((r.changedWords k).filter (reservedSet k r))) := by
  have hchanged : r.changedWords k ≠ [] := fun hnil => h (by rw [hnil]; rfl)
  unfold Engine.judgeCommit
  dsimp only
  rw [if_neg (by simpa using hchanged), if_pos (by simpa using h)]

/-! ### The outcome of a commit -/

theorem Engine.commit_accepted {k : Kit} {r : Regs} {e : Engine} (h : (e.judgeCommit k r).1 = 0) (source : BitVec 2) :
    e.commit k source r = ((r.applied k).outcome source 0 0, (e.activated r (r.applied k)).bump Ctr.commitsApplied 1) := by
  unfold Engine.commit
  exact if_pos h

theorem Engine.commit_refused {k : Kit} {r : Regs} {e : Engine} (h : (e.judgeCommit k r).1 ≠ 0) (source : BitVec 2) :
    e.commit k source r = (r.outcome source (e.judgeCommit k r).1 (e.judgeCommit k r).2, e.bump Ctr.commitsRefused 1) := by
  unfold Engine.commit
  exact if_neg h

theorem same_activated (r n : Regs) (e : Engine) : Same [.rings, .vault] e (e.activated r n) := by
  unfold Engine.activated
  exact (Same.when _ ((same_setRing ..).mono (by decide))).trans (Same.forEach (fun _ _ => (same_setVq ..).mono (by decide)) _ _)

/-- A commit that is accepted is counted. -/
theorem Engine.commit_applies {k : Kit} {r : Regs} {e : Engine} (h : (e.judgeCommit k r).1 = 0) (source : BitVec 2) :
    (e.commit k source r).2.counter Ctr.commitsApplied = e.counter Ctr.commitsApplied + 1 ∧
      Same [.count, .rings, .vault] e (e.commit k source r).2 := by
  have hactivated := same_activated r (r.applied k) e
  have hcount : (e.activated r (r.applied k)).counter Ctr.commitsApplied = e.counter Ctr.commitsApplied :=
    congrArg (fun c : Counters => tabGet (fun _ => 0) Ctr.commitsApplied c.live) (hactivated.groups.count.resolve_left (by decide))
  rw [Engine.commit_accepted h]
  dsimp only
  refine ⟨?_, (hactivated.mono (by decide)).trans ((same_bump ..).mono (by decide))⟩
  rw [Engine.counter_bump_same, hcount]
  rfl

/-! ### How a commit starts -/

/-- The state after a commit: `held` is what STROBE_HELD was left, and the engine drove `before` and then `after`. -/
def committed (s : State) (source : BitVec 2) (held : Bool) (before after : List Output) : State :=
  let x := ({ s.eng with out := s.eng.out ++ before } : Engine).commit s.kit source { s.regs with strobeHeld := held }
  { s with regs := x.1, eng := { x.2 with out := x.2.out ++ after } }

/-- A CMT_CTRL write with COMMIT set, and OUT or not, starts a commit (R416). -/
theorem Engine.cmtWrite_commits {value : Word} (hcommit : value.getLsbD 31 = true) (hdiscard : value.getLsbD 29 = false)
    (hrest : value.toNat % 2 ^ 29 = 0) (k : Kit) (r : Regs) (strobe : Bool) (e : Engine) :
    e.cmtWrite k r value strobe =
      let x := (e.when (value.getLsbD 30 && e.power.sysReady) fun e => e.emitHost .sysCommitOut).commit k (cmtSourceOf strobe) r
      { regs := x.1, eng := x.2, error := false } := by
  unfold Engine.cmtWrite
  dsimp only
  rw [hcommit, hdiscard, hrest]
  simp

theorem exec_commit_open {s : State} (hopen : s.eng.cfgOpen = true) {value : Word} (hcommit : value.getLsbD 31 = true) (strobe : Bool) :
    exec (.commit value strobe) s = .next { s with
      regs := (s.eng.cmtWrite s.kit s.regs value strobe).respond.1, eng := (s.eng.cmtWrite s.kit s.regs value strobe).respond.2 } := by
  show execCommit value strobe s = _
  unfold execCommit
  rw [State.effRegs_eq, hopen, hcommit]
  rfl

/-- What SYS_COMMIT_OUT adds to what the engine drives. -/
theorem Engine.when_emitHost (c : Bool) (o : Output) (e : Engine) :
    ∃ os, (e.when c fun e => e.emitHost o) = { e with out := e.out ++ os } := by
  have hnil : e = { e with out := e.out ++ [] } := by rw [List.append_nil]
  unfold Engine.emitHost
  cases c with
  | false => exact ⟨[], hnil⟩
  | true =>
    cases hdrives : e.drives with
    | false => exact ⟨[], by rw [Engine.when_true, hdrives]; exact hnil⟩
    | true => exact ⟨[o], by rw [Engine.when_true, hdrives]; rfl⟩

theorem exec_of_commitCause {s : State} {c : Instr} {source : BitVec 2} (h : CommitCause s c source) :
    ∃ held before after, exec c s = .next (committed s source held before after) := by
  have hwritten (value : Word) (strobe : Bool) (hopen : s.eng.cfgOpen = true) (hcommit : value.getLsbD 31 = true)
      (hdiscard : value.getLsbD 29 = false) (hrest : value.toNat % 2 ^ 29 = 0) :
      ∃ held before after, exec (.commit value strobe) s = .next (committed s (cmtSourceOf strobe) held before after) := by
    obtain ⟨os, hos⟩ := Engine.when_emitHost (value.getLsbD 30 && s.eng.power.sysReady) .sysCommitOut s.eng
    refine ⟨s.regs.strobeHeld, os, [.cfgDone], ?_⟩
    rw [exec_commit_open hopen hcommit, Engine.cmtWrite_commits hcommit hdiscard hrest, hos]
    rfl
  have hown (held : Bool) : s.eng.commit s.kit 2 { s.regs with strobeHeld := held } =
      ({ s.eng with out := s.eng.out ++ [] } : Engine).commit s.kit 2 { s.regs with strobeHeld := held } := by rw [List.append_nil]
  cases h with
  | write hopen => exact hwritten _ false hopen (by decide) (by decide) (by decide)
  | writeOut hopen => exact hwritten _ false hopen (by decide) (by decide) (by decide)
  | both hopen => exact hwritten _ true hopen (by decide) (by decide) (by decide)
  | strobe =>
    refine ⟨s.regs.strobeHeld, [], [], ?_⟩
    show execSysCommitIn false s = _
    unfold execSysCommitIn committed
    rw [State.effRegs_eq, ← hown]
    dsimp only
    rw [List.append_nil]
    rfl
  | held hheld =>
    refine ⟨false, [], [], ?_⟩
    show execHeldStrobeCommit s = _
    unfold execHeldStrobeCommit committed
    rw [State.effRegs_eq, if_pos hheld, ← hown]
    dsimp only
    rw [List.append_nil]

/-! ### What a commit leaves -/

section
variable (s : State) (source : BitVec 2) (held : Bool) (before after : List Output)

theorem same_out (os : List Output) (e : Engine) : Same [.out] e { e with out := e.out ++ os } := by simp [Same]

theorem committed_accepted (h : (s.eng.judgeCommit s.kit s.regs).1 = 0) :
    (committed s source held before after).regs = ({ s.regs with strobeHeld := held }.applied s.kit).outcome source 0 0 ∧
      (committed s source held before after).eng.counter Ctr.commitsApplied = s.eng.counter Ctr.commitsApplied + 1 ∧
      Same [.count, .rings, .vault, .out] s.eng (committed s source held before after).eng := by
  have hjudge : (({ s.eng with out := s.eng.out ++ before } : Engine).judgeCommit s.kit { s.regs with strobeHeld := held }).1 = 0 := h
  have hregs := congrArg Prod.fst (Engine.commit_accepted hjudge source)
  obtain ⟨hcount, hsame⟩ := Engine.commit_applies hjudge source
  unfold committed
  generalize Engine.commit _ _ _ _ = x at *
  exact ⟨hregs, hcount, ((same_out ..).mono (by decide)).trans ((hsame.mono (by decide)).trans ((same_out ..).mono (by decide)))⟩

theorem committed_refused (h : (s.eng.judgeCommit s.kit s.regs).1 ≠ 0) :
    (committed s source held before after).regs =
        { s.regs with strobeHeld := held }.outcome source (s.eng.judgeCommit s.kit s.regs).1 (s.eng.judgeCommit s.kit s.regs).2 ∧
      Same [.count, .out] s.eng (committed s source held before after).eng := by
  have hjudge : (({ s.eng with out := s.eng.out ++ before } : Engine).judgeCommit s.kit { s.regs with strobeHeld := held }).1 ≠ 0 := h
  unfold committed
  rw [Engine.commit_refused hjudge]
  exact ⟨rfl, ((same_out ..).mono (by decide)).trans (((same_bump ..).mono (by decide)).trans ((same_out ..).mono (by decide)))⟩

end

/-! ### DISCARD -/

theorem exec_discard {s : State} (hopen : s.eng.cfgOpen = true) :
    exec (.discard 0x20000000) s = .next { s with regs := s.regs.discard, eng := s.eng.emit .cfgDone } := by
  show execDiscard 0x20000000 s = _
  unfold execDiscard
  rw [if_pos (by decide)]
  unfold State.cfgPort
  rw [State.effRegs_eq, if_pos hopen]
  rfl

end Sys2Proof.Machine

namespace Sys2Proof

open Machine

/-- Settles O8: a changed word takes the RW bits of its shadow; any other agrees with its shadow in them. -/
theorem commitAppliesEveryShadow : Obligations.CommitAppliesEveryShadow := by
  unfold Obligations.CommitAppliesEveryShadow
  intro c source s hcause hwf hjudge
  obtain ⟨held, before, after, hexec⟩ := exec_of_commitCause hcause
  obtain ⟨hregs, hcount, hsame⟩ := committed_accepted s source held before after hjudge
  have hwf' : Machine.Regs.wf s.kit { s.regs with strobeHeld := held } := hwf
  refine ⟨_, hexec, fun off i hword => ?_, fun off hnone => ?_, ?_, ?_, ?_, ?_, hcount, rfl, rfl, hsame⟩
  · rw [hregs]
    exact Regs.word_applied hwf' hword
  · rw [hregs]
    exact Regs.word_applied_none hnone
  all_goals rw [hregs]; rfl

/-- Settles O9: every word with such a bit is a changed one, so the check of the reserved bits finds the lowest of them. -/
theorem commitWithAReservedBitIsRefused : Obligations.CommitWithAReservedBitIsRefused := by
  unfold Obligations.CommitWithAReservedBitIsRefused
  intro bad c source s hcause hwf ⟨off, hoff⟩
  have hmem {o : Nat} : o ∈ (s.regs.changedWords s.kit).filter (reservedSet s.kit s.regs) ↔ bad s o := mem_reserved_iff hwf
  have hne : (s.regs.changedWords s.kit).filter (reservedSet s.kit s.regs) ≠ [] := List.ne_nil_of_mem (hmem.mpr hoff)
  have hjudge := Engine.judgeCommit_reserved hne s.eng
  have hlowest := hmem.mp (lowestOf_mem hne)
  obtain ⟨held, before, after, hexec⟩ := exec_of_commitCause hcause
  obtain ⟨hregs, hsame⟩ := committed_refused s source held before after (by rw [hjudge]; exact (by decide : (0x11 : Code) ≠ 0))
  rw [hjudge] at hregs
  have hoffset : (committed s source held before after).regs.cmtOffset.toNat =
      lowestOf ((s.regs.changedWords s.kit).filter (reservedSet s.kit s.regs)) := by
    obtain ⟨i, hword, -⟩ := hlowest
    rw [hregs]
    exact Nat.mod_eq_of_lt (rwWord_lt hword)
  refine ⟨_, hexec, ?_, ?_, ?_, ?_, ?_, fun o ho => ?_, rfl, rfl, hsame⟩
  case refine_5 => rwa [hoffset]
  case refine_6 =>
    rw [hoffset]
    exact lowestOf_le (hmem.mpr ho)
  all_goals rw [hregs]; rfl

/-- Settles O10: a refused commit sets the status alone, DISCARD copies the live words, and where no word is changed none is taken. -/
theorem refusalKeepsAndDiscardRestoresShadows : Obligations.RefusalKeepsAndDiscardRestoresShadows := by
  unfold Obligations.RefusalKeepsAndDiscardRestoresShadows
  refine ⟨fun c source s hcause hnone => ?unchanged, fun c source s hcause hjudge => ?refused, fun s hopen => ?discard⟩
  case unchanged =>
    have hnil : s.regs.changedWords s.kit = [] :=
      List.eq_nil_iff_forall_not_mem.mpr fun off hoff => hnone off (changed_iff.mpr (mem_changedWords.mp hoff))
    obtain ⟨held, before, after, hexec⟩ := exec_of_commitCause hcause
    obtain ⟨hregs, -, -⟩ := committed_accepted s source held before after (by rw [Engine.judgeCommit_unchanged hnil])
    refine ⟨_, hexec, ?_, ?_, ?_⟩
    · rw [hregs]
      exact Regs.applied_live_of_none (r := { s.regs with strobeHeld := held }) hnil
    all_goals rw [hregs]; rfl
  case refused =>
    obtain ⟨held, before, after, hexec⟩ := exec_of_commitCause hcause
    obtain ⟨hregs, hsame⟩ := committed_refused s source held before after hjudge
    refine ⟨_, hexec, ?_, ?_, ?_, ?_, rfl, rfl, hsame⟩
    all_goals rw [hregs]; rfl
  case discard =>
    refine ⟨_, exec_discard hopen, fun off => rfl, rfl, fun off ⟨i, _, hdiffers⟩ => hdiffers ?_, rfl, rfl, rfl⟩
    show (s.regs.word off ^^^ s.regs.word off) &&& _ = 0
    rw [Nat.xor_self, Nat.zero_and]

end Sys2Proof

/-!
PROOFS. Writes to words and bit aliases (R413, R414, R426, R427).
-/

namespace Sys2Proof.Machine

/-! ### One bit of a number -/

/-- Adding a power of two that a number lacks sets that bit alone. -/
theorem testBit_two_pow_add_clear {b n : Nat} (hclear : n.testBit b = false) (j : Nat) :
    (2 ^ b + n).testBit j = if j = b then true else n.testBit j := by
  obtain hlt | rfl | hgt := Nat.lt_trichotomy j b
  · rw [if_neg (Nat.ne_of_lt hlt), Nat.testBit_two_pow_add_gt hlt]
  · rw [if_pos rfl, Nat.testBit_two_pow_add_eq, hclear, Bool.not_false]
  · have heven : n / 2 ^ b % 2 = 0 := by
      rw [Nat.testBit_eq_decide_div_mod_eq, decide_eq_false_iff_not] at hclear
      omega
    have hdiv : (2 ^ b + n) / 2 ^ (b + 1) = n / 2 ^ (b + 1) := by
      rw [Nat.pow_succ, ← Nat.div_div_eq_div_mul, ← Nat.div_div_eq_div_mul, Nat.add_div_left _ (Nat.two_pow_pos b)]
      omega
    obtain ⟨m, rfl⟩ : ∃ m, j = m + (b + 1) := ⟨j - (b + 1), by omega⟩
    rw [if_neg (Nat.ne_of_gt hgt), Nat.testBit_add, Nat.testBit_add, hdiv]

theorem bitOf_withBit (b : Nat) (v : Bool) (n j : Nat) : bitOf j (withBit b v n) = if j = b then v else bitOf j n := by
  unfold withBit bitOf
  cases hb : n.testBit b with
  | false =>
    cases v with
    | false =>
      show n.testBit j = _
      split
      next hj => rw [hj, hb]
      next => rfl
    | true =>
      show (n + 2 ^ b).testBit j = _
      rw [Nat.add_comm, testBit_two_pow_add_clear hb]
  | true =>
    have hle : 2 ^ b ≤ n := Nat.ge_two_pow_of_testBit hb
    obtain ⟨m, rfl⟩ : ∃ m, n = 2 ^ b + m := ⟨n - 2 ^ b, by omega⟩
    have hm : m.testBit b = false := by simpa [Nat.testBit_two_pow_add_eq] using hb
    cases v with
    | false =>
      show (2 ^ b + m - 2 ^ b).testBit j = _
      rw [Nat.add_sub_cancel_left, testBit_two_pow_add_clear hm]
      split
      next hj => rw [hj, hm]
      next => rfl
    | true =>
      show (2 ^ b + m).testBit j = _
      split
      next hj => rw [hj, hb]
      next => rfl

theorem withBit_lt {b n : Nat} (hb : b < 32) (hn : n < 2 ^ 32) (v : Bool) : withBit b v n < 2 ^ 32 := by
  refine Nat.lt_pow_two_of_testBit _ fun j hj => ?_
  show bitOf j (withBit b v n) = false
  rw [bitOf_withBit, if_neg (by omega)]
  exact Nat.testBit_lt_two_pow (hn.trans_le (Nat.pow_le_pow_right (by decide) hj))

/-! ### Writes on the CFG port -/

theorem State.cfgPort_open {s : State} (hopen : s.eng.cfgOpen = true) (addr : Nat) (value : Word) :
    s.cfgPort addr value = .next { s with
      regs := (s.eng.cfgWrite s.kit s.regs addr value).respond.1, eng := (s.eng.cfgWrite s.kit s.regs addr value).respond.2 } := by
  unfold State.cfgPort
  rw [State.effRegs_eq, if_pos hopen]

section
variable {off b : Nat} (hoff : off % 4 = 0) (hb : b < 32)
include hoff hb

theorem aliasOf_alias : aliasOf (0x80000 + 32 * off + 4 * b) = (off, b) := by
  unfold aliasOf
  exact Prod.ext (by dsimp only; omega) (by dsimp only; omega)

/-- A write through the bit aliases to an RW bit (R427). -/
theorem Engine.cfgWrite_alias {k : Kit} {i : WordInfo} (hword : rwWord k off = some i) (hbit : bitOf b i.rw = true) (r : Regs) {value : Word}
    (hvalue : value.toNat < 2) (e : Engine) :
    e.cfgWrite k r (0x80000 + 32 * off + 4 * b) value =
      { regs := r.setShadow off (BitVec.ofNat 32 (withBit b (value.getLsbD 0) (r.shadowWord off))), eng := e, error := false } := by
  have hmask : bitOf b (i.rw ||| i.rsv) = true := by
    unfold bitOf at hbit ⊢
    rw [Nat.testBit_or, hbit, Bool.true_or]
  unfold Engine.cfgWrite
  rw [if_neg (by omega), if_neg (by omega), if_neg (by omega), aliasOf_alias hoff hb]
  unfold Engine.bitWrite
  rw [hword]
  exact if_pos hmask

/-- A value above 1 (R427). -/
theorem Engine.cfgWrite_alias_above (k : Kit) (r : Regs) {value : Word} (hvalue : 2 ≤ value.toNat) (e : Engine) :
    e.cfgWrite k r (0x80000 + 32 * off + 4 * b) value = badWrite r e := by
  unfold Engine.cfgWrite
  rw [if_neg (by omega), if_neg (by omega), if_pos hvalue]

end

theorem aliasAddr_toNat {off b : Nat} (haligned : off % 4 = 0) (hoff : off < 0x4000) (hb : b < 32) :
    (BitVec.ofNat 20 (0x80000 + 32 * off + 4 * b)).toNat = 0x80000 + 32 * off + 4 * b := by
  rw [BitVec.toNat_ofNat]
  exact Nat.mod_eq_of_lt (by omega)

theorem exec_bitAliasWrite {s : State} {off b : Nat} (haligned : off % 4 = 0) (hoff : off < 0x4000) (hb : b < 32) (value : Word) :
    exec (.bitAliasWrite (BitVec.ofNat 20 (0x80000 + 32 * off + 4 * b)) value) s = s.cfgPort (0x80000 + 32 * off + 4 * b) value := by
  show execBitAliasWrite _ value s = _
  unfold execBitAliasWrite
  rw [aliasAddr_toNat haligned hoff hb, if_pos (by omega)]

end Sys2Proof.Machine

namespace Sys2Proof

open Machine

/-- Settles O7: a write of an RW word, or through the bit aliases to one of its RW bits, sets the shadow of that word alone. -/
theorem registerWritesEnterTheShadow : Obligations.RegisterWritesEnterTheShadow := by
  unfold Obligations.RegisterWritesEnterTheShadow
  refine ⟨fun s addr value i hopen haligned hbelow hword => ?word, fun s off b value i hopen haligned hbelow hb hword hbit =>
    ⟨fun hvalue => ?bit, fun hvalue => ?above⟩⟩
  case word =>
    refine ⟨_, State.cfgPort_open hopen addr.toNat value, ?_⟩
    rw [Engine.cfgWrite_rwWord haligned hbelow hword]
    exact ⟨Regs.shadowWord_setShadow_same .., fun off hne => Regs.shadowWord_setShadow_ne hne .., rfl, rfl, rfl, rfl⟩
  case bit =>
    refine ⟨_, (exec_bitAliasWrite haligned hbelow hb value).trans (State.cfgPort_open hopen ..), ?_⟩
    rw [Engine.cfgWrite_alias haligned hb hword hbit s.regs hvalue]
    refine ⟨fun j => ?_, fun o hne => Regs.shadowWord_setShadow_ne hne .., rfl, rfl, rfl, rfl⟩
    show bitOf j ((s.regs.setShadow off _).shadowWord off) = _
    rw [Regs.shadowWord_setShadow_same, BitVec.toNat_ofNat, Nat.mod_eq_of_lt (withBit_lt hb (Regs.shadowWord_lt ..) _), bitOf_withBit]
  case above =>
    rw [exec_bitAliasWrite haligned hbelow hb, State.cfgPort_open hopen, Engine.cfgWrite_alias_above haligned hb _ _ hvalue]
    rfl

end Sys2Proof

/-!
PROOFS. The engine after a cold reset (R372, R413), self-tests and the noise source (R330, R432), power states (R367 to R371, R374).
-/

namespace Sys2Proof.Machine

/-! ### Reset values -/

theorem toNat_ite_lt {c : Prop} [Decidable c] {a b : Word} {n : Nat} (ha : a.toNat < n) (hb : b.toNat < n) : (if c then a else b).toNat < n := by
  split
  · exact ha
  · exact hb

/-- No reset value has its top bit set. -/
theorem resetWord_lt (off : Nat) : (resetWord off).toNat < 2 ^ 31 := by
  unfold resetWord
  repeat refine toNat_ite_lt (by decide) ?_
  split
  next src _ =>
    have hle := foxDefault_le src
    rw [BitVec.toNat_ofNat]
    exact (Nat.mod_le ..).trans_lt (hle.trans_lt (by decide))
  next => decide

theorem Regs.ringActive_reset (n : Nat) : Regs.reset.ringActive n = false := Nat.testBit_lt_two_pow (resetWord_lt (ringOff n + 0x10))

/-! ### Self-tests -/

/-- What stands against the start of a test (R432). -/
def testConds (r : Regs) (value : Word) (e : Engine) : List (Bool × Code) :=
  [((value.setWidth 4 : BitVec 4).toNat < 1 || decide (3 < (value.setWidth 4 : BitVec 4).toNat), 0x11), (e.selfTest.running, 0x58),
   (!e.allFree || !e.idle r, 0x14)]

/-- SELF_TEST after a write of SELF_TEST_CTRL. -/
def Engine.tested (r : Regs) (value : Word) (e : Engine) : SelfTest :=
  if !value.getLsbD 31 || (judge (testConds r value e)).isSome then { e.selfTest with ctrl := value.setWidth 4 }
  else { running := true, ctrl := value.setWidth 4, last := value.setWidth 4, code := 0 }

theorem Engine.selfTestWrite_eq (r : Regs) (value : Word) (e : Engine) :
    e.selfTestWrite r value = { e with selfTest := e.tested r value } := by
  have hconds : Engine.selfTestWrite r value e =
      if !value.getLsbD 31 || (judge (testConds r value e)).isSome then { e with selfTest := { e.selfTest with ctrl := value.setWidth 4 } }
      else { e with selfTest := { running := true, ctrl := value.setWidth 4, last := value.setWidth 4, code := 0 } } := rfl
  rw [hconds]
  unfold Engine.tested
  split <;> rfl

/-- A test starts on an idle engine with every slot FREE and no test under way. -/
theorem testConds_none {r : Regs} {value : Word} {e : Engine} (htest : value.toNat % 16 ∈ [1, 2, 3]) (hrunning : e.selfTest.running = false)
    (hfree : e.allFree = true) (hidle : e.idle r = true) : judge (testConds r value e) = none := by
  have hnumber : (value.setWidth 4 : BitVec 4).toNat = value.toNat % 16 := BitVec.toNat_setWidth ..
  have hrange : 1 ≤ value.toNat % 16 ∧ value.toNat % 16 ≤ 3 := by
    simp only [List.mem_cons, List.not_mem_nil, or_false] at htest
    omega
  rw [judge_none]
  unfold testConds
  simp [hnumber, hrunning, hfree, hidle]
  omega

theorem testConds_some {r : Regs} {value : Word} {e : Engine}
    (h : e.selfTest.running = true ∨ e.allFree = false ∨ e.idle r = false) : (judge (testConds r value e)).isSome = true := by
  rw [Option.isSome_iff_ne_none]
  intro hnone
  rw [judge_none] at hnone
  unfold testConds at hnone
  simp only [List.forall_mem_cons, Bool.or_eq_false_iff, Bool.not_eq_false'] at hnone
  obtain ⟨-, hrunning, ⟨hfree, hidle⟩, -⟩ := hnone
  obtain h | h | h := h
  · rw [hrunning] at h; cases h
  · rw [hfree] at h; cases h
  · rw [hidle] at h; cases h

section
variable {s : State} {c : Instr} {value : Word}

/-- Each of the three writes is that of its TEST. -/
theorem exec_selfTest_open (htest : (value.toNat % 16, c) ∈ [(1, .frontMarch value), (2, .pipelineKat value), (3, .stemLoop value)])
    (hopen : s.eng.cfgOpen = true) : exec c s = .next (driven (withEng s (s.eng.selfTestWrite s.regs value)) [.cfgDone]) := by
  have hwritten (n : Nat) (hn : value.toNat % 16 = n) :
      (if selfTestOf n value then s.effCfg fun _ r e => e.selfTestWrite r value else .next s) =
        .next (driven (withEng s (s.eng.selfTestWrite s.regs value)) [.cfgDone]) := by
    rw [if_pos (by simp [selfTestOf, hn]), effCfg_open hopen]
  simp only [List.mem_cons, Prod.mk.injEq, List.not_mem_nil, or_false] at htest
  obtain ⟨hn, rfl⟩ | ⟨hn, rfl⟩ | ⟨hn, rfl⟩ := htest
  · exact hwritten 1 hn
  · exact hwritten 2 hn
  · exact hwritten 3 hn

theorem same_selfTestWrite (r : Regs) (value : Word) (e : Engine) : Same [.selfTest] e (e.selfTestWrite r value) := by
  rw [Engine.selfTestWrite_eq]
  simp [Same]

end

theorem exec_selfTestEnd {s : State} {code : Code} (hrunning : s.eng.selfTest.running = true)
    (hcode : (selfTestCodes s.eng.selfTest.last.toNat).contains code = true) :
    exec (.selfTestEnd code) s =
      .next (withEng s { s.eng with selfTest := { s.eng.selfTest with running := false, code := code } }) := by
  show execSelfTestEnd code s = _
  unfold execSelfTestEnd
  rw [State.eff_eq, hrunning, hcode]
  rfl

/-! ### The noise source -/

theorem exec_noiseStartupDone {s : State} (hnot : s.eng.power.noiseOk = false) :
    exec .noiseStartupDone s = .next (withEng s
      (({ s.eng with units := { s.eng.units with noise := .healthy }, power := { s.eng.power with noiseOk := true } } : Engine).releaseDraws
        s.kit s.regs)) := by
  show execNoiseStartupDone s = _
  unfold execNoiseStartupDone
  rw [State.eff_eq]
  exact congrArg (fun e => Host.Outcome.next (withEng s e)) (if_neg (by simp [hnot]))

theorem exec_noiseHealthy {s : State} (hok : s.eng.power.noiseOk = true) (hfailed : s.eng.units.noise = .failed) :
    exec .noiseHealthy s = .next (withEng s
      (({ s.eng with units := { s.eng.units with noise := .healthy } } : Engine).releaseDraws s.kit s.regs)) := by
  show execNoiseHealthy s = _
  unfold execNoiseHealthy
  rw [State.eff_eq]
  exact congrArg (fun e => Host.Outcome.next (withEng s e)) (if_pos ⟨hfailed, hok⟩)

/-! ### Power states -/

theorem exec_sysReadyRise {s : State} (hlow : s.eng.power.sysReady = false) (hbits : s.eng.readyBits = 63) :
    exec .sysReadyRise s = .next (withEng s { s.eng with power := { s.eng.power with sysReady := true } }) := by
  show execSysReadyRise s = _
  unfold execSysReadyRise
  rw [State.eff_eq]
  exact congrArg (fun e => Host.Outcome.next (withEng s e)) (if_pos (by simp [hlow, hbits]))

/-- The engine with PWR_REQ as it is driven now. -/
def Engine.requested (req : BitVec 2) (e : Engine) : Engine := { e with power := { e.power with req := pwrReq req } }

theorem Engine.requested_same {req : BitVec 2} {e : Engine} (h : e.power.req = pwrReq req) : e.requested req = e := by
  unfold Engine.requested
  rw [← h]

/-- A change of PWR_REQ wakes a ready engine (R369). -/
theorem exec_pwrReqChange_ready {s : State} (hready : s.eng.power.sysReady = true) {req : BitVec 2} (hchange : s.eng.power.req ≠ pwrReq req) :
    exec (.pwrReqChange req) s = .next (withEng s (s.eng.requested req).wake) := by
  show execPwrReqChange req s = _
  unfold execPwrReqChange
  rw [State.eff_eq]
  dsimp only
  rw [if_neg hchange, if_pos hready]
  rfl

theorem exec_pwrReqChange_none {s : State} {req : BitVec 2} (hsame : s.eng.power.req = pwrReq req) :
    exec (.pwrReqChange req) s = .next s := by
  show execPwrReqChange req s = _
  unfold execPwrReqChange
  rw [State.eff_eq]
  exact congrArg (fun e => Host.Outcome.next (withEng s e)) (if_pos hsame)

theorem Engine.wake_entering {e : Engine} (h : e.power.entering = true) :
    e.wake = ({ e with power := { e.power with entering := false } } : Engine).bump Ctr.entryReversals 1 := by
  unfold Engine.wake
  exact if_pos h

theorem Engine.wake_low {e : Engine} (hentering : e.power.entering = false) (hstate : e.power.state ≠ 0) (hexiting : e.power.exiting = false) :
    e.wake = ({ e with power := { e.power with exiting := true } } : Engine).bump Ctr.pwrWakes 1 := by
  unfold Engine.wake
  rw [if_neg (by simp [hentering]), if_pos ⟨hstate, by simp [hexiting]⟩]

theorem Engine.wake_active {e : Engine} (hentering : e.power.entering = false) (hstate : e.power.state = 0) : e.wake = e := by
  unfold Engine.wake
  rw [if_neg (by simp [hentering]), if_neg fun h => h.1 hstate]

theorem same_requested_wake (req : BitVec 2) (e : Engine) : Same [.power, .count] e (e.requested req).wake := by
  unfold Engine.wake
  split_ifs <;> simp [Same, Engine.requested, Engine.bump]

/-- No session of a tenant is open, so none is closed. -/
theorem Engine.closeSessions_none {e : Engine} (h : e.pollen.sess = []) (k : Kit) (r : Regs) (t : Nat) (code : Code) :
    e.closeSessions k r t code = e := by
  have hnone (i : Nat) : (e.sess t i).state = .none := by
    unfold Engine.sess
    rw [h]
    rfl
  refine List.foldlRecOn (motive := fun a => a = e) _ _ rfl fun a ha i _ => ?_
  rw [ha]
  exact if_pos (hnone i)

theorem Engine.closeAll_none {e : Engine} (h : e.pollen.sess = []) (k : Kit) (r : Regs) (code : Code) :
    (e.forEach (List.range 16) fun t e => e.closeSessions k r t code) = e :=
  List.foldlRecOn (motive := fun a => a = e) _ _ rfl fun a ha t _ => by
    rw [ha]
    exact Engine.closeSessions_none h ..

theorem exec_powerEntry {s : State} (hready : s.eng.power.sysReady = true)
    (hreq : s.eng.power.req = 1 ∨ (s.eng.power.req = 2 ∧ s.eng.pollen.sess = [])) (hstate : s.eng.power.state = 0)
    (hexiting : s.eng.power.exiting = false) (hentering : s.eng.power.entering = false) (hidle : s.eng.idle s.regs = true) :
    exec .powerEntry s = .next (withEng s { s.eng with power := { s.eng.power with entering := true } }) := by
  have hlow : (s.eng.power.req != 0 && s.eng.power.req != 3) = true := by
    obtain h | ⟨h, -⟩ := hreq <;> rw [h] <;> rfl
  have hclosed : (({ s.eng with power := { s.eng.power with entering := true } } : Engine).when (s.eng.power.req == 2) fun e =>
      e.forEach (List.range 16) fun t e => e.closeSessions s.kit s.regs t 0x62) =
        { s.eng with power := { s.eng.power with entering := true } } := by
    obtain h | ⟨h, hnone⟩ := hreq
    · rw [show (s.eng.power.req == 2) = false by rw [h]; rfl, Engine.when_false]
    · rw [show (s.eng.power.req == 2) = true by rw [h]; rfl, Engine.when_true]
      exact Engine.closeAll_none (e := { s.eng with power := { s.eng.power with entering := true } }) hnone ..
  have hmay : (s.eng.power.sysReady && s.eng.power.req != 0 && s.eng.power.req != 3 && s.eng.power.state == 0 && !s.eng.power.exiting &&
      !s.eng.power.entering && s.eng.idle s.regs) = true := by
    rw [hready, Bool.true_and, hlow, hstate, hexiting, hentering, hidle]
    rfl
  show execPowerEntry s = _
  unfold execPowerEntry
  rw [State.eff_eq]
  dsimp only
  rw [if_pos hmay, hclosed]
  rfl

/-- The engine that enters the requested state (R367): P2 loses the front. -/
def Engine.entered (e : Engine) : Engine :=
  let e := { e with power := { e.power with entering := false, state := e.power.req } }
  if e.power.req = 2 then
    { e with front := { e.front with lines := [], patrol := 0 }, count := { e.count with latched := [] }, power := { e.power with p2Beats := 0 } }
  else e

theorem exec_powerStateEntered {s : State} (hentering : s.eng.power.entering = true) :
    exec .powerStateEntered s = .next (withEng s s.eng.entered) := by
  show execPowerStateEntered s = _
  unfold execPowerStateEntered
  rw [State.eff_eq]
  exact congrArg (fun e => Host.Outcome.next (withEng s e)) (if_neg (by simp [hentering]))

theorem Engine.entered_keeps (e : Engine) : e.entered.power.state = e.power.req ∧ e.entered.power.entering = false ∧
    Same [.power, .front, .count] e e.entered := by
  unfold Engine.entered
  dsimp only
  split <;> exact ⟨rfl, rfl, by simp [Same]⟩

theorem Engine.entered_front_lost {e : Engine} (h : e.power.req = 2) : e.entered.front.lines = [] := by
  unfold Engine.entered
  dsimp only
  rw [if_pos h]

theorem Engine.entered_front_kept {e : Engine} (h : e.power.req ≠ 2) : e.entered.front = e.front := by
  unfold Engine.entered
  dsimp only
  rw [if_neg h]

theorem exec_powerExitComplete {s : State} (hexiting : s.eng.power.exiting = true) :
    exec .powerExitComplete s = .next (withEng s s.eng.leaveLow) := by
  show execPowerExitComplete s = _
  unfold execPowerExitComplete
  rw [State.eff_eq, if_pos hexiting]
  rfl

theorem Engine.leaveLow_power (e : Engine) :
    e.leaveLow.power = { e.power with state := 0, exiting := false, entering := false, p2Beats := 0 } := by
  unfold Engine.leaveLow
  dsimp only
  cases e.power.state == 2 <;> rfl

theorem same_leaveLow (e : Engine) : Same [.power, .count, .beat] e e.leaveLow := by
  unfold Engine.leaveLow
  dsimp only
  cases e.power.state == 2 <;> simp [Same, Engine.when, Engine.bump]

end Sys2Proof.Machine

namespace Sys2Proof

open Machine

/-- Settles O4: the tables of the reset state are empty, so every read of them is the default; no reset value has bit 31. -/
theorem resetState : Obligations.ResetState := by
  unfold Obligations.ResetState
  exact ⟨rfl, rfl, rfl, rfl, rfl, rfl, rfl, rfl, rfl, fun _ => rfl, fun _ => ⟨rfl, rfl⟩, Regs.ringActive_reset, fun _ => rfl, rfl,
    Regs.wf_reset _⟩

/-- Settles O35: the write starts its test where nothing stands against it, and keeps TEST alone where something does. -/
theorem selfTestsAndNoiseTestsRun : Obligations.SelfTestsAndNoiseTestsRun := by
  unfold Obligations.SelfTestsAndNoiseTestsRun
  refine ⟨fun s c value htest hopen => ?started, fun s code hrunning hcode => ?ended, fun s => exec_noiseStartupDone, fun s => exec_noiseHealthy⟩
  case started =>
    have hexec := exec_selfTest_open htest hopen
    have honly : Only [.selfTest, .out] s (driven (withEng s (s.eng.selfTestWrite s.regs value)) [.cfgDone]) :=
      only_answered (by decide) ((same_selfTestWrite ..).mono (by decide)) _
    have hnumber : value.toNat % 16 ∈ [1, 2, 3] := by
      simp only [List.mem_cons, Prod.mk.injEq, List.not_mem_nil, or_false] at htest ⊢
      exact htest.imp And.left (Or.imp And.left And.left)
    rw [Engine.selfTestWrite_eq] at hexec honly
    refine ⟨fun hgo hrunning hfree hidle => ⟨_, hexec, honly, rfl, ?_⟩, fun hnot => ⟨_, hexec, honly, ?_⟩⟩
    · exact if_neg (by rw [hgo, testConds_none hnumber hrunning hfree hidle]; decide)
    · refine if_pos ?_
      obtain hgo | hnot := hnot
      · rw [hgo]
        rfl
      · rw [testConds_some hnot, Bool.or_true]
  case ended =>
    refine exec_selfTestEnd hrunning ?_
    simp only [List.mem_cons, Prod.mk.injEq, List.not_mem_nil, or_false] at hcode
    obtain ⟨hlast, rfl⟩ | ⟨hlast, rfl⟩ | ⟨hlast, rfl⟩ | ⟨hlast, rfl⟩ | ⟨hlast, rfl⟩ | ⟨hlast, rfl⟩ | ⟨hlast, rfl⟩ := hcode <;>
      rw [hlast] <;> rfl

/-- Settles O14: each command does what its own condition lets it do; a wake is the reversal of an entry or the start of an exit. -/
theorem powerStatesFollowPwrReq : Obligations.PowerStatesFollowPwrReq := by
  unfold Obligations.PowerStatesFollowPwrReq
  refine ⟨⟨fun s => exec_sysReadyRise, fun s req hready hstate hentering => ?taken,
    fun s hready hreq hstate hexiting hentering hidle => exec_powerEntry hready hreq hstate hexiting hentering hidle,
    fun s hentering => ?entered, fun s hexiting => ?exited⟩,
    fun s req hready hchange => ⟨fun hentering => ?reversed, fun hentering hstate hexiting => ?woken⟩⟩
  case taken =>
    show _ = Host.Outcome.next (withEng s (s.eng.requested req))
    by_cases hsame : s.eng.power.req = pwrReq req
    · rw [exec_pwrReqChange_none hsame, Engine.requested_same hsame]
      rfl
    · rw [exec_pwrReqChange_ready hready hsame, Engine.wake_active (e := s.eng.requested req) hentering hstate]
  case entered =>
    obtain ⟨hstate, hleft, hsame⟩ := Engine.entered_keeps s.eng
    exact ⟨_, exec_powerStateEntered hentering, hstate, hleft, Engine.entered_front_lost, Engine.entered_front_kept, only_of_same hsame⟩
  case exited =>
    have hpower := Engine.leaveLow_power s.eng
    exact ⟨_, exec_powerExitComplete hexiting, congrArg Power.state hpower, congrArg Power.exiting hpower,
      (congrArg Power.req hpower).trans rfl, only_of_same (same_leaveLow _)⟩
  case reversed =>
    have hwake := Engine.wake_entering (e := s.eng.requested req) hentering
    refine ⟨_, exec_pwrReqChange_ready hready (Ne.symm hchange), ?_, ?_, ?_, only_of_same (same_requested_wake ..)⟩
    all_goals rw [hwake]
    · rfl
    · rfl
    · exact Engine.counter_bump_same ..
  case woken =>
    have hwake := Engine.wake_low (e := s.eng.requested req) hentering hstate hexiting
    refine ⟨_, exec_pwrReqChange_ready hready (Ne.symm hchange), ?_, ?_, ?_, only_of_same (same_requested_wake ..)⟩
    all_goals rw [hwake]
    · rfl
    · rfl
    · exact Engine.counter_bump_same ..

end Sys2Proof

/-!
PROOFS. The resets (R128, R372, R408): what RST_COLD_N and RST_FN_N keep, and what they set.
-/

namespace Sys2Proof.Machine

/-! ### RST_COLD_N -/

theorem exec_rstColdN (s : State) : exec .rstColdN s = .next { s with regs := Regs.reset, eng := s.eng.coldReset } := rfl

/-- The stored values of the body beside its lines and counts. -/
structure BodyStored (a b : Body) : Prop where
  kept : b.kept = a.kept
  remap : b.remap = a.remap
  minSvn : b.minSvn = a.minSvn
  slot0 : b.slot0 = a.slot0
  slot1 : b.slot1 = a.slot1
  activeSlot : b.activeSlot = a.activeSlot
  nextSlot : b.nextSlot = a.nextSlot

theorem BodyStored.refl (b : Body) : BodyStored b b := ⟨rfl, rfl, rfl, rfl, rfl, rfl, rfl⟩

theorem BodyStored.trans {a b c : Body} (h : BodyStored a b) (h' : BodyStored b c) : BodyStored a c :=
  ⟨h'.kept.trans h.kept, h'.remap.trans h.remap, h'.minSvn.trans h.minSvn, h'.slot0.trans h.slot0, h'.slot1.trans h.slot1,
    h'.activeSlot.trans h.activeSlot, h'.nextSlot.trans h.nextSlot⟩

theorem bodyStored_store (key : Nat) (l : Line) (b : Body) : BodyStored b (b.store key l) := ⟨rfl, rfl, rfl, rfl, rfl, rfl, rfl⟩

theorem bodyStored_foldBack (m : Remap) (b : Body) : BodyStored b (b.foldBack m) :=
  List.foldlRecOn (motive := BodyStored b) _ _ (.refl b) fun _ h _ _ => h.trans ⟨rfl, rfl, rfl, rfl, rfl, rfl, rfl⟩

theorem bodyStored_abandonRemap (e : Engine) : BodyStored e.body e.abandonRemap.body := by
  unfold Engine.abandonRemap
  split
  · exact bodyStored_foldBack ..
  · exact .refl _

theorem Engine.tornWrite_none {e : Engine} (h : e.bulb.writes = []) : e.tornWrite.body = e.body := by
  unfold Engine.tornWrite
  rw [h]

/-- The line of the write under way is the old one, or the new one, whether or not it can be read (R128). -/
theorem Engine.tornWrite_body {e : Engine} {w : BodyWrite} {rest : List BodyWrite} {key : Nat} (hwrites : e.bulb.writes = w :: rest)
    (hkey : e.writeKey w.use = some key) :
    e.tornWrite.body = e.body ∨ e.tornWrite.body = e.body.store key w.line ∨
      e.tornWrite.body = (e.body.store key w.line).setUpset key { flips := [0, 1, 2], fails := 0 } := by
  unfold Engine.tornWrite
  rw [hwrites]
  dsimp only
  rw [hkey]
  dsimp only
  split_ifs
  · exact .inl rfl
  · exact .inr (.inl rfl)
  · exact .inr (.inr rfl)

theorem bodyStored_tornWrite (e : Engine) : BodyStored e.body e.tornWrite.body := by
  unfold Engine.tornWrite
  split
  · exact .refl _
  · split
    · exact .refl _
    · dsimp only
      split_ifs
      · exact .refl _
      · exact bodyStored_store ..
      · exact ⟨rfl, rfl, rfl, rfl, rfl, rfl, rfl⟩

theorem Engine.tornWrite_bulb (e : Engine) : e.tornWrite.bulb = e.bulb := by
  unfold Engine.tornWrite
  split
  · rfl
  · split
    · rfl
    · dsimp only
      split_ifs <;> rfl

theorem Engine.abandonRemap_none {e : Engine} (h : e.bulb.remap = none) : e.abandonRemap = e := by
  unfold Engine.abandonRemap
  rw [h]

theorem Engine.coldReset_body (e : Engine) :
    e.coldReset.body = { e.tornWrite.abandonRemap.body with activeSlot := e.tornWrite.abandonRemap.body.nextSlot } := rfl

theorem Engine.coldReset_body_noRemap {e : Engine} (h : e.bulb.remap = none) :
    e.coldReset.body = { e.tornWrite.body with activeSlot := e.tornWrite.body.nextSlot } := by
  rw [Engine.coldReset_body, Engine.abandonRemap_none (by rwa [Engine.tornWrite_bulb])]

/-- Every other line is as it was, and the line of the write is the old or the new one. -/
theorem Engine.coldReset_line {e : Engine} {w : BodyWrite} {rest : List BodyWrite} {key : Nat} (hremap : e.bulb.remap = none)
    (hwrites : e.bulb.writes = w :: rest) (hkey : e.writeKey w.use = some key) :
    (∀ m, m ≠ key → e.coldReset.body.line m = e.body.line m) ∧
      (e.coldReset.body.line key = e.body.line key ∨ (w.line ≠ Line.empty → e.coldReset.body.line key = some w.line)) := by
  have hline (m : Nat) : e.coldReset.body.line m = e.tornWrite.body.line m := by
    rw [Engine.coldReset_body_noRemap hremap]
    rfl
  have hstored (hline' : ∀ m, e.tornWrite.body.line m = (e.body.store key w.line).line m) :
      (∀ m, m ≠ key → e.coldReset.body.line m = e.body.line m) ∧
        (e.coldReset.body.line key = e.body.line key ∨ (w.line ≠ Line.empty → e.coldReset.body.line key = some w.line)) := by
    refine ⟨fun m hm => ?_, .inr fun hdata => ?_⟩
    · rw [hline, hline', Body.line_store_ne hm]
    · rw [hline, hline', Body.line_store_same, if_neg hdata]
  obtain h | h | h := Engine.tornWrite_body hwrites hkey
  · exact ⟨fun m _ => by rw [hline, h], .inl (by rw [hline, h])⟩
  · exact hstored fun m => by rw [h]
  · exact hstored fun m => by rw [h]; rfl

/-! ### RST_FN_N -/

/-- The engine back in P0, from which RST_FN_N starts (R372). -/
def Engine.woken (e : Engine) : Engine := e.wake.zeroReleased.leaveLow

theorem same_wake (e : Engine) : Same [.power, .count] e e.wake := by
  unfold Engine.wake
  split_ifs <;> simp [Same, Engine.bump]

theorem same_zeroReleased (e : Engine) : Same [.count] e e.zeroReleased :=
  Same.forEach (fun p e => by split <;> simp [Same]) _ e

theorem same_woken (e : Engine) : Same [.power, .count, .beat] e e.woken :=
  ((same_wake e).mono (by decide)).trans (((same_zeroReleased _).mono (by decide)).trans (same_leaveLow _))

theorem Engine.woken_power (e : Engine) :
    e.woken.power = { e.power with state := 0, exiting := false, entering := false, p2Beats := 0 } := by
  have hzeroed : e.wake.zeroReleased.power = e.wake.power := (same_zeroReleased e.wake).groups.power.resolve_left (by decide)
  unfold Engine.woken
  rw [Engine.leaveLow_power, hzeroed]
  unfold Engine.wake
  split_ifs <;> rfl

theorem Engine.woken_shadow (e : Engine) : e.woken.count.shadow = e.count.shadow := by
  have hleft (a : Engine) : a.leaveLow.count.shadow = a.count.shadow := by
    unfold Engine.leaveLow
    dsimp only
    cases a.power.state == 2 <;> rfl
  have hzeroed (a : Engine) : a.zeroReleased.count.shadow = a.count.shadow :=
    Engine.forEach_keeps (fun a => a.count.shadow) _ (fun p a => by split <;> rfl) _ a
  have hwoken : e.wake.count.shadow = e.count.shadow := by
    unfold Engine.wake
    split_ifs <;> rfl
  exact (hleft _).trans ((hzeroed _).trans hwoken)

/-- Back in P0 calibration is due; the beat is as it was. -/
theorem Engine.woken_beat (e : Engine) : ∃ n, e.woken.beat = { e.beat with sinceCal := n } := by
  have hbefore : e.wake.zeroReleased.beat = e.beat := by
    have hzeroed : e.wake.zeroReleased.beat = e.wake.beat := Engine.forEach_keeps Engine.beat _ (fun p a => by split <;> rfl) _ e.wake
    rw [hzeroed]
    unfold Engine.wake
    split_ifs <;> rfl
  unfold Engine.woken Engine.leaveLow
  dsimp only
  rw [← hbefore]
  cases e.wake.zeroReleased.power.state == 2 <;> exact ⟨_, rfl⟩

theorem exec_rstFnN_short {s : State} {cycles : Nat} (h : cycles < 2) : exec (.rstFnN cycles) s = .next s := by
  show execRstFnN cycles s = _
  unfold execRstFnN
  rw [State.effRegs_eq, if_neg (by omega)]

theorem exec_rstFnN_long {s : State} {cycles : Nat} (h : 2 ≤ cycles) :
    exec (.rstFnN cycles) s = .next { s with regs := s.regs.fnReset, eng := s.eng.fnReset } := by
  show execRstFnN cycles s = _
  unfold execRstFnN
  rw [State.effRegs_eq, if_pos h]

/-! ### The register file, the slots and the buds -/

theorem Regs.word_fnReset_beat (r : Regs) : r.fnReset.word 0x2000 = r.word 0x2000 := by
  unfold Regs.word Regs.fnReset tabGet
  dsimp only
  rw [tabFind_filter_key fun o => o == 0x2000]
  rfl

theorem Regs.word_fnReset_ne {off : Nat} (h : off ≠ 0x2000) (r : Regs) :
    r.fnReset.word off = (resetWord off).toNat ∧ r.fnReset.shadowWord off = (resetWord off).toNat := by
  have hfind (t : Tab Word) : tabFind off (t.filter fun p => p.1 == 0x2000) = none := by
    rw [tabFind_filter_key fun o => o == 0x2000, if_neg (by simpa using h)]
  unfold Regs.word Regs.shadowWord Regs.fnReset tabGet
  dsimp only
  rw [hfind, hfind]
  exact ⟨rfl, rfl⟩

/-- A table filled entry by entry. -/
theorem tabGet_foldl_put {α : Type} [DecidableEq α] {d : Nat → α} (f : Nat → α) (n : Nat) (l : List Nat) (t : Tab α) :
    tabGet d n (l.foldl (fun t i => tabPut d i (f i) t) t) = if n ∈ l then f n else tabGet d n t := by
  induction l generalizing t with
  | nil => rfl
  | cons i l ih =>
    rw [List.foldl_cons, ih]
    by_cases hn : n = i
    · subst hn
      simp [tabGet_put_same]
    · simp [tabGet_put_ne hn, hn]

theorem Engine.fnReset_tenant {n : Nat} (hn : n < 16) (e : Engine) : e.fnReset.tenant n = (e.tenant n).fnReset := by
  have htenants : e.woken.tenants = e.tenants := (same_woken e).groups.tenants.resolve_left (by decide)
  have hfold : e.fnReset.tenant n = if n ∈ List.range 16 then (e.woken.tenant n).fnReset else tabGet (fun _ => Tenant.none) n [] :=
    tabGet_foldl_put (fun i => (e.woken.tenant i).fnReset) n (List.range 16) []
  rw [hfold, if_pos (List.mem_range.mpr hn)]
  unfold Engine.tenant
  rw [htenants]

/-- No key and no session is left in a slot. -/
theorem Tenant.fnReset_clear (x : Tenant) :
    x.fnReset.sealKey = Option.none ∧ x.fnReset.pollenKey = Option.none ∧ x.fnReset.session = false ∧ x.fnReset.sessionKeys = Option.none := by
  unfold Tenant.fnReset
  split <;> exact ⟨rfl, rfl, rfl, rfl⟩

theorem Tenant.fnReset_state (x : Tenant) :
    if x.state = .free ∨ x.releasing.isSome then x.fnReset.state = .free
    else x.fnReset.state = .admitted ∧ x.fnReset.uid = x.uid ∧ x.fnReset.policy = 1 := by
  unfold Tenant.fnReset
  split
  next h => rw [if_pos h.symm]; rfl
  next h => rw [if_neg fun h' => h h'.symm]; exact ⟨rfl, rfl, rfl⟩

theorem Bud.fnReset_state (n : Nat) (b : Bud) : (b.fnReset n).state = if b.state = .absent then .absent else .idle := by
  unfold Bud.fnReset
  split
  next h => exact h
  next => rfl

theorem Engine.fnReset_bud (n : Nat) (e : Engine) : (e.fnReset.bud n).state = if (e.bud n).state = .absent then .absent else .idle := by
  have hbuds : e.woken.buds = e.buds := (same_woken e).groups.buds.resolve_left (by decide)
  have hmap : e.fnReset.bud n = tabGet (fun _ => Bud.none) n (e.woken.buds.map fun p => (p.1, p.2.fnReset e.woken.stem.issued.length)) := rfl
  rw [hmap, hbuds]
  generalize e.woken.stem.issued.length = len
  unfold Engine.bud tabGet
  rw [tabFind_map fun p : Nat × Bud => p.2.fnReset len]
  cases tabFind n e.buds with
  | none => rfl
  | some b => exact Bud.fnReset_state ..

end Sys2Proof.Machine

namespace Sys2Proof

open Machine

/-- Settles O12: the line write under way, and a remap given up, change lines of the body alone; all else is the engine after manufacture. -/
theorem coldResetKeepsWhatIsStored : Obligations.ColdResetKeepsWhatIsStored := by
  unfold Obligations.ColdResetKeepsWhatIsStored
  intro s
  have hstored := (bodyStored_tornWrite s.eng).trans (bodyStored_abandonRemap s.eng.tornWrite)
  refine ⟨_, exec_rstColdN s, fun hremap => ⟨fun hnone => ?_, fun w rest key hwrites hkey => Engine.coldReset_line hremap hwrites hkey⟩,
    hstored.kept, hstored.remap, hstored.minSvn, hstored.slot0, hstored.slot1, hstored.nextSlot, hstored.nextSlot,
    Engine.coldReset_keys s.eng, fun _ => ⟨rfl, rfl⟩, fun _ => ⟨rfl, rfl, rfl⟩, rfl, rfl, rfl, rfl, rfl, rfl, rfl, rfl, rfl, rfl, rfl, rfl,
    rfl, rfl, rfl, rfl, rfl, rfl, rfl⟩
  show s.eng.coldReset.body = _
  rw [Engine.coldReset_body_noRemap hremap, Engine.tornWrite_none hnone]

/-- Settles O13: what the table keeps is that of the engine back in P0; the rest is the engine after manufacture. -/
theorem functionalResetKeepsWhatTheTableKeeps : Obligations.FunctionalResetKeepsWhatTheTableKeeps := by
  unfold Obligations.FunctionalResetKeepsWhatTheTableKeeps
  refine fun s cycles => ⟨exec_rstFnN_short, fun hlong => ⟨_, exec_rstFnN_long hlong, ?_⟩⟩
  have hsame := (same_woken s.eng).groups
  have hpower := Engine.woken_power s.eng
  obtain ⟨cal, hbeat⟩ := Engine.woken_beat s.eng
  have hfox : s.eng.woken.fox = s.eng.fox := hsame.fox.resolve_left (by decide)
  have hreferee : s.eng.woken.referee = s.eng.referee := hsame.referee.resolve_left (by decide)
  have hvault : s.eng.woken.vault = s.eng.vault := hsame.vault.resolve_left (by decide)
  have hcut : s.eng.woken.cut = s.eng.cut := hsame.cut.resolve_left (by decide)
  refine ⟨hsame.body.resolve_left (by decide), Engine.fnReset_keys s.eng, (congrArg Beat.num hbeat).trans rfl,
    (congrArg Beat.offset hbeat).trans rfl, (congrArg Beat.mode hbeat).trans rfl, (congrArg Beat.slip hbeat).trans rfl,
    Engine.woken_shadow s.eng, Regs.word_fnReset_beat s.regs, fun off hne => Regs.word_fnReset_ne hne s.regs,
    (congrArg Fox.seq hfox).trans rfl, (congrArg Fox.log hfox).trans rfl, fun _ => rfl, rfl,
    (congrArg Referee.steward hreferee).trans rfl, (congrArg Referee.epoch hreferee).trans rfl,
    (congrArg Vault.tenants hvault).trans rfl, rfl, rfl, (congrArg Power.vwbStep hpower).trans rfl,
    (congrArg Power.vaonStep hpower).trans rfl, (congrArg Power.state hpower).trans rfl, rfl, fun hstarted => ?mode,
    fun n hn => ?slot, fun n => Engine.fnReset_bud n s.eng, rfl, rfl, rfl, rfl, rfl, rfl, fun hrun => ?cut, rfl, fun _ => rfl, rfl, rfl⟩
  case mode =>
    have hrunning : s.eng.fnReset.power.started = true := (congrArg Power.started hpower).trans hstarted
    show s.eng.fnReset.mode = _
    unfold Engine.mode
    rw [hrunning]
    rfl
  case slot =>
    dsimp only
    rw [Engine.fnReset_tenant hn]
    obtain ⟨hseal, hpollen, hsession, hkeys⟩ := Tenant.fnReset_clear (s.eng.tenant n)
    exact ⟨hseal, hpollen, hsession, hkeys, Tenant.fnReset_state _⟩
  case cut =>
    show (if s.eng.woken.cut.run.isSome then _ else _) = _
    rw [hcut, if_pos hrun]

end Sys2Proof
